-- ==== Sys2Proof/Word.lean ====
section
/-!
DEFINITION. Word.lean: the word types of the block and their plainest arithmetic.
A word is what the spec treats as 64 bits (registers, memory words, instruction words); a byte is the smallest
addressable unit. All multi-byte quantities are little-endian (00 R4).
-/

namespace Sys2Proof

/-- A 64-bit register, memory or instruction word. -/
abbrev Word := BitVec 64

/-- One byte of memory. -/
abbrev Byte := BitVec 8

/-- The 64-bit word of a natural number, modulo 2^64. -/
abbrev word (n : Nat) : Word := BitVec.ofNat 64 n

end Sys2Proof
end

