-- ==== Sys2Proof/Machine/Bits.lean ====
section
/-!
DEFINITION. Machine/Bits.lean: bit fields, sign extension and byte order, the helpers every decoder of a descriptor,
an instruction word or a register uses.
-/

namespace Sys2Proof.Machine

/-- Bits [hi:lo] of a natural number, in the spec's field notation (00, Notation). -/
def fieldN (n hi lo : Nat) : Nat := (n >>> lo) % 2 ^ (hi + 1 - lo)

/-- Bits [hi:lo] of a word. -/
def field {k : Nat} (w : BitVec k) (hi lo : Nat) : Nat := fieldN w.toNat hi lo

/-- Bit i of a word. -/
def bitOf {k : Nat} (w : BitVec k) (i : Nat) : Bool := w.getLsbD i

/-- Bits [hi:lo] of n replaced by the low bits of v. -/
def setFieldN (n hi lo v : Nat) : Nat :=
  (n >>> (hi + 1)) <<< (hi + 1) + (v % 2 ^ (hi + 1 - lo)) <<< lo + n % 2 ^ lo

/-- Bits [hi:lo] of a word replaced by the low bits of v. -/
def setField {k : Nat} (w : BitVec k) (hi lo v : Nat) : BitVec k := BitVec.ofNat k (setFieldN w.toNat hi lo v)

/-- The signed value of the low k bits of n. -/
def signedN (k n : Nat) : Int :=
  let m := n % 2 ^ k
  if m < 2 ^ (k - 1) then (m : Int) else (m : Int) - (2 ^ k : Nat)

/-- The two's complement pattern of an integer in k bits. -/
def wrapInt (k : Nat) (i : Int) : Nat := (i % ((2 ^ k : Nat) : Int)).toNat

/-- The k-bit pattern n, sign-extended to 64 bits. -/
def sextWord (k n : Nat) : Word := BitVec.ofInt 64 (signedN k n)

/-- One bit as a number. -/
def boolN (b : Bool) : Nat := if b then 1 else 0

/-- The bytes of n, least significant first (00 R4). -/
def toBytes : Nat → Nat → List Byte
  | 0, _ => []
  | k + 1, n => BitVec.ofNat 8 n :: toBytes k (n / 256)

/-- The number little-endian bytes spell (00 R4). -/
def ofBytes : List Byte → Nat
  | [] => 0
  | b :: bs => b.toNat + 256 * ofBytes bs

/-- The first k bytes of a list, padded with zero bytes. -/
def takeBytes : Nat → List Byte → List Byte
  | 0, _ => []
  | k + 1, [] => 0 :: takeBytes k []
  | k + 1, b :: bs => b :: takeBytes k bs

/-- The little-endian number in bytes [off, off + n) of a list. -/
def bytesAt (l : List Byte) (off n : Nat) : Nat := ofBytes (takeBytes n (l.drop off))

/-- The 64-bit words a list of bytes spells, the last one padded with zero bytes. -/
def wordsOf : Nat → List Byte → List Nat
  | 0, _ => []
  | k + 1, bs => ofBytes (takeBytes 8 bs) :: wordsOf k (bs.drop 8)

/-- The bytes of a list of words. -/
def bytesOfWords (ws : List Nat) : List Byte := ws.flatMap (toBytes 8)

/-- Bytes padded with zeros to a length. -/
def padTo (n : Nat) (bs : List Byte) : List Byte := bs ++ List.replicate (n - bs.length) 0

/-- Rounds n up to a multiple of k. -/
def roundUp (n k : Nat) : Nat := (n + k - 1) / k * k

/-- The number of set bits among the low k bits of n. -/
def popN : Nat → Nat → Nat
  | 0, _ => 0
  | k + 1, n => n % 2 + popN k (n / 2)

/-- The positions of the set bits among bits lo … lo + k - 1 of n, rising. -/
def bitsSet (n : Nat) : Nat → Nat → List Nat
  | _, 0 => []
  | lo, k + 1 => if n.testBit lo then lo :: bitsSet n (lo + 1) k else bitsSet n (lo + 1) k

/-- A field compared with zero, for "a reserved field is non-zero". -/
def nonzeroField {k : Nat} (w : BitVec k) (hi lo : Nat) : Bool := field w hi lo != 0

/-- Saturating increment of a counter of k bits. -/
def satAdd (k a b : Nat) : Nat := min (a + b) (2 ^ k - 1)

/-- One bit of the reflected CRC-32 of IEEE 802.3. -/
def crcBits : Nat → Nat → Nat
  | 0, x => x
  | k + 1, x => crcBits k (if x % 2 = 1 then (x / 2) ^^^ 0xEDB88320 else x / 2)

/-- The CRC-32 of IEEE 802.3 over bytes (07 R271, 11 R391). -/
def crc32 (bs : List Byte) : Nat := (bs.foldl (fun c b => crcBits 8 (c ^^^ b.toNat)) 0xFFFFFFFF) ^^^ 0xFFFFFFFF

end Sys2Proof.Machine
end

