-- ==== Sys2Proof/Operands.lean ====
section
/-!
DEFINITION. Operands.lean: the types of the commands' operands that are more than a number or a word.
-/

namespace Sys2Proof

/-- What a patrol scrub reads when its period expires (07 R276): a core's local SRAM and granary slice, or a bulk stack. -/
inductive ScrubTarget where
  | core (core : Nat)
  | stack (stack : Nat)
  deriving DecidableEq, Repr

/-- The register or object a REGISTER_WRITE names. -/
inductive RegTarget where
  /-- An offset in a core's CONTROL space, written by keeper code or the control cluster (07 R264, R556). -/
  | control (core : Nat) (offset : Nat)
  /-- A physical address of the control cores, stored to with 1, 2, 4 or 8 bytes (10 R356). -/
  | cluster (addr size : Nat)
  /-- A load by a control core of 1, 2, 4 or 8 bytes; the value written is not used (10 R356). -/
  | clusterLoad (addr size : Nat)
  /-- A word of the keeper area of a core's local SRAM, which the control cluster fills before it releases thread 0 (02 R101). -/
  | supervisor (core offset : Nat)
  /-- A load of 8 bytes of BAR0 by a host; the value written is not used (10 R360–R362). -/
  | bar0Load (fn off : Nat) (stream : Option Nat)
  /-- A register of a function's configuration space: 0 power state and PME, 1 MSI-X control (10 R358). -/
  | config (fn reg : Nat)
  /-- An offset in BAR0 of a function, written by its host with so many bytes in an IDE stream or in none, poisoned or not (10 R360). -/
  | bar0 (fn off size : Nat) (stream : Option Nat) (ep : Bool)
  /-- An object, written whole by a principal: 2 FW, 3 DEBUG (15 R531). -/
  | object (who area item sub : Nat)
  /-- SOWBASE of a die (08 R316). -/
  | sowBase (die : Nat)
  /-- A word of an outbound region (10 R365), of a receive-window entry (11 R405). -/
  | region (port index word : Nat)
  | window (entry word : Nat)
  /-- The four route bytes of a module, a multicast group's entry, a fabric reap group's entry (11 R410, R412, R416). -/
  | route (module : Nat)
  | group (group : Nat)
  | reapGroup (group : Nat)
  /-- Translation root and key slot of a function (10 R362, R363); NumVFs of a port, set by its host (10 R359). -/
  | fnRoot (fn : Nat)
  | fnKey (fn : Nat)
  | numVfs (port : Nat)
  /-- The key of a multicast group, sent over a pair session (13 R466): 0 takes it away. -/
  | groupKey (group : Nat)
  /-- The runtime's records of the job: a module is a peer or not (11 R402), the partner module of an owned shard (12 R451). -/
  | peer (module : Nat)
  | shardPartner (shard : Nat)
  /-- A control core of a die sends: a GET of so many bytes at an address of a module's window, answered at raddr of this module's (11
  R408), or a CONTROL message of a kind, whose bytes are the value's (11 R399). -/
  | fabricGet (die module addr raddr len : Nat)
  | fabricControl (die module kind : Nat)
  /-- Where the runtime keeps the module's stubble in bulk memory, or 0 (12 R427). -/
  | stubArea
  /-- A block of a frozen shard that the runtime has written, as partner of its owner, at an address of bulk or of the flash job region: it
  is digested; 0 forgets it (12 R434). -/
  | frozenBlock (owner shard block : Nat) (flash : Bool) (addr len : Nat)
  /-- The detour of a network interface for a destination (01 R34). -/
  | detour (site dst : Nat)
  /-- Eight bytes of a host's own memory, which the host itself stores to. -/
  | hostMemory (port addr : Nat)
  deriving DecidableEq, Repr

/-- A flit as the link header describes it, with its 244 bytes of payload (11 R391, R392). -/
structure Flit where
  kind : Nat
  seq : Nat
  ack : Nat
  vc : Nat
  cls : Nat
  sop : Bool
  eop : Bool
  crvc : Nat
  crcls : Nat
  crn : Nat
  payload : List Byte
  deriving DecidableEq, Repr

/-- What a peer's Ward shows of itself in an SPDM session (13 R466): a chain that ends at an Aqmas root that is not revoked, its life-cycle
state and its debug level. -/
structure PeerIdent where
  chain : Bool
  lifeCycle : Nat
  debug : Nat
  deriving DecidableEq, Repr

/-- The HELLO of a peer (11 R393): module ID, lowest and highest version, lane set, credits by 2 × VC + class. -/
structure Hello where
  id : Nat
  minver : Nat
  maxver : Nat
  laneSet : Nat
  credits : List Nat
  deriving DecidableEq, Repr

/-- What reaches a port from its peer while it comes up: a HELLO in NEGOTIATE, the identity shown in SECURE. -/
inductive PeerSaid where
  | hello (h : Hello)
  | ident (p : PeerIdent)
  deriving DecidableEq, Repr

/-- A run of bytes of a core's memory. -/
structure Extent where
  core : Nat
  gran : Bool
  off : Nat
  len : Nat
  deriving DecidableEq, Repr

/-- One entry of a stubble (12 R427): the bulk physical address of the copy, and where the copied bytes stood. -/
structure StubRec where
  src : Nat
  dst : Extent
  deriving DecidableEq, Repr

/-- A block's epoch word: its owner core, its offset in the slice, the EPOCH to restore (12 R429). -/
structure EpochRec where
  core : Nat
  off : Nat
  epoch : Nat
  deriving DecidableEq, Repr

/-- What the runtime's records give a rollback (12 R429): the job's cores, the stubble, the epoch words, the chaff and gradient
accumulators to clear. -/
structure Rollback where
  cores : List Nat
  stubs : List StubRec
  epochs : List EpochRec
  zero : List Extent
  deriving DecidableEq, Repr

/-- A digest record (12 R435). -/
structure DigestRec where
  kind : Nat
  owner : Nat
  shard : Nat
  block : Nat
  step : Nat
  len : Nat
  pois : Bool
  digest : List Byte
  deriving DecidableEq, Repr

/-- A block of up to 1 MiB as the runtime names it: kind, owner module, shard, block index, and its runs in core memories (a checkpoint) or in
bulk, as physical address and length (a fallow copy). -/
structure BlockSrc where
  kind : Nat
  owner : Nat
  shard : Nat
  block : Nat
  near : List Extent
  bulk : List (Nat × Nat)
  deriving DecidableEq, Repr

/-- What holds of a step when the control cluster would arrive at its commit gate (12 R426). -/
structure StepDone where
  updates : Bool
  framesSent : Bool
  fallowIn : Bool
  stubble : Bool
  deriving DecidableEq, Repr

/-- A frame of an all-gather and its trailer (12 R431, R432): the owner core and ring, the epoch word and the frame's offset in each
buffer, the compute copy's length, its group and offset there, the partner and the trailer's offset there, the header's
fields, and where the frame's part of each state region starts in the slice: master, first moment and its scales, second moment or row
statistics, column statistics. -/
structure FallowFrame where
  core : Nat
  ring : Nat
  epw : Nat
  buffers : List Nat
  len : Nat
  group : Nat
  addr : Nat
  partner : Nat
  paddr : Nat
  opt : Nat
  mfmt : Nat
  hasm : Bool
  shard : Nat
  frame : Nat
  npar : Nat
  firstp : Nat
  frows : Nat
  fcols : Nat
  mast : Nat
  mst : Nat
  mscale : Nat
  vst : Nat
  cst : Nat
  deriving DecidableEq, Repr

/-- A place where a verified block goes: its shard and block, and the module and window offset it is sent to. -/
structure ShardMove where
  shard : Nat
  block : Nat
  module : Nat
  addr : Nat
  deriving DecidableEq, Repr

/-- A place where a restored block goes in this module's cores. -/
structure BlockDst where
  shard : Nat
  block : Nat
  dst : List Extent
  deriving DecidableEq, Repr

/-- What an SPDM message or secured message asks (13 R465). -/
inductive SpdmReq where
  | getVersion
  | getCapabilities
  | negotiateAlgorithms
  | getDigests
  | getCertificate
  | challenge (nonce : List Byte)
  | getMeasurements (nonce : List Byte)
  | keyExchange (msg : List Byte)
  | finish (session : Nat)
  | heartbeat (session : Nat)
  | keyUpdate (session : Nat)
  | endSession (session : Nat)
  | keyInstall (session slot ticket key : Nat)
  | slotQuery (session slot : Nat)
  | slotRelease (session slot : Nat)
  deriving DecidableEq, Repr

end Sys2Proof
end

