-- ==== Sys2Proof/Syntax.lean ====
section
/-!
DEFINITION. Syntax.lean: the commands of the block, one constructor for each row of spec/opcode_table.json, in the table's order. A core
instruction names the logical core c (row × 48 + column), the thread t and the 64-bit instruction word w (02 R68); the
other commands carry what the event or message carries. The rule each docstring cites is the row's own.
-/

namespace Sys2Proof

/-- A command sent to the block. -/
inductive Instr where
  /-- FENCE_CORE (01 R17). -/
  | fenceCore (core cause : Nat) (readable deadRtr : Bool)
  /-- FENCE_MAP_WRITE (01 R17). -/
  | fenceMapWrite
  /-- RELEASE_CORES (01 R17). -/
  | releaseCores
  /-- REMOTE_ACCESS_ARRIVE (02 R66). -/
  | remoteAccessArrive (core req : Nat) (bad : List Nat)
  /-- LOAD_RESPONSE (02 R84). -/
  | loadResponse (core req : Nat) (bad : List Nat)
  /-- STORE_ACK (02 R84). -/
  | storeAck (core req : Nat)
  /-- ADD (02 R73). -/
  | add (c t : Nat) (w : Word)
  /-- SUB (02 R73). -/
  | sub (c t : Nat) (w : Word)
  /-- AND (02 R73). -/
  | and (c t : Nat) (w : Word)
  /-- OR (02 R73). -/
  | or (c t : Nat) (w : Word)
  /-- XOR (02 R73). -/
  | xor (c t : Nat) (w : Word)
  /-- ANDN (02 R73). -/
  | andn (c t : Nat) (w : Word)
  /-- SLL (02 R73). -/
  | sll (c t : Nat) (w : Word)
  /-- SRL (02 R73). -/
  | srl (c t : Nat) (w : Word)
  /-- SRA (02 R73). -/
  | sra (c t : Nat) (w : Word)
  /-- MIN (02 R73). -/
  | min (c t : Nat) (w : Word)
  /-- MAX (02 R73). -/
  | max (c t : Nat) (w : Word)
  /-- MINU (02 R73). -/
  | minu (c t : Nat) (w : Word)
  /-- MAXU (02 R73). -/
  | maxu (c t : Nat) (w : Word)
  /-- MUL (02 R73). -/
  | mul (c t : Nat) (w : Word)
  /-- MULH (02 R73). -/
  | mulh (c t : Nat) (w : Word)
  /-- MULHU (02 R73). -/
  | mulhu (c t : Nat) (w : Word)
  /-- DIV (02 R74). -/
  | div (c t : Nat) (w : Word)
  /-- DIVU (02 R74). -/
  | divu (c t : Nat) (w : Word)
  /-- REM (02 R74). -/
  | rem (c t : Nat) (w : Word)
  /-- REMU (02 R74). -/
  | remu (c t : Nat) (w : Word)
  /-- CLZ (02 R73). -/
  | clz (c t : Nat) (w : Word)
  /-- CTZ (02 R73). -/
  | ctz (c t : Nat) (w : Word)
  /-- POPC (02 R73). -/
  | popc (c t : Nat) (w : Word)
  /-- ADDI (02 R71). -/
  | addi (c t : Nat) (w : Word)
  /-- ANDI (02 R71). -/
  | andi (c t : Nat) (w : Word)
  /-- ORI (02 R71). -/
  | ori (c t : Nat) (w : Word)
  /-- XORI (02 R71). -/
  | xori (c t : Nat) (w : Word)
  /-- SLLI (02 R71). -/
  | slli (c t : Nat) (w : Word)
  /-- SRLI (02 R71). -/
  | srli (c t : Nat) (w : Word)
  /-- SRAI (02 R71). -/
  | srai (c t : Nat) (w : Word)
  /-- LI (02 R71). -/
  | li (c t : Nat) (w : Word)
  /-- LIH (02 R71). -/
  | lih (c t : Nat) (w : Word)
  /-- CMP (02 R75). -/
  | cmp (c t : Nat) (w : Word)
  /-- CMPI (02 R75). -/
  | cmpi (c t : Nat) (w : Word)
  /-- PLOG (02 R75). -/
  | plog (c t : Nat) (w : Word)
  /-- PGET (02 R71). -/
  | pget (c t : Nat) (w : Word)
  /-- PSET (02 R71). -/
  | pset (c t : Nat) (w : Word)
  /-- FADD (02 R76). -/
  | fadd (c t : Nat) (w : Word)
  /-- FSUB (02 R76). -/
  | fsub (c t : Nat) (w : Word)
  /-- FMUL (02 R76). -/
  | fmul (c t : Nat) (w : Word)
  /-- FDIV (02 R76). -/
  | fdiv (c t : Nat) (w : Word)
  /-- FMIN (02 R76). -/
  | fmin (c t : Nat) (w : Word)
  /-- FMAX (02 R76). -/
  | fmax (c t : Nat) (w : Word)
  /-- FSQRT (02 R76). -/
  | fsqrt (c t : Nat) (w : Word)
  /-- FCVT_I2F (02 R76). -/
  | fcvtI2f (c t : Nat) (w : Word)
  /-- FCVT_F2I (02 R76). -/
  | fcvtF2i (c t : Nat) (w : Word)
  /-- FABS (02 R76). -/
  | fabs (c t : Nat) (w : Word)
  /-- FNEG (02 R76). -/
  | fneg (c t : Nat) (w : Word)
  /-- FFMA (02 R76). -/
  | ffma (c t : Nat) (w : Word)
  /-- FCMP (02 R76). -/
  | fcmp (c t : Nat) (w : Word)
  /-- MSET (02 R77). -/
  | mset (c t : Nat) (w : Word)
  /-- MGET (02 R77). -/
  | mget (c t : Nat) (w : Word)
  /-- MGEN (02 R77). -/
  | mgen (c t : Nat) (w : Word)
  /-- BR (02 R78). -/
  | br (c t : Nat) (w : Word)
  /-- BRL (02 R78). -/
  | brl (c t : Nat) (w : Word)
  /-- JR (02 R78). -/
  | jr (c t : Nat) (w : Word)
  /-- JRL (02 R78). -/
  | jrl (c t : Nat) (w : Word)
  /-- LD (02 R80). -/
  | ld (c t : Nat) (w : Word)
  /-- ST (02 R80). -/
  | st (c t : Nat) (w : Word)
  /-- LDS (02 R80). -/
  | lds (c t : Nat) (w : Word)
  /-- STS (02 R80). -/
  | sts (c t : Nat) (w : Word)
  /-- FENCE_L (09 R334). -/
  | fenceL (c t : Nat) (w : Word)
  /-- FENCE_G (09 R334). -/
  | fenceG (c t : Nat) (w : Word)
  /-- FENCE_B (09 R334). -/
  | fenceB (c t : Nat) (w : Word)
  /-- FENCE_A (09 R334). -/
  | fenceA (c t : Nat) (w : Word)
  /-- LD_TAKE (09 R325). -/
  | ldTake (c t : Nat) (w : Word)
  /-- LD_PEEK (09 R325). -/
  | ldPeek (c t : Nat) (w : Word)
  /-- ST_FILL (09 R325). -/
  | stFill (c t : Nat) (w : Word)
  /-- ST_PUT (09 R325). -/
  | stPut (c t : Nat) (w : Word)
  /-- LCLR (09 R325). -/
  | lclr (c t : Nat) (w : Word)
  /-- LATCH_RESEND (09 R329). -/
  | latchResend (core req : Nat)
  /-- LATCH_CANCEL_ANSWER (09 R332). -/
  | latchCancelAnswer (core req : Nat)
  /-- WAIT_WATCHDOG (09 R331). -/
  | waitWatchdog (core thread : Nat)
  /-- DPOST (08 R287). -/
  | dpost (c t : Nat) (w : Word)
  /-- DSTAT (08 R288). -/
  | dstat (c t : Nat) (w : Word)
  /-- GARRIVE (09 R341). -/
  | garrive (c t : Nat) (w : Word)
  /-- GWAIT (09 R341). -/
  | gwait (c t : Nat) (w : Word)
  /-- GSYNC (09 R341). -/
  | gsync (c t : Nat) (w : Word)
  /-- REAP (09 R348). -/
  | reap (c t : Nat) (w : Word)
  /-- RWAIT (09 R348). -/
  | rwait (c t : Nat) (w : Word)
  /-- RDCR (02 R87). -/
  | rdcr (c t : Nat) (w : Word)
  /-- WRCR (02 R87). -/
  | wrcr (c t : Nat) (w : Word)
  /-- TWIN_WRITE (02 R64). -/
  | twinWrite (c t : Nat) (w : Word)
  /-- KLIM_WRITE (02 R66). -/
  | klimWrite (c t : Nat) (w : Word)
  /-- KVEC_WRITE (02 R87). -/
  | kvecWrite (c t : Nat) (w : Word)
  /-- KCALL (02 R94). -/
  | kcall (c t : Nat) (w : Word)
  /-- XRET (02 R95). -/
  | xret (c t : Nat) (w : Word)
  /-- THR_START (02 R89). -/
  | thrStart (c t : Nat) (w : Word)
  /-- THR_STOP (02 R89). -/
  | thrStop (c t : Nat) (w : Word)
  /-- THREAD_STOP_COMPLETE (02 R90). -/
  | threadStopComplete (core thread : Nat)
  /-- THR_STATE (02 R89). -/
  | thrState (c t : Nat) (w : Word)
  /-- JSWITCH (02 R91). -/
  | jswitch (c t : Nat) (w : Word)
  /-- GATE_RESET_ARRIVE (09 R351). -/
  | gateResetArrive (core : Nat) (reap : Bool) (ctx : Nat)
  /-- CACHE_INV_ALL (02 R85). -/
  | cacheInvAll (c t : Nat) (w : Word)
  /-- CACHE_INV_LINE (02 R85). -/
  | cacheInvLine (c t : Nat) (w : Word)
  /-- TLBINV_ALL (02 R92). -/
  | tlbinvAll (c t : Nat) (w : Word)
  /-- TLBINV_ENTRY (02 R92). -/
  | tlbinvEntry (c t : Nat) (w : Word)
  /-- BRK (02 R92). -/
  | brk (c t : Nat) (w : Word)
  /-- DEFERRED_EXCEPTION (02 R98). -/
  | deferredException (core thread : Nat)
  /-- THREAD_WATCHDOG (02 R97). -/
  | threadWatchdog (core thread : Nat)
  /-- CORE_RESET (02 R101). -/
  | coreReset (core : Nat)
  /-- TMMA (03 R129). -/
  | tmma (c t : Nat) (w : Word)
  /-- TMMA_SEG (03 R142). -/
  | tmmaSeg (c t : Nat) (w : Word)
  /-- TMMA_CONV (03 R146). -/
  | tmmaConv (c t : Nat) (w : Word)
  /-- ARRAY_PASS_START (03 R137). -/
  | arrayPassStart (core : Nat)
  /-- ARRAY_PASS_LAND (03 R136). -/
  | arrayPassLand (core : Nat)
  /-- TLD (03 R120). -/
  | tld (c t : Nat) (w : Word)
  /-- TST (03 R121). -/
  | tst (c t : Nat) (w : Word)
  /-- TLDS (03 R122). -/
  | tlds (c t : Nat) (w : Word)
  /-- TSTS (03 R122). -/
  | tsts (c t : Nat) (w : Word)
  /-- TILE_MOVE_RETIRE (03 R136). -/
  | tileMoveRetire (core : Nat) (store : Bool)
  /-- TMOV (03 R123). -/
  | tmov (c t : Nat) (w : Word)
  /-- TZERO (03 R123). -/
  | tzero (c t : Nat) (w : Word)
  /-- TXFER (03 R124). -/
  | txfer (c t : Nat) (w : Word)
  /-- TXFER_ARRIVE (03 R136). -/
  | txferArrive (core : Nat)
  /-- TTAG (03 R125). -/
  | ttag (c t : Nat) (w : Word)
  /-- TASTAT (03 R125). -/
  | tastat (c t : Nat) (w : Word)
  /-- TVADD (03 R149). -/
  | tvadd (c t : Nat) (w : Word)
  /-- TVSUB (03 R149). -/
  | tvsub (c t : Nat) (w : Word)
  /-- TVMUL (03 R149). -/
  | tvmul (c t : Nat) (w : Word)
  /-- TVFMA (03 R149). -/
  | tvfma (c t : Nat) (w : Word)
  /-- TVMIN (03 R149). -/
  | tvmin (c t : Nat) (w : Word)
  /-- TVMAX (03 R149). -/
  | tvmax (c t : Nat) (w : Word)
  /-- TVSCL (03 R149). -/
  | tvscl (c t : Nat) (w : Word)
  /-- TVCVT (03 R149). -/
  | tvcvt (c t : Nat) (w : Word)
  /-- TVRED_SUM (03 R149). -/
  | tvredSum (c t : Nat) (w : Word)
  /-- TVRED_MAX (03 R149). -/
  | tvredMax (c t : Nat) (w : Word)
  /-- TVRED_MIN (03 R149). -/
  | tvredMin (c t : Nat) (w : Word)
  /-- TVRED_ABSMAX (03 R149). -/
  | tvredAbsmax (c t : Nat) (w : Word)
  /-- TVRED_SUMSQ (03 R149). -/
  | tvredSumsq (c t : Nat) (w : Word)
  /-- TVFN_EXP2 (03 R151). -/
  | tvfnExp2 (c t : Nat) (w : Word)
  /-- TVFN_EXP (03 R151). -/
  | tvfnExp (c t : Nat) (w : Word)
  /-- TVFN_LOG2 (03 R151). -/
  | tvfnLog2 (c t : Nat) (w : Word)
  /-- TVFN_RCP (03 R151). -/
  | tvfnRcp (c t : Nat) (w : Word)
  /-- TVFN_RSQRT (03 R151). -/
  | tvfnRsqrt (c t : Nat) (w : Word)
  /-- TVFN_SQRT (03 R151). -/
  | tvfnSqrt (c t : Nat) (w : Word)
  /-- TVBCAST (03 R149). -/
  | tvbcast (c t : Nat) (w : Word)
  /-- VECTOR_OP_COMPLETE (03 R136). -/
  | vectorOpComplete (core : Nat)
  /-- TDRAIN (04 R163). -/
  | tdrain (c t : Nat) (w : Word)
  /-- DRAIN_FIRST_PASS (04 R165). -/
  | drainFirstPass (core : Nat)
  /-- DRAIN_TOKEN_RESULT (04 R171). -/
  | drainTokenResult (core : Nat)
  /-- DRAIN_SECOND_PASS (04 R164). -/
  | drainSecondPass (core : Nat)
  /-- DRAIN_RETIRE (04 R169). -/
  | drainRetire (core : Nat)
  /-- USER_TABLE_WRITE (04 R160). -/
  | userTableWrite (core req : Nat)
  /-- GOVERNOR_COMMIT (04 R175). -/
  | governorCommit
  /-- HRING_ENABLE (06 R208). -/
  | hringEnable (core : Nat) (winnow : Bool) (v : Word)
  /-- HRING_DISABLE (06 R208). -/
  | hringDisable (core : Nat) (winnow : Bool) (v : Word)
  /-- ENGINE_TAKE_SLOT (06 R211). -/
  | engineTakeSlot (core : Nat) (winnow : Bool)
  /-- UPDATE (06 R220). -/
  | update (core : Nat)
  /-- UPDATE_EPOCH_RESUME (06 R226). -/
  | updateEpochResume (core : Nat)
  /-- HARROW_EPOCH_TIMEOUT (06 R227). -/
  | harrowEpochTimeout (core : Nat)
  /-- NORM (06 R229). -/
  | norm (core : Nat)
  /-- VERDICT (06 R230). -/
  | verdict (core : Nat)
  /-- VERDICT_CLRONLY (06 R230). -/
  | verdictClronly (core : Nat)
  /-- VERDICT_REAP_RESULT (06 R231). -/
  | verdictReapResult (core : Nat)
  /-- COMPRESS_TOPK (06 R239). -/
  | compressTopk (core : Nat)
  /-- COMPRESS_SIGN (06 R241). -/
  | compressSign (core : Nat)
  /-- COMPRESS_NONE (06 R241). -/
  | compressNone (core : Nat)
  /-- EXPAND_TOPK (06 R244). -/
  | expandTopk (core : Nat)
  /-- EXPAND_SIGN (06 R244). -/
  | expandSign (core : Nat)
  /-- EXPAND_NONE (06 R244). -/
  | expandNone (core : Nat)
  /-- CLEAR (06 R237). -/
  | clear (core : Nat)
  /-- ENGINE_COMMAND_END (06 R213). -/
  | engineCommandEnd (core : Nat) (winnow : Bool)
  /-- GSPLIT_WRITE (07 R253). -/
  | gsplitWrite (core : Nat) (v : Word)
  /-- WBALL (07 R256). -/
  | wball (core : Nat)
  /-- WBINVALL (07 R256). -/
  | wbinvall (core : Nat)
  /-- WBINV (07 R256). -/
  | wbinv (core : Nat)
  /-- GCMD_COMPLETE (07 R256). -/
  | gcmdComplete (core : Nat)
  /-- TRANSLATION_WALK (07 R268). -/
  | translationWalk (core thread : Nat)
  /-- PATROL_SCRUB (07 R276). -/
  | patrolScrub (target : ScrubTarget)
  /-- DRILL_RING_ENABLE (08 R286). -/
  | drillRingEnable (core ring : Nat) (v : Word)
  /-- DRILL_RING_DISABLE (08 R293). -/
  | drillRingDisable (core ring : Nat) (v : Word)
  /-- DRILL_DESCRIPTOR_START (08 R289). -/
  | drillDescriptorStart (core ring : Nat)
  /-- COPY (08 R299). -/
  | copy (core ring : Nat)
  /-- COPY_PREFETCH (08 R300). -/
  | copyPrefetch (core ring : Nat)
  /-- GATHER (08 R304). -/
  | gather (core ring : Nat)
  /-- SCATTER_ADD (08 R304). -/
  | scatterAdd (core ring : Nat)
  /-- SORT_GATHER (08 R306). -/
  | sortGather (core ring : Nat)
  /-- TRANSPOSE (08 R309). -/
  | transpose (core ring : Nat)
  /-- CONVERT (08 R309). -/
  | convert (core ring : Nat)
  /-- SKEW (08 R312). -/
  | skew (core ring : Nat)
  /-- UNSKEW (08 R312). -/
  | unskew (core ring : Nat)
  /-- SHEAF_PACK (08 R313). -/
  | sheafPack (core ring : Nat)
  /-- SHEAF_UNPACK (08 R313). -/
  | sheafUnpack (core ring : Nat)
  /-- SOW (08 R302). -/
  | sow (core ring : Nat)
  /-- CRYPT_IN (08 R314). -/
  | cryptIn (core ring : Nat)
  /-- CRYPT_OUT (08 R314). -/
  | cryptOut (core ring : Nat)
  /-- DRILL_DESCRIPTOR_END (08 R290). -/
  | drillDescriptorEnd (core ring : Nat)
  /-- SOWCTL_WRITE (08 R316). -/
  | sowctlWrite (die : Nat) (v : Word)
  /-- SOW_ENTRY_WRITE (08 R318). -/
  | sowEntryWrite (die entry : Nat) (words : List Word)
  /-- SOW_ENTRY_START (08 R319). -/
  | sowEntryStart (die : Nat)
  /-- SOW_ENTRY_COMPLETE (08 R320). -/
  | sowEntryComplete (die entry : Nat)
  /-- SOW_ENTRY_ERROR (08 R321). -/
  | sowEntryError (die entry : Nat)
  /-- SOWREDO (08 R321). -/
  | sowredo (die entry : Nat)
  /-- GATE_ENABLE (09 R338). -/
  | gateEnable (by_ : Option (Nat × Nat)) (gate : Nat) (v : Word)
  /-- GATE_DISABLE (09 R338). -/
  | gateDisable (gate : Nat) (v : Word)
  /-- GATE_COMPLETE (09 R339). -/
  | gateComplete (gate : Nat)
  /-- GATE_RELEASE (09 R340). -/
  | gateRelease (gate core : Nat)
  /-- REAP_ENABLE (09 R345). -/
  | reapEnable (by_ : Option (Nat × Nat)) (ctx : Nat) (v : Word)
  /-- REAP_DISABLE (09 R345). -/
  | reapDisable (ctx : Nat) (v : Word)
  /-- REAP_RESULT (09 R347). -/
  | reapResult (ctx core : Nat)
  /-- CREATE_QUEUE (10 R374). -/
  | createQueue (queue no : Nat)
  /-- DELETE_QUEUE (10 R373). -/
  | deleteQueue (queue no : Nat)
  /-- ABORT (10 R381). -/
  | abort (queue no : Nat)
  /-- REHOME (10 R385). -/
  | rehome (queue no : Nat)
  /-- QUERY_QUEUE (10 R373). -/
  | queryQueue (queue no : Nat)
  /-- OD_READ (10 R373). -/
  | odRead (queue no : Nat)
  /-- OD_WRITE (10 R373). -/
  | odWrite (queue no : Nat) (fail : Bool)
  /-- DATA_IN (10 R373). -/
  | dataIn (queue no : Nat) (fail : Bool)
  /-- DATA_OUT (10 R373). -/
  | dataOut (queue no : Nat) (fail : Bool)
  /-- SEAL_IN (10 R373). -/
  | sealIn (queue no : Nat) (fail : Bool)
  /-- SEAL_OUT (10 R373). -/
  | sealOut (queue no : Nat) (fail : Bool)
  /-- LAUNCH (10 R373). -/
  | launch (queue no : Nat) (imageOk : Bool)
  /-- GATE_ARRIVE (10 R373). -/
  | gateArrive (queue no : Nat)
  /-- GATE_WAIT (10 R373). -/
  | gateWait (queue no : Nat)
  /-- NOP (10 R373). -/
  | nop (queue no : Nat)
  /-- SQ_DOORBELL (10 R371). -/
  | sqDoorbell (fn idx value : Nat) (stream : Option Nat) (ep : Bool)
  /-- CQ_DOORBELL (10 R371). -/
  | cqDoorbell (fn idx value : Nat) (stream : Option Nat) (ep : Bool)
  /-- QUEUE_FETCH (10 R377). -/
  | queueFetch (die : Nat) (bad : Bool)
  /-- COMPLETION_COMMIT (10 R378). -/
  | completionCommit (queue no : Nat) (report : Option (Nat × Nat))
  /-- COMPLETION_WRITE (10 R378). -/
  | completionWrite (queue : Nat) (dropped : Bool)
  /-- COMPLETION_INTERRUPT (10 R379). -/
  | completionInterrupt (queue : Nat) (timed : Bool)
  /-- ADMIN_QUEUE_ENABLE (10 R362). -/
  | adminQueueEnable (fn : Nat) (v : Word)
  /-- ADMIN_QUEUE_DISABLE (10 R362). -/
  | adminQueueDisable (fn : Nat)
  /-- FUNCTION_RESET (10 R369). -/
  | functionReset (fn kind : Nat)
  /-- HOST_LOST (10 R383). -/
  | hostLost (port : Nat)
  /-- ORPHAN_TIMEOUT (10 R384). -/
  | orphanTimeout (queue : Nat)
  /-- PERST (14 R511). -/
  | perst (port : Nat)
  /-- BAR2_READ (10 R363). -/
  | bar2Read (fn off len : Nat) (stream : Option Nat)
  /-- BAR2_WRITE (10 R363). -/
  | bar2Write (fn off : Nat) (data : List Byte) (stream : Option Nat) (ep : Bool)
  /-- HOST_READ_TIMEOUT (10 R366). -/
  | hostReadTimeout (core req : Nat)
  /-- IDE_INTEGRITY_FAIL (10 R367). -/
  | ideIntegrityFail (port stream : Nat)
  /-- LOCK_INTERFACE_REQUEST (10 R368). -/
  | lockInterfaceRequest (fn stream : Nat)
  /-- START_INTERFACE_REQUEST (10 R368). -/
  | startInterfaceRequest (fn : Nat)
  /-- STOP_INTERFACE_REQUEST (10 R368). -/
  | stopInterfaceRequest (fn : Nat)
  /-- GET_DEVICE_INTERFACE_REPORT (13 R462). -/
  | getDeviceInterfaceReport (fn : Nat)
  /-- CONTROL_CORE_FAIL (10 R357). -/
  | controlCoreFail (core : Nat)
  /-- FLIT_RECEIVE (11 R393). -/
  | flitReceive (port : Nat) (bytes : List Byte) (fec : Bool)
  /-- RETRY (11 R393). -/
  | retry (port seq : Nat)
  /-- RETRY_REPEAT (11 R393). -/
  | retryRepeat (port : Nat)
  /-- DOWN (11 R393). -/
  | down (port reason : Nat)
  /-- PUT (11 R399). -/
  | put
  /-- GET (11 R408). -/
  | get
  /-- GET_RSP (11 R399). -/
  | getRsp
  /-- FABRIC_SOW (11 R399). -/
  | fabricSow
  /-- REDUCE (11 R416). -/
  | reduce
  /-- FABRIC_GATE_ARRIVE (11 R419). -/
  | fabricGateArrive
  /-- CONTROL_PACKET (11 R399). -/
  | controlPacket
  /-- FABRIC_ACK (11 R403). -/
  | fabricAck
  /-- ACK_TIMER (11 R403). -/
  | ackTimer (src chan : Nat)
  /-- CHANNEL_RESEND (11 R403). -/
  | channelResend (chan : Nat)
  /-- CREDIT_STALL (11 R411). -/
  | creditStall (port vc cls : Nat)
  /-- PORT_STATE_ADVANCE (11 R421). -/
  | portStateAdvance (port : Nat) (ok : Bool) (lanes : Nat) (said : Option PeerSaid)
  /-- PORT_RETRAIN (11 R421). -/
  | portRetrain (port : Nat)
  /-- LANE_FAIL (11 R390). -/
  | laneFail (port lane : Nat)
  /-- PORT_DOWN (11 R423). -/
  | portDown (port reason : Nat)
  /-- PAIR_SESSION_OPEN (11 R402). -/
  | pairSessionOpen (module : Nat) (peer : Option PeerIdent)
  /-- COMMIT_ARRIVE (12 R426). -/
  | commitArrive (gate : Nat) (done : StepDone) (blocks : List BlockSrc)
  /-- ROLLBACK (12 R429). -/
  | rollback (r : Rollback)
  /-- FALLOW_SEND (12 R431). -/
  | fallowSend (f : FallowFrame)
  /-- CHECKPOINT_NAME (12 R438). -/
  | checkpointName (step : Nat)
  /-- CHECKPOINT_WRITE (12 R439). -/
  | checkpointWrite (items : List BlockSrc)
  /-- CHECKPOINT_SEAL (12 R439). -/
  | checkpointSeal (cause : Nat)
  /-- SHARED_STORE_COPY (12 R442). -/
  | sharedStoreCopy (port : Nat)
  /-- SHARED_STORE_RESTORE (12 R443). -/
  | sharedStoreRestore (step : Nat) (recs : List DigestRec) (blocks : List (DigestRec × List Byte))
  /-- HEARTBEAT_MISSED (12 R444). -/
  | heartbeatMissed (module : Nat)
  /-- PROBE_TIMEOUT (12 R445). -/
  | probeTimeout (module reached source : Nat)
  /-- FAIL_NOTICE (12 R445). -/
  | failNotice (module : Nat)
  /-- MINORITY_HOLD (12 R445). -/
  | minorityHold (reached : Nat)
  /-- RECOVERY_PLAN (12 R446). -/
  | recoveryPlan (fits : Bool) (cause : Nat) (layout : List Byte)
  /-- RECOVERY_REFILL (12 R446). -/
  | recoveryRefill (committed : Nat) (moves : List ShardMove) (r : Rollback)
  /-- RECOVERY_RESUME (12 R446). -/
  | recoveryResume (gate : Nat)
  /-- CHECKPOINT_ROLLBACK (12 R448). -/
  | checkpointRollback (step : Nat) (salvaged : List (DigestRec × List Byte)) (dsts : List BlockDst) (r : Rollback)
  /-- STEP_FAILED (12 R450). -/
  | stepFailed (r : Rollback)
  /-- ENTROPY_FAIL (13 R454). -/
  | entropyFail (test : Nat)
  /-- SLOT_ALLOCATE (13 R458). -/
  | slotAllocate (slot : Nat)
  /-- SLOT_RETIRE (13 R458). -/
  | slotRetire (slot : Nat)
  /-- SLOT_FREE (13 R458). -/
  | slotFree (slot : Nat)
  /-- CORE_WIPE (13 R461). -/
  | coreWipe (core : Nat)
  /-- ALIAS_KEY_GENERATE (13 R464). -/
  | aliasKeyGenerate
  /-- GET_VERSION (13 R465). -/
  | getVersion (transport : Nat)
  /-- GET_CAPABILITIES (13 R465). -/
  | getCapabilities (transport : Nat)
  /-- NEGOTIATE_ALGORITHMS (13 R465). -/
  | negotiateAlgorithms (transport : Nat)
  /-- GET_DIGESTS (13 R465). -/
  | getDigests (transport : Nat)
  /-- GET_CERTIFICATE (13 R465). -/
  | getCertificate (transport : Nat)
  /-- CHALLENGE (13 R465). -/
  | challenge (transport : Nat) (nonce : List Byte)
  /-- GET_MEASUREMENTS (13 R465). -/
  | getMeasurements (transport : Nat) (nonce : List Byte)
  /-- KEY_EXCHANGE (13 R465). -/
  | keyExchange (transport : Nat) (msg : List Byte)
  /-- FINISH (13 R465). -/
  | finish (transport session : Nat)
  /-- HEARTBEAT (13 R465). -/
  | heartbeat (transport session : Nat)
  /-- KEY_UPDATE (13 R465). -/
  | keyUpdate (transport session : Nat)
  /-- END_SESSION (13 R465). -/
  | endSession (transport session : Nat)
  /-- KEY_INSTALL (13 R465). -/
  | keyInstall (transport session slot ticket key : Nat)
  /-- SLOT_QUERY (13 R465). -/
  | slotQuery (transport session slot : Nat)
  /-- SLOT_RELEASE (13 R465). -/
  | slotRelease (transport session slot : Nat)
  /-- NONCE_READ (13 R474). -/
  | nonceRead (who : Nat)
  /-- NONCE_EXPIRE (13 R474). -/
  | nonceExpire
  /-- TOKEN_CHECK (13 R474). -/
  | tokenCheck (who : Nat) (token : List Byte)
  /-- LC_REQUEST_TEST (13 R468). -/
  | lcRequestTest (who : Nat)
  /-- DEBUG_LOWER (13 R475). -/
  | debugLower (who level : Nat)
  /-- FW_HEADER (13 R480). -/
  | fwHeader (src : Nat) (header : List Nat) (table : List (List Byte)) (sig : List Byte)
  /-- FW_BLOCK (13 R481). -/
  | fwBlock (src index : Nat) (data : List Byte)
  /-- FW_ARM (13 R483). -/
  | fwArm (who slot gate gen : Nat)
  /-- FW_ACTIVATE (13 R483). -/
  | fwActivate
  /-- FW_CONFIRM (13 R485). -/
  | fwConfirm (who : Nat)
  /-- FW_TRIAL_TIMEOUT (13 R484). -/
  | fwTrialTimeout
  /-- FEATURE_SWITCH (13 R487). -/
  | featureSwitch
  /-- POWER_REQUEST_RUN (14 R497). -/
  | powerRequestRun (who : Nat)
  /-- POWER_REQUEST_IDLE (14 R497). -/
  | powerRequestIdle (who : Nat)
  /-- POWER_REQUEST_SLEEP (14 R497). -/
  | powerRequestSleep (who : Nat)
  /-- POWER_REQUEST_DEEP_SLEEP (14 R497). -/
  | powerRequestDeepSleep (who : Nat)
  /-- POWER_REQUEST_OFF (14 R497). -/
  | powerRequestOff (who : Nat)
  /-- POWER_TRANSITION_DONE (14 R498). -/
  | powerTransitionDone
  /-- WAKE (14 R495). -/
  | wake
  /-- SMBUS_ADDRESS_MATCH (14 R496). -/
  | smbusAddressMatch (addr : Nat)
  /-- POWER_CLASS_WRITE (14 R491). -/
  | powerClassWrite (cls : Nat)
  /-- POWER_SLOW_LOOP (14 R491). -/
  | powerSlowLoop (caps : List Nat)
  /-- FAST_LIMITER (14 R491). -/
  | fastLimiter (watts : Nat)
  /-- BRAKE_ASSERT (14 R492). -/
  | brakeAssert
  /-- BRAKE_RELEASE (14 R492). -/
  | brakeRelease
  /-- DVFS_REQUEST (14 R500). -/
  | dvfsRequest (die point who : Nat)
  /-- DVFS_RAMP_DONE (14 R499). -/
  | dvfsRampDone (die : Nat)
  /-- DIRECT_VOLTAGE (14 R501). -/
  | directVoltage (die mv who : Nat)
  /-- THERMAL_WARN (14 R503). -/
  | thermalWarn (die temp sensor : Nat)
  /-- THERMAL_CAP_STEP (14 R503). -/
  | thermalCapStep (die temp : Nat)
  /-- THERMAL_CAP_P4 (14 R503). -/
  | thermalCapP4 (die temp : Nat)
  /-- THERMAL_TRIP (14 R503). -/
  | thermalTrip (die temp sensor : Nat)
  /-- POWER_ON_RESET (14 R509). -/
  | powerOnReset (samples : List Nat)
  /-- COLD_RESET (14 R510). -/
  | coldReset (samples : List Nat)
  /-- MRESET (14 R509). -/
  | mreset (samples : List Nat)
  /-- WARM_RESET (14 R509). -/
  | warmReset
  /-- PWRGD_LOSS (14 R519). -/
  | pwrgdLoss
  /-- VIN_LOCKOUT (14 R519). -/
  | vinLockout (mv : Nat)
  /-- HEARTBEAT_TOGGLE (14 R516). -/
  | heartbeatToggle
  /-- MAILBOX_READ (15 R534). -/
  | mailboxRead (fn : Nat)
  /-- MAILBOX_WRITE (15 R534). -/
  | mailboxWrite (fn : Nat)
  /-- MAILBOX_DESCRIBE (15 R534). -/
  | mailboxDescribe (fn : Nat)
  /-- MAILBOX_FRAME (15 R534). -/
  | mailboxFrame (fn : Nat) (req : SpdmReq)
  /-- MAILBOX_SPDM (15 R534). -/
  | mailboxSpdm (fn : Nat) (req : SpdmReq)
  /-- FRAME_READ (15 R532). -/
  | frameRead (frame : List Byte)
  /-- FRAME_WRITE (15 R533). -/
  | frameWrite (frame : List Byte)
  /-- FRAME_DESCRIBE (15 R532). -/
  | frameDescribe (frame : List Byte)
  /-- FRAME_SPDM (15 R533). -/
  | frameSpdm (frame : List Byte) (req : SpdmReq)
  /-- DISCOVER (15 R533). -/
  | discover (frame : List Byte)
  /-- SMBUS_SELECT (15 R536). -/
  | smbusSelect (data : List Byte) (pec : Bool)
  /-- SMBUS_READ (15 R536). -/
  | smbusRead
  /-- SMBUS_WRITE (15 R536). -/
  | smbusWrite (data : List Byte) (pec : Bool)
  /-- SMBUS_STATUS (15 R536). -/
  | smbusStatus
  /-- SMBUS_DESCRIBE (15 R536). -/
  | smbusDescribe
  /-- SMBUS_ALERT_RESPONSE (15 R536). -/
  | smbusAlertResponse
  /-- RESTORE_DEFAULTS (15 R527). -/
  | restoreDefaults (who : Nat)
  /-- STALL_FREEZE (15 R540). -/
  | stallFreeze (core : Nat) (on : Bool)
  /-- STALL_CLEAR (15 R540). -/
  | stallClear (core : Nat)
  /-- MODULE_STALL_FREEZE (15 R549). -/
  | moduleStallFreeze (on : Bool)
  /-- MODULE_STALL_CLEAR (15 R549). -/
  | moduleStallClear
  /-- EVENT_RECORD (15 R550). -/
  | eventRecord
  /-- BLACK_BOX_COPY (15 R553). -/
  | blackBoxCopy (cause : Nat)
  /-- REGISTER_WRITE (07 R556). -/
  | registerWrite (target : RegTarget) (v : Word)
  /-- RNG_RESEED (04 R158). -/
  | rngReseed (core : Nat)
  /-- THREAD_ZERO_RELEASE (02 R101). -/
  | threadZeroRelease (core : Nat)
  /-- FAULTED_THREAD_RESTART (02 R54). -/
  | faultedThreadRestart (core thread : Nat) (pc : Word) (keeper : Bool)
  /-- DEBUG_HALT (13 R472). -/
  | debugHalt (core thread : Nat)
  /-- DEBUG_RESUME (13 R472). -/
  | debugResume (core thread : Nat) (single : Bool)
  /-- FIELD_FENCE_CLEAR (01 R23). -/
  | fieldFenceClear
  /-- TEST_MAP_PROGRAM (01 R13). -/
  | testMapProgram (bad : List Nat) (fuseToKX2112 : Bool)
  /-- IDE_KEY_PROGRAM (10 R367). -/
  | ideKeyProgram (port stream : Nat)
  /-- PCIE_LINK_UP (10 R361). -/
  | pcieLinkUp (port width rate : Nat) (flit : Bool)
  /-- PCIE_L1_EXIT (14 R495). -/
  | pcieL1Exit (port : Nat)
  /-- THERMAL_WARN_CLEAR (14 R503). -/
  | thermalWarnClear (die temp : Nat)
  /-- RAIL_FAULT (15 R551). -/
  | railFault (rail mv : Nat)
  /-- ALWAYS_ON_FAULT (15 R551). -/
  | alwaysOnFault (unit : Nat)
  /-- CONTROL_HEARTBEAT_SEND (12 R444). -/
  | controlHeartbeatSend
  deriving DecidableEq, Repr

end Sys2Proof
end

