-- ==== Sys2Proof/Decode.lean ====
section
/-!
DEFINITION. Decode.lean: which core instruction a 64-bit word spells (02 R69, R71, 03 R116), which of its fields make it illegal
(02 R72, 03 R117), and decodeTableWord. The opcode table of this block gives no row any bits, so no table word spells a
command; the encodings of the core instructions are the spec's own and are decoded here.
-/

namespace Sys2Proof

/-- The command that a word spells by the table's bits: the table gives none. -/
def decodeTableWord (_nbits _w : Nat) : Option Instr := none

/-- The core instructions (02 R71, 03 R116), one name for each row of the table that carries an instruction word. A WRCR that
writes TWIN, KLIM or KVEC has a row of its own and the word of a WRCR. -/
inductive Mn where
  | add | sub | and | or | xor | andn | sll | srl | sra | min | max | minu | maxu | mul | mulh | mulhu
  | div | divu | rem | remu | clz | ctz | popc
  | addi | andi | ori | xori | slli | srli | srai | li | lih | cmp | cmpi | plog | pget | pset
  | fadd | fsub | fmul | fdiv | fmin | fmax | fsqrt | i2f | f2i | fabs | fneg | ffma | fcmp
  | mset | mget | mgen | br | brl | jr | jrl
  | ld | st | lds | sts | fenceL | fenceG | fenceB | fenceA | take | peek | fill | put | lclr
  | dpost | dstat | garrive | gwait | gsync | reap | rwait | rdcr | wrcr | kcall | xret
  | thrStart | thrStop | thrState | jswitch | cacheAll | cacheLine | tlbAll | tlbEntry | brk
  | tmma | tmmaSeg | tmmaConv | tld | tst | tlds | tsts | tmov | tzero | txfer | ttag | tastat | tdrain
  | tvadd | tvsub | tvmul | tvfma | tvmin | tvmax | tvscl | tvcvt
  | redSum | redMax | redMin | redAbsmax | redSumsq
  | fnExp2 | fnExp | fnLog2 | fnRcp | fnRsqrt | fnSqrt | tvbcast
  deriving DecidableEq, Repr

namespace Machine

/-- ALU functions, imm[5:0] (02 R73). -/
def aluFunction (f : Nat) : Option Mn :=
  match f with
  | 0x00 => some .add | 0x01 => some .sub | 0x02 => some .and | 0x03 => some .or | 0x04 => some .xor
  | 0x05 => some .andn | 0x06 => some .sll | 0x07 => some .srl | 0x08 => some .sra | 0x09 => some .min
  | 0x0A => some .max | 0x0B => some .minu | 0x0C => some .maxu | 0x10 => some .mul | 0x11 => some .mulh
  | 0x12 => some .mulhu | 0x13 => some .div | 0x14 => some .divu | 0x15 => some .rem | 0x16 => some .remu
  | 0x18 => some .clz | 0x19 => some .ctz | 0x1A => some .popc | _ => none

/-- FALU functions, imm[3:0] (02 R76). -/
def faluFunction (f : Nat) : Option Mn :=
  match f with
  | 0x0 => some .fadd | 0x1 => some .fsub | 0x2 => some .fmul | 0x3 => some .fdiv | 0x4 => some .fmin
  | 0x5 => some .fmax | 0x6 => some .fsqrt | 0x8 => some .i2f | 0x9 => some .f2i | 0xA => some .fabs
  | 0xB => some .fneg | _ => none

/-- TVRED functions (03 R149). -/
def tvredFunction (f : Nat) : Option Mn :=
  match f with
  | 0 => some .redSum | 1 => some .redMax | 2 => some .redMin | 3 => some .redAbsmax | 4 => some .redSumsq
  | _ => none

/-- TVFN functions (03 R149). -/
def tvfnFunction (f : Nat) : Option Mn :=
  match f with
  | 0 => some .fnExp2 | 1 => some .fnExp | 2 => some .fnLog2 | 3 => some .fnRcp | 4 => some .fnRsqrt
  | 5 => some .fnSqrt | _ => none

/-- The instruction a word's major opcode and function name; none where either is unassigned (02 R71, 03 R116). -/
def coreMnemonic (w : Word) : Option Mn :=
  match field w 63 56 with
  | 0x01 => aluFunction (field w 5 0)
  | 0x08 => some .addi | 0x09 => some .andi | 0x0A => some .ori | 0x0B => some .xori
  | 0x0C => some .slli | 0x0D => some .srli | 0x0E => some .srai | 0x0F => some .li | 0x10 => some .lih
  | 0x18 => some .cmp | 0x19 => some .cmpi | 0x1A => some .plog | 0x1B => some .pget | 0x1C => some .pset
  | 0x20 => faluFunction (field w 3 0)
  | 0x21 => some .ffma | 0x22 => some .fcmp
  | 0x28 => some .mset | 0x29 => some .mget | 0x2A => some .mgen
  | 0x30 => some .br | 0x31 => some .brl | 0x32 => some .jr | 0x33 => some .jrl
  | 0x40 => some .tmma | 0x41 => some .tmmaSeg | 0x42 => some .tmmaConv
  | 0x44 => some .tld | 0x45 => some .tst | 0x46 => some .tlds | 0x47 => some .tsts
  | 0x48 => some .tmov | 0x49 => some .tzero | 0x4A => some .txfer | 0x4B => some .ttag | 0x4C => some .tastat
  | 0x50 => some .tdrain
  | 0x60 => some .tvadd | 0x61 => some .tvsub | 0x62 => some .tvmul | 0x63 => some .tvfma
  | 0x64 => some .tvmin | 0x65 => some .tvmax | 0x66 => some .tvscl | 0x67 => some .tvcvt
  | 0x68 => tvredFunction (field w 23 20)
  | 0x69 => tvfnFunction (field w 23 20)
  | 0x6A => some .tvbcast
  | 0x70 => some .ld | 0x71 => some .st | 0x72 => some .lds | 0x73 => some .sts
  | 0x76 => (match field w 1 0 with | 0 => some .fenceL | 1 => some .fenceG | 2 => some .fenceB | _ => some .fenceA)
  | 0x78 => some .take | 0x79 => some .peek | 0x7A => some .fill | 0x7B => some .put | 0x7C => some .lclr
  | 0x80 => some .dpost | 0x81 => some .dstat
  | 0x88 => some .garrive | 0x89 => some .gwait | 0x8A => some .gsync | 0x8C => some .reap | 0x8D => some .rwait
  | 0x90 => some .rdcr | 0x91 => some .wrcr | 0x92 => some .kcall | 0x93 => some .xret
  | 0x94 => (match field w 3 0 with | 0 => some .thrStart | 1 => some .thrStop | 2 => some .thrState | _ => none)
  | 0x95 => some .jswitch
  | 0x96 => if bitOf w 0 then some .cacheLine else some .cacheAll
  | 0x97 => if bitOf w 0 then some .tlbEntry else some .tlbAll
  | 0x98 => some .brk
  | _ => none

/-- Whether the major opcode is assigned (02 R71). -/
def opcodeAssigned (w : Word) : Bool :=
  (coreMnemonic w).isSome || [0x01, 0x20, 0x68, 0x69, 0x94].contains (field w 63 56)

/-- The bit ranges an instruction leaves reserved (02 R72–R92, 03 R117–R149, 04 R161, 08 R287, 09 R325, R341, R348). Fields
that a format has and the instruction does not use are among them. -/
def reservedRanges (m : Mn) : List (Nat × Nat) :=
  match m with
  | .add | .sub | .and | .or | .xor | .andn | .sll | .srl | .sra | .min | .max | .minu | .maxu | .mul | .mulh
  | .mulhu | .div | .divu | .rem | .remu => [(36, 6)]
  | .clz | .ctz | .popc => [(45, 41), (36, 6)]
  | .addi | .andi | .ori | .xori => [(45, 41)]
  | .slli | .srli | .srai => [(45, 41), (36, 6)]
  | .li => [(50, 41)]
  | .lih => [(45, 41), (36, 27)]
  | .cmp => [(36, 4)]
  | .cmpi => [(45, 41)]
  | .plog => [(36, 2)]
  | .pget => [(50, 41), (36, 0)]
  | .pset => [(55, 51), (45, 41), (36, 0)]
  | .fadd | .fsub | .fmul | .fdiv | .fmin | .fmax => [(36, 4)]
  | .fsqrt | .i2f | .f2i | .fabs | .fneg => [(45, 41), (36, 4)]
  | .ffma => [(36, 0)]
  | .fcmp => [(36, 2)]
  | .mset | .mget => [(45, 41), (36, 0)]
  | .mgen => [(50, 41), (36, 13), (7, 6)]
  | .br => [(55, 41)]
  | .brl => [(50, 41)]
  | .jr => [(55, 51), (45, 41)]
  | .jrl => [(45, 41)]
  | .ld | .st | .lds | .sts | .take | .peek | .fill | .put => []
  | .lclr => [(55, 51)]
  | .fenceL | .fenceG | .fenceB | .fenceA => [(55, 41), (36, 2)]
  | .dpost => [(45, 41), (36, 4)]
  | .dstat => [(50, 41), (36, 4)]
  | .garrive | .gsync => [(50, 41), (36, 9)]
  | .gwait => [(45, 41), (36, 9)]
  | .reap => [(36, 8)]
  | .rwait => [(50, 41), (36, 8)]
  | .rdcr => [(50, 41), (36, 12)]
  | .wrcr => [(55, 51), (45, 41), (36, 12)]
  | .kcall => [(55, 41), (36, 8)]
  | .xret | .jswitch | .brk => [(55, 41), (36, 0)]
  | .thrStart => [(36, 4)]
  | .thrStop | .thrState => [(45, 41), (36, 4)]
  | .cacheAll | .tlbAll => [(55, 41), (36, 1)]
  | .cacheLine | .tlbEntry => [(55, 51), (45, 41), (36, 1)]
  | .tmma | .tmmaConv => [(15, 0)]
  | .tmmaSeg => [(41, 39), (15, 0)]
  | .tld | .tst => [(27, 0)]
  | .tlds | .tsts | .tmov | .txfer | .ttag => [(45, 0)]
  | .tzero => [(50, 41), (28, 0)]
  | .tastat => [(50, 30), (26, 0)]
  | .tdrain => [(25, 0)]
  | .tvadd | .tvsub | .tvmul | .tvfma | .tvmin | .tvmax => [(25, 20), (16, 0)]
  | .tvscl => [(45, 41), (23, 20), (15, 0)]
  | .tvcvt => [(45, 41), (25, 20), (16, 0)]
  | .redSum | .redMax | .redMin | .redAbsmax | .redSumsq => [(55, 51), (45, 41), (16, 0)]
  | .fnExp2 | .fnExp | .fnLog2 | .fnRcp | .fnRsqrt | .fnSqrt => [(45, 41), (25, 24), (16, 0)]
  | .tvbcast => [(50, 41), (23, 20), (17, 17), (15, 0)]

/-- The reserved ranges of an instruction whose function is unassigned: the fields that no function of its opcode uses (02 R72, 03 R117, R148). -/
def reservedUnknown (w : Word) : List (Nat × Nat) :=
  match field w 63 56 with
  | 0x01 => [(36, 6)]
  | 0x20 => [(36, 4)]
  | 0x94 => [(36, 4)]
  | 0x68 => [(55, 51), (45, 41), (16, 0)]
  | 0x69 => [(45, 41), (25, 24), (16, 0)]
  | _ => []

/-- Control register numbers that R87 lists. -/
def crListed (n : Nat) : Bool := n ≤ 4 || (0x10 ≤ n && n ≤ 0x16) || (0x20 ≤ n && n ≤ 0x24)

/-- An even general register from g2 to g30 (03 R140, R143, 04 R163). -/
def evenPair (n : Nat) : Bool := n != 0 && n % 2 == 0

/-- Fields that hold an unassigned value: function, condition, SZ, format, rounding mode (02 R72, 03 R109, R127, R149). -/
def unassignedField (m : Mn) (w : Word) : Bool :=
  let fmtBad (f : Nat) := !decide (f ≤ 9)
  match m with
  | .cmp | .cmpi => 5 < field w 3 0
  | .mgen => 32 < field w 12 8 + field w 5 0
  | .ld => field w 36 34 == 7
  | .st => 3 < field w 36 34
  | .lds | .sts | .take | .peek | .fill | .put | .lclr => field w 36 34 != 3
  | .rdcr | .wrcr => !crListed (field w 11 0)
  | .tmma | .tmmaSeg | .tmmaConv => 11 < field w 55 52
  | .tld | .tst | .tzero => fmtBad (field w 32 29)
  | .tastat => field w 29 28 == 3
  | .tdrain =>
    field w 36 35 == 3 || field w 29 26 == 0xA || field w 29 26 == 0xB || (!bitOf w 34 && fmtBad (field w 33 30))
  | .tvadd | .tvsub | .tvmul | .tvfma | .tvmin | .tvmax | .tvscl | .tvcvt | .tvbcast
  | .redSum | .redMax | .redMin | .redAbsmax | .redSumsq
  | .fnExp2 | .fnExp | .fnLog2 | .fnRcp | .fnRsqrt | .fnSqrt => fmtBad (field w 32 29) || field w 19 18 == 3
  | _ => false

/-- Fields that name a predicate, mask, scale-vector or register pair out of range (02 R72, R75, 03 R140, R143). -/
def registerField (m : Mn) (w : Word) : Bool :=
  match m with
  | .cmp | .cmpi | .fcmp | .mset | .mgen => 7 < field w 55 51
  | .plog => 7 < field w 55 51 || 7 < field w 50 46 || 7 < field w 45 41
  | .mget => 7 < field w 50 46
  | .lds | .sts => 3 < field w 55 51
  | .tmmaSeg => !evenPair (field w 33 29)
  | .tmmaConv => !evenPair (field w 38 34)
  | .tdrain => !evenPair (field w 50 46)
  | _ => false

/-- The sub-codes of exception 0x01 that a word's own fields call for, lowest first (02 R100). -/
def illegalSubs (w : Word) : List Nat :=
  match coreMnemonic w with
  | some m =>
    (if (reservedRanges m).any (fun r => nonzeroField w r.1 r.2) then [2] else []) ++
    (if unassignedField m w then [3] else []) ++ (if registerField m w then [4] else [])
  | none =>
    if opcodeAssigned w then
      (if (reservedUnknown w).any (fun r => nonzeroField w r.1 r.2) then [2] else []) ++ [3]
    else [1]

/-! ## The encoder: the same tables read the other way -/

/-- Bits that every predicated instruction has: the predicate and its sense (02 R70). -/
def predBitsAt : List (Nat × Nat) := [(40, 38), (37, 37)]

/-- The operand fields of an instruction, from the top of the word down: every bit that is neither of the major opcode, nor of a
function, nor reserved (02 R69–R92, 03 R116–R149, 04 R161). -/
def operandFields (m : Mn) : List (Nat × Nat) :=
  match m with
  | .add | .sub | .and | .or | .xor | .andn | .sll | .srl | .sra | .min | .max | .minu | .maxu | .mul | .mulh
  | .mulhu | .div | .divu | .rem | .remu => [(55, 51), (50, 46), (45, 41)] ++ predBitsAt
  | .clz | .ctz | .popc => [(55, 51), (50, 46)] ++ predBitsAt
  | .addi | .andi | .ori | .xori => [(55, 51), (50, 46)] ++ predBitsAt ++ [(36, 0)]
  | .slli | .srli | .srai => [(55, 51), (50, 46)] ++ predBitsAt ++ [(5, 0)]
  | .li => [(55, 51)] ++ predBitsAt ++ [(36, 0)]
  | .lih => [(55, 51), (50, 46)] ++ predBitsAt ++ [(26, 0)]
  | .cmp => [(55, 51), (50, 46), (45, 41)] ++ predBitsAt ++ [(3, 0)]
  | .cmpi => [(55, 51), (50, 46)] ++ predBitsAt ++ [(36, 4), (3, 0)]
  | .plog | .fcmp => [(55, 51), (50, 46), (45, 41)] ++ predBitsAt ++ [(1, 0)]
  | .pget => [(55, 51)] ++ predBitsAt
  | .pset => [(50, 46)] ++ predBitsAt
  | .fadd | .fsub | .fmul | .fdiv | .fmin | .fmax | .ffma => [(55, 51), (50, 46), (45, 41)] ++ predBitsAt
  | .fsqrt | .i2f | .f2i | .fabs | .fneg | .mset | .mget => [(55, 51), (50, 46)] ++ predBitsAt
  | .mgen => [(55, 51)] ++ predBitsAt ++ [(12, 8), (5, 0)]
  | .br => predBitsAt ++ [(36, 0)]
  | .brl => [(55, 51)] ++ predBitsAt ++ [(36, 0)]
  | .jr => [(50, 46)] ++ predBitsAt ++ [(36, 0)]
  | .jrl => [(55, 51), (50, 46)] ++ predBitsAt ++ [(36, 0)]
  | .ld | .st | .lds | .sts | .take | .peek | .fill | .put =>
    [(55, 51), (50, 46), (45, 41)] ++ predBitsAt ++ [(36, 34), (33, 32), (31, 0)]
  | .lclr => [(50, 46), (45, 41)] ++ predBitsAt ++ [(36, 34), (33, 32), (31, 0)]
  | .fenceL | .fenceG | .fenceB | .fenceA | .xret | .jswitch | .brk | .cacheAll | .tlbAll => predBitsAt
  | .cacheLine | .tlbEntry => [(50, 46)] ++ predBitsAt
  | .dpost => [(55, 51), (50, 46)] ++ predBitsAt ++ [(3, 0)]
  | .dstat => [(55, 51)] ++ predBitsAt ++ [(3, 0)]
  | .garrive | .gsync => [(55, 51)] ++ predBitsAt ++ [(8, 0)]
  | .gwait => [(55, 51), (50, 46)] ++ predBitsAt ++ [(8, 0)]
  | .reap => [(55, 51), (50, 46), (45, 41)] ++ predBitsAt ++ [(7, 0)]
  | .rwait => [(55, 51)] ++ predBitsAt ++ [(7, 0)]
  | .rdcr => [(55, 51)] ++ predBitsAt ++ [(11, 0)]
  | .wrcr => [(50, 46)] ++ predBitsAt ++ [(11, 0)]
  | .kcall => predBitsAt ++ [(7, 0)]
  | .thrStart => [(55, 51), (50, 46), (45, 41)] ++ predBitsAt
  | .thrStop | .thrState => [(55, 51), (50, 46)] ++ predBitsAt
  | .tmma | .tmmaConv =>
    [(55, 52), (51, 47), (46, 42), (41, 39), (38, 34), (33, 29), (28, 28), (27, 27), (26, 24), (23, 21), (20, 20), (19, 19),
      (18, 18), (17, 16)]
  | .tmmaSeg =>
    [(55, 52), (51, 47), (46, 42), (38, 34), (33, 29), (28, 28), (27, 27), (26, 24), (23, 21), (20, 20), (19, 19), (18, 18),
      (17, 16)]
  | .tld | .tst => [(55, 51), (50, 46), (45, 41), (40, 36), (35, 33), (32, 29), (28, 28)]
  | .tlds | .tsts | .tmov | .txfer | .ttag => [(55, 51), (50, 46)]
  | .tzero => [(55, 51), (40, 36), (35, 33), (32, 29)]
  | .tastat => [(55, 51), (29, 28), (27, 27)]
  | .tdrain =>
    [(55, 51), (50, 46), (45, 41), (40, 40), (39, 39), (38, 37), (36, 35), (34, 34), (33, 30), (29, 26)]
  | .tvadd | .tvsub | .tvmul | .tvfma | .tvmin | .tvmax =>
    [(55, 51), (50, 46), (45, 41), (40, 36), (35, 33), (32, 29), (28, 26), (19, 18), (17, 17)]
  | .tvscl => [(55, 51), (50, 46), (40, 36), (35, 33), (32, 29), (28, 26), (25, 24), (19, 18), (17, 17), (16, 16)]
  | .tvcvt => [(55, 51), (50, 46), (40, 36), (35, 33), (32, 29), (28, 26), (19, 18), (17, 17)]
  | .redSum | .redMax | .redMin | .redAbsmax | .redSumsq =>
    [(50, 46), (40, 36), (35, 33), (32, 29), (28, 26), (25, 24), (19, 18), (17, 17)]
  | .fnExp2 | .fnExp | .fnLog2 | .fnRcp | .fnRsqrt | .fnSqrt =>
    [(55, 51), (50, 46), (40, 36), (35, 33), (32, 29), (28, 26), (19, 18), (17, 17)]
  | .tvbcast => [(55, 51), (40, 36), (35, 33), (32, 29), (28, 26), (25, 24), (19, 18), (16, 16)]

/-- The bits of an instruction that are the same in every word of it: its major opcode, and its function where the opcode has
functions (02 R71, R73, R76, R85, R89, R92, 03 R116, R149). -/
def fixedBits (m : Mn) : Nat :=
  match m with
  | .add => 0x01 * 2 ^ 56 | .sub => 0x01 * 2 ^ 56 + 0x01 | .and => 0x01 * 2 ^ 56 + 0x02 | .or => 0x01 * 2 ^ 56 + 0x03
  | .xor => 0x01 * 2 ^ 56 + 0x04 | .andn => 0x01 * 2 ^ 56 + 0x05 | .sll => 0x01 * 2 ^ 56 + 0x06
  | .srl => 0x01 * 2 ^ 56 + 0x07 | .sra => 0x01 * 2 ^ 56 + 0x08 | .min => 0x01 * 2 ^ 56 + 0x09
  | .max => 0x01 * 2 ^ 56 + 0x0A | .minu => 0x01 * 2 ^ 56 + 0x0B | .maxu => 0x01 * 2 ^ 56 + 0x0C
  | .mul => 0x01 * 2 ^ 56 + 0x10 | .mulh => 0x01 * 2 ^ 56 + 0x11 | .mulhu => 0x01 * 2 ^ 56 + 0x12
  | .div => 0x01 * 2 ^ 56 + 0x13 | .divu => 0x01 * 2 ^ 56 + 0x14 | .rem => 0x01 * 2 ^ 56 + 0x15
  | .remu => 0x01 * 2 ^ 56 + 0x16 | .clz => 0x01 * 2 ^ 56 + 0x18 | .ctz => 0x01 * 2 ^ 56 + 0x19
  | .popc => 0x01 * 2 ^ 56 + 0x1A
  | .addi => 0x08 * 2 ^ 56 | .andi => 0x09 * 2 ^ 56 | .ori => 0x0A * 2 ^ 56 | .xori => 0x0B * 2 ^ 56
  | .slli => 0x0C * 2 ^ 56 | .srli => 0x0D * 2 ^ 56 | .srai => 0x0E * 2 ^ 56 | .li => 0x0F * 2 ^ 56
  | .lih => 0x10 * 2 ^ 56 | .cmp => 0x18 * 2 ^ 56 | .cmpi => 0x19 * 2 ^ 56 | .plog => 0x1A * 2 ^ 56
  | .pget => 0x1B * 2 ^ 56 | .pset => 0x1C * 2 ^ 56
  | .fadd => 0x20 * 2 ^ 56 | .fsub => 0x20 * 2 ^ 56 + 0x1 | .fmul => 0x20 * 2 ^ 56 + 0x2 | .fdiv => 0x20 * 2 ^ 56 + 0x3
  | .fmin => 0x20 * 2 ^ 56 + 0x4 | .fmax => 0x20 * 2 ^ 56 + 0x5 | .fsqrt => 0x20 * 2 ^ 56 + 0x6
  | .i2f => 0x20 * 2 ^ 56 + 0x8 | .f2i => 0x20 * 2 ^ 56 + 0x9 | .fabs => 0x20 * 2 ^ 56 + 0xA | .fneg => 0x20 * 2 ^ 56 + 0xB
  | .ffma => 0x21 * 2 ^ 56 | .fcmp => 0x22 * 2 ^ 56 | .mset => 0x28 * 2 ^ 56 | .mget => 0x29 * 2 ^ 56
  | .mgen => 0x2A * 2 ^ 56 | .br => 0x30 * 2 ^ 56 | .brl => 0x31 * 2 ^ 56 | .jr => 0x32 * 2 ^ 56 | .jrl => 0x33 * 2 ^ 56
  | .tmma => 0x40 * 2 ^ 56 | .tmmaSeg => 0x41 * 2 ^ 56 | .tmmaConv => 0x42 * 2 ^ 56 | .tld => 0x44 * 2 ^ 56
  | .tst => 0x45 * 2 ^ 56 | .tlds => 0x46 * 2 ^ 56 | .tsts => 0x47 * 2 ^ 56 | .tmov => 0x48 * 2 ^ 56
  | .tzero => 0x49 * 2 ^ 56 | .txfer => 0x4A * 2 ^ 56 | .ttag => 0x4B * 2 ^ 56 | .tastat => 0x4C * 2 ^ 56
  | .tdrain => 0x50 * 2 ^ 56 | .tvadd => 0x60 * 2 ^ 56 | .tvsub => 0x61 * 2 ^ 56 | .tvmul => 0x62 * 2 ^ 56
  | .tvfma => 0x63 * 2 ^ 56 | .tvmin => 0x64 * 2 ^ 56 | .tvmax => 0x65 * 2 ^ 56 | .tvscl => 0x66 * 2 ^ 56
  | .tvcvt => 0x67 * 2 ^ 56
  | .redSum => 0x68 * 2 ^ 56 | .redMax => 0x68 * 2 ^ 56 + 1 * 2 ^ 20 | .redMin => 0x68 * 2 ^ 56 + 2 * 2 ^ 20
  | .redAbsmax => 0x68 * 2 ^ 56 + 3 * 2 ^ 20 | .redSumsq => 0x68 * 2 ^ 56 + 4 * 2 ^ 20
  | .fnExp2 => 0x69 * 2 ^ 56 | .fnExp => 0x69 * 2 ^ 56 + 1 * 2 ^ 20 | .fnLog2 => 0x69 * 2 ^ 56 + 2 * 2 ^ 20
  | .fnRcp => 0x69 * 2 ^ 56 + 3 * 2 ^ 20 | .fnRsqrt => 0x69 * 2 ^ 56 + 4 * 2 ^ 20 | .fnSqrt => 0x69 * 2 ^ 56 + 5 * 2 ^ 20
  | .tvbcast => 0x6A * 2 ^ 56 | .ld => 0x70 * 2 ^ 56 | .st => 0x71 * 2 ^ 56 | .lds => 0x72 * 2 ^ 56 | .sts => 0x73 * 2 ^ 56
  | .fenceL => 0x76 * 2 ^ 56 | .fenceG => 0x76 * 2 ^ 56 + 1 | .fenceB => 0x76 * 2 ^ 56 + 2 | .fenceA => 0x76 * 2 ^ 56 + 3
  | .take => 0x78 * 2 ^ 56 | .peek => 0x79 * 2 ^ 56 | .fill => 0x7A * 2 ^ 56 | .put => 0x7B * 2 ^ 56
  | .lclr => 0x7C * 2 ^ 56 | .dpost => 0x80 * 2 ^ 56 | .dstat => 0x81 * 2 ^ 56 | .garrive => 0x88 * 2 ^ 56
  | .gwait => 0x89 * 2 ^ 56 | .gsync => 0x8A * 2 ^ 56 | .reap => 0x8C * 2 ^ 56 | .rwait => 0x8D * 2 ^ 56
  | .rdcr => 0x90 * 2 ^ 56 | .wrcr => 0x91 * 2 ^ 56 | .kcall => 0x92 * 2 ^ 56 | .xret => 0x93 * 2 ^ 56
  | .thrStart => 0x94 * 2 ^ 56 | .thrStop => 0x94 * 2 ^ 56 + 1 | .thrState => 0x94 * 2 ^ 56 + 2
  | .jswitch => 0x95 * 2 ^ 56 | .cacheAll => 0x96 * 2 ^ 56 | .cacheLine => 0x96 * 2 ^ 56 + 1
  | .tlbAll => 0x97 * 2 ^ 56 | .tlbEntry => 0x97 * 2 ^ 56 + 1 | .brk => 0x98 * 2 ^ 56

/-- The bits that values put into fields. -/
def packFields : List (Nat × Nat) → List Nat → Nat
  | (hi, lo) :: fs, v :: vs => v % 2 ^ (hi + 1 - lo) * 2 ^ lo + packFields fs vs
  | _, _ => 0

/-- The word of an instruction with the given operand fields. -/
def encodeWord (m : Mn) (vals : List Nat) : Word := word (fixedBits m + packFields (operandFields m) vals)

/-- The operand fields of a word. -/
def operandsOf (m : Mn) (w : Word) : List Nat := (operandFields m).map (fun r => field w r.1 r.2)

/-- Values that fit the fields. -/
def fieldsFit : List (Nat × Nat) → List Nat → Bool
  | [], [] => true
  | (hi, lo) :: fs, v :: vs => decide (v < 2 ^ (hi + 1 - lo)) && fieldsFit fs vs
  | _, _ => false

/-- No reserved bit of the word is set. -/
def reservedClear (m : Mn) (w : Word) : Bool := (reservedRanges m).all (fun r => !nonzeroField w r.1 r.2)

end Machine
end Sys2Proof
end

