-- ==== Sys2Proof/Config.lean ====
section
/-!
DEFINITION. Config.lean: what the spec leaves open. Every constant here is OPAQUE: it has no body, so nothing in Lean can
evaluate it or prove a value of it, and a statement that holds holds whatever its value is. Each is named in the
assumption log (notes/assumptions/3.md).
-/

namespace Sys2Proof.Config

/-- Where IEEE 754-2019 lets an implementation detect tininess before or after rounding (02 R76 states neither). -/
opaque tininessBefore : Bool

/-- The bits (sign and payload) of a NaN that the array, the vector unit, the drain or an engine produces: no rule states
them outside 02 R76. A function of the operation and its two operand patterns. -/
opaque nanBits : Nat → Nat → Nat → Nat

/-- The n-th free draw of the model: seeds of the cores' generators (04 R158), keys, tickets and nonces of the Ward
(13 R458, R474), the die a queue lets the module choose (10 R374). The argument is the state's draw counter. -/
opaque draw : Nat → Nat

/-- Random bits of a core's generator: its 256 bits of state, the number of the draw (04 R158 names no algorithm). -/
opaque rngBits : BitVec 256 → Nat → Nat

/-- The 256 bits with which the Ward entropy source seeds a core's generator at a reset of the module: the draw of that reset, the core
(04 R158). -/
opaque coreSeed : Nat → Nat → BitVec 256

/-- The CCLK that pass between two reads of CYCLE beyond those the model counts (02 R87: the model has no clock). The
argument is the state's draw counter. -/
opaque idleCycles : Nat → Nat

/-- The approximant an implementation delivers for a TVFN function (03 R151), before the accuracy bound is applied: function
code, operand pattern. -/
opaque tvfn : Nat → Nat → Nat

/-- The approximant an implementation delivers for a drain activation function or derivative (04 R159), before the error
bound is applied: function code, direction, operand pattern. -/
opaque drainFn : Nat → Nat → Nat → Nat

/-- SHAKE256 with an output of the given number of bytes, as a function of the message (00 R3 names the algorithm, no rule of
the spec defines it). -/
opaque shake256 : Nat → List Byte → List Byte

/-- The AES-256-GCM keystream of a key and initialisation vector: n bytes (08 R314, 10 R373). -/
opaque gcmStream : Nat → Nat → Nat → List Byte

/-- The AES-256-GCM tag of a key, initialisation vector, additional data and ciphertext. -/
opaque gcmTag : Nat → Nat → List Byte → List Byte → Nat

/-- Whether an XMSS signature of a message verifies under a public key (13 R465, R474, R480). -/
opaque xmssVerify : List Byte → List Byte → List Byte → Bool

/-- The SPDM message that carries an answer of the Ward: SPDM 1.3 gives its bytes, no rule of the spec does (13 R465). -/
opaque spdmText : List Nat → List Byte

/-- The 128-byte entry of the slot table: a slot's keys and egress counter under AES key wrap with the KWRAP of a boot (13 R459). -/
opaque aesWrap : Nat → List Nat → List Byte

/-- An XMSS signature made with the key of the given identity and index over a message (13 R463, R464). -/
opaque xmssSign : Nat → Nat → List Byte → List Byte

/-- The key an implementation derives from a root secret, a label and a context (13 R455 names the hierarchy). -/
opaque deriveKey : Nat → Nat → List Byte → Nat

/-- The FP32 power x^t that UPDATE's bias corrections use for t above 1 where it has to be rounded: no rule states how (06 R220). -/
opaque powFn : Nat → Nat → Nat

/-- Which two of the values left are added next in a sum of FP32 values whose order no rule states, from the values and twice the number of
the step (06 R220, R229). -/
opaque sumPick : List Nat → Nat → Nat

/-- The core of a die whose translation roots its sowing engine walks from, counted along the die's cores (08 R318 names no
root). -/
opaque sowRoot : Nat → Nat

/-- The sites that a detour leads through, from the site after its source to its destination: source site, destination site, the word
that keeper code has written (01 R34 gives the word no layout). -/
opaque detourPath : Nat → Nat → Nat → List Nat

/-- The router at which a die's sowing engine puts a page on its tree: die, address of the page (08 R320 says only that it is the nearest to the
source stack). -/
opaque sowSite : Nat → Nat → Nat

/-- Whether the host of a port answers a Drill read at a bus address with data, not with UR, CA, EP or a completion timeout (10 R366). -/
opaque hostAnswers : Nat → Nat → Bool

/-- The protocol versions of the fabric link: 0 the highest supported, 1 the lowest accepted by default (11 R424 gives no value). -/
opaque version : Nat → Nat

/-- The message kinds of the control clusters' own CONTROL packets (11 R399 names only 0x0001 and 0x0010): 0 heartbeat, 1 probe, 2 FAIL, 3
checkpoint step, 4 layout, 5 image header, 6 image block, 7 block request, 8 relay abort, 9 probe answer, 10 a
report of a module to the coordinator, 11 the end of a job that no layout fits. No two need differ; none is one that R399 names. -/
opaque kindCode : Nat → Nat

def controlKind (n : Nat) : Nat :=
  let k := kindCode n % 65534
  if k = 0 then 0 else if k < 15 then k + 1 else k + 2

/-- What a part carries from its maker (15 R538, 13 R488): 0 hardware revision, 1 Aqmas PCI vendor ID. -/
opaque device : Nat → Nat

/-- The serial number, as text. -/
opaque serial : List Byte

end Sys2Proof.Config
end

