-- ==== Sys2Proof/Machine/Float.lean ====
section
/-!
DEFINITION. Machine/Float.lean: floating-point values as exact dyadics, the decoding and rounding of the spec's binary formats
(04 R153, R156, R157), and IEEE 754-2019 binary32 arithmetic (02 R76, 03 R130, R151). A value is converted to an exact
integer times a power of two, the operation is exact, and the result is narrowed once at the end.
-/

namespace Sys2Proof.Machine

/-- A decoded floating-point value: (−1)^neg × m × 2^e, an infinity or a NaN. -/
inductive FV where
  | nan (neg sig : Bool)
  | inf (neg : Bool)
  | num (neg : Bool) (m : Nat) (e : Int)
  deriving DecidableEq, Repr

/-- A binary format: field widths, bias, the largest finite magnitude code, and whether it has IEEE infinities and NaNs
(04 R153). -/
structure BFmt where
  ebits : Nat
  mbits : Nat
  bias : Nat
  maxCode : Nat
  ieee : Bool
  deriving DecidableEq, Repr

def fmtFP32 : BFmt := ⟨8, 23, 127, 0x7F7FFFFF, true⟩
def fmtBF16 : BFmt := ⟨8, 7, 127, 0x7F7F, true⟩
def fmtFP16 : BFmt := ⟨5, 10, 15, 0x7BFF, true⟩
def fmtE4M3 : BFmt := ⟨4, 3, 7, 0x7E, false⟩
def fmtE5M2 : BFmt := ⟨5, 2, 15, 0x7B, true⟩
def fmtE3M2 : BFmt := ⟨3, 2, 3, 0x1F, false⟩
def fmtE2M3 : BFmt := ⟨2, 3, 1, 0x1F, false⟩
def fmtE2M1 : BFmt := ⟨2, 1, 1, 0x7, false⟩

/-- The exponent of the last place of the smallest normal (and of every subnormal) value. -/
def BFmt.qmin (f : BFmt) : Int := 1 - (f.bias : Int) - f.mbits

/-- Decodes a pattern of the format (04 R153). E4M3 alone has a NaN among the formats without infinities. -/
def BFmt.decode (f : BFmt) (n : Nat) : FV :=
  let frac := n % 2 ^ f.mbits
  let ex := n / 2 ^ f.mbits % 2 ^ f.ebits
  let neg := n.testBit (f.ebits + f.mbits)
  if f.ieee && ex == 2 ^ f.ebits - 1 then
    if frac == 0 then .inf neg else .nan neg (frac < 2 ^ (f.mbits - 1))
  else if !f.ieee && f.maxCode + 1 < 2 ^ (f.ebits + f.mbits) && f.maxCode < n % 2 ^ (f.ebits + f.mbits) then .nan neg false
  else if ex == 0 then .num neg frac f.qmin
  else .num neg (2 ^ f.mbits + frac) ((ex : Int) - f.bias - f.mbits)

/-- Rounding modes (04 R156). Stochastic rounding carries its 16-bit random integer. -/
inductive Rnd where
  | rtz
  | rne
  | sr (r : Nat)
  deriving DecidableEq, Repr

/-- Rounds n + rem / den units to an integer number of units (04 R156). -/
def roundUnits (mode : Rnd) (n rem den : Nat) : Nat :=
  match mode with
  | .rtz => n
  | .rne => if 2 * rem > den || (2 * rem == den && n % 2 == 1) then n + 1 else n
  | .sr r => if rem * 65536 / den > r then n + 1 else n

/-- m × 2^e in units of 2^q: whole units, remainder and the unit the remainder counts in. -/
def splitUnits (m : Nat) (e q : Int) : Nat × Nat × Nat :=
  if q ≤ e then (m <<< (e - q).toNat, 0, 1)
  else
    let k := (q - e).toNat
    (m >>> k, m % 2 ^ k, 2 ^ k)

/-- floor(log2(m × 2^e)) for m ≠ 0. -/
def floorLog2 (m : Nat) (e : Int) : Int := (Nat.log2 m : Int) + e

/-- The exponent of the last place that a value of magnitude m × 2^e has in the format. -/
def BFmt.quantum (f : BFmt) (m : Nat) (e : Int) : Int := max (floorLog2 m e - f.mbits) f.qmin

/-- The magnitude code m × 2^e rounds to, with an unbounded exponent above, and whether the rounding was inexact. -/
def BFmt.roundMag (f : BFmt) (mode : Rnd) (m : Nat) (e : Int) : Nat × Bool :=
  if m = 0 then (0, false)
  else
    let q := f.quantum m e
    let (n, rem, den) := splitUnits m e q
    ((q - f.qmin).toNat * 2 ^ f.mbits + roundUnits mode n rem den, rem != 0)

/-- A sign bit above the format's magnitude code. -/
def BFmt.withSign (f : BFmt) (neg : Bool) (code : Nat) : Nat := boolN neg * 2 ^ (f.ebits + f.mbits) + code

/-- The NaN pattern of the 32-bit results for which no rule states the sign and payload. -/
def freeNan (op a b : Nat) : Nat :=
  let k := Config.nanBits op a b
  (k / 2 ^ 23 % 2) * 2 ^ 31 + 0x7F800000 + (1 + k % (2 ^ 23 - 1))

/-- The canonical quiet NaN of scalar FP32 (02 R76). -/
def canonNan : Nat := 0x7FC00000

/-- Exception flags in TE bit order: NV 4, DZ 3, OF 2, UF 1, NX 0 (02 R62). -/
def flagNV : Nat := 16
def flagDZ : Nat := 8
def flagOF : Nat := 4
def flagUF : Nat := 2
def flagNX : Nat := 1

/-- Underflow is raised when the result is tiny and inexact; where tininess before and after rounding differ, the choice is
the implementation's. -/
def tinyFlag (m : Nat) (e : Int) (code : Nat) : Bool :=
  let before := decide (floorLog2 m e < -126)
  let q := floorLog2 m e - 23
  let (n, rem, den) := splitUnits m e q
  let after := before && decide (floorLog2 (roundUnits .rne n rem den) q < -126) && decide (code ≤ 2 ^ 23)
  if before == after then after else Config.tininessBefore

/-- Narrows a value to binary32 by round to nearest even, with its flags (02 R76). A NaN gives the pattern nanPat. -/
def roundFP32 (nanPat : Nat) : FV → Nat × Nat
  | .nan _ _ => (nanPat, 0)
  | .inf neg => (fmtFP32.withSign neg 0x7F800000, 0)
  | .num neg m e =>
    let (code, inexact) := fmtFP32.roundMag .rne m e
    if code > fmtFP32.maxCode then (fmtFP32.withSign neg 0x7F800000, flagOF + flagNX)
    else if inexact then
      (fmtFP32.withSign neg code, flagNX + (if tinyFlag m e code then flagUF else 0))
    else (fmtFP32.withSign neg code, 0)

/-- The binary32 value of a pattern. -/
def fp32 (n : Nat) : FV := fmtFP32.decode n

def FV.isNan : FV → Bool
  | .nan _ _ => true
  | _ => false

def FV.isSig : FV → Bool
  | .nan _ s => s
  | _ => false

def FV.isInf : FV → Bool
  | .inf _ => true
  | _ => false

def FV.neg? : FV → Bool
  | .nan n _ => n
  | .inf n => n
  | .num n _ _ => n

def FV.isZero : FV → Bool
  | .num _ m _ => m == 0
  | _ => false

def FV.negate : FV → FV
  | .nan n s => .nan (!n) s
  | .inf n => .inf (!n)
  | .num n m e => .num (!n) m e

/-- The signed integer a value is at exponent q, for q at most its own exponent. -/
def FV.scaled (q : Int) : FV → Int
  | .num neg m e => let k : Int := (m <<< (e - q).toNat : Nat); if neg then -k else k
  | _ => 0

def FV.exp : FV → Int
  | .num _ _ e => e
  | _ => 0

/-- The exact sum, and whether the operation is invalid. A zero sum of unlike signs is +0, of like signs keeps the sign. -/
def FV.add (a b : FV) : FV × Bool :=
  match a, b with
  | .nan n _, _ => (.nan n false, false)
  | _, .nan n _ => (.nan n false, false)
  | .inf x, .inf y => if x == y then (.inf x, false) else (.nan false false, true)
  | .inf x, .num _ _ _ => (.inf x, false)
  | .num _ _ _, .inf y => (.inf y, false)
  | .num x m e, .num y n f =>
    let q := min e f
    let k := (FV.num x m e).scaled q + (FV.num y n f).scaled q
    if k = 0 then (.num (if m == 0 && n == 0 then x && y else false) 0 q, false)
    else (.num (decide (k < 0)) k.natAbs q, false)

/-- The exact product, and whether the operation is invalid. -/
def FV.mul (a b : FV) : FV × Bool :=
  match a, b with
  | .nan n _, _ => (.nan n false, false)
  | _, .nan n _ => (.nan n false, false)
  | .inf x, .inf y => (.inf (x != y), false)
  | .inf x, .num y n _ => if n = 0 then (.nan false false, true) else (.inf (x != y), false)
  | .num x m _, .inf y => if m = 0 then (.nan false false, true) else (.inf (x != y), false)
  | .num x m e, .num y n f => (.num (x != y) (m * n) (e + f), false)

/-- A quotient of magnitudes kept to more than 64 significant bits, a dropped remainder held in the lowest bit. -/
def quotientSticky (m n : Nat) : Nat × Int :=
  let k := 66 + Nat.log2 n
  let q := (m <<< k) / n
  (2 * q + (if (m <<< k) % n = 0 then 0 else 1), -(k : Int) - 1)

/-- The quotient, whether the operation is invalid and whether it divides by zero. -/
def FV.div (a b : FV) : FV × Bool × Bool :=
  match a, b with
  | .nan n _, _ => (.nan n false, false, false)
  | _, .nan n _ => (.nan n false, false, false)
  | .inf _, .inf _ => (.nan false false, true, false)
  | .inf x, .num y _ _ => (.inf (x != y), false, false)
  | .num x _ _, .inf y => (.num (x != y) 0 0, false, false)
  | .num x m e, .num y n f =>
    if n = 0 then
      if m = 0 then (.nan false false, true, false) else (.inf (x != y), false, true)
    else
      let (q, d) := quotientSticky m n
      (.num (x != y) q (e - f + d), false, false)

/-- The integer square root of n, found bit by bit from 2^k down. -/
def isqrtFrom : Nat → Nat → Nat → Nat
  | 0, _, r => r
  | k + 1, n, r => if (r + 2 ^ k) * (r + 2 ^ k) ≤ n then isqrtFrom k n (r + 2 ^ k) else isqrtFrom k n r

def isqrt (n : Nat) : Nat := isqrtFrom (Nat.log2 n / 2 + 1) n 0

/-- The square root, kept to more than 64 significant bits with a sticky lowest bit, and whether the operation is invalid. -/
def FV.sqrt (a : FV) : FV × Bool :=
  match a with
  | .nan n _ => (.nan n false, false)
  | .inf x => if x then (.nan false false, true) else (.inf false, false)
  | .num x m e =>
    if m = 0 then (.num x 0 0, false)
    else if x then (.nan false false, true)
    else
      let odd := e % 2 ≠ 0
      let m' := (if odd then 2 * m else m) <<< 136
      let e' := (if odd then e - 1 else e) - 136
      let r := isqrt m'
      (.num false (2 * r + (if r * r = m' then 0 else 1)) (e' / 2 - 1), false)

/-- Whether a < b, for values that are not NaN; −0 and +0 are equal. -/
def FV.lt (a b : FV) : Bool :=
  match a, b with
  | .inf x, .inf y => x && !y
  | .inf x, .num _ _ _ => x
  | .num _ _ _, .inf y => !y
  | .num x m e, .num y n f =>
    let q := min e f
    decide ((FV.num x m e).scaled q < (FV.num y n f).scaled q)
  | _, _ => false

/-- Whether a and b are equal as numbers. -/
def FV.eq (a b : FV) : Bool := !a.isNan && !b.isNan && !a.lt b && !b.lt a

/-- minimumNumber: a NaN operand yields the other; −0 is below +0 (02 R76, 09 R346). -/
def FV.minNum (a b : FV) : FV :=
  if a.isNan then b else if b.isNan then a
  else if a.lt b then a else if b.lt a then b else if a.neg? then a else b

/-- maximumNumber. -/
def FV.maxNum (a b : FV) : FV :=
  if a.isNan then b else if b.isNan then a
  else if b.lt a then a else if a.lt b then b else if a.neg? then b else a

/-- FP32 operations of the array's neighbours (vector unit, drain, engines, reaps): round to nearest even, subnormals kept,
no flags; op numbers the operation for the free NaN pattern. -/
def f32 (op a b : Nat) (v : FV) : Nat := (roundFP32 (freeNan op a b) v).1

def f32add (a b : Nat) : Nat := f32 0 a b (FV.add (fp32 a) (fp32 b)).1
def f32sub (a b : Nat) : Nat := f32 1 a b (FV.add (fp32 a) (fp32 b).negate).1
def f32mul (a b : Nat) : Nat := f32 2 a b (FV.mul (fp32 a) (fp32 b)).1
def f32div (a b : Nat) : Nat := f32 3 a b (FV.div (fp32 a) (fp32 b)).1
def f32sqrt (a : Nat) : Nat := f32 4 a 0 (FV.sqrt (fp32 a)).1
def f32fma (a b c : Nat) : Nat := f32 5 a b (FV.add (FV.mul (fp32 a) (fp32 b)).1 (fp32 c)).1
def f32min (a b : Nat) : Nat := f32 6 a b (FV.minNum (fp32 a) (fp32 b))
def f32max (a b : Nat) : Nat := f32 7 a b (FV.maxNum (fp32 a) (fp32 b))
def f32abs (a : Nat) : Nat := a % 2 ^ 31
def f32neg (a : Nat) : Nat := if a.testBit 31 then a - 2 ^ 31 else a + 2 ^ 31
def f32lt (a b : Nat) : Bool := !(fp32 a).isNan && !(fp32 b).isNan && (fp32 a).lt (fp32 b)
def f32one : Nat := 0x3F800000

/-- An integer as FP32, by round to nearest even. -/
def f32ofInt (i : Int) : Nat := f32 8 0 0 (.num (decide (i < 0)) i.natAbs 0)

/-- The FP32 pattern of a value. -/
def f32of (v : FV) : Nat := f32 9 0 0 v

/-- The exact conversion of a decoded element to FP32: a NaN keeps its sign, its payload is free (03 R151, 04 R157). -/
def f32exact (v : FV) : Nat :=
  match v with
  | .nan neg _ => boolN neg * 2 ^ 31 + f32of v % 2 ^ 31
  | _ => f32of v

/-- 2^k as FP32, for −126 ≤ k ≤ 127. -/
def f32pow2 (k : Int) : Nat := (k + 127).toNat * 2 ^ 23

/-- Whether a pattern is finite. -/
def f32finite (a : Nat) : Bool := a / 2 ^ 23 % 256 != 255

def f32isNan (a : Nat) : Bool := (fp32 a).isNan
def f32isInf (a : Nat) : Bool := (fp32 a).isInf
def f32isZero (a : Nat) : Bool := a % 2 ^ 31 == 0

/-- floor(log2 |x|) of a finite non-zero FP32 pattern (04 R173). -/
def f32expo (a : Nat) : Int :=
  match fp32 a with
  | .num _ m e => floorLog2 m e
  | _ => 0

/-- m × 2^e with the low zero bits of m moved to the exponent; the first argument bounds them. -/
def stripZeros : Nat → Nat → Int → Nat × Int
  | 0, m, e => (m, e)
  | k + 1, m, e => if m % 2 = 0 then stripZeros k (m / 2) (e + 1) else (m, e)

/-- Every order of adding the values in FP32 is exact: their magnitudes sum below 2^24 of the smallest unit among them. -/
def sumsExactly (l : List Nat) : Bool :=
  let parts := (l.filter (fun x => !f32isZero x)).map (fun x => match fp32 x with
    | .num _ m e => stripZeros 24 m e
    | _ => (0, 0))
  let q : Int := parts.foldl (fun (q : Int) p => min q p.2) 104
  let total : Nat := (parts.map (fun p => p.1 <<< (p.2 - q).toNat)).foldl (fun a b => a + b) 0
  l.all f32finite && decide (total < 2 ^ 24)

/-- A sum in list order. -/
def f32sumIn : List Nat → Nat
  | [] => 0
  | a :: as => as.foldl f32add a

/-- A sum of values in the order that Config.sumPick gives: two of them give way to their sum. The first argument bounds the additions. -/
def f32sumBy (seed : List Nat) : Nat → List Nat → Nat
  | _, [] => 0
  | _, [x] => x
  | 0, x :: _ => x
  | n + 1, l =>
    let i := Config.sumPick seed (2 * n) % l.length
    let rest := l.eraseIdx i
    let j := Config.sumPick seed (2 * n + 1) % rest.length
    f32sumBy seed n (rest.eraseIdx j ++ [f32add (l.getD i 0) (rest.getD j 0)])

/-- A sum whose order no rule states: the order is free, and shows only where two orders differ. -/
def f32sum (l : List Nat) : Nat := if sumsExactly l then f32sumIn l else f32sumBy l l.length l

/-- The exact sum of finite values. -/
def FV.sum (l : List FV) : FV := l.foldl (fun a x => (FV.add a x).1) (.num false 0 0)

/-! Scalar FP32 with flags (02 R76). -/

/-- A scalar result and the exception flags it raises. -/
structure FRes where
  bits : Nat
  flags : Nat
  deriving DecidableEq, Repr

/-- The flags of an operation with operands a and b (signalling NaN) and an invalid mark. -/
def scalarRes (sig inv dz : Bool) (v : FV) : FRes :=
  let (bits, fl) := roundFP32 canonNan v
  ⟨bits, fl + (if sig || inv then flagNV else 0) + (if dz then flagDZ else 0)⟩

def sigAny (a b : FV) : Bool := a.isSig || b.isSig

def faddS (a b : Nat) : FRes := let (v, i) := (fp32 a).add (fp32 b); scalarRes (sigAny (fp32 a) (fp32 b)) i false v
def fsubS (a b : Nat) : FRes := let (v, i) := (fp32 a).add (fp32 b).negate; scalarRes (sigAny (fp32 a) (fp32 b)) i false v
def fmulS (a b : Nat) : FRes := let (v, i) := (fp32 a).mul (fp32 b); scalarRes (sigAny (fp32 a) (fp32 b)) i false v
def fdivS (a b : Nat) : FRes :=
  let (v, i, d) := (fp32 a).div (fp32 b); scalarRes (sigAny (fp32 a) (fp32 b)) i d v
def fminS (a b : Nat) : FRes := scalarRes (sigAny (fp32 a) (fp32 b)) false false (FV.minNum (fp32 a) (fp32 b))
def fmaxS (a b : Nat) : FRes := scalarRes (sigAny (fp32 a) (fp32 b)) false false (FV.maxNum (fp32 a) (fp32 b))
def fsqrtS (a : Nat) : FRes := let (v, i) := (fp32 a).sqrt; scalarRes (fp32 a).isSig i false v

/-- Fused multiply-add: one rounding of the exact a × b + c. Infinity times zero is invalid also with a quiet NaN addend,
as one of the two choices IEEE 754-2019 allows (see the log). -/
def ffmaS (a b c : Nat) : FRes :=
  let (p, i) := (fp32 a).mul (fp32 b)
  let (v, j) := p.add (fp32 c)
  scalarRes (sigAny (fp32 a) (fp32 b) || (fp32 c).isSig) (i || j) false v

/-- Signed 64-bit integer to FP32. -/
def i2fS (i : Int) : FRes := scalarRes false false false (.num (decide (i < 0)) i.natAbs 0)

/-- FP32 to signed 64-bit integer, toward zero and saturated (02 R76). -/
def f2iS (a : Nat) : Word × Nat :=
  match fp32 a with
  | .nan _ _ => (0, flagNV)
  | .inf neg => (BitVec.ofInt 64 (if neg then -(2 ^ 63) else 2 ^ 63 - 1), flagNV)
  | .num neg m e =>
    let (n, rem, _) := splitUnits m e 0
    let i : Int := if neg then -(n : Int) else n
    if i < -(2 ^ 63) then (BitVec.ofInt 64 (-(2 ^ 63)), flagNV)
    else if i > 2 ^ 63 - 1 then (BitVec.ofInt 64 (2 ^ 63 - 1), flagNV)
    else (BitVec.ofInt 64 i, if rem = 0 then 0 else flagNX)

/-- FCMP: 0 EQ, 1 LT, 2 LE, 3 UN; NV only for a signalling NaN (02 R76). -/
def fcmpS (cond a b : Nat) : Bool × Nat :=
  let x := fp32 a
  let y := fp32 b
  let un := x.isNan || y.isNan
  let r := match cond with
    | 0 => x.eq y
    | 1 => !un && x.lt y
    | 2 => !un && !(y.lt x)
    | _ => un
  (r, if sigAny x y then flagNV else 0)

/-! Conversion to the narrow formats (04 R156, R157). -/

/-- Converts a value to a binary format: out-of-range and special inputs by 04 R157. nan0 is the pattern of a NaN result
for the sign of x; satInf says whether an infinity saturates; rneInf whether an overflow under RNE gives infinity. -/
def BFmt.convert (f : BFmt) (satInf rneInf : Bool) (nanPat : Bool → Nat) (mode : Rnd) : FV → Nat
  | .nan neg _ => nanPat neg
  | .inf neg => f.withSign neg (if satInf then f.maxCode else (2 ^ f.ebits - 1) * 2 ^ f.mbits)
  | .num neg m e =>
    let code := (f.roundMag mode m e).1
    if code > f.maxCode then
      f.withSign neg (if rneInf && mode == .rne then (2 ^ f.ebits - 1) * 2 ^ f.mbits else f.maxCode)
    else f.withSign neg code

/-- A value as an 8-bit integer: rounded by the mode, then saturated; the flag says it saturated (03 R151, 04 R157). -/
def convertInt8 (mode : Rnd) : FV → Nat × Bool
  | .nan _ _ => (0, false)
  | .inf neg => (if neg then 0x80 else 0x7F, true)
  | .num neg m e =>
    let (n, rem, den) := splitUnits m e 0
    let k := if e ≥ 0 ∨ rem = 0 then n else roundUnits mode n rem den
    if neg then (if k > 128 then (0x80, true) else (wrapInt 8 (-(k : Int)), false))
    else if k > 127 then (0x7F, true) else (k, false)

/-- The fraction bits of log2 of x in [1, 2), found by squaring, x held in units of 2^−96. -/
def log2Bits : Nat → Nat → Nat
  | 0, _ => 0
  | k + 1, x =>
    let y := (x * x) >>> 96
    if y ≥ 2 ^ 97 then 2 ^ k + log2Bits k (y >>> 1) else log2Bits k y

/-- 4 × log2(m × 2^e) + 224 in units of 2^−32 (04 R155: at least 16 fractional bits). -/
def u8logL (m : Nat) (e : Int) : Int :=
  let k := Nat.log2 m
  let x := if k ≤ 96 then m <<< (96 - k) else m >>> (k - 96)
  4 * (((k : Int) + e) * 2 ^ 32 + (log2Bits 32 x : Int)) + 224 * 2 ^ 32

/-- Converts a value to U8LOG (04 R155). -/
def convertU8Log (mode : Rnd) : FV → Nat
  | .nan _ _ => 0xFF
  | .inf neg => if neg then 0xFF else 254
  | .num neg m e =>
    if m = 0 then 0
    else if neg then 0xFF
    else
      let l := u8logL m e
      if l < 0 then 0
      else
        let n := l.toNat / 2 ^ 32
        if n ≥ 254 then 254 else min 254 (roundUnits mode n (l.toNat % 2 ^ 32) (2 ^ 32))

/-- 2^(r/4) in units of 2^−23, rounded to nearest, r = 0–3. -/
def quarterPow (r : Nat) : Nat :=
  match r with
  | 0 => 8388608
  | 1 => 9975792
  | 2 => 11863283
  | _ => 14107901

/-- Decodes U8LOG: the FP32 value nearest to 2^((c − 224) / 4) (04 R155). -/
def decodeU8Log (c : Nat) : FV :=
  if c = 0 then .num false 0 0
  else if c = 255 then .nan false false
  else .num false (quarterPow (c % 4)) ((c / 4 : Nat) - 56 - 23)

end Sys2Proof.Machine
end

