-- ==== Sys2Proof/Machine/Sparse.lean ====
section
/-!
DEFINITION. Machine/Sparse.lean: the two containers of the state, as plain lists in one canonical form. A sparse map lists
(key, value) pairs with keys strictly rising and no value equal to the default of its key. A memory lists (address, byte)
pairs in the same form, with the marks of its 64-bit words beside it: poison, latch bit, stored-code state (07 R273).
-/

namespace Sys2Proof.Machine

/-- A sparse map from numbers. -/
abbrev Sparse (α : Type) := List (Nat × α)

/-- The value at a key, or the default. -/
def spGet {α : Type} (d : α) : Sparse α → Nat → α
  | [], _ => d
  | (k, v) :: r, j => if j = k then v else spGet d r j

/-- Whether a key is listed. -/
def spHas {α : Type} : Sparse α → Nat → Bool
  | [], _ => false
  | (k, _) :: r, j => j == k || spHas r j

/-- Removes a key. -/
def spErase {α : Type} (m : Sparse α) (k : Nat) : Sparse α := m.filter (fun p => p.1 != k)

/-- Lists a value at a key, in key order, replacing what was there. -/
def spInsert {α : Type} : Sparse α → Nat → α → Sparse α
  | [], k, v => [(k, v)]
  | (k', v') :: r, k, v =>
    if k < k' then (k, v) :: (k', v') :: r
    else if k = k' then (k, v) :: r
    else (k', v') :: spInsert r k v

/-- Sets the value at a key whose default is d: the default is not listed. -/
def spSet {α : Type} [DecidableEq α] (d : α) (m : Sparse α) (k : Nat) (v : α) : Sparse α :=
  if v = d then spErase m k else spInsert m k v

/-- Changes the value at a key. -/
def spUpd {α : Type} [DecidableEq α] (d : α) (m : Sparse α) (k : Nat) (f : α → α) : Sparse α :=
  spSet d m k (f (spGet d m k))

/-- The canonical form: keys strictly rising, no default listed. -/
abbrev spWf {α : Type} [DecidableEq α] (d : Nat → α) (m : Sparse α) : Prop :=
  m.Pairwise (fun a b => a.1 < b.1) ∧ ∀ p ∈ m, p.2 ≠ d p.1

/-- The stored-code state of a word: what the next read of it finds (07 R273, R274). -/
inductive Ecc where
  | clean
  | oneBit
  | twoBit
  | unc
  deriving DecidableEq, Repr

/-- The marks of a 64-bit word: poisoned, latch bit full, stored-code state. -/
structure Mark where
  poison : Bool := false
  full : Bool := false
  ecc : Ecc := .clean
  deriving DecidableEq, Repr

/-- The mark of an unlisted word: not poisoned, empty, readable. -/
def Mark.none : Mark := {}

/-- A memory of bytes with the marks of its 64-bit words, keyed by byte address / 8. An unlisted byte reads 0
(notes/assumptions/4.md). -/
structure Mem where
  bytes : List Host.Cell := []
  marks : Sparse Mark := []
  deriving DecidableEq, Repr

/-- The byte at an address. -/
def Mem.byte (m : Mem) (a : Nat) : Byte := spGet (0 : Byte) m.bytes a

/-- The mark of word w (byte addresses 8 w to 8 w + 7). -/
def Mem.mark (m : Mem) (w : Nat) : Mark := spGet Mark.none m.marks w

def Mem.setByte (m : Mem) (a : Nat) (b : Byte) : Mem := { m with bytes := spSet (0 : Byte) m.bytes a b }

def Mem.setMark (m : Mem) (w : Nat) (k : Mark) : Mem := { m with marks := spSet Mark.none m.marks w k }

/-- Writes bytes from an address on, marks untouched. -/
def Mem.setBytes (m : Mem) : Nat → List Byte → Mem
  | _, [] => m
  | a, b :: bs => (m.setByte a b).setBytes (a + 1) bs

/-- n bytes from an address on. -/
def Mem.getBytes (m : Mem) : Nat → Nat → List Byte
  | _, 0 => []
  | a, n + 1 => m.byte a :: m.getBytes (a + 1) n

/-- The canonical form of a memory. -/
abbrev Mem.Wf (m : Mem) : Prop := spWf (fun _ => (0 : Byte)) m.bytes ∧ spWf (fun _ => Mark.none) m.marks

end Sys2Proof.Machine
end

