-- ==== Sys2Proof/Machine/MemOps.lean ====
section
/-!
DEFINITION. Machine/MemOps.lean: reading and writing a memory by 64-bit words, with poison (07 R261, R275) and the treatment of a
word found uncorrectable (07 R274).
-/

namespace Sys2Proof.Machine

/-- What a read or write left: the memory, the bytes read, the poison of each word touched, and the byte addresses of the
words found uncorrectable (07 R274 step 4 records each). -/
structure MemAcc where
  mem : Mem
  data : List Byte := []
  pois : List Bool := []
  found : List Nat := []
  deriving DecidableEq, Repr

/-- Whether any word of an access was poisoned. -/
def MemAcc.poison (r : MemAcc) : Bool := r.pois.any id

/-- The number the bytes read spell. -/
def MemAcc.value (r : MemAcc) : Nat := ofBytes r.data

/-- A read of word w looks at its check bits: an uncorrectable word becomes poison with its latch bit full (07 R274). -/
def Mem.probe (m : Mem) (w : Nat) : Mem × Bool :=
  if (m.mark w).ecc = .unc then (m.setMark w { poison := true, full := true, ecc := .clean }, true) else (m, false)

/-- Probes n words from word w on: the memory, the poison of each and those found uncorrectable. -/
def Mem.probes (m : Mem) (w : Nat) : Nat → Mem × List Bool × List Nat
  | 0 => (m, [], [])
  | n + 1 =>
    let (m1, bad) := m.probe w
    let (m2, ps, fs) := m1.probes (w + 1) n
    (m2, (m1.mark w).poison :: ps, if bad then 8 * w :: fs else fs)

/-- The number of words that n bytes at address a touch. -/
def wordSpan (a n : Nat) : Nat := if n = 0 then 0 else (a + n - 1) / 8 + 1 - a / 8

/-- Among n words from word w on, those whose errors a read corrects (07 R276). -/
def Mem.corrected (m : Mem) (w n : Nat) : Nat :=
  ((List.range n).filter (fun i => (m.mark (w + i)).ecc == .oneBit || (m.mark (w + i)).ecc == .twoBit)).length

/-- The corrected words among those that a write of n bytes at address a has to read, since it replaces a part of them only. -/
def Mem.merged (m : Mem) (a n : Nat) : Nat :=
  ((if a % 8 = 0 && 8 ≤ n then [] else [a / 8]) ++ (if (a + n) % 8 = 0 then [] else [(a + n) / 8])).eraseDups.foldl
    (fun k w => k + m.corrected w 1) 0

/-- Reads n bytes at address a. -/
def Mem.read (m : Mem) (a n : Nat) : MemAcc :=
  let (m', ps, fs) := m.probes (a / 8) (wordSpan a n)
  { mem := m', data := m'.getBytes a n, pois := ps, found := fs }

/-- Writes bytes inside one word. A poisoned write makes the whole word poison; a partial write to a poisoned word changes
nothing; a full write clears the poison (07 R261). latchy: the memory keeps latch bits, so every write reads the word. -/
def Mem.writeWord (m : Mem) (latchy poison : Bool) (a : Nat) (bs : List Byte) : Mem × List Nat :=
  let w := a / 8
  let whole := bs.length == 8
  let (m1, bad) := if latchy || !whole then m.probe w else (m, false)
  let k := m1.mark w
  let m2 :=
    if poison then m1.setMark w { k with poison := true, ecc := .clean }
    else if whole then (m1.setBytes a bs).setMark w { k with poison := false, ecc := .clean }
    else if k.poison then m1
    else (m1.setBytes a bs).setMark w { k with ecc := .clean }
  (m2, if bad then [8 * w] else [])

/-- Writes bytes from an address on, word by word; the first argument bounds the number of words. -/
def Mem.writeFrom (latchy poison : Bool) : Nat → Mem → Nat → List Byte → Mem × List Nat
  | 0, m, _, _ => (m, [])
  | k + 1, m, a, bs =>
    if bs.isEmpty then (m, [])
    else
      let room := 8 - a % 8
      let (m1, f1) := m.writeWord latchy poison a (bs.take room)
      let (m2, f2) := Mem.writeFrom latchy poison k m1 (a + room) (bs.drop room)
      (m2, f1 ++ f2)

/-- Writes bytes at an address. -/
def Mem.write (m : Mem) (latchy poison : Bool) (a : Nat) (bs : List Byte) : MemAcc :=
  let (m', fs) := Mem.writeFrom latchy poison (bs.length + 1) m a bs
  { mem := m', found := fs }

/-- Sets the latch bit of word w. -/
def Mem.setFull (m : Mem) (w : Nat) (b : Bool) : Mem := m.setMark w { m.mark w with full := b }

/-- Zeroes n bytes from a on, latch bits empty, poison and errors gone (07 R253, 02 R101). -/
def Mem.zeroRange (m : Mem) (a n : Nat) : Mem :=
  { bytes := m.bytes.filter (fun p => p.1 < a || a + n ≤ p.1)
    marks := m.marks.filter (fun p => 8 * p.1 < a || a + n ≤ 8 * p.1) }

/-- Clears every latch bit; an uncorrectable word is rewritten as poison with its latch bit empty (09 R351). -/
def Mem.clearLatches (m : Mem) : Mem × List Nat :=
  let fix (k : Mark) : Mark :=
    if k.ecc = .unc then { poison := true, full := false, ecc := .clean } else { poison := k.poison, full := false, ecc := .clean }
  ({ m with marks := (m.marks.map (fun p => (p.1, fix p.2))).filter (fun p => p.2 ≠ Mark.none) },
    (m.marks.filter (fun p => p.2.ecc = .unc)).map (fun p => 8 * p.1))

end Sys2Proof.Machine
end

