-- ==== Sys2Proof/Machine/StateCore.lean ====
section
/-!
DEFINITION. Machine/StateCore.lean: the state of the grid, of a core's threads and of its load/store unit (01, 02, 07, 09).
Every structure is plain data; a field's default is its reset value.
-/

namespace Sys2Proof.Machine

/-! ## Grid (01) -/

/-- The state of a logical position in the core fence map (01 R25). -/
inductive CoreFence where
  | active
  | moved
  | fencing
  | hole
  deriving DecidableEq, Repr

/-- Test-time map of one furrow, from fuses (01 R12–R16): fused off, and the site that failed test (31: none). -/
structure FurrowFuse where
  fused : Bool := false
  bad : Nat := 31
  deriving DecidableEq, Repr

/-- One field fence in the Ward's sealed record (01 R23): furrow (die × 24 + physical row), physical column, router dead, and
whether the position became a hole. -/
structure FenceRec where
  furrow : Nat
  col : Nat
  deadRtr : Bool
  hole : Bool
  deriving DecidableEq, Repr

/-- A fence procedure in progress (01 R17): the logical position, whether its memories can be read, whether its router died, whether the new map
has been written, and the cores that do not hold yet. -/
structure FenceProc where
  pos : Nat
  readable : Bool
  deadRtr : Bool
  cause : Nat
  /-- The furrow has no spare: the position becomes a hole. -/
  hole : Bool
  mapWritten : Bool
  /-- Cores that have still to reach their next gate generation, at which they hold. -/
  running : List Nat := []
  deriving DecidableEq, Repr

structure Grid where
  /-- Test-time map by furrow. -/
  fuses : Sparse FurrowFuse := []
  /-- The sealed record of field fences, oldest first; it survives every reset. -/
  fences : List FenceRec := []
  /-- Skip site and spare of each furrow as the map in force has them: column, spare free. Unlisted: as the test-time map
  gives them. -/
  skips : Sparse (Nat × Bool) := []
  /-- Core fence map STATE by logical position. -/
  pos : Sparse CoreFence := []
  /-- Sites (die × 600 + row × 25 + column) whose router is dead. -/
  dead : List Nat := []
  proc : Option FenceProc := none
  /-- Detours that keeper code wrote, by source site, destination site (01 R34: the layout is not given). -/
  detours : List (Nat × Nat × Nat) := []
  deriving DecidableEq, Repr

/-! ## Threads (02) -/

/-- TSTAT.STATE (02 R54). -/
inductive TState where
  | stopped
  | running
  | waiting
  | faulted
  | halted
  | held
  deriving DecidableEq, Repr

/-- A general register: value and poison bit. -/
structure GReg where
  v : Word := 0
  p : Bool := false
  deriving DecidableEq, Repr

/-- A mask register. -/
structure MReg where
  v : BitVec 32 := 0
  p : Bool := false
  deriving DecidableEq, Repr

/-- A scale vector: 32 FP32 lanes, lane n in bits [32 n + 31 : 32 n]. -/
structure SReg where
  v : BitVec 1024 := 0
  p : Bool := false
  deriving DecidableEq, Repr

/-- An exception: code, sub-code, XINFO (02 R100). -/
structure Exc where
  code : Nat
  sub : Nat
  info : Word
  deriving DecidableEq, Repr

/-- What a WAITING thread waits for (02 R54). -/
inductive WaitOn where
  | none
  | latch (req : Nat)
  | gate (g gen rd : Nat) (sync : Bool)
  | reap (ctx rd : Nat)
  deriving DecidableEq, Repr

/-- A translation walk a thread waits for (02 R83): virtual address with tag, and whether a store asks. -/
structure WalkReq where
  va : Nat
  write : Bool
  deriving DecidableEq, Repr

/-- The registers a thread computes with (02 R59). p0, m0 and g0 are hard-wired in the accessors. -/
structure Regs where
  g : Sparse GReg := []
  p : BitVec 8 := 1
  m : Sparse MReg := []
  sv : Sparse SReg := []
  deriving DecidableEq, Repr

/-- The fields of TSTAT that are stored (02 R62); TID is the thread's number and XPEND says a deferred exception is held. -/
structure TStat where
  xsub : BitVec 8 := 0
  xcode : BitVec 8 := 0
  flags : BitVec 5 := 0
  state : TState := .stopped
  pm : Bool := false
  xact : Bool := false
  teIdz : Bool := false
  te : BitVec 5 := 0
  deriving DecidableEq, Repr

/-- Keeper-mode registers of a thread (02 R87). -/
structure KRegs where
  xpc : Word := 0
  xstat : Word := 0
  xinfo : Word := 0
  kscr0 : Word := 0
  kscr1 : Word := 0
  kscr2 : Word := 0
  kscr3 : Word := 0
  wwdog : Word := 0
  deriving DecidableEq, Repr

structure Thread where
  pc : Word := 0
  regs : Regs := {}
  st : TStat := {}
  k : KRegs := {}
  twCount : BitVec 6 := 0
  twBase : BitVec 5 := 0
  /-- A remote TWIN write waiting for the thread's tile operations (07 R556). -/
  twPend : Option (BitVec 6 × BitVec 5) := none
  /-- The deferred exception that is pending (02 R98). -/
  deferred : Option Exc := none
  wait : WaitOn := .none
  walk : Option WalkReq := none
  /-- A stop has been asked for and not yet reached (02 R89): the requesters' (thread, gd). -/
  stopReq : Option (List (Nat × Nat)) := none
  /-- The stop asked for is a debugger's: it ends in HALTED (13 R472). -/
  haltReq : Bool := false
  /-- A debugger's single step: the thread is HALTED again at its next instruction boundary (13 R472). -/
  step : Bool := false
  /-- A stop was recorded while HELD (02 R89). -/
  stopHeld : Bool := false
  /-- HELD by the fence procedure or a quiescing, rather than by a reset (01 R17). -/
  fenceHeld : Bool := false
  deriving DecidableEq, Repr

/-! ## Load/store unit (02 R84, R85; 09 R326) -/

/-- What a request does when it is served. -/
inductive ReqKind where
  | load (rd size : Nat) (signed : Bool)
  | loadS (sd : Nat)
  | store
  | take (rd : Nat)
  | peek (rd : Nat)
  | fill
  | put
  | clear
  deriving DecidableEq, Repr

/-- Where a request stands: on its way, held for a user table (04 R160), waiting at a word, returned from a full waiter table,
or answered. -/
inductive ReqStage where
  | sent
  | tableHeld
  | waiting
  | returned
  | done
  deriving DecidableEq, Repr

/-- Why a latch wait is being cancelled (09 R332). -/
inductive CancelWhy where
  | watchdog
  | stop
  | deferred
  | reset
  deriving DecidableEq, Repr

/-- How a request travels (01 R34): over no network (own memories, a hit in the L1), row first, column first, by a detour that keeper
code has written, or not at all as yet, where both paths are cut and no detour is written. -/
inductive Route where
  | own
  | rowFirst
  | columnFirst
  | detour (v : Nat)
  | cut
  deriving DecidableEq, Repr

/-- One outstanding request: it holds a slot from issue to its response. -/
structure Req where
  id : Nat
  thread : Nat
  kind : ReqKind
  /-- The address of the instruction, with its tag. -/
  va : Nat
  /-- The core whose memory it reaches, for LOCAL, GRANARY, CORE and CGRAN. -/
  target : Nat
  /-- Offset in the target's memory. -/
  off : Nat
  /-- Issued in job mode. -/
  job : Bool
  /-- Data of a store and its poison. -/
  data : List Byte
  poison : Bool
  stage : ReqStage
  /-- The answer of a load, and its poison. -/
  resp : Nat
  respPoison : Bool
  /-- Entries of the thread to keeper mode since issue that no XRET has ended (02 R96). -/
  orphan : Nat
  /-- A later instruction has written the destination since such an entry. -/
  superseded : Bool
  cancel : Option CancelWhy
  route : Route := .own
  /-- The place of its answer among those its core's requests have been given (01 R36). -/
  ans : Nat := 0
  deriving DecidableEq, Repr

/-- A line of the L1 data cache: space tag 1 GRANARY, 3 CGRAN, 4 BULK; target core or key slot; line address / 64. -/
structure L1Line where
  space : Nat
  owner : Nat
  line : Nat
  data : List Byte
  pois : List Bool
  deriving DecidableEq, Repr

/-- A translation entry (07 R268): space tag, level of its leaf, virtual page number at that level, the leaf as held. -/
structure TlbEntry where
  space : Nat
  level : Nat
  vpn : Nat
  leaf : Word
  deriving DecidableEq, Repr

/-- A line of the granary cache (07 R254): bulk line address / 256, key slot, dirty bit of each 64-byte sector. -/
structure GLine where
  line : Nat
  slot : Nat
  dirty : BitVec 4
  data : List Byte
  pois : List Bool
  deriving DecidableEq, Repr

/-- A waiter in the latch unit of the core that owns the word (09 R326): memory (granary or local), word index, what it
waits to do, and the request it belongs to. -/
structure Waiter where
  gran : Bool
  word : Nat
  kind : ReqKind
  core : Nat
  req : Nat
  data : List Byte
  poison : Bool
  deriving DecidableEq, Repr

/-- A word written with ST.PUT that waits for the end of a JSWITCH's clearing: granary or local, byte address, data, poison. -/
structure HeldPut where
  gran : Bool
  addr : Nat
  data : List Byte
  poison : Bool
  deriving DecidableEq, Repr

/-- Granary split, maintenance registers and translation roots (07 R251, R256, R266). -/
structure MemCtl where
  csteps : Nat := 0
  gcaddr : Word := 0
  gclen : Word := 0
  gcop : Nat := 0
  /-- The operation that runs while BUSY. -/
  gcrun : Nat := 0
  gcbusy : Bool := false
  /-- The operation's write-backs are made; BUSY clears once they are acknowledged. -/
  gcdone : Bool := false
  trootb : Word := 0
  trootf : Word := 0
  trooth : Word := 0
  deriving DecidableEq, Repr

/-- Control registers of core scope (02 R87) and what belongs to the issue stage. -/
structure CoreCtl where
  kvec : Word := 0x000B0000
  klim : Word := 0x000B0000
  twdog : Word := 0
  stallsel : Word := 0
  cycle : Word := 0
  /-- The thread that last issued (02 R55); none since core reset. -/
  lastIssued : Option Nat := none
  /-- A debug session has claimed the core (02 R92). -/
  debugClaim : Bool := false
  /-- Destination registers whose write is still to come from a unit other than memory: (thread, general register). -/
  gBusy : List (Nat × Nat) := []
  /-- Scale vectors still to be written by the vector unit or the drain: (thread, scale vector). -/
  sBusy : List (Nat × Nat) := []
  deriving DecidableEq, Repr

/-! ## Gates and reaps as a core holds them (09 R339, R340, R349) -/

/-- A core's copy of a gate: c, local arrivals of the open generation and held toward the next, and whether the core arrival of
the open generation has been sent. -/
structure GateLocal where
  c : BitVec 32 := 0
  openN : Nat := 0
  heldN : Nat := 0
  sent : Bool := false
  deriving DecidableEq, Repr

/-- Who contributed to a reap (09 R349). -/
inductive ReapWho where
  | thread (t : Nat) (area : Option Nat)
  | drain (id : Nat)
  | harrow
  | governor
  deriving DecidableEq, Repr

/-- How an outstanding contribution ended without a result: a cleared EN, a JSWITCH, a hole (09 R345, R351, 01 R21). -/
inductive ReapEnd where
  | disabled
  | reset
  | hole (core : Nat)
  deriving DecidableEq, Repr

/-- A core's outstanding contribution on a context (by its number as the core names it): who, its round, the result once delivered
(lanes and flags; no lanes under ONE = 1 for other members than the root), or its end without one. -/
structure ReapOut where
  ctx : Nat
  who : ReapWho
  round : BitVec 32
  result : Option (List Nat × Nat)
  ended : Option ReapEnd
  deriving DecidableEq, Repr

/-- How far a JSWITCH has come (02 R91): stopping and draining, or sending resets (09 R351). -/
inductive JPhase where
  | draining
  | resetting
  deriving DecidableEq, Repr

/-- A JSWITCH in progress, or a GSPLIT change (07 R253), which stops the core in the same way: the issuing thread, if one. -/
structure JSwitch where
  thread : Option Nat
  phase : JPhase
  newSplit : Option Nat
  deriving DecidableEq, Repr

end Sys2Proof.Machine
end

