-- ==== Sys2Proof/Machine/StateTile.lean ====
section
/-!
DEFINITION. Machine/StateTile.lean: the tile file, the array, the vector unit and the drain of a core (03, 04), and the module's
format governor (04 R175–R178). A field's default is its reset value (03 R111).
-/

namespace Sys2Proof.Machine

/-- 128 sideband bytes of 0x7F: scale 1.0 (03 R111). -/
def sideOnes : BitVec 1024 := BitVec.ofNat 1024 (0x7F * ((2 ^ 1024 - 1) / 255))

/-- A physical tile register (03 R105): rows of 64 bytes, scale sideband, shape tag (format, rows − 1, granules − 1), poison bit
of each row and of the sideband. -/
structure TileReg where
  rows : Sparse (BitVec 512) := []
  side : BitVec 1024 := sideOnes
  fmt : Nat := 15
  nrows : Nat := 31
  gran : Nat := 7
  prow : BitVec 32 := 0
  spois : Bool := false
  deriving DecidableEq, Repr

/-- The mode of an accumulator bank (03 R132). -/
inductive AccMode where
  | empty
  | fp
  | int
  deriving DecidableEq, Repr

/-- An accumulator bank: 32 × 32 cells of 32 bits (cell (m, n) at 32 m + n), row poison, mode, sticky flags. -/
structure AccBank where
  cells : Sparse (BitVec 32) := []
  prow : BitVec 32 := 0
  mode : AccMode := .empty
  nan : Bool := false
  inf : Bool := false
  iov : Bool := false
  deriving DecidableEq, Repr

/-- A segment of a TMMA.SEG (03 R141): physical B register, last row, granules of K. -/
structure Seg where
  tb : Nat
  last : Nat
  kg : Nat
  deriving DecidableEq, Repr

/-- The convolution of a TMMA.CONV as read at issue (03 R143, R144). -/
structure ConvArg where
  d0 : Word
  d1 : Word
  d2 : Word
  d3 : Word
  p0 : Nat
  k0 : Nat
  deriving DecidableEq, Repr

/-- An array pass: what its instruction fixed at issue. Rows and columns are counts; registers are physical. -/
structure Pass where
  id : Nat
  thread : Nat
  fpair : Nat
  rows : Nat
  cols : Nat
  kg : Nat
  ta : Nat
  tb : Nat
  acc : Nat
  clr : Bool
  zpad : Bool
  bt : Bool
  yk : Bool
  scl : Nat
  mr : BitVec 32
  mc : BitVec 32
  srow : BitVec 1024
  segs : List Seg
  conv : Option ConvArg
  started : Bool
  deriving DecidableEq, Repr

/-- A tile move in the queue or in occupancy (03 R118–R122). -/
structure TileMove where
  id : Nat
  thread : Nat
  store : Bool
  side : Bool
  reg : Nat
  gran : Bool
  base : Nat
  pitch : Nat
  rows : Nat
  grans : Nat
  fmt : Nat
  skew : Bool
  deriving DecidableEq, Repr

/-- A vector-on-tile operation in flight: its word, physical registers, row mask and scale-vector lanes as read at issue. -/
structure VecOp where
  id : Nat
  thread : Nat
  word : Word
  td : Nat
  ta : Nat
  tb : Nat
  mr : BitVec 32
  lanes : BitVec 1024
  deriving DecidableEq, Repr

/-- A tile register on its way over the yoke link (03 R124): source in this core, destination in the partner. -/
structure Xfer where
  id : Nat
  thread : Nat
  src : Nat
  dst : Nat
  deriving DecidableEq, Repr

/-- How far a TDRAIN has come (04 R169). -/
inductive DrainPhase where
  | issued
  /-- The first pass is over; its token contribution waits for an earlier TDRAIN's. -/
  | queued
  /-- Its row maxima are contributed and the result is awaited. -/
  | contributed
  /-- Every scale is known: the second pass can run. -/
  | scaled
  | written
  deriving DecidableEq, Repr

/-- A TDRAIN held by the drain: what issue read, and what its passes found (04 R162–R172). -/
structure DrainJob where
  id : Nat
  /-- Its place in the issue order of the core's tile operations. -/
  seq : Nat
  thread : Nat
  word : Word
  d0 : Word
  d1 : Word
  d2 : Word
  dest : Word
  td : Nat
  tz : Nat
  fmt : Nat
  rs : BitVec 1024
  zs : BitVec 1024
  job : Bool
  phase : DrainPhase
  /-- The values of each row, of both outputs of a gated backward drain. -/
  vals : List (List Nat)
  vals2 : List (List Nat)
  /-- M_r of each row, the 19 counts, poisoned rows, parameter block unreadable. -/
  rmax : List Nat
  counts : List Nat
  prow : BitVec 32
  ppois : Bool
  /-- The exponent k of q_r = 2^k for each row. -/
  qexp : List Int
  /-- Rows handed to a Drill ring. -/
  rowsOut : Nat
  deriving DecidableEq, Repr

/-- An entry of the statistics cache (04 R174): slot and 19 counters HIST 0–15, ZERO, NAN, INF. -/
structure StatEntry where
  slot : Nat
  counts : List Nat
  deriving DecidableEq, Repr

/-- Tile file, banks and what is in flight in a core's tile unit. -/
structure TileUnit where
  regs : Sparse TileReg := []
  acc0 : AccBank := {}
  acc1 : AccBank := {}
  vnan : Bool := false
  vinf : Bool := false
  viov : Bool := false
  /-- Physical registers most recently read by the array, newest first, at most four (03 R113). -/
  opCache : List Nat := []
  passes : List Pass := []
  moves : List TileMove := []
  vecs : List VecOp := []
  xfers : List Xfer := []
  nextId : Nat := 0
  deriving DecidableEq, Repr

/-- The drain and what it reads. -/
structure DrainUnit where
  jobs : List DrainJob := []
  /-- User tables U0–U3 by 32-bit word: offset / 4 from 0x0002_0000 (04 R160). -/
  tables : Sparse (BitVec 32) := []
  /-- Register writes of the control cluster to a table that a held TDRAIN names, in the order they came: offset, value. -/
  held : List (Nat × Word) := []
  /-- Statistics cache, most recently used first, at most 8 entries. -/
  stats : List StatEntry := []
  nextId : Nat := 0
  deriving DecidableEq, Repr

/-- A governor slot (04 R178): format code 0 E4M3, 1 E5M2, 2 BF16; PIN; RUN. -/
structure GovSlot where
  fmt : Nat := 1
  pin : Nat := 0
  run : Nat := 0
  deriving DecidableEq, Repr

/-- The governor's objects as a commit finds them when it starts (04 R178): a later write takes effect at the next. The thresholds are FP32
words. -/
structure GovCfg where
  enable : Bool := true
  /-- The key of the gate whose generations commit. -/
  gate : Option Nat := none
  fabric : Bool := false
  group : Nat := 0
  active : Nat := 4096
  ctx : Nat := 255
  upE4 : Nat := 0
  downE4 : Nat := 0
  upE5 : Nat := 0
  downE5 : Nat := 0
  hold : Nat := 8
  deriving DecidableEq, Repr

/-- The format governor (04 R175). -/
structure Governor where
  slots : Sparse GovSlot := []
  /-- Counters summed at the last commit, by slot. -/
  last : Sparse (List Nat) := []
  /-- Counters of the open interval at the die governors: die × 4096 + slot. -/
  dies : Sparse (List Nat) := []
  /-- Every core's format table: the format code of each slot as the last commit wrote it; 1 where unlisted. -/
  table : Sparse Nat := []
  /-- A generation of the commit gate has completed and its commit is not made (04 R175): the slots whose fabric sums are done. -/
  due : Option Nat := none
  /-- Counters summed on C0 for the commit in progress. -/
  sums : Sparse (List Nat) := []
  /-- The objects under which the commit in progress is made, and slot states written since it began, oldest first: slot, value. -/
  cfg : GovCfg := {}
  later : List (Nat × Nat) := []
  /-- Generations of the commit gate that have completed since. -/
  again : Nat := 0
  deriving DecidableEq, Repr

end Sys2Proof.Machine
end

