-- ==== Sys2Proof/Machine/StateEngine.lean ====
section
/-!
DEFINITION. Machine/StateEngine.lean: the Harrow and the Winnow (06), the Drill rings and the sowing engines (08), the gate and reap
contexts (09), and the core that holds them.
-/

namespace Sys2Proof.Machine

/-! ## Harrow and Winnow -/

/-- Where a command of an engine stands (06 R210, R226, R230): running, in EPOCH_WAIT, in REAP_WAIT, or ended with its completion
word still to be written. -/
inductive EngPhase where
  | run
  | epochWait
  | reapWait
  /-- Every output is written and the epoch word is taken; its fill is still to come (06 R226 step 4). -/
  | publish
  | ended
  deriving DecidableEq, Repr

/-- The running command of an engine: its eight words, whether its slot held an uncorrectable word, and its end. -/
structure EngCmd where
  words : List Nat
  bad : Bool
  phase : EngPhase
  /-- Epoch read by an UPDATE in EPOCH_WAIT, or the epoch word it has still to fill (06 R226). -/
  epoch : Nat
  status : Nat
  result : Nat
  /-- What an UPDATE read at its start (06 R219, R220): the eight hyperparameters, K, T and SKIP of its lane, and whether any of these words was
  poison. -/
  hyper : List Nat := []
  laneK : Nat := 0
  laneT : Nat := 0
  laneSkip : Bool := false
  inBad : Bool := false
  deriving DecidableEq, Repr

/-- An engine ring and its status (06 R208, R210). HEAD is the slot taken next; DONE counts commands completed. -/
structure EngRing where
  logn : Nat := 0
  base : Nat := 0
  en : Bool := false
  head : Nat := 0
  done : Nat := 0
  cmd : Option EngCmd := none
  deriving DecidableEq, Repr

/-- The registers of 06 R207 beside the rings. -/
structure Engines where
  harrow : EngRing := {}
  winnow : EngRing := {}
  laneN : Nat := 0
  laneBase : Nat := 0
  hwdog : Nat := 0
  deriving DecidableEq, Repr

/-! ## Drill -/

/-- Where the running descriptor of a ring stands (08 R289, R290): moving data, waiting for drain rows, its movement over (the
end steps still to come), or ended but for an arrival that cannot be counted yet (09 R340). -/
inductive DescPhase where
  | run
  | drainWait
  | moved
  /-- Its packets to another module are not all acknowledged (11 R403). -/
  | fabric
  | arrival
  deriving DecidableEq, Repr

/-- The running descriptor of a ring. -/
structure DescRun where
  seq : Nat
  words : List Nat
  bad : Bool
  phase : DescPhase
  status : Nat
  addr : Nat
  result : Nat
  /-- Rows or entries taken from the drain (08 R301). -/
  taken : Nat
  /-- Its gate arrival was dropped when the gate was disabled (09 R338). -/
  arrDropped : Bool := false
  deriving DecidableEq, Repr

/-- A posted descriptor: sequence number, posting thread, and the stores of that thread outstanding at the DPOST (08 R289):
requests, tile stores and TDRAINs (03 R118, 04 R170). -/
structure Posted where
  seq : Nat
  thread : Nat
  stores : List Nat
  moves : List Nat
  jobs : List Nat
  deriving DecidableEq, Repr

/-- A Drill ring (08 R285). -/
structure Ring where
  owner : Nat := 0
  logn : Nat := 0
  base : Nat := 0
  job : Bool := false
  en : Bool := false
  tail : Nat := 0
  done : Nat := 0
  error : Bool := false
  errStatus : Nat := 0
  errAddr : Nat := 0
  posted : List Posted := []
  cur : Option DescRun := none
  deriving DecidableEq, Repr

/-! ## Stall counters of a core (15 R539) -/

/-- Counters by index (CONTROL offset − 0x0001_0000) / 8: a 48-bit count and its wrap flag; frozen or not. -/
structure StallBank where
  counts : Sparse (Nat × Bool) := []
  frozen : Bool := false
  deriving DecidableEq, Repr

/-! ## The core -/

/-- The memories of a core and the caches in front of them. -/
structure CoreMem where
  localMem : Mem := {}
  gran : Mem := {}
  mc : MemCtl := {}
  /-- L1 lines, most recently allocated first. -/
  l1 : List L1Line := []
  /-- Translation entries, most recently loaded first, at most 256 (07 R268). -/
  tlb : List TlbEntry := []
  /-- Walker cache: space, level, virtual prefix, entry; at most 64. -/
  wcache : List TlbEntry := []
  /-- Granary-cache lines, most recently used first. -/
  gcache : List GLine := []
  /-- Waiters of the latch unit, oldest first (09 R326). -/
  latch : List Waiter := []
  /-- ST.PUTs of units other than threads that came while a JSWITCH clears, oldest first (09 R351). -/
  puts : List HeldPut := []
  deriving DecidableEq, Repr

/-- What a core holds of gates and reaps, and a job switch in progress. -/
structure CoreSync where
  gates : Sparse GateLocal := []
  reapOut : List ReapOut := []
  jsw : Option JSwitch := none
  deriving DecidableEq, Repr

structure Core where
  threads : Sparse Thread := []
  ctl : CoreCtl := {}
  reqs : List Req := []
  nextReq : Nat := 0
  /-- How many answers its requests have been given (01 R36). -/
  nextAns : Nat := 0
  mem : CoreMem := {}
  sync : CoreSync := {}
  tile : TileUnit := {}
  drain : DrainUnit := {}
  eng : Engines := {}
  rings : Sparse Ring := []
  /-- Bursts of 256 bytes left to a descriptor that is being ended (08 R293): set and cleared within one command. -/
  burst : Option Nat := none
  stall : StallBank := {}
  /-- The 256 bits of the random-bit generator since its last reseed; none: those of the last reset of the module (04 R158). -/
  seed : Option (BitVec 256) := none
  deriving DecidableEq, Repr

/-! ## Sowing engines (08 R316–R321) -/

/-- A translation stored with a schedule entry, one per 64 KiB page: physical address in bulk, or flash address, key slot, the
page's flags. -/
structure SowPage where
  flash : Bool
  base : Nat
  slot : Nat
  sh : Bool
  p : Bool
  /-- The leaf has V = 0 (a flash-backed page not resident), or KO = 1: no run-ahead fetch reads it (07 R282). -/
  late : Bool
  deriving DecidableEq, Repr

structure SowEntry where
  words : List Nat := []
  valid : Bool := false
  pages : List SowPage := []
  deriving DecidableEq, Repr

/-- A running entry: its trigger, whether it was started by SOWREDO, whether its data has been delivered, and its status. -/
structure SowRun where
  entry : Nat
  trigger : Nat
  redo : Bool
  status : Nat
  /-- Data written and latch words filled; only the gate arrival is left. -/
  delivered : Bool
  arrDropped : Bool := false
  deriving DecidableEq, Repr

structure SowEngine where
  gate : Nat := 0
  ahead : Nat := 1
  first : Nat := 0
  last : Nat := 0
  period : Nat := 0
  en : Bool := false
  base : Nat := 0
  next : Nat := 0
  errEnt : Nat := 0
  errSt : Nat := 0
  entries : Sparse SowEntry := []
  running : List SowRun := []
  /-- Entries written to SOWREDO that wait for a place among the 8 running (08 R316, R321). -/
  redos : List Nat := []
  deriving DecidableEq, Repr

/-! ## Gate and reap contexts (09 R337, R345) -/

/-- The arrivals a gate's root holds: cores for the open generation; sowing engines, control cluster and fabric for the open
generation and held toward the next (09 R339, R340, 11 R419). -/
structure GateArr where
  cores : List Nat := []
  sow : BitVec 4 := 0
  sowHeld : BitVec 4 := 0
  ctl : Bool := false
  ctlHeld : Bool := false
  fab : Nat := 0
  fabHeld : Nat := 0
  deriving DecidableEq, Repr

structure GateCtx where
  sowm : BitVec 4 := 0
  ctlm : Bool := false
  fabn : Nat := 0
  lcnt : Nat := 0
  en : Bool := false
  rows : BitVec 48 := 0
  cols : BitVec 48 := 0
  gen : BitVec 32 := 0
  refused : Bool := false
  farr : Bool := false
  evrec : Bool := false
  ccint : Bool := false
  arr : GateArr := {}
  deriving DecidableEq, Repr

/-- A member's contribution to the round in progress: lanes as FP32 patterns, flags as a bit mask. -/
structure ReapIn where
  core : Nat
  lanes : List Nat
  flags : Nat
  deriving DecidableEq, Repr

/-- A result on its way to a member: lanes (none where the member gets no data) and flags. -/
structure ReapRes where
  core : Nat
  lanes : List Nat
  flags : Nat
  deriving DecidableEq, Repr

structure ReapCtx where
  fgrp : Nat := 0
  scope : Nat := 0
  one : Bool := false
  rootr : Nat := 0
  rootc : Nat := 0
  npk : Nat := 0
  op : Nat := 0
  en : Bool := false
  rows : BitVec 48 := 0
  cols : BitVec 48 := 0
  round : BitVec 32 := 0
  refused : Bool := false
  ins : List ReapIn := []
  outs : List ReapRes := []
  /-- The module's own result has gone to the fabric group and its result is awaited (11 R416). -/
  fabric : Bool := false
  deriving DecidableEq, Repr

/-- A gate or reap reset on its way from a JSWITCH to a core in scope (09 R351). -/
structure ResetMsg where
  reap : Bool
  ctx : Nat
  origin : Nat
  target : Nat
  /-- It found its gate at c = 0 with nothing counted, and has no further effect. -/
  idle : Bool := false
  deriving DecidableEq, Repr

end Sys2Proof.Machine
end

