-- ==== Sys2Proof/Machine/StateFabric.lean ====
section
/-!
DEFINITION. Machine/StateFabric.lean: the optical fabric of the module (11). A field's default is its reset value.
-/

namespace Sys2Proof.Machine

/-- A transport packet (11 R398), its body in the clear: a data byte list and the poison of each 8-byte word. -/
structure Packet where
  opc : Nat
  dst : Nat
  src : Nat
  chan : Nat
  fin : Bool
  ver : Nat
  cseq : Nat
  /-- LEN; for GET the length asked. -/
  len : Nat
  addr : Nat
  opf : Nat
  data : List Byte
  pois : List Bool
  deriving DecidableEq, Repr

/-- The states of a port, coded as OD 06.0010 codes them (11 R421, R424). -/
inductive PortState where
  | off
  | laser
  | train
  | align
  | negotiate
  | secure
  | up
  | failed
  deriving DecidableEq, Repr

/-- Where a flit in transit lies in the receive buffer: its port and (VC, class), the SEQ of its packet's last flit, its place in the
packet. -/
structure FlitSrc where
  port : Nat
  vc : Nat
  cls : Nat
  seq : Nat
  i : Nat
  deriving DecidableEq, Repr

/-- A flit that waits to be sent; in transit, with the buffer it still occupies. -/
structure TxFlit where
  flit : Flit
  src : Option FlitSrc := none
  deriving DecidableEq, Repr

/-- An optical port and its link. Counts by (VC, class) are keyed 2 × VC + class. -/
structure FabPort where
  state : PortState := .off
  /-- Lane set: 0 all, 1 lanes 0–3, 2 lanes 4–7. -/
  laneSet : Nat := 0
  /-- Lanes that work, bit n for lane n. -/
  lanes : BitVec 8 := BitVec.allOnes 8
  ver : Nat := 0
  peer : Nat := 0xFFFF
  /-- This module's ID as its HELLO gave it. -/
  selfId : Nat := 0xFFFF
  /-- Reason code of the last way down (11 R423). -/
  reason : Nat := 0
  /-- Credits that the peer's HELLO allocated, credits used and the last CRN received. -/
  alloc : Sparse Nat := []
  used : Sparse Nat := []
  lastCrn : Sparse Nat := []
  /-- Buffer flits in force since bring-up: by (VC, class). -/
  rxAlloc : Sparse Nat := []
  /-- Sequence number of the next DATA flit. -/
  txSeq : Nat := 0
  /-- DATA flits sent and not acknowledged, oldest first, with how often each has been resent. -/
  unacked : List (Flit × Nat) := []
  /-- DATA flits that wait for their turn, credits or the window. -/
  txq : List TxFlit := []
  /-- Arbitration: flits of weighted VCs sent since the last of a strict one, at most 3; the weighted VC whose turn it is and the flits
  left of its weight. -/
  since : Nat := 3
  turn : Nat := 6
  quota : Nat := 0
  rxSeq : Nat := 0
  /-- A RETRY is out: later DATA flits are discarded. -/
  retrying : Bool := false
  /-- Bytes of the packet being received, by (VC, class). -/
  part : Sparse (List Byte) := []
  /-- Credits returned since bring-up; the (VC, class) whose count the next flit carries. -/
  crn : Sparse Nat := []
  crTurn : Nat := 0
  /-- Flits sent, newest first, at most 256. -/
  wire : List Flit := []
  /-- OD 06.0100–06.0103 (15 R538): DATA flits sent, received intact, bad, RETRY messages sent. -/
  sent : Nat := 0
  intact : Nat := 0
  bad : Nat := 0
  retries : Nat := 0
  deriving DecidableEq, Repr

/-- Who sends on a channel (11 R397). -/
inductive ChanUser where
  | drill (core ring : Nat)
  | control (die : Nat)
  | gate (m : Nat)
  | reduce (fgrp port : Nat)
  | ack (die : Nat)
  | session (die : Nat)
  deriving DecidableEq, Repr

/-- A source channel. -/
structure Chan where
  user : ChanUser
  dst : Nat
  vc : Nat
  /-- Port its packets leave on; none for multicast. -/
  port : Option Nat
  inc : Nat := 0
  next : Nat := 0
  /-- Unacknowledged packets, oldest first. -/
  unacked : List Packet := []
  /-- Multicast: cumulative ACK of each member that has answered. -/
  acks : List (Nat × Nat) := []
  resends : Nat := 0
  failed : Bool := false
  deriving DecidableEq, Repr

/-- A destination's view of a channel: the module or group it is addressed to and its incarnation, the CSEQ expected, packets acted on,
those since the last ACK. -/
structure RxChan where
  dst : Nat := 0xFFFF
  expect : Nat := 0
  acted : Nat := 0
  pend : Nat := 0
  inc : Nat := 0
  deriving DecidableEq, Repr

/-- A receive-window entry (11 R405) with its notify count (R407). -/
structure Window where
  w0 : Word := 0
  w1 : Word := 0
  w2 : Word := 0
  w3 : Word := 0
  bytes : Nat := 0
  quanta : Nat := 0
  deriving DecidableEq, Repr

/-- One 32-lane packet of a fabric reap at this module (11 R416): its round, lanes and flags combined so far, the module's own in, ports
that have delivered, sent up. -/
structure RedState where
  round : Nat := 0
  lanes : List Nat := []
  flags : Nat := 0
  own : Bool := false
  ports : List Nat := []
  sent : Bool := false
  deriving DecidableEq, Repr

/-- A packet received and not yet acted on: the port (16: the module itself), the flits it takes of the buffer, their (VC, class), and the
SEQ of the last. -/
structure InPacket where
  port : Nat
  flits : Nat
  vc : Nat
  cls : Nat
  seq : Nat
  pkt : Packet
  deriving DecidableEq, Repr

structure Fabric where
  ports : Sparse FabPort := []
  /-- Source channels: 1,024 × die + number. -/
  chans : List (Nat × Chan) := []
  /-- Incarnations used of a channel number toward a destination (number × 65536 + destination), and accepted of a source's channel
  ((source × 4096 + channel) × 65536 + destination). -/
  incs : Sparse Nat := []
  rxIncs : Sparse Nat := []
  /-- Destination side: source module × 4096 + channel. -/
  rxs : Sparse RxChan := []
  windows : Sparse Window := []
  froot : Sparse Word := []
  routes : Sparse Nat := []
  groups : Sparse Nat := []
  rgroups : Sparse Nat := []
  pairKeys : Sparse (Option Nat) := []
  groupKeys : Sparse (Option Nat) := []
  /-- Fabric reaps in progress: FGRP × 16 + packet index; results delivered so far likewise. -/
  red : Sparse RedState := []
  redDone : Sparse (List Nat × Nat) := []
  inbox : List InPacket := []
  /-- Counts of discarded packets and events of area 06, by counter number of Machine/FabricBase.lean. -/
  counts : Sparse Nat := []
  /-- CONTROL packets delivered to the control cluster: kind, source, body. -/
  control : List (Nat × Nat × List Byte) := []
  deriving DecidableEq, Repr

end Sys2Proof.Machine
end

