-- ==== Sys2Proof/Machine/StateHost.lean ====
section
/-!
DEFINITION. Machine/StateHost.lean: the host ports, functions and queues of the control cluster (10). A field's default is its reset
value. A function is numbered port × 64 + function.
-/

namespace Sys2Proof.Machine

/-- An entry of a port's outbound region table (10 R365), as its two words. -/
structure Region where
  w0 : Word := 0
  w1 : Word := 0
  deriving DecidableEq, Repr

/-- An IDE stream (10 R367): secure under a key, or insecure after a failed check. -/
structure IdeStream where
  secure : Bool := false
  failed : Bool := false
  key : Option Nat := none
  deriving DecidableEq, Repr

/-- The header of an outbound request: what a region's attributes make of it (10 R365, R366). -/
structure OutTlp where
  write : Bool
  /-- EP: a word of the payload is poisoned. -/
  ep : Bool
  /-- The requester's function, the selective stream (none: the link stream, where it is secure), No Snoop, Relaxed Ordering. -/
  func : Nat
  stream : Option Nat
  noSnoop : Bool
  relaxed : Bool
  deriving DecidableEq, Repr

structure Port where
  regions : Sparse Region := []
  /-- The memory of the port's host, as the module's requests reach it: by host bus address. -/
  mem : Mem := {}
  up : Bool := false
  width : Nat := 0
  rate : Nat := 0
  flit : Bool := false
  /-- The port's host is lost (10 R383). -/
  lost : Bool := false
  numVfs : Nat := 0
  /-- The last request sent through a region. -/
  sent : Option OutTlp := none
  /-- Streams: 0–7 selective, 8 the link stream. -/
  streams : Sparse IdeStream := []
  /-- AER: refused inbound requests logged as non-fatal (10 R363). -/
  aer : Nat := 0
  /-- OD 07.0103, 07.0104, 07.0105 (15 R538). -/
  retrains : Nat := 0
  ideFails : Nat := 0
  dropped : Nat := 0
  /-- Completion of the last inbound read of a BAR: none is Unsupported Request (10 R363). -/
  rsp : Option (List Byte) := none
  deriving DecidableEq, Repr

/-- An MSI-X table entry: message address, data, masked; pending. -/
structure Msix where
  addr : Nat := 0
  data : Nat := 0
  mask : Bool := true
  pend : Bool := false
  deriving DecidableEq, Repr

/-- The object-dictionary mailbox of a function (15 R534). -/
structure Mailbox where
  busy : Bool := false
  /-- The operation that GO started. -/
  cur : Nat := 0
  status : Nat := 0
  more : Bool := false
  len : Nat := 0
  op : Nat := 0
  addr : Word := 0
  offset : Nat := 0
  ien : Bool := false
  vec : Nat := 0
  /-- The 4 KiB data buffer; bytes not listed are zero. -/
  data : List Byte := []
  deriving DecidableEq, Repr

/-- A function of a port (10 R359–R363, R368). -/
structure Fn where
  aqEn : Bool := false
  aqLog : Nat := 0
  aqVec : Nat := 0
  asqb : Word := 0
  acqb : Word := 0
  qerr : Bool := false
  fkey : Nat := 0
  /-- TDISP state: 0 CONFIG_UNLOCKED, 1 CONFIG_LOCKED, 2 RUN, 3 ERROR. -/
  tdi : Nat := 0
  /-- Selective stream bound at lock. -/
  stream : Option Nat := none
  /-- Slot to be retired once the function's queues are deleted (13 R462). -/
  retireDue : Option Nat := none
  /-- BAR2 size exponent in force; none: the default of 10 R386. -/
  bar2 : Option Nat := none
  /-- Root of the function's translation tables, in the layout of 07 R266. -/
  root : Word := 0
  msix : Sparse Msix := []
  /-- Configuration space (10 R358): in D3hot; PME enabled and signalled; MSI-X enabled, and all its vectors masked. -/
  d3hot : Bool := false
  pmeEn : Bool := false
  pmeStatus : Bool := false
  msixEn : Bool := false
  msixMask : Bool := false
  mbox : Mailbox := {}
  bar2Refused : Nat := 0
  bellsDropped : Nat := 0
  deriving DecidableEq, Repr

/-- How far a command has come (10 R378, R381). -/
inductive CmdState where
  | fetched
  | running
  /-- Its work is over; its status is not yet fixed in the in-flight table. -/
  | ended (status result : Nat)
  | committed (status result : Nat)
  /-- Written to a slot of the completion ring and not yet passed by CQH. -/
  | written (slot : Nat)
  deriving DecidableEq, Repr

/-- A command a queue manager knows: its number (no two commands share one), CID, its eight words as fetched, whether an abort is latched,
the bytes a data command has moved, whether any was poison (for SEAL_IN: the tag failed), the message a SEAL_OUT sends, and what must come before its commit: another command's commit, or
the end of a queue's deletion. -/
structure Cmd where
  no : Nat
  cid : Nat
  words : List Nat
  st : CmdState := .fetched
  aborted : Bool := false
  moved : Nat := 0
  pois : Bool := false
  buf : List Byte := []
  /-- It was in flight when its queue's host was lost: every data phase left fails (10 R384). -/
  hostLost : Bool := false
  afterCmd : Option Nat := none
  afterQueue : Option Nat := none
  deriving DecidableEq, Repr

inductive QState where
  | active
  | error
  | orphaned
  deriving DecidableEq, Repr

/-- A queue (10 R370), kept under its global ID: the function it belongs to (or belonged to, once orphaned) and its index there. -/
structure Queue where
  fn : Nat
  idx : Nat
  st : QState := .active
  sqb : Nat
  cqb : Nat
  logsq : Nat
  logcq : Nat
  prio : Nat := 0
  vec : Nat := 0
  cqcnt : Nat := 0
  cqtime : Nat := 0
  rhkey : Nat := 0
  /-- Key slot taken from the function at creation. -/
  key : Nat := 0
  /-- Submission tail as the host wrote it, next entry to fetch, completion head as the host wrote it, next slot to write. -/
  sqt : Nat := 0
  head : Nat := 0
  cqh : Nat := 0
  cqt : Nat := 0
  phase : Bool := true
  cmds : List Cmd := []
  /-- Commands committed and not yet written, in commit order. -/
  order : List Nat := []
  /-- Entries written and not signalled. -/
  unsig : Nat := 0
  /-- Its function was a TDI in CONFIG_LOCKED or RUN when it was orphaned. -/
  wasTdi : Bool := false
  /-- Being deleted: the sub-code its LAUNCH threads received. -/
  deleting : Option Nat := none
  deriving DecidableEq, Repr

/-- A posted write that arrived in SLEEP and waits at the port (14 R495): to BAR0 (function, offset, bytes, value) or BAR2 (function,
offset, data, poisoned). -/
inductive HeldTlp where
  | bar0 (fn off size value : Nat)
  | bar2 (fn off : Nat) (data : List Byte) (ep : Bool)
  deriving DecidableEq, Repr

/-- A control core (10 R353): RV64GCV with vectors of 256 bits, and its caches by 64-byte line. No row of the table has one of them execute an
instruction: what they do to the module comes as commands (notes/assumptions/69.md). -/
structure ControlCore where
  pc : Word := 0
  /-- Privilege mode: 3 machine, 1 supervisor, 0 user. -/
  priv : Nat := 3
  x : Sparse Word := []
  f : Sparse Word := []
  v : Sparse (BitVec 256) := []
  csr : Sparse Word := []
  l1i : Sparse (List Byte) := []
  l1d : Sparse (List Byte) := []
  l2 : Sparse (List Byte) := []
  deriving DecidableEq, Repr

structure HostSide where
  /-- Ports A (0) and B (1). -/
  ports : Sparse Port := []
  fns : Sparse Fn := []
  /-- Queues that exist, by global ID. -/
  queues : List (Nat × Queue) := []
  /-- The number the next command fetched takes. -/
  nextNo : Nat := 0
  /-- TotalVFs in force (10 R359). -/
  totalVfs : Nat := 63
  /-- Control cores that have failed, 4 × die + number (10 R357). -/
  ccFailed : List Nat := []
  /-- The control cores, by the same number, and the 8 MiB cache of each die's four (10 R353). -/
  cc : Sparse ControlCore := []
  l3 : Sparse (Sparse (List Byte)) := []
  /-- mtime, of 100 MHz (10 R353): the model has no clock that moves it. -/
  mtime : Word := 0
  /-- What the last load of a control core returned; none: poison. -/
  ccData : Option Nat := some 0
  held : List HeldTlp := []
  /-- Round-robin (10 R377): the class whose turn it is on each die, turns taken in it, and by 9 × die + class one above the queue served last (class
  8: the admin queues). -/
  turnClass : Sparse Nat := []
  turnsUsed : Sparse Nat := []
  lastServed : Sparse Nat := []
  deriving DecidableEq, Repr

end Sys2Proof.Machine
end

