-- ==== Sys2Proof/Machine/StateOD.lean ====
section
/-!
DEFINITION. Machine/StateOD.lean: the values of the object dictionary and what its paths hold (15). A field's default is its reset value.
-/

namespace Sys2Proof.Machine

/-- Staged chunks of a write (15 R530): the path's number and session, the object, the bytes so far. -/
structure Staging where
  path : Nat
  session : Nat
  obj : Nat
  data : List Byte
  deriving DecidableEq, Repr

/-- The SMBus path (15 R536): the selected object's area, item, sub-index and offset, the status of the last command, the bytes of the last
read. -/
structure SmBus where
  area : Nat := 0
  item : Nat := 0
  sub : Nat := 0
  offset : Nat := 0
  status : Nat := 0
  out : List Byte := []
  /-- ALERT_N was released by an alert response since the newest ALERT entry. -/
  released : Bool := false
  deriving DecidableEq, Repr

structure OD where
  /-- Values written to numeric objects, by area × 2^32 + item × 2^16 + sub-index; an unlisted object has its default. -/
  vals : Sparse (Option Nat) := []
  staging : List Staging := []
  smbus : SmBus := {}
  /-- The response frame sent last on 10BASE-T1S (15 R532). -/
  frameOut : List Byte := []
  /-- OD 0C.0031. -/
  frameDrops : Nat := 0
  /-- Module-wide stall banks frozen (OD 0B.0000), and their counts by unit (15 R545–R549). -/
  stallFrozen : Bool := false
  stalls : Sparse (Nat × Bool) := []
  /-- OD 0B.0030, OD 0B.0031. -/
  xqParity : Nat := 0
  ctlDrops : Nat := 0
  deriving DecidableEq, Repr

end Sys2Proof.Machine
end

