-- ==== Sys2Proof/Machine/StatePower.lean ====
section
/-!
DEFINITION. Machine/StatePower.lean: power states, DVFS, thermal state and the hinge pins (14). A field's default is its value after a
cold boot on straps that all read 0.
-/

namespace Sys2Proof.Machine

/-- The power states, coded as OD 02.0000 codes them (14 R494). -/
inductive PowerState where
  | run
  | idle
  | sleep
  | deepSleep
  | off
  deriving DecidableEq, Repr

/-- A die's clock and rail (14 R499–R503): the point its clock runs at, the rail in mV, the voltage a ramp goes to, a direct voltage, the caps of the
power loop and of temperature, the last temperature reported (thousandths of °C), above the warning threshold, status of the
last DVFS request. -/
structure DieClock where
  point : Nat := 0
  mv : Nat := 800
  ramp : Option Nat := none
  direct : Option Nat := none
  powerCap : Nat := 0
  thermCap : Nat := 0
  temp : Nat := 0
  warn : Bool := false
  status : Nat := 0
  deriving DecidableEq, Repr

structure Power where
  st : PowerState := .run
  /-- The state a transition in progress goes to. -/
  target : Option PowerState := none
  /-- A request that arrived during the transition: state code and principal. -/
  queued : Option (Nat × Nat) := none
  /-- The transition in progress was met by a wake: it is followed by an exit to RUN. -/
  wakeAfter : Bool := false
  status : Nat := 0
  limiter : Nat := 0
  throttled : Bool := false
  brake : Bool := false
  /-- Trip hold (14 R503). -/
  tripped : Bool := false
  /-- Input power present. -/
  powered : Bool := true
  dies : Sparse DieClock := []
  /-- What the board's resistors and the loads on the pins give when sampled, D × 4 + U × 2 + L by pin (14 R514). -/
  pins : Sparse Nat := []
  /-- Strap values and phases by hinge pin; a pin not listed has value 0 and phase RUN. -/
  straps : Sparse Nat := []
  phases : Sparse Nat := []
  heartbeat : Bool := false
  deriving DecidableEq, Repr

end Sys2Proof.Machine
end

