-- ==== Sys2Proof/Machine/StateRecord.lean ====
section
/-!
DEFINITION. Machine/StateRecord.lean: the event recorder and the black box (15 R550–R553), and the interrupts raised to the control
cluster.
-/

namespace Sys2Proof.Machine

/-- An event as a unit sends it to the recorder (15 R551). -/
structure Event where
  sev : Nat
  code : Nat
  source : Nat
  arg0 : Nat
  arg1 : Nat
  deriving DecidableEq, Repr

/-- An entry of the ring (15 R550). -/
structure EventRec where
  seq : Nat
  boot : Nat
  time : Nat
  ev : Event
  deriving DecidableEq, Repr

/-- A black-box record with its directory entry (15 R553): entries oldest first. -/
structure BlackBox where
  cause : Nat
  boot : Nat
  time : Nat
  entries : List EventRec
  deriving DecidableEq, Repr

structure Recorder where
  /-- Ring slot to entry. -/
  ring : List (Nat × EventRec) := []
  next : Nat := 0
  /-- SEQ of the next entry, and ACLK cycles since power-on as the last entry or copy found them. -/
  seq : Nat := 1
  time : Nat := 0
  discarded : Nat := 0
  frozen : Bool := false
  /-- A frozen ring still to be copied to the black box, with the cause of the copy (15 R552). -/
  copyDue : Option Nat := none
  intake : List Event := []
  boot : Nat := 0
  acked : Nat := 0
  black : List (Nat × BlackBox) := []
  deriving DecidableEq, Repr

/-- An interrupt to the control cluster: to the resilience agent or the runtime, with what raised it. -/
inductive ClusterInt where
  | doubleFault (core thread : Nat)
  | gateDone (gate : Nat)
  | sowError (die entry : Nat)
  | hostLost (port : Nat)
  | linkDown (port : Nat)
  | creditStall (port : Nat)
  | channelFailed (module : Nat)
  | noPairKey (module : Nat)
  deriving DecidableEq, Repr

end Sys2Proof.Machine
end

