-- ==== Sys2Proof/Machine/StateResil.lean ====
section
/-!
DEFINITION. Machine/StateResil.lean: commits, fallow copies, checkpoints and recovery (12). A field's default is its reset value.
-/

namespace Sys2Proof.Machine

/-- A checkpoint slot (12 R439): its step, its blocks with their digest records, whether the seal record is written. -/
structure Checkpoint where
  step : Nat := 0
  sealed_ : Bool := false
  blocks : List (DigestRec × List Byte) := []
  deriving DecidableEq, Repr

/-- A fallow slot (12 R433): its step, whether that step has committed here, and its blocks as digested: their record and their place in
bulk memory. -/
structure FallowSlot where
  step : Nat := 0
  committed : Bool := false
  blocks : List (DigestRec × List (Nat × Nat)) := []
  deriving DecidableEq, Repr

/-- The stubble (12 R427): the step whose overwritten state it holds, what was copied where, the epochs recorded, the cores whose lane tables are
in it, and the bytes used of its area. -/
structure Stubble where
  step : Nat := 0
  recs : List StubRec := []
  epochs : List EpochRec := []
  lanes : List Nat := []
  used : Nat := 0
  deriving DecidableEq, Repr

/-- A block of a frozen shard's fallow copy (12 R434): its record and its place, in bulk or in the flash job region. -/
structure FrozenBlock where
  record : DigestRec
  flash : Bool
  addr : Nat
  deriving DecidableEq, Repr

structure Resil where
  /-- Last committed step, and the gate at which the control cluster has arrived for the next. -/
  step : Nat := 0
  arrived : Option Nat := none
  /-- Fallow slots 0 and 1: step mod 2. -/
  fallow : Sparse FallowSlot := []
  /-- The stubble's area in bulk, where the runtime keeps one, and the stubble; the frozen shards held here as partner. -/
  stubArea : Option Nat := none
  stubble : Stubble := {}
  frozen : List FrozenBlock := []
  /-- Checkpoint slots 0 and 1 of the checkpoint region, the slot being written, and the step named for the next checkpoint. -/
  ckpts : Sparse Checkpoint := []
  writing : Option Nat := none
  named : Option Nat := none
  /-- Step of the latest sealed checkpoint, of the latest shared-store copy, and checkpoints sealed since that copy. -/
  sealedStep : Nat := 0
  sharedStep : Nat := 0
  sinceShared : Nat := 0
  interval : Nat := 300
  flashBytes : Nat := 0
  /-- Recovery state and cause (OD 09.0002). -/
  state : Nat := 0
  cause : Nat := 0
  /-- Modules of the job, this one included; partner module by shard. -/
  members : List Nat := []
  partners : Sparse Nat := []
  /-- Missed heartbeats by module, modules being probed, modules declared failed. -/
  missed : Sparse Nat := []
  probing : List Nat := []
  failed : List Nat := []
  /-- Blocks taken from the shared store that passed verification. -/
  restored : List (DigestRec × List Byte) := []
  recovered : Nat := 0
  rollbacks : Nat := 0
  badDigests : Nat := 0
  deriving DecidableEq, Repr

end Sys2Proof.Machine
end

