-- ==== Sys2Proof/Machine/StateStats.lean ====
section
/-!
DEFINITION. Machine/StateStats.lean: the error counts and the retired-frame table of area 05 (07 R276, R284).
-/

namespace Sys2Proof.Machine

structure MemStats where
  /-- Corrected and uncorrectable bulk words by stack. -/
  corrBulk : Sparse Nat := []
  uncBulk : Sparse Nat := []
  /-- Corrected and uncorrectable local SRAM and granary words by die. -/
  corrCore : Sparse Nat := []
  uncCore : Sparse Nat := []
  /-- Retired frames: bulk physical frame addresses. -/
  retired : List Nat := []
  /-- Words that needed two-bit correction on the last scrub pass of their frame: physical word addresses. -/
  twoBit : List Nat := []
  sheafRefused : Nat := 0
  /-- Bytes of the checkpoint region in force (07 R262, R284). -/
  ckptBytes : Nat := 4608000000000
  deriving DecidableEq, Repr

end Sys2Proof.Machine
end

