-- ==== Sys2Proof/Machine/StateWard.lean ====
section
/-!
DEFINITION. Machine/StateWard.lean: the Ward's state: OTP, keys, identity, sessions, life cycle, debug, and the firmware slots (13). A
field's default is its reset value: unprogrammed fuses read 0 (13 R453), so the life cycle is BLANK and the debug level FULL.
-/

namespace Sys2Proof.Machine

/-- The state of a tenant key slot (13 R458). -/
inductive SlotState where
  | free
  | allocated
  | installed
  | retired
  deriving DecidableEq, Repr

structure KeySlot where
  st : SlotState := .free
  /-- The transport key, once installed (13 R458). -/
  transport : Option Nat := none
  /-- Egress counter (13 R460). -/
  egress : Nat := 0
  /-- Egress counter that the wrapped entry of the slot holds (13 R459). -/
  saved : Nat := 0
  /-- Installation ticket, and N_INST of the installation. -/
  ticket : Nat := 0
  ninst : Nat := 0
  deriving DecidableEq, Repr

/-- What the Ward answered last (13 R462, R465): to the transport of the request. -/
inductive WardReply where
  | error
  | version (major minor : Nat)
  | capabilities
  | algorithms
  | digests (d : List (List Byte))
  | certificate (image : List Byte) (svn lc lcstep debug : Nat)
  | challenge (sig : List Byte)
  | measurements (m : List (Nat × List Byte)) (sig : List Byte)
  | session (id : Nat)
  | finished (id : Nat)
  | alive (id : Nat)
  | updated (id : Nat)
  | ended (id : Nat)
  | installed (ninst : Nat)
  | slotState (code : Nat)
  | ticket (v : Nat)
  | nonce (v : Nat)
  | report (bar0 bar2 msix fkey slot : Nat) (ninst : List Byte)
  deriving DecidableEq, Repr

/-- The alias key (13 R464): the draw that seeded it, signatures left, and the debug level its certificate names. -/
structure AliasKey where
  seed : Nat
  left : Nat
  debug : Nat
  deriving DecidableEq, Repr

/-- An SPDM session (13 R465, 15 R533): its transport, whether FINISH has come, its key, the last request accepted
(SEQ and bytes) and the response stored for it. -/
structure Session where
  id : Nat
  transport : Nat
  ready : Bool
  key : Nat
  lastSeq : Nat
  lastReq : List Byte
  lastResp : List Byte
  deriving DecidableEq, Repr

structure Ward where
  slots : Sparse KeySlot := []
  /-- Slots that the crypto engine of each die holds, at most 512, the last used first (08 R314, 13 R459). -/
  cached : Sparse (List Nat) := []
  /-- OTP: device secret, identity seed, life-cycle codes by step, SVN floor, identity blocks reserved, revoked roots, root hashes. -/
  dsec : Nat := 0
  idseed : Nat := 0
  lcrec : List Nat := []
  svn : Nat := 0
  xidx : Nat := 0
  revoke : Nat := 0
  roots : Sparse Nat := []
  /-- Owner public key (13 R488). -/
  ownerKey : List Byte := []
  /-- Next identity signature index. -/
  nextIdx : Nat := 0
  aliasKey : Option AliasKey := none
  /-- The debug level in force: 0 NONE, 1 OBSERVE, 2 HALT, 3 FULL (13 R472). -/
  debug : Nat := 3
  /-- Lowered level for the next warm reset. -/
  lowered : Option Nat := none
  nonce : Option Nat := none
  tokenResult : Nat := 0
  entropyBad : Bool := false
  /-- SPDM set-up reached on a transport: 1 version, 2 capabilities, 3 algorithms. -/
  spdm : Sparse Nat := []
  sessions : List Session := []
  nextSession : Nat := 1
  reply : Option WardReply := none
  deriving DecidableEq, Repr

/-- A firmware slot (13 R479, R482): state code, header words, digest table, the next block expected, requests of the block again,
blocks written. -/
structure FwSlot where
  st : Nat := 0
  isvn : Nat := 0
  header : List Nat := []
  table : List (List Byte) := []
  next : Nat := 0
  retries : Nat := 0
  blocks : Sparse (List Byte) := []
  deriving DecidableEq, Repr

structure Firmware where
  /-- Slot A runs; slot B is empty. -/
  a : FwSlot := { st := 4 }
  b : FwSlot := {}
  /-- Boot selector: the slot that runs. -/
  boot : Nat := 0
  /-- Armed activation: slot, module gate number, generation. -/
  armed : Option (Nat × Nat × Nat) := none
  /-- OD 0A.0040. -/
  status : Nat := 0
  /-- The object-dictionary store of the old image during a trial (13 R486). -/
  oldStore : Option (Sparse (Option Nat)) := none
  /-- Feature version that the module uses for a job's traffic (13 R487). -/
  feature : Option Nat := none
  deriving DecidableEq, Repr

end Sys2Proof.Machine
end

