-- ==== Sys2Proof/Machine/State.lean ====
section
/-!
DEFINITION. Machine/State.lean: the state of the block, its reset value, and the reasons a step can stop.
-/

namespace Sys2Proof.Machine

/-- The state of the module: everything the spec gives it, and the queue of commands that wait. -/
structure State where
  grid : Grid := {}
  /-- Logical cores by row × 48 + column; an unlisted core is as core reset leaves it. -/
  cores : Sparse Core := []
  /-- Gate contexts: die × 256 + n for die gates, 1024 + m for module gates. -/
  gates : Sparse GateCtx := []
  /-- Reap contexts: die × 192 + n for die contexts, 768 + m for module contexts. -/
  reaps : Sparse ReapCtx := []
  resets : List ResetMsg := []
  sow : Sparse SowEngine := []
  gov : Governor := {}
  bulk : Mem := {}
  flash : Mem := {}
  mstats : MemStats := {}
  host : HostSide := {}
  fabric : Fabric := {}
  ward : Ward := {}
  fw : Firmware := {}
  power : Power := {}
  resil : Resil := {}
  od : OD := {}
  recorder : Recorder := {}
  ints : List ClusterInt := []
  /-- The model's own: how many free values have been drawn (Config.draw). -/
  draws : Nat := 0
  /-- The draw that seeded the cores' random-bit generators at the last reset of the module (04 R158). -/
  bootSeed : Nat := 0
  /-- Commands that wait, first in first out. -/
  pending : List Instr := []
  deriving DecidableEq, Repr

/-- Why the machine stops with a fault: the block has no such stop, since every failure the spec describes is part of the
state (an exception, a status, a poisoned word). -/
inductive Fault where
  deriving DecidableEq, Repr

/-- Why a command is refused. -/
inductive Refusal where
  /-- No meaning yet: raised by exec's refused arms only. Safe. -/
  | notModelled (mnemonic : String)
  /-- The instruction word of the command spells another instruction than the command's row: no such command exists
  (WellFormed.lean). Raised by every command that carries an instruction word. Safe. -/
  | illFormed
  /-- An access of a control core to the cluster-local devices (10 R356), of which the spec gives no register. Raised by REGISTER_WRITE. Safe. -/
  | clusterDevice
  deriving DecidableEq, Repr

/-- What a command answers. -/
abbrev Out := Host.Outcome State Fault Refusal

/-- The module right after reset. -/
def State.reset : State := {}

end Sys2Proof.Machine
end

