-- ==== Sys2Proof/Machine/Ops.lean ====
section
/-!
DEFINITION. Machine/Ops.lean: the named operations over the grid, cores, threads and registers; the event recorder; taking an exception
and returning from one (02 R94, R95, R98).
-/

namespace Sys2Proof.Machine

/-! ## The grid (01) -/

/-- How many furrows of the module are fused off. -/
def fusedCount (g : Grid) : Nat := (g.fuses.filter (fun p => p.2.fused)).length

/-- Logical rows of the grid: 48, 44 on a KX2112, 0 on a part rejected at test (01 R7, R8, R15). -/
def gridRows (g : Grid) : Nat := if fusedCount g = 0 then 48 else if fusedCount g = 96 then 0 else 44

/-- Logical rows on each top die. -/
def topRows (g : Grid) : Nat := gridRows g / 2

/-- A core's logical row and column. -/
def rowOf (c : Nat) : Nat := c / 48
def colOf (c : Nat) : Nat := c % 48
def coreAt (r k : Nat) : Nat := r * 48 + k

/-- Whether logical coordinates lie within the grid (01 R10). -/
def inGrid (g : Grid) (r k : Nat) : Bool := r < gridRows g && k < 48

def coreExists (s : State) (c : Nat) : Bool := c < gridRows s.grid * 48

/-- The die of a logical core (01 R7, R8). -/
def dieOf (g : Grid) (c : Nat) : Nat := (if rowOf c < topRows g then 0 else 2) + (if colOf c < 24 then 0 else 1)

def fenceOf (s : State) (c : Nat) : CoreFence := spGet .active s.grid.pos c

def isHole (s : State) (c : Nat) : Bool := fenceOf s c == .hole

/-- The cores' clocks run: RUN, with power, outside the trip hold (14 R494, R503). -/
def clocked (s : State) : Bool := s.power.st == .run && s.power.powered && !s.power.tripped

/-- A position that holds a core which can work. -/
def coreUp (s : State) (c : Nat) : Bool := coreExists s c && !isHole s c && clocked s

/-- The yoke partner (01 R26). -/
def partner (c : Nat) : Nat := if c % 2 = 0 then c + 1 else c - 1

/-- A yoke is broken while the partner is a hole or either position is in FENCING (01 R29). -/
def yokeBroken (s : State) (c : Nat) : Bool :=
  fenceOf s (partner c) == .hole || fenceOf s (partner c) == .fencing || fenceOf s c == .fencing

/-- A fence procedure is in progress (01 R17). -/
def quiescing (s : State) : Bool := s.grid.proc.isSome

/-- The core holds for a fence procedure: what would run in it is HELD (01 R17 step 1). -/
def coreHeld (s : State) (c : Nat) : Bool :=
  match s.grid.proc with
  | some p => p.mapWritten || !p.running.contains c
  | none => false

/-- A position that a fence procedure in progress turns into a hole: gates no longer count it (01 R21). -/
def holeComing (s : State) (c : Nat) : Bool :=
  match s.grid.proc with
  | some p => p.hole && p.pos == c
  | none => false

/-- Physical rows of a die half that are not fused, in order: the physical row that carries each logical row (01 R7, R14). -/
def liveRows (g : Grid) (die : Nat) : List Nat :=
  (List.range 24).filter (fun r => !(spGet {} g.fuses (die * 24 + r)).fused)

/-- The furrow (die × 24 + physical row) that carries a logical core. -/
def furrowOf (g : Grid) (c : Nat) : Nat :=
  let d := dieOf g c
  let lr := if d < 2 then rowOf c else rowOf c - topRows g
  d * 24 + (liveRows g d).getD lr 0

/-- The skip site and whether it is a free spare, as the test-time map gives them (01 R12, R24). -/
def testSkip (f : FurrowFuse) : Nat × Bool := if f.bad = 31 then (12, !f.fused) else (f.bad, false)

/-- The skip site in force. -/
def skipOf (g : Grid) (fur : Nat) : Nat × Bool := spGet (testSkip (spGet {} g.fuses fur)) g.skips fur

/-- The physical column of a logical column (01 R11). -/
def physCol (lc skip : Nat) : Nat := if lc < skip then lc else lc + 1

/-! ## Cores and threads -/

def coreReset : Core := {}

/-- A thread as core reset leaves it: thread 0 HELD in keeper mode at 0x000B_0400, the others STOPPED (02 R59, R62, R101). -/
def threadReset (t : Nat) : Thread :=
  if t = 0 then { pc := 0x000B0400, st := { state := .held, pm := true } } else {}

def getCore (s : State) (c : Nat) : Core := spGet coreReset s.cores c

def setCore (s : State) (c : Nat) (k : Core) : State := { s with cores := spSet coreReset s.cores c k }

def updCore (s : State) (c : Nat) (f : Core → Core) : State := setCore s c (f (getCore s c))

def Core.thread (k : Core) (t : Nat) : Thread := spGet (threadReset t) k.threads t

def Core.setThread (k : Core) (t : Nat) (th : Thread) : Core :=
  { k with threads := spSet (threadReset t) k.threads t th }

def Core.updThread (k : Core) (t : Nat) (f : Thread → Thread) : Core := k.setThread t (f (k.thread t))

def getThread (s : State) (c t : Nat) : Thread := (getCore s c).thread t

def updThread (s : State) (c t : Nat) (f : Thread → Thread) : State := updCore s c (fun k => k.updThread t f)

def allThreads : List Nat := List.range 16

/-- A change of every thread of a core. -/
def Core.mapThreads (k : Core) (f : Nat → Thread → Thread) : Core :=
  allThreads.foldl (fun k t => k.updThread t (f t)) k

/-! ## Registers (02 R59, R60) -/

/-- g0 reads zero. -/
def Regs.gGet (r : Regs) (n : Nat) : GReg := if n = 0 then {} else spGet {} r.g n

/-- A write to g0 is discarded. -/
def Regs.gSet (r : Regs) (n : Nat) (v : GReg) : Regs := if n = 0 then r else { r with g := spSet {} r.g n v }

/-- p0 reads true. -/
def Regs.pGet (r : Regs) (n : Nat) : Bool := n == 0 || r.p.getLsbD n

def Regs.pSet (r : Regs) (n : Nat) (v : Bool) : Regs :=
  if n = 0 then r else { r with p := setField r.p n n (boolN v) }

/-- m0 reads all ones. -/
def Regs.mGet (r : Regs) (n : Nat) : MReg := if n = 0 then ⟨BitVec.allOnes 32, false⟩ else spGet {} r.m n

def Regs.mSet (r : Regs) (n : Nat) (v : MReg) : Regs := if n = 0 then r else { r with m := spSet {} r.m n v }

def Regs.sGet (r : Regs) (n : Nat) : SReg := spGet {} r.sv n

def Regs.sSet (r : Regs) (n : Nat) (v : SReg) : Regs := { r with sv := spSet {} r.sv n v }

/-- The general register a request will write. -/
def ReqKind.gDest : ReqKind → Option Nat
  | .load rd _ _ => some rd
  | .take rd => some rd
  | .peek rd => some rd
  | _ => none

def ReqKind.sDest : ReqKind → Option Nat
  | .loadS sd => some sd
  | _ => none

/-- A write of general register n by an instruction: a load left in flight over a keeper entry no longer writes it (02 R96). -/
def Core.writeG (k : Core) (t n : Nat) (v : Word) : Core :=
  let k := k.updThread t (fun th => { th with regs := th.regs.gSet n ⟨v, false⟩ })
  { k with reqs := k.reqs.map (fun q =>
      if q.thread == t && q.orphan != 0 && q.kind.gDest == some n then { q with superseded := true } else q) }

def Core.writeS (k : Core) (t n : Nat) (v : SReg) : Core :=
  let k := k.updThread t (fun th => { th with regs := th.regs.sSet n v })
  { k with reqs := k.reqs.map (fun q =>
      if q.thread == t && q.orphan != 0 && q.kind.sDest == some n then { q with superseded := true } else q) }

/-- Lane n of a scale vector. -/
def laneGet (v : BitVec 1024) (n : Nat) : Nat := field v (32 * n + 31) (32 * n)

def laneSet (v : BitVec 1024) (n x : Nat) : BitVec 1024 := setField v (32 * n + 31) (32 * n) x

/-- The scale vector of a list of lanes. -/
def lanesOf (l : List Nat) : BitVec 1024 := BitVec.ofNat 1024 (packN 32 l)
where
  packN (k : Nat) : List Nat → Nat
    | [] => 0
    | x :: xs => x % 2 ^ k + (packN k xs) <<< k

/-! ## TSTAT (02 R62) -/

def TState.codeN : TState → Nat
  | .stopped => 0
  | .running => 1
  | .waiting => 2
  | .faulted => 3
  | .halted => 4
  | .held => 5

/-- TSTAT of thread t as a word. -/
def tstatWord (t : Nat) (th : Thread) : Word :=
  word (th.st.xsub.toNat * 2 ^ 40 + th.st.xcode.toNat * 2 ^ 32 + th.st.flags.toNat * 2 ^ 24 + t % 16 * 2 ^ 20
    + th.st.state.codeN * 2 ^ 16 + boolN th.st.pm * 2 ^ 15 + boolN th.st.xact * 2 ^ 14
    + boolN th.deferred.isSome * 2 ^ 13 + boolN th.st.teIdz * 2 ^ 5 + th.st.te.toNat)

/-- A write of TSTAT: FLAGS, TE and TE_IDZ; with keeper rights XACT too (02 R62, R65). -/
def tstatWrite (keeper : Bool) (v : Word) (th : Thread) : Thread :=
  { th with st := { th.st with
      flags := BitVec.ofNat 5 (field v 28 24)
      te := BitVec.ofNat 5 (field v 4 0)
      teIdz := bitOf v 5
      xact := if keeper then bitOf v 14 else th.st.xact } }

def twinWord (th : Thread) : Word := word (th.twCount.toNat * 32 + th.twBase.toNat)

/-- CORE_ID (02 R88). -/
def coreIdWord (s : State) (c : Nat) : Word :=
  word (dieOf s.grid c * 2 ^ 30 + rowOf c * 2 ^ 24 + colOf c * 2 ^ 18 + c % 2 * 2 ^ 17 + boolN (yokeBroken s c) * 2 ^ 16)

/-- THRSTATE (02 R87). -/
def thrStateWord (k : Core) : Word :=
  word (allThreads.foldl (fun a t => a + (k.thread t).st.state.codeN * 2 ^ (4 * t)) 0)

/-! ## The event recorder's intake (15 R550) -/

/-- A unit sends an entry; a full intake buffer discards it. -/
def sendEvent (s : State) (e : Event) : State :=
  if s.recorder.intake.length < 64 then
    { s with recorder := { s.recorder with intake := s.recorder.intake ++ [e] } }
  else { s with recorder := { s.recorder with discarded := (s.recorder.discarded + 1) % 2 ^ 32 } }

def sendEvents (s : State) : List Event → State
  | [] => s
  | e :: es => sendEvents (sendEvent s e) es

/-- SOURCE of a core (15 R550). -/
def srcCore (c : Nat) : Nat := rowOf c * 64 + colOf c
/-- SOURCE of another unit: kind in [15:12], number in [11:0]. -/
def srcUnit (kind n : Nat) : Nat := kind * 4096 + n % 4096

def interrupt (s : State) (i : ClusterInt) : State := { s with ints := s.ints ++ [i] }

/-- A free value of the model and the state after it (Config.draw). -/
def drawFree (s : State) : Nat × State := (Config.draw s.draws, { s with draws := s.draws + 1 })

/-- The 256 bits of a core's random-bit generator (04 R158). -/
def rngState (s : State) (c : Nat) : BitVec 256 := (getCore s c).seed.getD (Config.coreSeed s.bootSeed c)

/-- Reseeding of a core's generator by the Ward entropy source (04 R158), which gives nothing once it has failed (13 R454). -/
def reseed (s : State) (c : Nat) : State :=
  if s.ward.entropyBad then s
  else updCore { s with draws := s.draws + 1 } c (fun k => { k with seed := some (BitVec.ofNat 256 (Config.draw s.draws)) })

/-! ## Exceptions -/

/-- Entry to keeper mode (02 R94). With XACT set the thread is FAULTED: a double fault. Loads in flight are not waited for
(02 R96); a wait or a walk of the thread is over. -/
def enterKeeper (s : State) (c t : Nat) (x : Exc) (entryPc : Word) : State :=
  let k := getCore s c
  let th := k.thread t
  if th.st.xact then
    let s := updThread s c t (fun th => { th with st := { th.st with state := .faulted }, wait := .none, walk := none })
    let s := sendEvent s
      { sev := 3, code := 0x0001, source := srcCore c, arg0 := t * 2 ^ 16 + x.code * 2 ^ 8 + x.sub, arg1 := th.k.xpc.toNat }
    interrupt s (.doubleFault c t)
  else
    let th' : Thread :=
      { th with
        pc := k.ctl.kvec + word (x.code * 0x40)
        k := { th.k with xpc := entryPc, xstat := tstatWord t th, xinfo := x.info }
        st := { th.st with
          xcode := BitVec.ofNat 8 x.code, xsub := BitVec.ofNat 8 x.sub, pm := true, xact := true,
          state := if th.st.state = .waiting then (if th.step then .halted else if coreHeld s c then .held else .running)
            else th.st.state }
        step := th.step && th.st.state != .waiting
        fenceHeld := th.fenceHeld || (th.st.state == .waiting && coreHeld s c && !th.step)
        wait := .none
        walk := none }
    let k := k.setThread t th'
    setCore s c { k with reqs := k.reqs.map (fun q => if q.thread == t then { q with orphan := q.orphan + 1 } else q) }

/-- XRET restores the pc, PM and XACT (02 R95); the checks of XPC are the instruction's. The thread waits again for the loads that were in
flight at the entry it returns from (02 R56, R96). -/
def returnKeeper (s : State) (c t : Nat) : State :=
  let s := updThread s c t (fun th =>
    { th with pc := th.k.xpc, st := { th.st with pm := bitOf th.k.xstat 15, xact := bitOf th.k.xstat 14 } })
  updCore s c (fun k => { k with reqs := k.reqs.map (fun q => if q.thread == t then { q with orphan := q.orphan - 1 } else q) })

/-- Delivers a deferred exception to its owner thread (02 R98): a second one while one is pending is recorded and lost. A
thread waiting at a gate or reap leaves the wait when it takes it; a latch wait is cancelled first (09 R332). -/
def deliverDeferred (s : State) (c t : Nat) (x : Exc) : State :=
  match (getThread s c t).deferred with
  | some _ => sendEvent s
      { sev := 2, code := 0x0002, source := srcCore c, arg0 := t * 2 ^ 16 + x.code * 2 ^ 8 + x.sub, arg1 := x.info.toNat }
  | none => updThread s c t (fun th => { th with deferred := some x })

/-- The state a thread of a core that leaves a wait takes: RUNNING, or HELD while the core holds for a fence procedure (01 R17). -/
def wakeState (s : State) (c : Nat) : TState := if coreHeld s c then .held else .running

/-- A waiting thread runs again; one that a debugger steps is HALTED. -/
def wakeThread (s : State) (c t : Nat) : State :=
  updThread s c t (fun th =>
    { th with
      st := { th.st with state := if th.step then .halted else wakeState s c }
      step := false
      fenceHeld := coreHeld s c && !th.step
      wait := .none })

/-- Every thread of the core that runs is HELD; a waiting one is HELD when its wait ends (01 R17). -/
def holdCore (s : State) (c : Nat) : State :=
  updCore s c (fun k => k.mapThreads (fun _ th =>
    if th.st.state = .running then { th with st := { th.st with state := .held }, fenceHeld := true } else th))

/-- Every core of the module holds: no thread of a core that the fence procedure still lets run is RUNNING (01 R17). The Drills and the sowing
engines stop then. -/
def coresHold (s : State) : Bool :=
  match s.grid.proc with
  | some p => p.mapWritten || p.running.all (fun c => allThreads.all (fun t => (getThread s c t).st.state != .running))
  | none => false

/-- Counts an uncorrectable word: bulk by stack, local SRAM and granary by die (07 R276). -/
def countUncorr (s : State) (kind source addr : Nat) : MemStats :=
  if kind = 2 then
    { s.mstats with uncBulk := spUpd 0 s.mstats.uncBulk (addr / 2 ^ 38) (fun n => satAdd 64 n 1) }
  else if kind < 2 then
    let c := coreAt (source / 64) (source % 64)
    { s.mstats with uncCore := spUpd 0 s.mstats.uncCore (dieOf s.grid c) (fun n => satAdd 64 n 1) }
  else s.mstats

/-- The bytes of a stack that 64 KiB frames cover (07 R258). -/
def frameBytes : Nat := 2929687 * 65536

/-- Lists a frame in the retired-frame table (07 R276); pa is any address in it. -/
def retireFrame (s : State) (pa : Nat) : State :=
  let f := pa / 65536 * 65536
  if frameBytes ≤ f % 2 ^ 38 || s.mstats.retired.contains f then s
  else
    sendEvent { s with mstats := { s.mstats with retired := s.mstats.retired ++ [f] } }
      { sev := 1, code := 0x0011, source := srcUnit 2 (f / 2 ^ 38), arg0 := f / 2 ^ 38, arg1 := f }

/-- Records words found uncorrectable (07 R274): memory kind 0 local SRAM, 1 granary, 2 bulk, 3 flash. -/
def reportUncorr (s : State) (kind source : Nat) : List Nat → State
  | [] => s
  | a :: as =>
    let s := { s with mstats := countUncorr s kind source a }
    let s := sendEvent s { sev := 2, code := 0x0010, source := source, arg0 := kind, arg1 := a }
    reportUncorr (if kind = 2 then retireFrame s a else s) kind source as

/-- Corrected words counted by die or stack (07 R276). -/
def countCorrCore (s : State) (c n : Nat) : State :=
  if n = 0 then s
  else { s with mstats := { s.mstats with corrCore := spUpd 0 s.mstats.corrCore (dieOf s.grid c) (fun x => satAdd 64 x n) } }
def countCorrBulk (s : State) (i n : Nat) : State :=
  if n = 0 then s
  else { s with mstats := { s.mstats with corrBulk := spUpd 0 s.mstats.corrBulk i (fun x => satAdd 64 x n) } }

/-! ## Ranking exceptions (02 R99) -/

/-- The rank of an exception: code 0x05 has two, an address poisoned takes the rank of the address checks (02 R99). -/
def excRank (x : Exc) : Nat :=
  match x.code with
  | 0x01 => 1
  | 0x02 => 2
  | 0x08 => 3
  | 0x07 => 4
  | 0x03 => 5
  | 0x05 => if x.sub < 0x10 then 6 else 8
  | 0x04 => 7
  | 0x0C => 9
  | 0x06 => 10
  | 0x0B => 11
  | _ => 12

/-- An exception condition with the rank it takes. -/
structure Cand where
  rank : Nat
  x : Exc
  deriving DecidableEq, Repr

def cand (code sub : Nat) (info : Word) : Cand := ⟨excRank ⟨code, sub, info⟩, ⟨code, sub, info⟩⟩

/-- The condition taken: lowest rank, then lowest XSUB (02 R99), then the first listed. Conditions of one code and XSUB differ in XINFO alone,
as where two source registers of an instruction are poisoned; no rule says which of them XINFO gives, and the model gives the one
that the instruction's word names first, ga before gb (DESIGN CHOICE, notes/assumptions/74.md). -/
def firstCand : List Cand → Option Exc
  | [] => none
  | a :: rest =>
    some (rest.foldl (fun (b : Cand) y => if y.rank < b.rank || (y.rank == b.rank && y.x.sub < b.x.sub) then y else b) a).x

/-- A condition that holds or not. -/
def when? (b : Bool) (code sub : Nat) (info : Word) : List Cand := if b then [cand code sub info] else []

end Sys2Proof.Machine
end

