-- ==== Sys2Proof/Machine/LatchUnit.lean ====
section
/-!
DEFINITION. Machine/LatchUnit.lean: a core's request slots (02 R84) and the latch unit that serves the words of its memories
(09 R324–R332).
-/

namespace Sys2Proof.Machine

/-! ## Local SRAM and granary -/

def setLocal (s : State) (c : Nat) (m : Mem) : State := updCore s c (fun k => { k with mem := { k.mem with localMem := m } })
def setGran (s : State) (c : Nat) (m : Mem) : State := updCore s c (fun k => { k with mem := { k.mem with gran := m } })

/-- The memory of core c an access goes to. -/
def coreMem (s : State) (gran : Bool) (c : Nat) : Mem := if gran then (getCore s c).mem.gran else (getCore s c).mem.localMem

def setCoreMem (s : State) (gran : Bool) (c : Nat) (m : Mem) : State := if gran then setGran s c m else setLocal s c m

/-! ## Requests -/

def findReq (s : State) (c id : Nat) : Option Req := (getCore s c).reqs.find? (fun q => q.id == id)

def updReq (s : State) (c id : Nat) (f : Req → Req) : State :=
  updCore s c (fun k => { k with reqs := k.reqs.map (fun q => if q.id == id then f q else q) })

def freeReq (s : State) (c id : Nat) : State :=
  updCore s c (fun k => { k with reqs := k.reqs.filter (fun q => q.id != id) })

/-- A slot is free for the thread: fewer than 16 of its own and fewer than 64 of the core (02 R84). -/
def slotFree (k : Core) (t : Nat) : Bool :=
  decide ((k.reqs.filter (fun q => q.thread == t)).length < 16) && decide (k.reqs.length < 64)

/-- Adds a request under a new number. -/
def addReq (s : State) (c : Nat) (q : Nat → Req) : Nat × State :=
  let k := getCore s c
  (k.nextReq, setCore s c { k with reqs := k.reqs ++ [q k.nextReq], nextReq := k.nextReq + 1 })

/-- A request is served: its answer, which holds the data, is sent after those of the requests served before (01 R36). -/
def answerReq (s : State) (c id value : Nat) (poison : Bool) : State :=
  updCore s c (fun k => { k with
    nextAns := k.nextAns + 1
    reqs := k.reqs.map (fun q => if q.id == id then { q with stage := .done, resp := value, respPoison := poison, ans := k.nextAns } else q) })

/-! ## The latch unit -/

def setWaiters (s : State) (tc : Nat) (l : List Waiter) : State := updCore s tc (fun k => { k with mem := { k.mem with latch := l } })

def sameWord (gran : Bool) (wd : Nat) (x : Waiter) : Bool := x.gran == gran && x.word == wd

def ReqKind.isPeek : ReqKind → Bool
  | .peek _ => true
  | _ => false
def ReqKind.isTake : ReqKind → Bool
  | .take _ => true
  | _ => false
def ReqKind.isFill : ReqKind → Bool
  | .fill => true
  | _ => false

/-- A read of a word by the latch unit: an uncorrectable word becomes full poison first (07 R274). -/
def wordProbe (s : State) (gran : Bool) (tc wd : Nat) : State × Mark × Nat :=
  let (m, bad) := (coreMem s gran tc).probe wd
  let s := setCoreMem s gran tc m
  let s := if bad then reportUncorr s (boolN gran) (srcCore tc) [8 * wd] else s
  (s, m.mark wd, ofBytes (m.getBytes (8 * wd) 8))

/-- Writes a word with a latch bit. -/
def latchWrite (s : State) (gran : Bool) (tc wd : Nat) (data : List Byte) (poison full : Bool) : State :=
  let m := coreMem s gran tc
  let m := if poison then m else m.setBytes (8 * wd) (takeBytes 8 data)
  setCoreMem s gran tc (m.setMark wd { poison := poison, full := full, ecc := .clean })

def latchSet (s : State) (gran : Bool) (tc wd : Nat) (full : Bool) : State :=
  setCoreMem s gran tc ((coreMem s gran tc).setFull wd full)

/-- Serves the waiters of a word (09 R327): on a full word every PEEK and then the oldest TAKE; on an empty word the oldest FILL, and
again. The first argument bounds the rounds. -/
def serveWord (gran : Bool) (tc wd : Nat) : Nat → State → State
  | 0, s => s
  | n + 1, s =>
    let (s, k, v) := wordProbe s gran tc wd
    let ws := (getCore s tc).mem.latch
    if k.full then
      let peeks := ws.filter (fun x => sameWord gran wd x && x.kind.isPeek)
      let s := peeks.foldl (fun s x => answerReq s x.core x.req v k.poison) s
      let ws := ws.filter (fun x => !(sameWord gran wd x && x.kind.isPeek))
      match ws.find? (fun x => sameWord gran wd x && x.kind.isTake) with
      | none => setWaiters s tc ws
      | some x =>
        let s := setWaiters s tc (ws.filter (fun y => !(y.core == x.core && y.req == x.req)))
        let s := latchSet (answerReq s x.core x.req v k.poison) gran tc wd false
        serveWord gran tc wd n s
    else
      match ws.find? (fun x => sameWord gran wd x && x.kind.isFill) with
      | none => s
      | some x =>
        let s := setWaiters s tc (ws.filter (fun y => !(y.core == x.core && y.req == x.req)))
        let s := latchWrite (answerReq s x.core x.req 0 false) gran tc wd x.data x.poison true
        serveWord gran tc wd n s

def serve (s : State) (gran : Bool) (tc wd : Nat) : State :=
  serveWord gran tc wd ((getCore s tc).mem.latch.length + 1) s

/-- Serves the words found uncorrectable, which are full now (07 R274, 09 R327). -/
def serveFound (s : State) (gran : Bool) (tc : Nat) (found : List Nat) : State := found.foldl (fun s a => serve s gran tc (a / 8)) s

/-- Serves every word that has a waiter. -/
def serveAll (s : State) (tc : Nat) : State := (getCore s tc).mem.latch.foldl (fun s x => serve s x.gran tc x.word) s

/-- A latch operation reads its word: the waiters of one found uncorrectable are served before the operation itself. -/
def latchProbe (s : State) (gran : Bool) (tc wd : Nat) : State × Mark × Nat :=
  let m := coreMem s gran tc
  if (m.mark wd).ecc = .unc then wordProbe (serve (wordProbe s gran tc wd).1 gran tc wd) gran tc wd
  else wordProbe (countCorrCore s tc (m.corrected wd 1)) gran tc wd

/-- The latch unit of a core holds arriving latch operations while its JSWITCH clears (09 R351). -/
def latchHeld (s : State) (tc : Nat) : Bool :=
  match (getCore s tc).sync.jsw with
  | some j => j.phase == .resetting && j.newSplit.isNone
  | none => false

/-- Any agent's ST.PUT of a 64-bit word (09 R325); one that comes while the core's JSWITCH clears is held until it ends (R351). -/
def latchPut (s : State) (gran : Bool) (tc a : Nat) (data : List Byte) (poison : Bool) : State :=
  if latchHeld s tc then
    updCore s tc (fun k => { k with mem := { k.mem with puts := k.mem.puts ++ [{ gran := gran, addr := a, data := data, poison := poison }] } })
  else serve (latchWrite s gran tc (a / 8) data poison true) gran tc (a / 8)

/-- The ST.PUTs held over a JSWITCH are made, in the order in which they came. -/
def latchPutsHeld (s : State) (tc : Nat) : State :=
  let ps := (getCore s tc).mem.puts
  ps.foldl (fun s p => latchPut s p.gran tc p.addr p.data p.poison)
    (updCore s tc (fun k => { k with mem := { k.mem with puts := [] } }))

/-- Serves a latch request at its word, or makes it wait there (09 R326, R327); a full waiter table returns it (R329). -/
def latchRequest (s : State) (gran : Bool) (tc a : Nat) (c : Nat) (q : Req) : State :=
  let wd := a / 8
  let (s, k, v) := latchProbe s gran tc wd
  let ws := (getCore s tc).mem.latch
  let wait : State :=
    if ws.length < 512 then
      updReq (setWaiters s tc (ws ++
        [{ gran := gran, word := wd, kind := q.kind, core := c, req := q.id, data := q.data, poison := q.poison }]))
        c q.id (fun q => { q with stage := .waiting })
    else updReq s c q.id (fun q => { q with stage := .returned })
  match q.kind with
  | .take _ => if k.full then serve (latchSet (answerReq s c q.id v k.poison) gran tc wd false) gran tc wd else wait
  | .peek _ => if k.full then answerReq s c q.id v k.poison else wait
  | .fill => if k.full then wait else serve (latchWrite (answerReq s c q.id 0 false) gran tc wd q.data q.poison true) gran tc wd
  | .put => serve (latchWrite (answerReq s c q.id 0 false) gran tc wd q.data q.poison true) gran tc wd
  | .clear =>
    let s := answerReq s c q.id 0 false
    if k.full then serve (latchSet s gran tc wd false) gran tc wd else s
  | _ => s

/-- The kind of a latch operation that makes its thread wait (09 R326). -/
def ReqKind.waits : ReqKind → Bool
  | .take _ => true
  | .peek _ => true
  | .fill => true
  | _ => false

def ReqKind.isLatch : ReqKind → Bool
  | .put => true
  | .clear => true
  | k => k.waits

/-- Whether a request's response is awaited by a FENCE of its kind: a load or a store. -/
def ReqKind.isLoad : ReqKind → Bool
  | .load _ _ _ => true
  | .loadS _ => true
  | _ => false

/-! ## The L1 (02 R85) -/

def setL1 (s : State) (c : Nat) (l : List L1Line) : State := updCore s c (fun k => { k with mem := { k.mem with l1 := l } })

def l1Find (k : Core) (space owner line : Nat) : Option L1Line :=
  k.mem.l1.find? (fun l => l.space == space && l.owner == owner && l.line == line)

def l1Drop (s : State) (c : Nat) (p : L1Line → Bool) : State := setL1 s c ((getCore s c).mem.l1.filter (fun l => !p l))

/-- Allocates a line; the cache holds 512 (replacement: notes/assumptions/13.md). -/
def l1Insert (s : State) (c : Nat) (l : L1Line) : State :=
  setL1 s c ((l :: (getCore s c).mem.l1.filter (fun x => !(x.space == l.space && x.owner == l.owner && x.line == l.line))).take 512)

def L1Line.get (l : L1Line) (off n : Nat) : Nat × Bool :=
  (bytesAt l.data off n, ((l.pois.drop (off / 8)).take (wordSpan off n)).any id)

/-- A store updates a line that is present, by the word rule of 07 R261. -/
def l1Store (s : State) (c space owner addr : Nat) (poison : Bool) (bs : List Byte) : State :=
  match l1Find (getCore s c) space owner (addr / 64) with
  | none => s
  | some l =>
    let off := addr % 64
    let w := off / 8
    let keep := poison || (l.pois.getD w false && bs.length != 8)
    let l' := { l with
      data := if keep then l.data else l.data.take off ++ bs ++ l.data.drop (off + bs.length)
      pois := l.pois.set w keep }
    setL1 s c ((getCore s c).mem.l1.map (fun x => if x.space == space && x.owner == owner && x.line == addr / 64 then l' else x))

/-- A latch operation, TST or a TDRAIN write invalidates the line of its word. -/
def l1Kill (s : State) (c space owner addr : Nat) : State :=
  l1Drop s c (fun l => l.space == space && l.owner == owner && l.line == addr / 64)

end Sys2Proof.Machine
end

