-- ==== Sys2Proof/Machine/Issue.lean ====
section
/-!
DEFINITION. Machine/Issue.lean: how a core instruction issues (02 R55, R56, R69–R72, R93–R99): readiness, the fetch checks, the illegal
and privileged forms, predication, and what its own effect answers. Every core instruction is one body over this frame.
-/

namespace Sys2Proof.Machine

/-- What the body of an instruction answers: not ready yet (nothing issues), exceptions that hold, or the state with every
effect made, the advance of the pc included. -/
inductive Res where
  | wait
  | hold (s : State)
  | raise (xs : List Cand)
  | done (s : State)

/-- The named fields of an S- or M-format word (02 R69). -/
def wGd (w : Word) : Nat := field w 55 51
def wGa (w : Word) : Nat := field w 50 46
def wGb (w : Word) : Nat := field w 45 41
def wImm (w : Word) : Nat := field w 36 0

/-- Predication of formats S and M (02 R70). -/
def predHolds (th : Thread) (w : Word) : Bool := th.regs.pGet (field w 40 38) != bitOf w 37

/-- Formats S and M are predicated; tile and vector instructions are not (02 R69, R70). -/
def predicated (w : Word) : Bool := !(0x40 ≤ field w 63 56 && field w 63 56 ≤ 0x6F)

/-- The registers an instruction reads or writes, for the register condition of 02 R56 and the poison check of 02 R61. -/
structure Uses where
  /-- General registers read, in the order they are examined for poison. -/
  gIn : List Nat := []
  /-- General registers read that may be poisoned (data of a store). -/
  gData : List Nat := []
  gOut : List Nat := []
  mIn : List Nat := []
  sIn : List Nat := []
  sOut : List Nat := []

/-- A general register awaits the result of an earlier instruction of the thread (02 R56). -/
def Core.gBusy (k : Core) (t n : Nat) : Bool :=
  n != 0 && (k.ctl.gBusy.contains (t, n) || k.reqs.any (fun q => q.thread == t && q.orphan == 0 && !q.superseded && q.kind.gDest == some n))

def Core.sBusy (k : Core) (t n : Nat) : Bool :=
  k.ctl.sBusy.contains (t, n) || k.reqs.any (fun q => q.thread == t && q.orphan == 0 && !q.superseded && q.kind.sDest == some n)

def Uses.busy (u : Uses) (k : Core) (t : Nat) : Bool :=
  (u.gIn ++ u.gData ++ u.gOut).any (k.gBusy t) || (u.sIn ++ u.sOut).any (k.sBusy t)

/-- Exception 0x06 for poisoned sources: XSUB 0x01 for g and m, 0x02 for s (02 R61, R100). -/
def Uses.poison (u : Uses) (th : Thread) : List Cand :=
  (u.gIn.filter (fun n => (th.regs.gGet n).p)).map (fun n => cand 0x06 0x01 (word n)) ++
  (u.mIn.filter (fun n => (th.regs.mGet n).p)).map (fun n => cand 0x06 0x01 (word n)) ++
  (u.sIn.filter (fun n => (th.regs.sGet n).p)).map (fun n => cand 0x06 0x02 (word n))

/-- What an instruction is, for the frame: its registers, an exception 0x02 it takes in the state it finds, an exception 0x01
beyond those its word alone calls for, and its own effect. -/
structure Form where
  uses : Uses := {}
  priv : Option Nat := none
  illegal : List Nat := []
  body : State → Res

/-- The pc moves past the instruction. -/
def advance (s : State) (c t : Nat) : State := updThread s c t (fun th => { th with pc := th.pc + 8 })

/-- The end of the LOCAL space (07 R249). -/
def localEnd : Nat := 0xC0000

/-- Exceptions of the fetch: misaligned or beyond LOCAL (02 R99), keeper area in job mode (02 R66), a word with an uncorrectable error
(02 R79). The word is then poison, as later fetches of it find it (07 R274). -/
def fetchCheck (s : State) (c t : Nat) : Option (Exc × State) :=
  let k := getCore s c
  let th := k.thread t
  let a := th.pc.toNat % 2 ^ 56
  if a % 8 != 0 then some (⟨0x03, 0x02, th.pc⟩, s)
  else if field th.pc 63 56 != 0 then some (⟨0x05, 0x01, th.pc⟩, s)
  else if localEnd ≤ a then some (⟨0x05, 0x02, th.pc⟩, s)
  else if !th.st.pm && k.ctl.klim.toNat ≤ a then some (⟨0x05, 0x03, th.pc⟩, s)
  else if (k.mem.localMem.mark (a / 8)).ecc = .unc then
    some (⟨0x06, 0x03, th.pc⟩, (latchProbe s false c (a / 8)).1)
  else if (k.mem.localMem.mark (a / 8)).poison then some (⟨0x06, 0x03, th.pc⟩, s)
  else none

/-- The counters an issue moves: CYCLE by the CCLK of the issue, the issue search's start (02 R55), ISSUED of the core view
unless the counters are frozen (02 R103, 15 R540). -/
def Core.noteIssue (k : Core) (t : Nat) : Core :=
  let bump (m : Sparse (Nat × Bool)) (key : Nat) : Sparse (Nat × Bool) :=
    spUpd (0, false) m key (fun v => if v.1 + 1 = 2 ^ 48 then (0, true) else (v.1 + 1, v.2))
  let st := if k.stall.frozen then k.stall
    else { k.stall with
      counts := (let m := bump k.stall.counts 0
                 if k.ctl.stallsel.toNat % 16 = t then bump m 32 else m) }
  { k with ctl := { k.ctl with cycle := k.ctl.cycle + 1, lastIssued := some t }, stall := st }

/-- Exceptions taken by an instruction at pc. -/
def takeExc (s : State) (c t : Nat) (x : Exc) : State := enterKeeper s c t x (getThread s c t).pc

/-- A core in a JSWITCH issues nothing but that JSWITCH; one that changes its granary split issues nothing (02 R91, 07 R253). -/
def coreHolds (k : Core) (w : Word) : Bool :=
  match k.sync.jsw with
  | some j => j.newSplit.isSome || coreMnemonic w != some .jswitch
  | none => false

/-- The thread's JSWITCH is in progress: it has issued, and its next instruction boundary is its end (02 R91). -/
def inSwitch (k : Core) (t : Nat) : Bool :=
  match k.sync.jsw with
  | some j => j.newSplit.isNone && j.thread == some t
  | none => false

/-- The thread has tile operations that have not retired (02 R64). -/
def tileBusy (k : Core) (t : Nat) : Bool :=
  k.tile.passes.any (·.thread == t) || k.tile.moves.any (·.thread == t) || k.tile.vecs.any (·.thread == t) ||
    k.tile.xfers.any (·.thread == t) || k.drain.jobs.any (·.thread == t)

/-- A remote TWIN write takes effect once the thread's tile operations have retired (15 R556). -/
def settleTwin (s : State) (c t : Nat) : State :=
  let k := getCore s c
  match (k.thread t).twPend with
  | some (n, b) => if tileBusy k t then s else updThread s c t (fun th => { th with twPend := none, twCount := n, twBase := b })
  | none => s

/-- A thread that a debugger steps is HALTED at its next instruction boundary (13 R472). -/
def stepEnd (s : State) (c t : Nat) : State :=
  let th := getThread s c t
  if th.step && th.st.state == .running then
    updThread s c t (fun th => { th with st := { th.st with state := .halted }, step := false })
  else s

/-- What the body of an instruction that issues answers becomes the state. -/
def issueEffect (f : Form) (c t : Nat) (s : State) : State :=
  let note (s : State) : State := updCore s c (fun k => k.noteIssue t)
  match f.body s with
  | .wait => s
  | .hold s' => s'
  | .raise xs =>
    match firstCand xs with
    | some x => stepEnd (takeExc (note s) c t x) c t
    | none => s
  | .done s' => stepEnd (note s') c t

/-- The state after an instruction of thread t of core c is offered for issue. Nothing changes where the thread is not ready. A
stop that is pending lets no further instruction issue (02 R90); a pending deferred exception is taken first (02 R98). A JSWITCH that has
begun goes on before either (02 R91). -/
def issueStep (f : Form) (c t : Nat) (w : Word) (s0 : State) : State :=
  if !coreUp s0 c || 16 ≤ t then s0
  else
    let s := settleTwin s0 c t
    let k := getCore s c
    let th := k.thread t
    if th.st.state == .running && inSwitch k t && !coreHolds k w then issueEffect f c t s
    else if th.st.state != .running || th.stopReq.isSome || th.twPend.isSome || th.walk.isSome || coreHolds k w then s
    else match th.deferred with
    | some x => stepEnd (takeExc (updThread s c t (fun th => { th with deferred := none })) c t x) c t
    | none =>
      match fetchCheck s c t with
      | some (x, s') => stepEnd (takeExc s' c t x) c t
      | none =>
        if f.uses.busy k t then s
        else
          let note (s : State) : State := updCore s c (fun k => k.noteIssue t)
          let c01 := (illegalSubs w ++ f.illegal).map (fun n => cand 0x01 n w)
          let c02 := match f.priv with
            | some n => [cand 0x02 n w]
            | none => []
          match firstCand (c01 ++ c02) with
          | some x => stepEnd (takeExc (note s) c t x) c t
          | none =>
            if predicated w && !predHolds th w then stepEnd (advance (note s) c t) c t
            else issueEffect f c t s

/-- A word belongs to a command's row if it spells that instruction, or no instruction at all (then it is illegal and the
thread takes exception 0x01). -/
def wordIs (m : Mn) (w : Word) : Bool :=
  match coreMnemonic w with
  | some m' => m' == m
  | none => true

/-- A core-instruction command: refused where the word spells another instruction than the row. -/
def issue (m : Mn) (f : Form) (c t : Nat) (w : Word) (s : State) : Out :=
  if wordIs m w then .next (issueStep f c t w s) else .refused .illFormed

/-- A body that only writes general register gd, after its sources are checked. -/
def writeBody (u : Uses) (c t : Nat) (gd : Nat) (v : Thread → Word) (s : State) : Res :=
  let th := getThread s c t
  match u.poison th with
  | [] => .done (advance (updCore s c (fun k => k.writeG t gd (v th))) c t)
  | xs => .raise xs

end Sys2Proof.Machine
end

