-- ==== Sys2Proof/Machine/Flags.lean ====
section
/-!
DEFINITION. Machine/Flags.lean: the FP32 flags of a thread and their traps (02 R62, R76), and integer compare conditions (02 R75).
-/

namespace Sys2Proof.Machine

/-- The sub-code of the first raised flag whose trap is enabled: NV (4) first, NX (0) last (02 R76). -/
def firstTrap (raised te : Nat) : Option Nat :=
  [4, 3, 2, 1, 0].find? (fun i => raised.testBit i && te.testBit i)

/-- ORs raised flags into FLAGS. -/
def orFlags (s : State) (c t raised : Nat) : State :=
  updThread s c t (fun th => { th with st := { th.st with flags := th.st.flags ||| BitVec.ofNat 5 raised } })

/-- The end of an FP32 instruction: FLAGS take every raised flag; with an enabled one among them the thread takes 0x0B and
nothing is written, else the result is written and the pc advances. -/
def flagEnd (c t : Nat) (w : Word) (raised : Nat) (write : State → State) (s : State) : Res :=
  let te := (getThread s c t).st.te.toNat
  let s1 := orFlags s c t raised
  match firstTrap raised te with
  | some i => .done (takeExc s1 c t ⟨0x0B, i, w⟩)
  | none => .done (advance (write s1) c t)

/-- Integer compare conditions (02 R75). -/
def intCond (k : Nat) (a b : Word) : Bool :=
  match k with
  | 0 => a == b
  | 1 => a != b
  | 2 => a.slt b
  | 3 => !a.slt b
  | 4 => a.ult b
  | _ => !a.ult b

/-- PLOG functions (02 R75). -/
def predLogic (k : Nat) (a b : Bool) : Bool :=
  match k with
  | 0 => a && b
  | 1 => a || b
  | 2 => a != b
  | _ => a && !b

end Sys2Proof.Machine
end

