-- ==== Sys2Proof/Machine/Scalar.lean ====
section
/-!
DEFINITION. Machine/Scalar.lean: integer, predicate, mask and FP32 scalar instructions (02 R71, R73–R77).
-/

namespace Sys2Proof.Machine

/-! ## Shared forms -/

def gVal (th : Thread) (n : Nat) : Word := (th.regs.gGet n).v

/-- gd = f(ga, gb). -/
def binForm (c t : Nat) (w : Word) (f : Word → Word → Word) : Form :=
  let u : Uses := { gIn := [wGa w, wGb w], gOut := [wGd w] }
  { uses := u
    body := writeBody u c t (wGd w) (fun th => f (gVal th (wGa w)) (gVal th (wGb w))) }

/-- gd = f(ga). -/
def unForm (c t : Nat) (w : Word) (f : Word → Word) : Form :=
  let u : Uses := { gIn := [wGa w], gOut := [wGd w] }
  { uses := u
    body := writeBody u c t (wGd w) (fun th => f (gVal th (wGa w))) }

/-- gd = a value of the word and the thread alone. -/
def nulForm (c t : Nat) (w : Word) (f : Thread → Word) : Form :=
  let u : Uses := { gOut := [wGd w] }
  { uses := u
    body := writeBody u c t (wGd w) f }

/-- sext(imm[36:0]) (02 R71). -/
def immS (w : Word) : Word := sextWord 37 (wImm w)

def shAmt (b : Word) : Nat := b.toNat % 64

/-- The 128-bit signed product's high half. -/
def mulHigh (a b : Word) : Word := BitVec.ofInt 64 (a.toInt * b.toInt / 2 ^ 64)
def mulHighU (a b : Word) : Word := word (a.toNat * b.toNat / 2 ^ 64)

def minBy (lt : Word → Word → Bool) (a b : Word) : Word := if lt b a then b else a
def maxBy (lt : Word → Word → Bool) (a b : Word) : Word := if lt a b then b else a

/-- Leading zeros, 0–64. -/
def clz64 (a : Word) : Word := word (if a.toNat = 0 then 64 else 63 - Nat.log2 a.toNat)

/-- Trailing zeros among k bits. -/
def ctzN : Nat → Nat → Nat
  | 0, _ => 0
  | k + 1, n => if n % 2 = 1 then 0 else 1 + ctzN k (n / 2)

/-- Quotients and remainders: division by zero and signed overflow (02 R74). -/
def divS (a b : Word) : Word := if b = 0 then BitVec.allOnes 64 else BitVec.ofInt 64 (Int.tdiv a.toInt b.toInt)
def divUns (a b : Word) : Word := if b = 0 then BitVec.allOnes 64 else word (a.toNat / b.toNat)
def remS (a b : Word) : Word := if b = 0 then a else BitVec.ofInt 64 (Int.tmod a.toInt b.toInt)
def remUns (a b : Word) : Word := if b = 0 then a else word (a.toNat % b.toNat)

/-- A division: with TE_IDZ set and gb zero it writes nothing and takes 0x0B XSUB 0x05 (02 R74). -/
def divForm (c t : Nat) (w : Word) (f : Word → Word → Word) : Form :=
  let u : Uses := { gIn := [wGa w, wGb w], gOut := [wGd w] }
  { uses := u
    body := fun s =>
      let th := getThread s c t
      match u.poison th ++ when? (th.st.teIdz && !(th.regs.gGet (wGb w)).p && gVal th (wGb w) == 0) 0x0B 0x05 w with
      | [] => .done (advance (updCore s c (fun k => k.writeG t (wGd w) (f (gVal th (wGa w)) (gVal th (wGb w))))) c t)
      | xs => .raise xs }

/-! ## ALU (02 R73, R74) -/

def execAdd (c t : Nat) (w : Word) (s : State) : Out := issue .add (binForm c t w (· + ·)) c t w s
def execSub (c t : Nat) (w : Word) (s : State) : Out := issue .sub (binForm c t w (· - ·)) c t w s
def execAnd (c t : Nat) (w : Word) (s : State) : Out := issue .and (binForm c t w (· &&& ·)) c t w s
def execOr (c t : Nat) (w : Word) (s : State) : Out := issue .or (binForm c t w (· ||| ·)) c t w s
def execXor (c t : Nat) (w : Word) (s : State) : Out := issue .xor (binForm c t w (· ^^^ ·)) c t w s
def execAndn (c t : Nat) (w : Word) (s : State) : Out := issue .andn (binForm c t w (fun a b => a &&& ~~~b)) c t w s
def execSll (c t : Nat) (w : Word) (s : State) : Out := issue .sll (binForm c t w (fun a b => a <<< shAmt b)) c t w s
def execSrl (c t : Nat) (w : Word) (s : State) : Out := issue .srl (binForm c t w (fun a b => a >>> shAmt b)) c t w s
def execSra (c t : Nat) (w : Word) (s : State) : Out :=
  issue .sra (binForm c t w (fun a b => BitVec.sshiftRight a (shAmt b))) c t w s
def execMin (c t : Nat) (w : Word) (s : State) : Out := issue .min (binForm c t w (minBy BitVec.slt)) c t w s
def execMax (c t : Nat) (w : Word) (s : State) : Out := issue .max (binForm c t w (maxBy BitVec.slt)) c t w s
def execMinu (c t : Nat) (w : Word) (s : State) : Out := issue .minu (binForm c t w (minBy BitVec.ult)) c t w s
def execMaxu (c t : Nat) (w : Word) (s : State) : Out := issue .maxu (binForm c t w (maxBy BitVec.ult)) c t w s
def execMul (c t : Nat) (w : Word) (s : State) : Out := issue .mul (binForm c t w (· * ·)) c t w s
def execMulh (c t : Nat) (w : Word) (s : State) : Out := issue .mulh (binForm c t w mulHigh) c t w s
def execMulhu (c t : Nat) (w : Word) (s : State) : Out := issue .mulhu (binForm c t w mulHighU) c t w s
def execDiv (c t : Nat) (w : Word) (s : State) : Out := issue .div (divForm c t w divS) c t w s
def execDivu (c t : Nat) (w : Word) (s : State) : Out := issue .divu (divForm c t w divUns) c t w s
def execRem (c t : Nat) (w : Word) (s : State) : Out := issue .rem (divForm c t w remS) c t w s
def execRemu (c t : Nat) (w : Word) (s : State) : Out := issue .remu (divForm c t w remUns) c t w s
def execClz (c t : Nat) (w : Word) (s : State) : Out := issue .clz (unForm c t w clz64) c t w s
def execCtz (c t : Nat) (w : Word) (s : State) : Out := issue .ctz (unForm c t w (fun a => word (ctzN 64 a.toNat))) c t w s
def execPopc (c t : Nat) (w : Word) (s : State) : Out := issue .popc (unForm c t w (fun a => word (popN 64 a.toNat))) c t w s

/-! ## Immediates (02 R71) -/

def execAddi (c t : Nat) (w : Word) (s : State) : Out := issue .addi (unForm c t w (· + immS w)) c t w s
def execAndi (c t : Nat) (w : Word) (s : State) : Out := issue .andi (unForm c t w (· &&& immS w)) c t w s
def execOri (c t : Nat) (w : Word) (s : State) : Out := issue .ori (unForm c t w (· ||| immS w)) c t w s
def execXori (c t : Nat) (w : Word) (s : State) : Out := issue .xori (unForm c t w (· ^^^ immS w)) c t w s
def execSlli (c t : Nat) (w : Word) (s : State) : Out := issue .slli (unForm c t w (· <<< field w 5 0)) c t w s
def execSrli (c t : Nat) (w : Word) (s : State) : Out := issue .srli (unForm c t w (· >>> field w 5 0)) c t w s
def execSrai (c t : Nat) (w : Word) (s : State) : Out :=
  issue .srai (unForm c t w (fun a => BitVec.sshiftRight a (field w 5 0))) c t w s
def execLi (c t : Nat) (w : Word) (s : State) : Out := issue .li (nulForm c t w (fun _ => immS w)) c t w s
def execLih (c t : Nat) (w : Word) (s : State) : Out :=
  issue .lih (unForm c t w (fun a => word (field a 36 0 + field w 26 0 * 2 ^ 37))) c t w s

/-! ## Predicates (02 R75) -/

/-- A compare: predicate gd[2:0] = condition imm[3:0] of ga and a second operand. -/
def cmpForm (c t : Nat) (w : Word) (u : Uses) (b : Thread → Word) : Form :=
  { uses := u
    body := fun s =>
      let th := getThread s c t
      match u.poison th with
      | [] => .done (advance (updThread s c t (fun th =>
          { th with regs := th.regs.pSet (wGd w) (intCond (field w 3 0) (gVal th (wGa w)) (b th)) })) c t)
      | xs => .raise xs }

def execCmp (c t : Nat) (w : Word) (s : State) : Out :=
  issue .cmp (cmpForm c t w { gIn := [wGa w, wGb w] } (fun th => gVal th (wGb w))) c t w s
def execCmpi (c t : Nat) (w : Word) (s : State) : Out :=
  issue .cmpi (cmpForm c t w { gIn := [wGa w] } (fun _ => sextWord 33 (field w 36 4))) c t w s

def execPlog (c t : Nat) (w : Word) (s : State) : Out :=
  issue .plog
    { body := fun s => .done (advance (updThread s c t (fun th =>
        { th with regs := th.regs.pSet (wGd w)
                            (predLogic (field w 1 0) (th.regs.pGet (wGa w)) (th.regs.pGet (wGb w))) })) c t) } c t w s

/-- p7…p0 as a number. -/
def predBits (r : Regs) : Nat := (List.range 8).foldl (fun a i => a + boolN (r.pGet i) * 2 ^ i) 0

def execPget (c t : Nat) (w : Word) (s : State) : Out :=
  issue .pget (nulForm c t w (fun th => word (predBits th.regs))) c t w s

def execPset (c t : Nat) (w : Word) (s : State) : Out :=
  let u : Uses := { gIn := [wGa w] }
  issue .pset
    { uses := u
      body := fun s =>
        let th := getThread s c t
        match u.poison th with
        | [] => .done (advance (updThread s c t (fun th =>
            { th with regs := [1, 2, 3, 4, 5, 6, 7].foldl (fun r i => r.pSet i (bitOf (gVal th (wGa w)) i)) th.regs })) c t)
        | xs => .raise xs } c t w s

/-! ## FP32 (02 R76) -/

/-- Bits [31:0] of a source register. -/
def fVal (th : Thread) (n : Nat) : Nat := (gVal th n).toNat % 2 ^ 32

/-- An FP32 instruction that writes gd. -/
def fpForm (c t : Nat) (w : Word) (ins : List Nat) (f : Thread → FRes) : Form :=
  let u : Uses := { gIn := ins, gOut := [wGd w] }
  { uses := u
    body := fun s =>
      let th := getThread s c t
      match u.poison th with
      | [] =>
        let r := f th
        flagEnd c t w r.flags (fun s => updCore s c (fun k => k.writeG t (wGd w) (word r.bits))) s
      | xs => .raise xs }

def fp2 (c t : Nat) (w : Word) (f : Nat → Nat → FRes) : Form :=
  fpForm c t w [wGa w, wGb w] (fun th => f (fVal th (wGa w)) (fVal th (wGb w)))

def execFadd (c t : Nat) (w : Word) (s : State) : Out := issue .fadd (fp2 c t w faddS) c t w s
def execFsub (c t : Nat) (w : Word) (s : State) : Out := issue .fsub (fp2 c t w fsubS) c t w s
def execFmul (c t : Nat) (w : Word) (s : State) : Out := issue .fmul (fp2 c t w fmulS) c t w s
def execFdiv (c t : Nat) (w : Word) (s : State) : Out := issue .fdiv (fp2 c t w fdivS) c t w s
def execFmin (c t : Nat) (w : Word) (s : State) : Out := issue .fmin (fp2 c t w fminS) c t w s
def execFmax (c t : Nat) (w : Word) (s : State) : Out := issue .fmax (fp2 c t w fmaxS) c t w s
def execFsqrt (c t : Nat) (w : Word) (s : State) : Out :=
  issue .fsqrt (fpForm c t w [wGa w] (fun th => fsqrtS (fVal th (wGa w)))) c t w s
def execFcvtI2f (c t : Nat) (w : Word) (s : State) : Out :=
  issue .i2f (fpForm c t w [wGa w] (fun th => i2fS (gVal th (wGa w)).toInt)) c t w s
def execFcvtF2i (c t : Nat) (w : Word) (s : State) : Out :=
  issue .f2i (fpForm c t w [wGa w] (fun th => let (v, fl) := f2iS (fVal th (wGa w)); ⟨v.toNat, fl⟩)) c t w s
def execFabs (c t : Nat) (w : Word) (s : State) : Out :=
  issue .fabs (unForm c t w (fun a => word (a.toNat % 2 ^ 31))) c t w s
def execFneg (c t : Nat) (w : Word) (s : State) : Out :=
  issue .fneg (unForm c t w (fun a => word (f32neg (a.toNat % 2 ^ 32)))) c t w s
def execFfma (c t : Nat) (w : Word) (s : State) : Out :=
  issue .ffma (fpForm c t w [wGa w, wGb w, wGd w]
    (fun th => ffmaS (fVal th (wGa w)) (fVal th (wGb w)) (fVal th (wGd w)))) c t w s

def execFcmp (c t : Nat) (w : Word) (s : State) : Out :=
  let u : Uses := { gIn := [wGa w, wGb w] }
  issue .fcmp
    { uses := u
      body := fun s =>
        let th := getThread s c t
        match u.poison th with
        | [] =>
          let (r, fl) := fcmpS (field w 1 0) (fVal th (wGa w)) (fVal th (wGb w))
          flagEnd c t w fl (fun s => updThread s c t (fun th => { th with regs := th.regs.pSet (wGd w) r })) s
        | xs => .raise xs } c t w s

/-! ## Masks (02 R77) -/

def execMset (c t : Nat) (w : Word) (s : State) : Out :=
  let u : Uses := { gIn := [wGa w] }
  issue .mset
    { uses := u
      body := fun s =>
        let th := getThread s c t
        match u.poison th with
        | [] => .done (advance (updThread s c t (fun th =>
            { th with regs := th.regs.mSet (wGd w) ⟨(gVal th (wGa w)).truncate 32, false⟩ })) c t)
        | xs => .raise xs } c t w s

def execMget (c t : Nat) (w : Word) (s : State) : Out :=
  let u : Uses := { mIn := [wGa w], gOut := [wGd w] }
  issue .mget
    { uses := u
      body := writeBody u c t (wGd w) (fun th => word (th.regs.mGet (wGa w)).v.toNat) } c t w s

/-- n ones from bit b up. -/
def onesRun (b n : Nat) : BitVec 32 := BitVec.ofNat 32 ((2 ^ n - 1) <<< b)

def execMgen (c t : Nat) (w : Word) (s : State) : Out :=
  issue .mgen
    { body := fun s => .done (advance (updThread s c t (fun th =>
        { th with regs := th.regs.mSet (wGd w) ⟨onesRun (field w 12 8) (field w 5 0), false⟩ })) c t) } c t w s

end Sys2Proof.Machine
end

