-- ==== Sys2Proof/Machine/Branch.lean ====
section
/-!
DEFINITION. Machine/Branch.lean: branches and jumps (02 R78).
-/

namespace Sys2Proof.Machine

/-- The checks of a branch target: space, then alignment by 02 R99 (02 R78). -/
def targetChecks (a : Word) : List Cand :=
  when? (field a 63 56 != 0) 0x05 0x01 a ++ when? (a.toNat % 8 != 0) 0x03 0x02 a

/-- A poisoned address register takes the place of the address checks, at the rank of 0x03 (02 R61, R99). -/
def addrPoison (th : Thread) (regs : List Nat) : List Cand :=
  (regs.filter (fun n => (th.regs.gGet n).p)).map (fun n => ⟨5, ⟨0x06, 0x01, word n⟩⟩)

/-- Sets the pc to the target and writes the link register, if the target passes its checks. -/
def branchBody (c t : Nat) (base : Option Nat) (link : Option Nat) (target : Thread → Word) (s : State) : Res :=
  let th := getThread s c t
  match addrPoison th base.toList with
  | [] =>
    let a := target th
    match targetChecks a with
    | [] =>
      let s := match link with
        | some gd => updCore s c (fun k => k.writeG t gd (th.pc + 8))
        | none => s
      .done (updThread s c t (fun th => { th with pc := a }))
    | xs => .raise xs
  | xs => .raise xs

def relTarget (w : Word) (th : Thread) : Word := th.pc + immS w * 8
def regTarget (w : Word) (th : Thread) : Word := gVal th (wGa w) + immS w

def execBr (c t : Nat) (w : Word) (s : State) : Out :=
  issue .br { body := branchBody c t none none (relTarget w) } c t w s
def execBrl (c t : Nat) (w : Word) (s : State) : Out :=
  issue .brl { uses := { gOut := [wGd w] }, body := branchBody c t none (some (wGd w)) (relTarget w) } c t w s
def execJr (c t : Nat) (w : Word) (s : State) : Out :=
  issue .jr { uses := { gIn := [wGa w] }, body := branchBody c t (some (wGa w)) none (regTarget w) } c t w s
def execJrl (c t : Nat) (w : Word) (s : State) : Out :=
  issue .jrl
    { uses := { gIn := [wGa w], gOut := [wGd w] }
      body := branchBody c t (some (wGa w)) (some (wGd w)) (regTarget w) } c t w s

end Sys2Proof.Machine
end

