-- ==== Sys2Proof/Machine/Bulk.lean ====
section
/-!
DEFINITION. Machine/Bulk.lean: reads and writes of the memories by any agent, bulk physical addresses, the granary cache, and the
translation of BULK, FLASH and HOST addresses (07).
-/

namespace Sys2Proof.Machine

/-- What a read of words answered: the bytes, the poison of each word they touch, and the state. -/
structure Got where
  data : List Byte
  pois : List Bool
  st : State

/-- Whether any word read was poisoned. -/
def Got.poison (g : Got) : Bool := g.pois.any id

def Got.value (g : Got) : Nat := ofBytes g.data

/-! ## Local SRAM and granary -/

/-- What an access to core c's local SRAM or granary leaves: words found uncorrectable are recorded and served, corrected ones counted
(07 R274, R276). -/
def coreAccess (s : State) (gran : Bool) (c corrected : Nat) (r : MemAcc) : State :=
  serveFound (countCorrCore (reportUncorr (setCoreMem s gran c r.mem) (boolN gran) (srcCore c) r.found) c corrected) gran c r.found

/-- Reads n bytes of core c's local SRAM or granary (07 R274). -/
def coreRead (s : State) (gran : Bool) (c a n : Nat) : Got :=
  let m := coreMem s gran c
  let r := m.read a n
  ⟨r.data, r.pois, coreAccess s gran c (m.corrected (a / 8) (wordSpan a n)) r⟩

/-- Writes bytes to core c's local SRAM or granary: latch bits stay (09 R324). -/
def coreWrite (s : State) (gran : Bool) (c : Nat) (poison : Bool) (a : Nat) (bs : List Byte) : State :=
  let m := coreMem s gran c
  coreAccess s gran c (m.merged a bs.length) (m.write true poison a bs)

/-- The offsets of the words that n bytes at offset a touch, split at 8-byte boundaries: (offset, length). The first argument bounds
their number. -/
def wordCuts : Nat → Nat → Nat → List (Nat × Nat)
  | 0, _, _ => []
  | k + 1, a, n =>
    if n = 0 then []
    else
      let len := min n (8 - a % 8)
      (a, len) :: wordCuts k (a + len) (n - len)

/-- Writes a run with a poison bit for each word of the destination it touches. -/
def writeRun (put : State → Bool → Nat → List Byte → State) (a : Nat) (bs : List Byte) (pois : List Bool) (s : State) : State :=
  let cuts := wordCuts (bs.length + 1) a bs.length
  ((cuts.zip (pois ++ List.replicate cuts.length false)).foldl
    (fun (x : State × Nat) c =>
      (put x.1 c.2 c.1.1 ((bs.drop x.2).take c.1.2), x.2 + c.1.2)) (s, 0)).1

/-- Scratch ends here (07 R251). -/
def granEnd (k : Core) : Nat := 0x500000 - k.mem.mc.csteps * 0x40000

/-! ## Bulk (07 R258) -/

def stackBytes : Nat := 192000000000

/-- A bulk physical address that reaches memory. -/
def bulkOk (pa : Nat) : Bool := pa / 2 ^ 38 < 12 && pa % 2 ^ 38 < stackBytes

/-- An extent that lies in one stack. -/
def bulkExtentOk (pa n : Nat) : Bool := pa / 2 ^ 38 < 12 && pa % 2 ^ 38 + n ≤ stackBytes

/-- SOURCE of a bulk stack in the event recorder (15 R550). -/
def srcStack (pa : Nat) : Nat := srcUnit 2 (pa / 2 ^ 38)

def bulkRead (s : State) (pa n : Nat) : Got :=
  let r := s.bulk.read pa n
  ⟨r.data, r.pois,
    countCorrBulk (reportUncorr { s with bulk := r.mem } 2 (srcStack pa) r.found) (pa / 2 ^ 38) (s.bulk.corrected (pa / 8) (wordSpan pa n))⟩

def bulkWrite (s : State) (poison : Bool) (pa : Nat) (bs : List Byte) : State :=
  let r := s.bulk.write false poison pa bs
  countCorrBulk (reportUncorr { s with bulk := r.mem } 2 (srcStack pa) r.found) (pa / 2 ^ 38) (s.bulk.merged pa bs.length)

/-! ## The granary cache (07 R254–R257) -/

/-- The sets of the cache; a line's set is its number modulo that (the index function is the model's: notes/assumptions/12.md). -/
def gcSets (k : Core) : Nat := k.mem.mc.csteps * 128

def gcFind (k : Core) (line slot : Nat) : Option GLine := k.mem.gcache.find? (fun g => g.line == line && g.slot == slot)

def setGcache (s : State) (c : Nat) (g : List GLine) : State := updCore s c (fun k => { k with mem := { k.mem with gcache := g } })

/-- Writes the dirty sectors of a line back to bulk. -/
def gcWriteBack (s : State) (g : GLine) : State :=
  [0, 1, 2, 3].foldl (fun s i =>
    if g.dirty.getLsbD i then
      writeRun bulkWrite (g.line * 256 + 64 * i) ((g.data.drop (64 * i)).take 64) ((g.pois.drop (8 * i)).take 8) s
    else s) s

/-- Reads a line from bulk and allocates it, most recently used first; the least recently used line of a full set is evicted. -/
def gcFill (s : State) (c line slot : Nat) : GLine × State :=
  let g := bulkRead s (line * 256) 256
  let s := g.st
  let k := getCore s c
  let set (l : GLine) : Bool := l.line % gcSets k == line % gcSets k
  let inSet := k.mem.gcache.filter set
  let new : GLine := { line := line, slot := slot, dirty := 0, data := g.data, pois := g.pois }
  match (if 8 ≤ inSet.length then inSet.getLast? else none) with
  | some v => (new, gcWriteBack (setGcache s c (new :: k.mem.gcache.filter (fun l => !(l.line == v.line && l.slot == v.slot)))) v)
  | none => (new, setGcache s c (new :: k.mem.gcache))

/-- Puts a changed line first. -/
def gcTouch (s : State) (c : Nat) (g : GLine) : State :=
  setGcache s c (g :: (getCore s c).mem.gcache.filter (fun l => !(l.line == g.line && l.slot == g.slot)))

/-- A line with bytes written at an offset inside one word (07 R261 as in bulk). -/
def GLine.put (g : GLine) (poison : Bool) (off : Nat) (bs : List Byte) : GLine :=
  let w := off / 8
  let whole := bs.length == 8
  let old := g.pois.getD w false
  let keep := poison || (old && !whole)
  { g with
    data := if keep then g.data else g.data.take off ++ bs ++ g.data.drop (off + bs.length)
    pois := g.pois.set w keep
    dirty := g.dirty ||| BitVec.ofNat 4 (2 ^ (off / 64)) }

/-- A thread's load of n bytes (inside one line) from bulk through the core's cache (07 R254). -/
def cacheLoad (s : State) (c pa slot n : Nat) (cached : Bool) : Got :=
  let k := getCore s c
  if cached && k.mem.mc.csteps != 0 then
    let (g, s) := match gcFind k (pa / 256) slot with
      | some g => (g, gcTouch s c g)
      | none => gcFill s c (pa / 256) slot
    ⟨(g.data.drop (pa % 256)).take n, (g.pois.drop (pa % 256 / 8)).take (wordSpan pa n), s⟩
  else bulkRead s pa n

/-- A thread's store, inside one 64-bit word. -/
def cacheStore (s : State) (c pa slot : Nat) (cached poison : Bool) (bs : List Byte) : State :=
  let k := getCore s c
  if cached && k.mem.mc.csteps != 0 then
    let (g, s) := match gcFind k (pa / 256) slot with
      | some g => (g, s)
      | none => gcFill s c (pa / 256) slot
    gcTouch s c (g.put poison (pa % 256) bs)
  else bulkWrite s poison pa bs

/-- A Drill read of n bytes inside one line: a hit is served from the line, a miss does not allocate. -/
def drillLoad (s : State) (c pa slot n : Nat) (cached : Bool) : Got :=
  let k := getCore s c
  match (if cached && k.mem.mc.csteps != 0 then gcFind k (pa / 256) slot else none) with
  | some g => ⟨(g.data.drop (pa % 256)).take n, (g.pois.drop (pa % 256 / 8)).take (wordSpan pa n), gcTouch s c g⟩
  | none => bulkRead s pa n

/-- A Drill write inside one 64-bit word. -/
def drillStore (s : State) (c pa slot : Nat) (cached poison : Bool) (bs : List Byte) : State :=
  let k := getCore s c
  match (if cached && k.mem.mc.csteps != 0 then gcFind k (pa / 256) slot else none) with
  | some g => gcTouch s c (g.put poison (pa % 256) bs)
  | none => bulkWrite s poison pa bs

/-- Writes back every dirty sector of a core's cache; lines stay valid and clean (07 R255). -/
def gcClean (s : State) (c : Nat) : State :=
  let ls := (getCore s c).mem.gcache
  ls.foldl gcWriteBack (setGcache s c (ls.map (fun g => { g with dirty := 0 })))

/-- Writes back and invalidates the lines that satisfy p. -/
def gcFlush (s : State) (c : Nat) (p : GLine → Bool) : State :=
  let ls := (getCore s c).mem.gcache
  (ls.filter p).foldl gcWriteBack (setGcache s c (ls.filter (fun g => !p g)))

/-! ## Translation (07 R265–R269) -/

/-- The index of a level and the bits of the virtual address below it. -/
def lvlShift (l : Nat) : Nat := if l = 1 then 39 else if l = 2 then 30 else if l = 3 then 21 else 16
def lvlIndex (l va : Nat) : Nat := if l = 4 then fieldN va 20 16 else (va >>> lvlShift l) % 512
def lvlTable (l : Nat) : Nat := if l = 4 then 256 else 4096

/-- ADDR of an entry, bits [47:8] in place. -/
def leafAddr (w : Word) : Nat := field w 47 8 * 256
def leafSlot (w : Word) : Nat := field w 63 50
def leafC (w : Word) : Bool := bitOf w 4
def leafP (w : Word) : Bool := bitOf w 5
def leafSH (w : Word) : Bool := bitOf w 6

/-- A table entry that points to a table, malformed (07 R267). -/
def tableBad (l : Nat) (w : Word) : Bool :=
  leafSH w || bitOf w 7 || leafSlot w != 0 || l == 4 || leafAddr w % lvlTable (l + 1) != 0 ||
    !bulkExtentOk (leafAddr w) (lvlTable (l + 1))

/-- A valid leaf, malformed: space tag 4, 5 or 6 (07 R267, R272). -/
def leafBad (space l : Nat) (w : Word) : Bool :=
  l == 1 || (leafSH w && l != 4) || (!leafSH w && leafAddr w % 2 ^ lvlShift l != 0) ||
    (space == 4 && !bulkExtentOk (leafAddr w) (if leafSH w then 64 else 2 ^ lvlShift l))

/-- What a walk finds: a sub-code of exception 0x04, or the level and entry of a leaf with its bulk address. -/
inductive Walk where
  | fault (sub : Nat)
  /-- A BULK leaf that is held in flash and not resident (07 R269). -/
  | flash (level : Nat) (w : Word)
  | leaf (level : Nat) (w : Word) (at_ : Nat)
  deriving DecidableEq, Repr

/-- An entry with V = 0: a flash-backed BULK leaf is checked as any leaf is, but that its ADDR is a flash address. -/
def absent (space l : Nat) (w : Word) : Walk :=
  if space == 4 && bitOf w 7 && bitOf w 1 && l != 1 then (if leafBad 5 l w then .fault 7 else .flash l w) else .fault l

/-- Walks from a level's table on; the first argument is the number of levels left. Entries above level 4 that point to
tables are held in the walker cache by their address (07 R268). -/
def walkFrom (c space va : Nat) : Nat → Nat → State → Walk × State
  | 0, _, s => (.fault 7, s)
  | k + 1, table, s =>
    let l := 4 - k
    let pa := table + 8 * lvlIndex l va
    let held := (getCore s c).mem.wcache.find? (fun e => e.vpn == pa && e.level == l)
    let (w, bad, s) := match held with
      | some e => (e.leaf, false, s)
      | none => let g := bulkRead s pa 8; (word g.value, g.poison, g.st)
    if bad then (.fault 7, s)
    else if !bitOf w 0 then (absent space l w, s)
    else if bitOf w 1 then
      if leafBad space l w then (.fault 7, s) else (.leaf l w pa, s)
    else if tableBad l w then (.fault 7, s)
    else
      let s := if held.isSome then s
        else updCore s c (fun k => { k with mem := { k.mem with
          wcache := ({ space := space, level := l, vpn := pa, leaf := w } :: k.mem.wcache).take 64 } })
      walkFrom c space va k (leafAddr w) s

def rootOf (k : Core) (space : Nat) : Word :=
  if space = 4 then k.mem.mc.trootb else if space = 5 then k.mem.mc.trootf else k.mem.mc.trooth

/-- A walk from the root (07 R266). -/
def walk (s : State) (c space va : Nat) : Walk × State :=
  let r := rootOf (getCore s c) space
  if bitOf r 0 then walkFrom c space va 4 (field r 47 12 * 4096) s else (.fault 6, s)

/-- Sets A, and D where asked, in an entry by an atomic update at the controller (07 R268). -/
def markLeaf (s : State) (pa : Nat) (dirty : Bool) (w : Word) : Word × State :=
  let w' := w ||| word (2 ^ 49) ||| (if dirty then word (2 ^ 48) else 0)
  if w' = w then (w, s)
  else
    let g := bulkRead s pa 8
    let cur := word g.value ||| word (2 ^ 49) ||| (if dirty then word (2 ^ 48) else 0)
    (w', if g.poison then g.st else bulkWrite g.st false pa (toBytes 8 cur.toNat))

def tlbCovers (space va : Nat) (e : TlbEntry) : Bool := e.space == space && e.vpn == va >>> lvlShift e.level

def tlbFind (k : Core) (space va : Nat) : Option TlbEntry := k.mem.tlb.find? (tlbCovers space va)

def tlbInsert (s : State) (c : Nat) (e : TlbEntry) : State :=
  updCore s c (fun k => { k with mem := { k.mem with
    tlb := (e :: k.mem.tlb.filter (fun x => !(x.space == e.space && x.level == e.level && x.vpn == e.vpn))).take 256 } })

/-- Whether a tenant key slot holds memory keys (13 R458); slot 0 is the module's own. -/
def slotHasKey (s : State) (n : Nat) : Bool :=
  n == 0 || (match (spGet {} s.ward.slots n).st with
    | .allocated => true
    | .installed => true
    | _ => false)

/-- Page protection by a thread's load or store (07 R269), 0x12 apart since it is deferred. -/
def pageSubs (w : Word) (write job : Bool) : List Nat :=
  (if write && !bitOf w 2 then [0x10] else []) ++ (if job && bitOf w 3 then [0x11] else []) ++
    (if leafSH w then [0x13] else [])

/-- A demand walk for an access: the entry is loaded, A set, and D where a permitted write asks. -/
def demandWalk (s : State) (c space va : Nat) (write job : Bool) : Option Nat × State :=
  match walk s c space va with
  | (.fault sub, s) => (some sub, s)
  | (.flash _ _, s) => (some 5, s)
  | (.leaf l w pa, s) =>
    let dirty := write && (pageSubs w write job).isEmpty
    let (w, s) := markLeaf s pa dirty w
    (none, tlbInsert s c { space := space, level := l, vpn := va >>> lvlShift l, leaf := w })

/-- What an access finds in the translation entries: a walk is needed, or the leaf and its level. -/
def lookup (k : Core) (space va : Nat) (write job : Bool) : Option TlbEntry :=
  match tlbFind k space va with
  | some e => if write && !bitOf e.leaf 48 && (pageSubs e.leaf write job).isEmpty then none else some e
  | none => none

/-- The address a leaf gives: ADDR plus the offset within the page. -/
def leafPa (e : TlbEntry) (va : Nat) : Nat := leafAddr e.leaf + va % 2 ^ lvlShift e.level

/-! ## The HOST window (10 R365, R366) -/

def getPort (s : State) (p : Nat) : Port := spGet {} s.host.ports p
def setPort (s : State) (p : Nat) (v : Port) : State := { s with host := { s.host with ports := spSet {} s.host.ports p v } }

/-- The region of a HOST physical address (bit 47 names the port) and the host bus address. -/
def hostRegion (s : State) (pa : Nat) : Region := spGet {} (getPort s (pa / 2 ^ 47 % 2)).regions (pa % 2 ^ 47 / 2 ^ 39)

def Region.valid (r : Region) : Bool := bitOf r.w1 0
def Region.writable (r : Region) : Bool := bitOf r.w1 2
def Region.base (r : Region) : Nat := field r.w0 63 12 * 4096

def hostBus (s : State) (pa : Nat) : Nat := ((hostRegion s pa).base + pa % 2 ^ 39) % 2 ^ 64

/-- A read of host memory over a port by bus address. -/
def hostBusRead (s : State) (p a n : Nat) : List Byte := (getPort s p).mem.getBytes a n

/-- A write of host memory: poisoned words are sent as zero with EP set (10 R366). -/
def hostBusWrite (s : State) (p : Nat) (poison : Bool) (a : Nat) (bs : List Byte) : State :=
  let port := getPort s p
  setPort s p { port with mem := port.mem.setBytes a (if poison then List.replicate bs.length 0 else bs) }

/-- The host of a port can be reached. -/
def hostAlive (s : State) (p : Nat) : Bool := (getPort s p).up && !(getPort s p).lost

def Region.tlp (r : Region) (write ep : Bool) : OutTlp :=
  { write := write, ep := ep, func := field r.w1 14 9, stream := if bitOf r.w1 5 then some (field r.w1 8 6) else none
    noSnoop := bitOf r.w1 4, relaxed := bitOf r.w1 3 }

/-- The request that an access of a region sends carries the region's attributes. -/
def noteTlp (s : State) (pa : Nat) (write ep : Bool) : State :=
  let p := pa / 2 ^ 47 % 2
  setPort s p { getPort s p with sent := some ((hostRegion s pa).tlp write ep) }

/-- A read through a valid region: poison where the host does not answer (10 R366). -/
def regionRead (s : State) (pa n : Nat) (answers : Bool) : Got :=
  let p := pa / 2 ^ 47 % 2
  let s := noteTlp s pa false false
  if hostAlive s p && answers then ⟨hostBusRead s p (hostBus s pa) n, List.replicate (wordSpan pa n) false, s⟩
  else ⟨List.replicate n 0, List.replicate (wordSpan pa n) true, s⟩

/-- A write through a valid, writable region inside one 64-bit word; ep says that its request carries a poisoned word. Nothing arrives at a
host that cannot be reached. -/
def regionPut (s : State) (ep poison : Bool) (pa : Nat) (bs : List Byte) : State :=
  let p := pa / 2 ^ 47 % 2
  let s := noteTlp s pa true ep
  if hostAlive s p then hostBusWrite s p poison (hostBus s pa) bs else s

/-! ## Flash (07 R262) -/

/-- Whether the controller cannot correct the 4 KiB block of an address. -/
def flashBlockBad (s : State) (a : Nat) : Bool :=
  s.flash.marks.any (fun p => p.1 / 512 == a / 4096 && p.2.ecc == .unc)

/-- Reads inside one 4 KiB block: a block that cannot be corrected is delivered as poison. -/
def flashRead (s : State) (a n : Nat) : Got :=
  let ws := wordSpan a n
  if flashBlockBad s a then
    ⟨List.replicate n 0, List.replicate ws true, reportUncorr s 3 (srcUnit 1 3) [a / 4096 * 4096]⟩
  else ⟨s.flash.getBytes a n, (List.range ws).map (fun i => (s.flash.mark (a / 8 + i)).poison), s⟩

def flashWrite (s : State) (poison : Bool) (a : Nat) (bs : List Byte) : State :=
  let r := s.flash.write false poison a bs
  { s with flash := r.mem }

end Sys2Proof.Machine
end

