-- ==== Sys2Proof/Machine/ODBase.lean ====
section
/-!
DEFINITION. Machine/ODBase.lean: the stored numeric values of the object dictionary that other units look up (15 R524).
-/

namespace Sys2Proof.Machine

/-- The key of an object: area, item, sub-index. -/
def odKey (area item sub : Nat) : Nat := area * 2 ^ 32 + item * 2 ^ 16 + sub

/-- The value of a numeric object, or its default where it has not been written. -/
def odNum (s : State) (area item sub dflt : Nat) : Nat := (spGet none s.od.vals (odKey area item sub)).getD dflt

def odSet (s : State) (area item sub v : Nat) : State :=
  { s with od := { s.od with vals := spSet none s.od.vals (odKey area item sub) (some v) } }

/-- Returns an object to its default. -/
def odClear (s : State) (area item sub : Nat) : State :=
  { s with od := { s.od with vals := spErase s.od.vals (odKey area item sub) } }

/-- The key of the commit gate of the format governor, if OD 0E.0001 names a module gate by its gate number (04 R175, R178,
notes/assumptions/25.md). -/
def commitGate (s : State) : Option Nat :=
  let n := odNum s 0x0E 1 0 0
  if 256 ≤ n && n < 320 then some (1024 + (n - 256)) else none

end Sys2Proof.Machine
end

