-- ==== Sys2Proof/Machine/FabricBase.lean ====
section
/-!
DEFINITION. Machine/FabricBase.lean: packets as bytes, flits and credits, routes and channels: how a unit of the module sends on the fabric
(11 R391–R412). The bytes of a packet are protected by the pair's or group's key (R401); the layout of the IV and of a REDUCE
body is the model's (notes/assumptions/32.md).
-/

namespace Sys2Proof.Machine

/-! ## Objects -/

/-- The module's ID (11 R409). -/
def moduleId (s : State) : Nat := odNum s 0x06 0 0 0xFFFF

def isGroup (id : Nat) : Bool := 0xF000 ≤ id && id < 0xFFFF

def getFabPort (s : State) (p : Nat) : FabPort := spGet {} s.fabric.ports p
def setFabPort (s : State) (p : Nat) (v : FabPort) : State :=
  { s with fabric := { s.fabric with ports := spSet {} s.fabric.ports p v } }
def updFabPort (s : State) (p : Nat) (f : FabPort → FabPort) : State := setFabPort s p (f (getFabPort s p))

/-- Counters of discarded packets: 0 reserved OPC, 1 bad tag, 2 invalid group, 3 no route, 4 gate arrival, 5 duplicate or
gap; 6 counts ACKs with a status other than OK. -/
def countFab (s : State) (i : Nat) : State :=
  { s with fabric := { s.fabric with counts := spUpd 0 s.fabric.counts i (fun n => satAdd 64 n 1) } }

def routeByte (s : State) (id k : Nat) : Nat := spGet 0 s.fabric.routes id / 2 ^ (8 * k) % 256
def groupEntry (s : State) (g : Nat) : Nat := spGet 0 s.fabric.groups (g - 0xF000)
def groupPorts (e : Nat) : List Nat := bitsSet e 0 16

/-- The key that protects packets with a module or group: none where none is agreed (11 R401, R402). -/
def fabKey (s : State) (id : Nat) : Option Nat :=
  if isGroup id then spGet none s.fabric.groupKeys (id - 0xF000) else spGet none s.fabric.pairKeys id

/-- A message of an end-to-end SPDM session: CONTROL of kind 0x0001 (11 R402). -/
def sessionMsg (opc opf : Nat) : Bool := opc == 7 && opf % 2 ^ 16 == 1

/-- Packets outside their channel's order and acknowledgement: ACKs, and session messages, whose ACK would need the key that they are there to
agree (DESIGN CHOICE, notes/assumptions/32.md). -/
def outside (opc opf : Nat) : Bool := opc == 8 || sessionMsg opc opf

/-! ## Packets as bytes (11 R398, R401, R404) -/

/-- VC of a transaction (11 R399). -/
def vcOf (opc : Nat) : Nat :=
  match opc with
  | 1 => 4
  | 2 => 2
  | 3 => 3
  | 4 => 5
  | 5 => 1
  | 6 => 0
  | 7 => 7
  | _ => 3

def opcOk (opc : Nat) : Bool := 1 ≤ opc && opc ≤ 8

def poisonMap (pois : List Bool) : List Byte :=
  let n := roundUp ((pois.length + 7) / 8) 8
  (List.range n).map (fun i => BitVec.ofNat 8 ((List.range 8).foldl (fun a b =>
    if pois.getD (8 * i + b) false then a + 2 ^ b else a) 0))

def headerBytes (p : Packet) : List Byte :=
  toBytes 8 (p.opc * 2 ^ 56 + p.dst * 2 ^ 40 + p.src * 2 ^ 24 + p.chan * 2 ^ 12 + boolN (p.pois.any id) * 2 ^ 9 + boolN p.fin * 2 ^ 8
    + p.ver) ++ toBytes 8 (p.cseq * 2 ^ 32 + p.len) ++ toBytes 8 p.addr ++ toBytes 8 p.opf

/-- The body before encryption: data with poisoned words sent as zero, padding, the map where PM = 1. -/
def bodyBytes (p : Packet) : List Byte :=
  let padded := p.data ++ List.replicate (roundUp p.data.length 8 - p.data.length) 0
  let clean := (padded.zip (List.range padded.length)).map (fun x => if p.pois.getD (x.2 / 8) false then 0 else x.1)
  clean ++ (if p.pois.any id then poisonMap p.pois else [])

def packetIv (p : Packet) (inc : Nat) : Nat := p.src * 2 ^ 80 + p.chan * 2 ^ 68 + inc * 2 ^ 32 + p.cseq

def xorBytes (a b : List Byte) : List Byte := List.zipWith (· ^^^ ·) a b

/-- The packet as it travels: header, ciphertext, tag. -/
def sealPacket (key inc : Nat) (p : Packet) : List Byte :=
  let body := bodyBytes p
  let ct := xorBytes body (takeBytes body.length (Config.gcmStream key (packetIv p inc) body.length))
  headerBytes p ++ ct ++ toBytes 16 (Config.gcmTag key (packetIv p inc) (headerBytes p) ct)

/-- A packet read from received bytes: its header, and whether its tag verifies under a key and incarnation. -/
def openPacket (key inc : Nat) (bs : List Byte) : Packet × Bool :=
  let h0 := bytesAt bs 0 8
  let h1 := bytesAt bs 8 8
  let opc := fieldN h0 63 56
  let len := h1 % 2 ^ 32
  let dlen := if opc = 2 then 0 else len
  let pm := h0.testBit 9
  let words := (dlen + 7) / 8
  let blen := 8 * words + (if pm then roundUp ((words + 7) / 8) 8 else 0)
  let p : Packet :=
    { opc := opc, dst := fieldN h0 55 40, src := fieldN h0 39 24, chan := fieldN h0 23 12, fin := h0.testBit 8, ver := h0 % 256,
      cseq := h1 / 2 ^ 32, len := len, addr := bytesAt bs 16 8 % 2 ^ 40, opf := bytesAt bs 24 8, data := [], pois := [] }
  let ct := takeBytes blen (bs.drop 32)
  let body := xorBytes ct (takeBytes blen (Config.gcmStream key (packetIv p inc) blen))
  let map := body.drop (8 * words)
  let pois := (List.range words).map (fun i => pm && (bytesAt map (i / 8) 1).testBit (i % 8))
  ({ p with data := body.take dlen, pois := pois },
    bytesAt bs (32 + blen) 16 == Config.gcmTag key (packetIv p inc) (bs.take 32) ct)

/-! ## Flits (11 R391–R396) -/

/-- A flit's 256 bytes: header, payload, CRC-32 (11 R391, R392). -/
def flitHead (f : Flit) : Nat :=
  f.kind % 16 * 2 ^ 60 + f.seq % 2 ^ 16 * 2 ^ 44 + f.ack % 2 ^ 16 * 2 ^ 28 + f.vc % 8 * 2 ^ 25 + f.cls % 2 * 2 ^ 24 + boolN f.sop * 2 ^ 23 +
    boolN f.eop * 2 ^ 22 + f.crvc % 8 * 2 ^ 19 + f.crcls % 2 * 2 ^ 18 + f.crn % 2 ^ 10 * 2 ^ 8

def flitBody (f : Flit) : List Byte := toBytes 8 (flitHead f) ++ takeBytes 244 f.payload

def flitBytes (f : Flit) : List Byte := flitBody f ++ toBytes 4 (crc32 (flitBody f))

/-- The flit that bytes spell; reserved bits are ignored. -/
def flitOf (bs : List Byte) : Flit :=
  let h := bytesAt bs 0 8
  { kind := fieldN h 63 60, seq := fieldN h 59 44, ack := fieldN h 43 28, vc := fieldN h 27 25, cls := fieldN h 24 24, sop := h.testBit 23,
    eop := h.testBit 22, crvc := fieldN h 21 19, crcls := fieldN h 18 18, crn := fieldN h 17 8, payload := takeBytes 244 (bs.drop 8) }

/-- The CRC of a received flit holds. -/
def flitIntact (bs : List Byte) : Bool := bytesAt bs 252 4 == crc32 (takeBytes 252 bs)

def vcKey (vc cls : Nat) : Nat := 2 * vc + cls

/-- A packet's bytes as flits of 244 bytes. -/
def flitsFrom (vc cls : Nat) : Nat → Bool → List Byte → List Flit
  | 0, _, _ => []
  | n + 1, first, bs =>
    let rest := bs.drop 244
    { kind := 1, seq := 0, ack := 0, vc := vc, cls := cls, sop := first, eop := rest.isEmpty, crvc := 0, crcls := 0, crn := 0,
      payload := takeBytes 244 bs } :: (if rest.isEmpty then [] else flitsFrom vc cls n false rest)

/-- Credits held for a (VC, class). -/
def FabPort.credits (p : FabPort) (k : Nat) : Nat := spGet 0 p.alloc k - spGet 0 p.used k

/-- A flit on the fibre: it carries the ACK in force and the next (VC, class)'s credit count, so that each is reported once in 16 flits (11
R392). -/
def FabPort.emit (p : FabPort) (f : Flit) : FabPort :=
  { p with
    wire := ({ f with ack := (p.rxSeq + 2 ^ 16 - 1) % 2 ^ 16, crvc := p.crTurn / 2, crcls := p.crTurn % 2, crn := spGet 0 p.crn p.crTurn } ::
      p.wire).take 256
    crTurn := (p.crTurn + 1) % 16 }

/-- An LCTL flit (11 R393). -/
def FabPort.sendLctl (p : FabPort) (bs : List Byte) : FabPort :=
  p.emit { kind := 2, seq := 0, ack := 0, vc := 0, cls := 0, sop := false, eop := false, crvc := 0, crcls := 0, crn := 0,
           payload := takeBytes 244 bs }

/-- RETRY and DOWN: a code, and an argument at bytes 8–9. -/
def lctlBytes (code arg : Nat) : List Byte := toBytes 8 code ++ toBytes 2 arg

/-- The first waiting flit of a VC for which the port holds a credit. -/
def FabPort.ready (p : FabPort) (vc : Nat) : Option TxFlit :=
  p.txq.find? (fun x => x.flit.vc == vc && p.credits (vcKey vc x.flit.cls) != 0)

/-- The strict VCs in their order (11 R394). -/
def FabPort.strictPick (p : FabPort) : Option TxFlit := [0, 7, 1].findSome? p.ready

/-- The weighted VCs take turns: in its turn a VC sends as many flits as its weight, or those it has (11 R396). -/
def FabPort.weightedPick (p : FabPort) (weight : Nat → Nat) : Option (TxFlit × FabPort) :=
  match (if 0 < p.quota then p.ready p.turn else none) with
  | some x => some (x, { p with quota := p.quota - 1 })
  | none =>
    (((List.range 5).map (fun i => 2 + (p.turn + 4 + i) % 5)).findSome? (fun v => (p.ready v).map (fun x => (v, x)))).map (fun x =>
      (x.2, { p with turn := x.1, quota := weight x.1 - 1 }))

/-- The flit that leaves next. While a weighted VC has one, a strict VC's leaves after three of theirs (11 R396). -/
def FabPort.pick (p : FabPort) (weight : Nat → Nat) : Option (TxFlit × FabPort) :=
  match p.strictPick, p.weightedPick weight with
  | some x, w => if p.since = 3 || w.isNone then some (x, { p with since := 0 }) else w.map (fun y => (y.1, { y.2 with since := y.2.since + 1 }))
  | none, w => w.map (fun y => (y.1, { y.2 with since := min 3 (y.2.since + 1) }))

/-- A DATA flit leaves: it takes the next SEQ and a credit, and is kept until it is acknowledged (11 R393, R395). -/
def FabPort.sendData (p : FabPort) (x : TxFlit) : FabPort :=
  let f := { x.flit with seq := p.txSeq }
  FabPort.emit { p with
    txq := p.txq.erase x
    txSeq := (p.txSeq + 1) % 2 ^ 16
    sent := satAdd 64 p.sent 1
    unacked := p.unacked ++ [(f, 0)]
    used := spUpd 0 p.used (vcKey f.vc f.cls) (· + 1) } f

/-- Returns a credit (11 R395). -/
def giveCredit (s : State) (o : FlitSrc) : State :=
  updFabPort s o.port (fun p => { p with crn := spUpd 0 p.crn (vcKey o.vc o.cls) (fun x => (x + 1) % 1024) })

/-- A received flit still lies in its buffer: a copy of it waits to be forwarded, or its packet to be acted on. -/
def flitHeld (s : State) (o : FlitSrc) : Bool :=
  s.fabric.ports.any (fun p => p.2.txq.any (fun x => x.src == some o)) ||
    s.fabric.inbox.any (fun x => x.port == o.port && x.seq == o.seq && decide (o.i < x.flits))

/-- The credit of a flit goes back when the last that held it in the buffer has let it go. -/
def freeFlit (s : State) (o : FlitSrc) : State := if flitHeld s o then s else giveCredit s o

/-- The credits of a packet's n flits, as far as nothing holds them. -/
def freeFlits (s : State) (o : FlitSrc) (n : Nat) : State := (List.range n).foldl (fun s i => freeFlit s { o with i := i }) s

/-- Weight of a VC (OD 06.0021). -/
def vcWeight (s : State) (v : Nat) : Nat := odNum s 0x06 0x21 v ([0, 0, 1, 4, 8, 4, 2, 0].getD v 0)

/-- Sends what the credits and the window of 4,096 flits allow, at most so many flits. -/
def pumpGo : Nat → State → Nat → State
  | 0, s, _ => s
  | k + 1, s, port =>
    let p := getFabPort s port
    if 4096 ≤ p.unacked.length then s
    else match p.pick (vcWeight s) with
      | none => s
      | some (x, q) =>
        let s := setFabPort s port (q.sendData x)
        pumpGo k (match x.src with
          | some o => freeFlit s o
          | none => s) port

def pumpPort (s : State) (port : Nat) : State := pumpGo (getFabPort s port).txq.length s port

/-- A packet's flits join a port's queue, where its link is up. -/
def portQueue (s : State) (port vc cls : Nat) (bs : List Byte) (src : Option FlitSrc) : State :=
  let fs := flitsFrom vc cls (bs.length / 244 + 1) true bs
  if (getFabPort s port).state != .up then s
  else updFabPort s port (fun p => { p with txq := p.txq ++ (fs.zip (List.range fs.length)).map (fun x =>
    { flit := x.1, src := src.map (fun o => { o with i := x.2 }) }) })

/-- Puts a packet of this module on a port. -/
def portSend (s : State) (port vc cls : Nat) (bs : List Byte) : State := pumpPort (portQueue s port vc cls bs none) port

/-- What a link that is not up holds: nothing on its way in either direction. -/
def FabPort.cleared (p : FabPort) : FabPort :=
  { p with
    txSeq := 0, unacked := [], txq := [], since := 3, turn := 6, quota := 0, rxSeq := 0, retrying := false, part := [], crn := []
    crTurn := 0, alloc := [], used := [], lastCrn := [] }

/-- Flits that lie in a port's receive buffer no longer answer to it. -/
def forgetSrc (port : Nat) (x : TxFlit) : TxFlit := if x.src.any (fun o => o.port == port) then { x with src := none } else x

/-- A link loses what it holds: flits in transit that waited for it leave the buffers they came in by (11 R395, R423). -/
def clearPort (s : State) (port : Nat) : State :=
  let gone := (getFabPort s port).txq.filterMap (·.src)
  let s := updFabPort s port FabPort.cleared
  let s := { s with fabric := { s.fabric with
    ports := s.fabric.ports.map (fun p => (p.1, { p.2 with txq := p.2.txq.map (forgetSrc port) }))
    inbox := s.fabric.inbox.map (fun x => if x.port == port then { x with flits := 0 } else x) } }
  (gone.filter (fun o => o.port != port)).foldl freeFlit s

/-! ## Routes and channels (11 R397, R403, R410, R412) -/

/-- The route a packet takes: the valid route whose port is up with the most free credits, the lower number on a tie. -/
def pickRoute (s : State) (dst vc cls : Nat) : Option (Nat × Nat) :=
  let cands := (List.range 4).filterMap (fun k =>
    let b := routeByte s dst k
    if b.testBit 7 && (getFabPort s (b % 16)).state == .up then
      let c := if b.testBit 6 then 1 else cls
      some (b % 16, c, (getFabPort s (b % 16)).credits (vcKey vc c))
    else none)
  match cands with
  | [] => none
  | a :: rest =>
    let best := rest.foldl (fun (x : Nat × Nat × Nat) y => if x.2.2 < y.2.2 then y else x) a
    some (best.1, best.2.1)

/-- The class of a packet on a given port: the route's dateline bit. -/
def routeClass (s : State) (dst port cls : Nat) : Nat :=
  if (List.range 4).any (fun k => (routeByte s dst k).testBit 7 && routeByte s dst k % 16 == port && (routeByte s dst k).testBit 6)
  then 1 else cls

def getChan (s : State) (n : Nat) : Option Chan := (s.fabric.chans.find? (fun p => p.1 == n)).map (·.2)

def setChan (s : State) (n : Nat) (c : Chan) : State :=
  { s with fabric := { s.fabric with chans := (n, c) :: s.fabric.chans.filter (fun p => p.1 != n) } }

/-- Key of a channel number's incarnations toward a destination. -/
def incKey (n dst : Nat) : Nat := n * 65536 + dst

/-- The channel of a user to a destination on a VC: the one in use, or the first free number of the die, with the next incarnation of that
number toward the destination (11 R397, R401). -/
def chanFor (s : State) (die : Nat) (u : ChanUser) (dst vc : Nat) : Option (Nat × Chan) :=
  match s.fabric.chans.find? (fun p => p.1 / 1024 == die && p.2.user == u && p.2.dst == dst && p.2.vc == vc && !p.2.failed && p.2.next < 2 ^ 32) with
  | some x => some x
  | none =>
    ((List.range 1024).find? (fun i => (getChan s (die * 1024 + i)).all (fun c => c.unacked.isEmpty))).map (fun i =>
      (die * 1024 + i, { user := u, dst := dst, vc := vc, port := none, inc := spGet 0 s.fabric.incs (incKey (die * 1024 + i) dst) }))

/-- A packet as it leaves on a port: the version and this module's ID of that link (11 R398, R422). -/
def stamp (s : State) (port : Nat) (p : Packet) : Packet :=
  { p with ver := (getFabPort s port).ver, src := (getFabPort s port).selfId }

/-- The key of a packet that leaves on a port: a session message travels under the key of the link (11 R402). -/
def sendKey (s : State) (port : Nat) (p : Packet) : Option Nat :=
  if sessionMsg p.opc p.opf then fabKey s (getFabPort s port).peer else fabKey s p.dst

/-- Sends one packet of a channel, first time or again: on the channel's port, or its group's ports, or to the module itself. The
packet's class starts at 0. A channel that holds an unacknowledged packet keeps its port while that port is up. False where no
route is usable. -/
def transmit (s : State) (n : Nat) (c : Chan) (fixed : Option Nat) (hold : Bool) (p : Packet) : State × Bool :=
  let on (s : State) (q cls : Nat) : State :=
    match sendKey s q p with
    | none => s
    | some key => portSend s q c.vc cls (sealPacket key c.inc (stamp s q p))
  if p.dst = moduleId s then
    ({ s with fabric := { s.fabric with inbox := s.fabric.inbox ++ [{ port := 16, flits := 0, vc := c.vc, cls := 0, seq := 0, pkt := p }] } }, true)
  else if isGroup p.dst then ((groupPorts (groupEntry s p.dst)).foldl (fun s q => on s q 0) s, true)
  else
    let keep := match fixed with
      | some q => some (q, routeClass s p.dst q 0)
      | none =>
        match c.port with
        | some q =>
          if (getFabPort s q).state == .up && hold then some (q, routeClass s p.dst q 0) else pickRoute s p.dst c.vc 0
        | none => pickRoute s p.dst c.vc 0
    match keep with
    | none => (s, false)
    | some (q, cls) => (on (setChan s n { c with port := some q }) q cls, true)

/-- Why a packet cannot be sent. -/
inductive SendErr where
  | noKey
  | noRoute
  | noGroup
  | noChannel
  deriving DecidableEq, Repr

/-- A unit of a die sends a packet: it takes its place in the user's channel and leaves (11 R397–R403). One that finds no route takes no
place. -/
def fabSend (s : State) (die : Nat) (u : ChanUser) (vc : Nat) (fixed : Option Nat) (p : Packet) : State × Option SendErr :=
  if isGroup p.dst && !(groupEntry s p.dst).testBit 31 then (countFab s 2, some .noGroup)
  else if (fabKey s p.dst).isNone && p.dst != moduleId s && !sessionMsg p.opc p.opf then (s, some .noKey)
  else match chanFor s die u p.dst vc with
  | none => (s, some .noChannel)
  | some (n, c) =>
    let p := { p with src := moduleId s, chan := n, cseq := c.next }
    let c' := { c with next := c.next + 1, unacked := if outside p.opc p.opf then c.unacked else c.unacked ++ [p] }
    let (t, ok) := transmit (setChan s n c') n c' fixed (!c.unacked.isEmpty) p
    if ok then ({ t with fabric := { t.fabric with incs := spSet 0 t.fabric.incs (incKey n p.dst) (c.inc + 1) } }, none)
    else (countFab s 3, some .noRoute)

/-! ## Fabric gates and reaps as the module sends them (11 R416–R418) -/

/-- GATE_ARRIVE at a completion of module gate m (11 R418). -/
def sendGateArrive (s : State) (m gen : Nat) : State :=
  let e := odNum s 0x06 0x40 m 0xFFFF0000
  if e / 2 ^ 16 = 0xFFFF then s
  else (fabSend s 0 (.gate m) 0 none
    { opc := 6, dst := e / 2 ^ 16, src := 0, chan := 0, fin := false, ver := 0, cseq := 0, len := 0, addr := 0,
      opf := gen * 2 ^ 32 + e % 512, data := [], pois := [] }).1

/-- A reap group's entry (11 R416). -/
def redEntry (s : State) (g : Nat) : Nat := spGet 0 s.fabric.rgroups g

def redKids (e : Nat) : List Nat := bitsSet (e / 2 ^ 8) 0 16

def getRed (s : State) (k : Nat) : RedState := spGet {} s.fabric.red k
def setRed (s : State) (k : Nat) (r : RedState) : State := { s with fabric := { s.fabric with red := spSet {} s.fabric.red k r } }

/-- One REDUCE packet to the module at the far end of a port. op is the code on the fabric: 0 SUM, 1 MAX, 3 OR; 7, which the spec reserves,
stands for the notice that a reap is discarded (notes/assumptions/32.md). -/
def sendReduce (s : State) (g idx round op port : Nat) (down : Bool) (lanes : List Nat) (flags : Nat) : State × Option SendErr :=
  fabSend s (port / 4) (.reduce g port) 1 (some port)
    { opc := 5, dst := (getFabPort s port).peer, src := 0, chan := 0, fin := false, ver := 0, cseq := 0, len := 4 * lanes.length + 4, addr := 0,
      opf := g * 2 ^ 52 + idx * 2 ^ 48 + round * 2 ^ 8 + boolN down * 2 ^ 7 + op * 2 ^ 4,
      data := lanes.flatMap (toBytes 4) ++ toBytes 4 flags, pois := [] }

end Sys2Proof.Machine
end

