-- ==== Sys2Proof/Machine/Routes.lean ====
section
/-!
DEFINITION. Machine/Routes.lean: the paths of packets over the data, control and sync networks (01 R33, R34, R39, R42, R555). A site is die × 600 +
physical row × 25 + physical column; the meshes join the dies to one grid of 48 physical rows and 50 physical columns. A path lists
the sites after its source, its destination last.
-/

namespace Sys2Proof.Machine

/-! ## Sites -/

/-- The row and the column of a site over the whole module. -/
def siteRow (x : Nat) : Nat := x / 1200 * 24 + x % 600 / 25
def siteColumn (x : Nat) : Nat := x / 600 % 2 * 25 + x % 25

def siteAt (r k : Nat) : Nat := (r / 24 * 2 + k / 25) * 600 + r % 24 * 25 + k % 25

/-- The physical column of a core in its furrow (01 R11). -/
def siteCol (g : Grid) (c : Nat) : Nat := physCol (colOf c % 24) (skipOf g (furrowOf g c)).1

/-- The site of a logical core under the map in force (01 R9). -/
def siteOf (g : Grid) (c : Nat) : Nat := furrowOf g c * 25 + siteCol g c

/-! ## Dimension order (01 R33, R555) -/

/-- The steps from a to b, b included. -/
def stepsTo (a b : Nat) : List Nat := if a ≤ b then (List.range (b - a)).map (a + 1 + ·) else (List.range (a - b)).map (a - 1 - ·)

/-- The path between two sites whose column leg runs in column k. -/
def viaColumn (x y k : Nat) : List Nat :=
  (stepsTo (siteColumn x) k).map (siteAt (siteRow x)) ++ (stepsTo (siteRow x) (siteRow y)).map (fun r => siteAt r k) ++
    (stepsTo k (siteColumn y)).map (siteAt (siteRow y))

/-- A column leg in this column would cross the edge between an upper and a lower die where there is no link (01 R31). -/
def noCrossing (x y k : Nat) : Bool := k % 25 == 12 && siteRow x / 24 != siteRow y / 24

/-- The routers a leg in column k passes, the corner included. -/
def columnLeg (x y k : Nat) : List Nat := siteAt (siteRow x) k :: (stepsTo (siteRow x) (siteRow y)).map (fun r => siteAt r k)

/-- The column in which a leg asked for in column k runs: in place of physical column 12 across a die edge, column 11 where the path
comes from the left or starts there and column 13 where it comes from the right, or the other of the two where a router needed
is dead. -/
def legColumn (dead : List Nat) (x y k : Nat) : Nat :=
  if noCrossing x y k then
    let near := if k < siteColumn x then k + 1 else k - 1
    if (columnLeg x y near).any dead.contains then 2 * k - near else near
  else k

def rowFirstPath (dead : List Nat) (x y : Nat) : List Nat := viaColumn x y (legColumn dead x y (siteColumn y))
def columnFirstPath (dead : List Nat) (x y : Nat) : List Nat := viaColumn x y (legColumn dead x y (siteColumn x))

/-! ## The choice of path (01 R34) -/

def clearPath (dead : List Nat) (p : List Nat) : Bool := !p.any dead.contains

/-- The detour that keeper code has written for a destination in a site's detour table. -/
def detourOf (g : Grid) (x y : Nat) : Option Nat := (g.detours.find? (fun d => d.1 == x && d.2.1 == y)).map (·.2.2)

/-- The route of unicast traffic from site x to site y: a function of the two and the map alone. With both paths cut and no detour
written there is none, and a packet cannot leave (notes/assumptions/73.md). -/
def routeOf (g : Grid) (x y : Nat) : Route :=
  if g.dead.isEmpty || clearPath g.dead (rowFirstPath g.dead x y) then .rowFirst
  else if clearPath g.dead (columnFirstPath g.dead x y) then .columnFirst
  else match detourOf g x y with
    | some v => .detour v
    | none => .cut

/-- The sites a route leads through. -/
def Route.path (g : Grid) (x y : Nat) : Route → List Nat
  | .own => []
  | .rowFirst => rowFirstPath g.dead x y
  | .columnFirst => columnFirstPath g.dead x y
  | .detour v => Config.detourPath x y v
  | .cut => []

/-- The route between two cores. -/
def coreRoute (s : State) (a b : Nat) : Route := routeOf s.grid (siteOf s.grid a) (siteOf s.grid b)

/-! ## Trees (01 R39, R42) -/

/-- The logical core at a site, and where there is none the one at the next site of its row that has one (notes/assumptions/73.md). -/
def coreBeside (g : Grid) (x : Nat) : Nat :=
  let at_ (y : Nat) : Option Nat := (List.range 2304).find? (fun c => siteOf g c == y)
  ((List.range 50).findSome? (fun i => at_ (siteAt (siteRow x) ((siteColumn x + i) % 50)))).getD 0

/-- The branch of a sow tree from a site to the site of one target, by the form of its descriptor: 0 RECT over rows r0 to r1 and columns c0 to c1,
1 ROWSET, 2 COLSET. -/
def branchPath (g : Grid) (form x r0 r1 c0 c1 y : Nat) : List Nat :=
  match form with
  | 1 => columnFirstPath g.dead x y
  | 2 => rowFirstPath g.dead x y
  | _ =>
    let src := coreBeside g x
    let near := siteOf g (coreAt (max r0 (min (rowOf src) r1)) (max c0 (min (colOf src) c1)))
    rowFirstPath g.dead x near ++ rowFirstPath g.dead near y

/-- A branch carried past its dead routers: from the last live site before them column-first, or by the detour table, to the next live
site of the branch. None where neither leads on. -/
def carryPast (g : Grid) (at_ : Nat) (gap : Bool) : List Nat → Option (List Nat)
  | [] => if gap then none else some []
  | x :: rest =>
    if g.dead.contains x then carryPast g at_ true rest
    else
      let leg : Option (List Nat) :=
        if !gap then some [x]
        else if clearPath g.dead (columnFirstPath g.dead at_ x) then some (columnFirstPath g.dead at_ x)
        else (detourOf g at_ x).map (Config.detourPath at_ x)
      match leg, carryPast g x false rest with
      | some l, some r => some (l ++ r)
      | _, _ => none

/-- The sites a sow passes on its way from a site to one target's. -/
def sowBranch (g : Grid) (form x r0 r1 c0 c1 y : Nat) : Option (List Nat) :=
  let p := branchPath g form x r0 r1 c0 c1 y
  if g.dead.isEmpty then some p else carryPast g x false p

/-- The way of a member's arrival or contribution to the root of a combining tree: along its row to the lowest member column, then along that
column to the lowest member row. -/
def combinePath (g : Grid) (member root : Nat) : Option (List Nat) :=
  let p := rowFirstPath g.dead (siteOf g member) (siteOf g root)
  if g.dead.isEmpty then some p else carryPast g (siteOf g member) false p

end Sys2Proof.Machine
end

