-- ==== Sys2Proof/Machine/Gates.lean ====
section
/-!
DEFINITION. Machine/Gates.lean: gate contexts, arrivals, completion and release (09 R337–R343).
-/

namespace Sys2Proof.Machine

/-- The key of gate n as a core of a die names it: its die's contexts, then the module's (09 R337). -/
def gateKey (die n : Nat) : Nat := if n < 256 then die * 256 + n else 1024 + (n - 256)

/-- The gate number a core uses for a key. -/
def gateNo (key : Nat) : Nat := if key < 1024 then key % 256 else key - 1024 + 256

def getGate (s : State) (key : Nat) : GateCtx := spGet {} s.gates key
def setGate (s : State) (key : Nat) (g : GateCtx) : State := { s with gates := spSet {} s.gates key g }

/-- Every logical core of the grid. -/
def allCores (s : State) : List Nat := List.range (gridRows s.grid * 48)

/-- The sowing engines a context waits for, by die: a die gate uses its own die's bit alone (09 R337). -/
def GateCtx.sowUsed (g : GateCtx) (key : Nat) : BitVec 4 := if key < 1024 then g.sowm &&& BitVec.ofNat 4 (2 ^ (key / 256)) else g.sowm

/-- The fabric arrivals a context waits for: a die gate takes none (09 R337). -/
def GateCtx.fabUsed (g : GateCtx) (key : Nat) : Nat := if key < 1024 then 0 else g.fabn

/-- The cores in scope of a gate or reap key: the die's or the module's. -/
def inScope (s : State) (die : Option Nat) : List Nat :=
  (allCores s).filter (fun c => !isHole s c && (match die with
    | some d => dieOf s.grid c == d
    | none => true))

def gateDie (key : Nat) : Option Nat := if key < 1024 then some (key / 256) else none

/-- Whether core c is named by member rows and columns. -/
def named (rows cols : BitVec 48) (c : Nat) : Bool := rows.getLsbD (rowOf c) && cols.getLsbD (colOf c)

/-- The members of a context; a hole has been removed from them (01 R21). -/
def members (s : State) (rows cols : BitVec 48) : List Nat :=
  (allCores s).filter (fun c => named rows cols c && !isHole s c && !holeComing s c)

/-- The reasons of R338 that refuse EN: beyond the grid, a hole, outside the die, no members. -/
def membersBad (s : State) (die : Option Nat) (rows cols : BitVec 48) (others : Bool) : Bool :=
  let cs := (List.range 2304).filter (named rows cols)
  cs.any (fun c => !inGrid s.grid (rowOf c) (colOf c) || isHole s c || (match die with
    | some d => dieOf s.grid c != d
    | none => false)) || (cs.isEmpty && !others)

def gateLocal (s : State) (c n : Nat) : GateLocal := spGet {} (getCore s c).sync.gates n

def setGateLocal (s : State) (c n : Nat) (l : GateLocal) : State :=
  updCore s c (fun k => { k with sync := { k.sync with gates := spSet {} k.sync.gates n l } })

/-- A member core's arrival reaches the root (09 R340). -/
def coreArrive (s : State) (key c : Nat) : State :=
  let g := getGate s key
  setGate s key { g with arr := { g.arr with cores := c :: g.arr.cores.filter (· != c) } }

/-- A local arrival of core c at gate n: the generation it counts toward, or none where the next generation's count is complete too
(09 R340). -/
def localArrive (s : State) (c n : Nat) : Option (BitVec 32 × State) :=
  let key := gateKey (dieOf s.grid c) n
  let need := (getGate s key).lcnt + 1
  let l := gateLocal s c n
  if !l.sent then
    let full := l.openN + 1 == need
    let s := setGateLocal s c n { l with openN := l.openN + 1, sent := full }
    some (l.c + 1, if full then coreArrive s key c else s)
  else if l.heldN < need then some (l.c + 2, setGateLocal s c n { l with heldN := l.heldN + 1 })
  else none

/-- (c − g) mod 2^32 < 2^31 (08 R296, 09 R341). -/
def genReached (c g : BitVec 32) : Bool := (c - g).toNat < 2 ^ 31

/-- A thread's wait is over: its destination is written, the pc passes the instruction. -/
def finishWait (s : State) (c t rd : Nat) (v : Word) : State :=
  let s := updCore s c (fun k => k.writeG t rd v)
  updThread (wakeThread s c t) c t (fun th => { th with pc := th.pc + 8 })

/-- Threads of core c that wait on gate n and whose generation is reached complete (09 R341). -/
def wakeGate (s : State) (c n : Nat) : State :=
  allThreads.foldl (fun s t =>
    match (getThread s c t).wait with
    | .gate g gen rd sync =>
      let cc := (gateLocal s c n).c
      if g = n && genReached cc (BitVec.ofNat 32 gen) then
        finishWait s c t rd (word (if sync then gen else cc.toNat))
      else s
    | _ => s) s

/-- The format governor has still to make the commit of this gate's generation: no core is released before (04 R175). -/
def commitPending (s : State) (key : Nat) : Bool := s.gov.due.isSome && s.gov.cfg.gate == some key

/-- The governor's objects as they stand (04 R178). -/
def govCfg (s : State) : GovCfg :=
  { enable := odNum s 0x0E 0 0 1 != 0, gate := commitGate s, fabric := odNum s 0x0E 2 0 0 == 1, group := odNum s 0x0E 3 0 0
    active := odNum s 0x0E 4 0 4096, ctx := odNum s 0x0E 5 0 255, upE4 := odNum s 0x0E 0x10 0 (f32pow2 (-10))
    downE4 := odNum s 0x0E 0x11 0 (f32pow2 (-14)), upE5 := odNum s 0x0E 0x12 0 (f32pow2 (-8)), downE5 := odNum s 0x0E 0x13 0 (f32pow2 (-12))
    hold := odNum s 0x0E 0x14 0 8 }

/-- A slot state written by OD 0E.1000: FMT and PIN. -/
def slotWrite (m : Sparse GovSlot) (slot v : Nat) : Sparse GovSlot := spUpd {} m slot (fun g => { g with fmt := v % 4, pin := v / 16 % 4 })

/-- A generation of the commit gate starts a commit, or has its own once the one in progress is made (04 R175). -/
def startCommit (s : State) (key : Nat) : State :=
  if s.gov.due.isSome then (if s.gov.cfg.gate = some key then { s with gov := { s.gov with again := s.gov.again + 1 } } else s)
  else if commitGate s = some key then { s with gov := { s.gov with due := some 0, cfg := govCfg s } }
  else s

/-- The core of a die, or of the module, by whose copy of c the units that are no core go: its sowing engine and the control cluster. No rule
says which copy they compare with (DESIGN CHOICE, notes/assumptions/75.md). -/
def copyCore (s : State) (die : Option Nat) : Nat := ((inScope s die).head?).getD 0

/-- The generations complete as the sowing engine of a die knows them (09 R339). -/
def sowCopy (s : State) (die key : Nat) : BitVec 32 := (gateLocal s (copyCore s (some die)) (gateNo key)).c

/-- The generations complete as the control cluster knows them. -/
def clusterCopy (s : State) (key : Nat) : BitVec 32 := (gateLocal s (copyCore s (gateDie key)) (gateNo key)).c

/-- Where the release reaches the sowing engines or the control cluster, their held arrivals count toward the new open generation (09 R340). -/
def releaseOthers (s : State) (key c : Nat) : State :=
  let g := getGate s key
  let b := BitVec.ofNat 4 (2 ^ dieOf s.grid c)
  let g := if copyCore s (some (dieOf s.grid c)) = c then
      { g with arr := { g.arr with sow := g.arr.sow ||| (g.arr.sowHeld &&& b), sowHeld := g.arr.sowHeld &&& ~~~b } } else g
  let g := if copyCore s (gateDie key) = c then
      { g with arr := { g.arr with ctl := g.arr.ctl || g.arr.ctlHeld, ctlHeld := false } } else g
  setGate s key g

/-- A fence procedure holds a core at its next gate generation (01 R17 step 1). -/
def holdAtGate (s : State) (c : Nat) : State :=
  match s.grid.proc with
  | some p =>
    if p.running.contains c then
      holdCore { s with grid := { s.grid with proc := some { p with running := p.running.filter (· != c) } } } c
    else s
  | none => s

/-- The release of the next generation is on its way to core c: its copy lies behind the root, and no reset goes before it. -/
def releaseComing (s : State) (key c : Nat) : Bool :=
  let g := getGate s key
  g.en && genReached g.gen ((gateLocal s c (gateNo key)).c + 1) && !s.resets.any (fun m => !m.reap && m.ctx == key && m.target == c)

/-- The release of the next generation reaches core c (09 R340): the held count becomes the open count, and a complete one is sent. -/
def gateRelease (s : State) (key c : Nat) : State :=
  let n := gateNo key
  let g := getGate s key
  let l := gateLocal s c n
  if !releaseComing s key c || commitPending s key then s
  else
    let full := named g.rows g.cols c && l.heldN == g.lcnt + 1
    let s := setGateLocal s c n { c := l.c + 1, openN := l.heldN, heldN := 0, sent := full }
    let s := if l.c + 1 = g.gen then releaseOthers s key c else s
    holdAtGate (wakeGate (if full then coreArrive s key c else s) c n) c

/-- Every member of a context has a way to its root: the member of its die at the lowest row and column. A dead router on it that nothing leads
past holds what the member sends (01 R42; notes/assumptions/73.md). -/
def treeClear (s : State) (rows cols : BitVec 48) : Bool :=
  let ms := members s rows cols
  s.grid.dead.isEmpty || ms.all (fun c =>
    match ms.find? (fun r => dieOf s.grid r == dieOf s.grid c) with
    | some root => (combinePath s.grid c root).isSome
    | none => true)

/-- The root holds every arrival of the open generation (09 R339). -/
def gateReady (s : State) (key : Nat) : Bool :=
  let g := getGate s key
  g.en && (members s g.rows g.cols).all (fun c => g.arr.cores.contains c) && (g.sowUsed key &&& ~~~g.arr.sow) == 0 &&
    (!g.ctlm || g.arr.ctl) && g.fabUsed key ≤ g.arr.fab && treeClear s g.rows g.cols

/-- The generation that commits a step on this module (12 R426, R433): the fallow slot of the step becomes the committed one. The first commit
after a recovery ends it. -/
def stepCommitted (s : State) (key : Nat) : State :=
  if s.resil.arrived = some key then
    (let n := s.resil.step + 1
     { s with resil := { s.resil with
        step := n, arrived := none
        state := if s.resil.state = 5 then 0 else s.resil.state
        fallow := spUpd {} s.resil.fallow (n % 2) (fun f => if f.step = n then { f with committed := true } else f) } })
  else s

/-- Completion at the root: c advances, the held fabric arrivals become open ones, and the GACT actions are performed (09 R339, R337). What
sowing engines and the cluster hold waits for the release to reach them (R340). -/
def gateComplete (s : State) (key : Nat) : State :=
  let g := getGate s key
  let gen := g.gen + 1
  let next : GateArr := { sowHeld := g.arr.sowHeld, ctlHeld := g.arr.ctlHeld, fab := g.arr.fabHeld }
  let s := stepCommitted (setGate s key { g with gen := gen, arr := next }) key
  let s := startCommit s key
  let s := if g.ccint then interrupt s (.gateDone (gateNo key)) else s
  let s := if g.evrec then
      sendEvent s { sev := 0, code := 0x0030, source := (if key < 1024 then srcUnit 1 (key / 256) else srcUnit 7 0),
                    arg0 := gateNo key, arg1 := gen.toNat }
    else s
  if g.farr && 1024 ≤ key then sendGateArrive s (key - 1024) gen.toNat else s

/-- A sowing engine's or the control cluster's arrival, held where it comes twice before a release; a third finds no place
(09 R340). -/
def sowArrive (s : State) (key die : Nat) : Option State :=
  let g := getGate s key
  let b := BitVec.ofNat 4 (2 ^ die)
  if sowCopy s die key == g.gen && g.arr.sow &&& b == 0 then some (setGate s key { g with arr := { g.arr with sow := g.arr.sow ||| b } })
  else if g.arr.sowHeld &&& b == 0 then some (setGate s key { g with arr := { g.arr with sowHeld := g.arr.sowHeld ||| b } })
  else none

def clusterArrive (s : State) (key : Nat) : Option State :=
  let g := getGate s key
  if clusterCopy s key == g.gen && !g.arr.ctl then some (setGate s key { g with arr := { g.arr with ctl := true } })
  else if !g.arr.ctlHeld then some (setGate s key { g with arr := { g.arr with ctlHeld := true } })
  else none

/-- A deferred exception to every thread of a core that waits on gate n. -/
def deferGateWaiters (s : State) (c n sub : Nat) : State :=
  allThreads.foldl (fun s t =>
    match (getThread s c t).wait with
    | .gate g _ _ _ => if g = n then deliverDeferred s c t ⟨0x0A, sub, word n⟩ else s
    | _ => s) s

/-- The event of an arrival dropped at a gate (09 R342). -/
def arrivalDropped (s : State) (source n ring : Nat) : State :=
  sendEvent s { sev := 1, code := 0x0022, source := source, arg0 := n, arg1 := ring }

/-- AGATE of a descriptor (08 R295) and of a schedule entry (08 R317). -/
def descGate (ws : List Nat) : Nat := fieldN (ws.getD 0 0) 48 40
def entryGate (ws : List Nat) : Nat := fieldN (ws.getD 0 0) 55 47

/-- Drill and sowing arrivals that wait to be counted at a gate are dropped when it is disabled (09 R338). -/
def dropDrillArrivals (s : State) (c n : Nat) : State :=
  (List.range 16).foldl (fun s r =>
    match (spGet ({} : Ring) (getCore s c).rings r).cur with
    | some d =>
      if d.phase = .arrival && descGate d.words = n && !d.arrDropped then
        let d' := { d with arrDropped := true }
        let s := updCore s c (fun k => { k with rings := spUpd {} k.rings r (fun x => { x with cur := some d' }) })
        arrivalDropped s (srcCore c) n r
      else s
    | none => s) s

def getSow (s : State) (die : Nat) : SowEngine := spGet {} s.sow die
def setSow (s : State) (die : Nat) (e : SowEngine) : State := { s with sow := spSet {} s.sow die e }

def dropSowArrivals (s : State) (die : Nat) (key : Nat) : State :=
  let e := getSow s die
  let hit (r : SowRun) : Bool :=
    r.delivered && !r.arrDropped && gateKey die (entryGate (spGet ({} : SowEntry) e.entries r.entry).words) == key
  let n := (e.running.filter hit).length
  let s := setSow s die { e with running := e.running.map (fun r => if hit r then { r with arrDropped := true } else r) }
  (List.replicate n ()).foldl (fun s _ => arrivalDropped s (srcUnit 1 die) (gateNo key) 0) s

/-- Clearing EN (09 R338). -/
def gateDisable (s : State) (key : Nat) : State :=
  let g := getGate s key
  if !g.en then s
  else
    let s := setGate s key { g with en := false, arr := {} }
    let n := gateNo key
    let s := (inScope s (gateDie key)).foldl (fun s c =>
      let l := gateLocal s c n
      let s := setGateLocal s c n { l with openN := 0, heldN := 0, sent := false }
      dropDrillArrivals (deferGateWaiters s c n 0x04) c n) s
    [0, 1, 2, 3].foldl (fun s d => dropSowArrivals s d key) s

/-- The context as a GCTL word describes it, EN apart. -/
def GateCtx.withCtl (g : GateCtx) (v : Word) : GateCtx :=
  { g with
    sowm := BitVec.ofNat 4 (field v 31 28)
    ctlm := bitOf v 27
    fabn := field v 26 16
    lcnt := field v 15 8 }

def GateCtx.ctlWord (g : GateCtx) : Word :=
  word (g.sowm.toNat * 2 ^ 28 + boolN g.ctlm * 2 ^ 27 + g.fabn * 2 ^ 16 + g.lcnt * 2 ^ 8 + boolN g.en)

/-- What a write of EN finds as other members: sowing engines (a die gate's own only), the cluster, fabric arrivals of a module
gate. -/
def otherMembers (key : Nat) (g : GateCtx) : Bool := g.sowUsed key != 0 || g.ctlm || g.fabUsed key != 0

/-- Setting EN (09 R338): refused, or the context opens with every count cleared. by_: the thread that wrote, if one. -/
def gateEnable (s : State) (key : Nat) (v : Word) (by_ : Option (Nat × Nat)) : State :=
  let g := (getGate s key).withCtl v
  if membersBad s (gateDie key) g.rows g.cols (otherMembers key g) then
    let s := setGate s key { getGate s key with refused := true }
    match by_ with
    | some (c, t) => deliverDeferred s c t ⟨0x0A, 0x01, word (gateNo key)⟩
    | none => s
  else
    let s := setGate s key { g with en := true, refused := false, gen := 0, arr := {} }
    (inScope s (gateDie key)).foldl (fun s c => setGateLocal s c (gateNo key) {}) s

/-- A write of GCTL (09 R338). -/
def gctlWrite (s : State) (key : Nat) (v : Word) (by_ : Option (Nat × Nat)) : State :=
  let g := getGate s key
  if g.en then (if bitOf v 0 then s else gateDisable s key)
  else if bitOf v 0 then gateEnable s key v by_
  else setGate s key (g.withCtl v)

def gatePhase (s : State) (key : Nat) : Nat :=
  let g := getGate s key
  if !g.en then 0
  else if (inScope s (gateDie key)).any (fun c => (gateLocal s c (gateNo key)).c != g.gen) then 2 else 1

def gateStateWord (s : State) (key : Nat) : Word :=
  let g := getGate s key
  word (g.gen.toNat * 2 ^ 32 + gatePhase s key * 2 ^ 30 + boolN g.refused * 2 ^ 29)

/-- A reset of the gate that an activation is armed on disarms it (13 R483); an arrival at a commit gate is discarded with the others. -/
def gateResetUsers (s : State) (key : Nat) : State :=
  let s := match s.fw.armed with
    | some (_, n, _) => if 1024 ≤ key && n == gateNo key then { s with fw := { s.fw with armed := none, status := 4 } } else s
    | none => s
  if s.resil.arrived = some key then { s with resil := { s.resil with arrived := none } } else s

/-- A reset by JSWITCH reaches the root: every count is discarded and c is 0 (09 R351). -/
def gateResetRoot (s : State) (key : Nat) : State := gateResetUsers (setGate s key { getGate s key with gen := 0, arr := {} }) key

/-- The reset reaches a core: its counts clear, an arrival that it has sent since is discarded, its copy is 0, its waiters receive 0x0A XSUB
0x05 unless it is the origin. One that found nothing to reset has no effect. -/
def gateResetCore (s : State) (key c origin : Nat) (idle : Bool) : State :=
  if idle then s
  else
    let g := getGate s key
    let s := setGate s key { g with arr := { g.arr with cores := g.arr.cores.filter (· != c) } }
    let s := setGateLocal s c (gateNo key) {}
    let s := releaseOthers s key c
    if c = origin then s else deferGateWaiters s c (gateNo key) 0x05

end Sys2Proof.Machine
end

