-- ==== Sys2Proof/Machine/Reaps.lean ====
section
/-!
DEFINITION. Machine/Reaps.lean: reap contexts, contributions, combining and results (09 R345–R349, 01 R42).
-/

namespace Sys2Proof.Machine

/-- The key of context n as a core of a die names it (09 R345). -/
def reapKey (die n : Nat) : Nat := if n < 192 then die * 192 + n else 768 + (n - 192)
def reapNo (key : Nat) : Nat := if key < 768 then key % 192 else key - 768 + 192
def reapDie (key : Nat) : Option Nat := if key < 768 then some (key / 192) else none

def getReap (s : State) (key : Nat) : ReapCtx := spGet {} s.reaps key
def setReap (s : State) (key : Nat) (r : ReapCtx) : State := { s with reaps := spSet {} s.reaps key r }

def findOut (s : State) (c n : Nat) : Option ReapOut := (getCore s c).sync.reapOut.find? (fun o => o.ctx == n)

def setOuts (s : State) (c : Nat) (l : List ReapOut) : State := updCore s c (fun k => { k with sync := { k.sync with reapOut := l } })

def dropOut (s : State) (c n : Nat) : State := setOuts s c ((getCore s c).sync.reapOut.filter (fun o => o.ctx != n))

def updOut (s : State) (c n : Nat) (f : ReapOut → ReapOut) : State :=
  setOuts s c ((getCore s c).sync.reapOut.map (fun o => if o.ctx == n then f o else o))

/-- Lanes of a context. -/
def ReapCtx.lanes (r : ReapCtx) : Nat := 32 * (r.npk + 1)

/-- The identity of an operation (09 R346). -/
def reapIdentity (op : Nat) : Nat :=
  match op with
  | 1 => 0xFF800000
  | 2 => 0x7F800000
  | 4 => 0xFFFFFFFF
  | _ => 0

/-- own ⊕ incoming, lane by lane (09 R346). -/
def reapLane (op a b : Nat) : Nat :=
  match op with
  | 0 => f32add a b
  | 1 => f32max a b
  | 2 => f32min a b
  | 3 => a ||| b
  | _ => a &&& b

def reapLanes (op : Nat) (a b : List Nat) : List Nat := List.zipWith (reapLane op) a b

/-- Folds a list in the order of 01 R42: the last element passes its value toward the first, each adding its own in front. -/
def foldToward (op : Nat) : List (List Nat) → List Nat
  | [] => []
  | [a] => a
  | a :: rest => reapLanes op a (foldToward op rest)

/-- The contribution of a core, if it has made one. -/
def lanesFrom (ins : List ReapIn) (c : Nat) : List Nat :=
  match ins.find? (fun i => i.core == c) with
  | some i => i.lanes
  | none => []

/-- The fold of a die's members: rows toward the lowest member column, then along that column toward the lowest row (01 R42). -/
def foldDie (op : Nat) (ins : List ReapIn) (ms : List Nat) : List Nat :=
  let rows := (List.range 48).filter (fun r => ms.any (fun c => rowOf c == r))
  foldToward op (rows.map (fun r => foldToward op ((ms.filter (fun c => rowOf c == r)).map (lanesFrom ins))))

/-- The module's result: the die partials, the highest-numbered first combined with the next lower (09 R347). -/
def foldModule (s : State) (op : Nat) (ins : List ReapIn) (ms : List Nat) : List Nat :=
  let dies := [0, 1, 2, 3].filter (fun d => ms.any (fun c => dieOf s.grid c == d))
  foldToward op (dies.map (fun d => foldDie op ins (ms.filter (fun c => dieOf s.grid c == d))))

/-- Sends a round's result toward every member; under ONE = 1 only the root gets data (09 R348). -/
def reapDeliver (s : State) (key : Nat) (lanes : List Nat) (flags : Nat) : State :=
  let r := getReap s key
  let outs := (members s r.rows r.cols).map (fun c =>
    let data := !r.one || c == coreAt r.rootr r.rootc
    ({ core := c, lanes := (if data then lanes else []), flags := (if data then flags else 0) } : ReapRes))
  setReap s key { r with round := r.round + 1, outs := r.outs ++ outs, fabric := false }

/-- Ends every outstanding contribution on a context (09 R345, 01 R21): a thread's with a deferred exception, the others' as their
unit finds. -/
def endOut (s : State) (c n : Nat) (why : ReapEnd) (x : Option Exc) : State :=
  let waiting := allThreads.filter (fun t => match (getThread s c t).wait with
    | .reap m _ => m == n
    | _ => false)
  match findOut s c n with
  | none => s
  | some o =>
    match o.who with
    | .thread t _ =>
      let s := dropOut s c n
      match x with
      | some x => (t :: waiting.filter (· != t)).foldl (fun s u => deliverDeferred s c u x) s
      | none => s
    | _ => updOut s c n (fun o => { o with ended := some why, result := none })

/-- What this module holds of a group's round in flight on the fabric is forgotten. -/
def clearRed (s : State) (g : Nat) : State :=
  { s with fabric := { s.fabric with
      red := s.fabric.red.filter (fun p => p.1 / 16 != g), redDone := s.fabric.redDone.filter (fun p => p.1 / 16 != g) } }

/-- The round in flight is discarded on every member, its part on the fabric with it. -/
def reapDiscard (s : State) (key : Nat) (why : ReapEnd) (x : Nat → Exc) : State :=
  let r := getReap s key
  let s := if r.scope = 2 then clearRed s r.fgrp else s
  let s := setReap s key { r with ins := [], outs := [], fabric := false }
  (members s r.rows r.cols).foldl (fun s c => endOut s c (reapNo key) why (some (x c))) s

/-- A hole among the members (01 R21). -/
def reapHole (s : State) (r : ReapCtx) : Option Nat :=
  (allCores s).find? (fun c => named r.rows r.cols c && isHole s c)

/-- XINFO of exception 0x0C: logical row [13:8], column [5:0] (02 R100). -/
def holeInfo (c : Nat) : Word := word (rowOf c * 256 + colOf c)

/-- The operation a fabric step carries: MIN travels as MAX of the negated lanes, AND as OR of the inverted ones (11 R417). -/
def redOp (op : Nat) : Nat :=
  match op with
  | 2 => 1
  | 4 => 3
  | n => n

def redTurn (op x : Nat) : Nat :=
  match op with
  | 2 => f32neg x
  | 4 => 0xFFFFFFFF - x % 2 ^ 32
  | _ => x

/-- The module context that combines across a group. -/
def redKey (s : State) (g : Nat) : Option Nat :=
  ((List.range 64).map (fun i => 768 + i)).find? (fun k => (getReap s k).en && (getReap s k).scope == 2 && (getReap s k).fgrp == g)

/-- A group that cannot combine: the round in flight here is discarded as over a hole (11 R416). Which position the exception names is
open. -/
def redDiscardHere (s : State) (g : Nat) : State :=
  let (d, s) := drawFree s
  let s := clearRed s g
  match redKey s g with
  | some key =>
    let r := getReap s key
    if r.fabric || !r.ins.isEmpty then reapDiscard s key (.hole (d % 2304)) (fun _ => ⟨0x0C, 0x03, holeInfo (d % 2304)⟩) else s
  | none => s

/-- The ports of a group's tree at this module. -/
def redPorts (e : Nat) : List Nat := (if e.testBit 30 then [] else [fieldN e 27 24]) ++ redKids e

/-- The discard, on every member: a notice goes along the tree, but not back where it came from (DESIGN CHOICE, notes/assumptions/32.md). -/
def redDiscard (s : State) (g round : Nat) (from_ : Option Nat) : State :=
  ((redPorts (redEntry s g)).filter (fun p => some p != from_)).foldl (fun s p => (sendReduce s g 0 round 7 p false [] 0).1) (redDiscardHere s g)

/-- Round a is before round b, modulo 2^32. -/
def roundBefore (a b : Nat) : Bool := a % 2 ^ 32 != b % 2 ^ 32 && (b + 2 ^ 32 - a % 2 ^ 32) % 2 ^ 32 < 2 ^ 31

/-- The round that this module's context has open. -/
def redRound (s : State) (g : Nat) : Option Nat := (redKey s g).map (fun k => (getReap s k).round.toNat + 1)

/-- A packet of the result goes down the tree and, once every packet is here, to the members (11 R416). -/
def redDown (s : State) (g idx round op : Nat) (lanes : List Nat) (flags : Nat) : State :=
  let e := redEntry s g
  let s := setRed s (g * 16 + idx) {}
  let (s, bad) := (redKids e).foldl (fun (x : State × Bool) p =>
    let (s, err) := sendReduce x.1 g idx round op p true lanes flags
    (s, x.2 || err.isSome)) (s, false)
  if bad then redDiscard s g round none
  else if e.testBit 29 || (redRound s g).any (fun r => r % 2 ^ 32 != round) then s
  else
    let s := { s with fabric := { s.fabric with redDone := spInsert s.fabric.redDone (g * 16 + idx) (lanes, flags) } }
    match redKey s g with
    | none => s
    | some key =>
      let r := getReap s key
      let pk := List.range (r.npk + 1)
      if pk.all (fun i => spHas s.fabric.redDone (g * 16 + i)) then
        let got := pk.map (fun i => spGet ([], 0) s.fabric.redDone (g * 16 + i))
        let s := { s with fabric := { s.fabric with redDone := s.fabric.redDone.filter (fun p => p.1 / 16 != g) } }
        reapDeliver s key ((got.flatMap (·.1)).map (redTurn r.op))
          ((got.zip pk).foldl (fun f x => f + x.1.2 % 2 ^ 32 * 2 ^ (32 * x.2)) 0)
      else s

/-- A packet of a round: the module's own part, or one from a child port, combined in order of arrival; sent up, or down from the
root, once all are in (11 R416). No round mixes with another: a packet of an earlier round than the one held or open is dropped, one of a later
round starts it (09 R349). -/
def redIn (s : State) (g idx round op : Nat) (port : Option Nat) (lanes : List Nat) (flags : Nat) : State :=
  let e := redEntry s g
  let held := getRed s (g * 16 + idx)
  let fresh := held.lanes.isEmpty && !held.sent
  if roundBefore round held.round && !fresh || (redRound s g).any (roundBefore round) then s else
  let r : RedState := if fresh || roundBefore held.round round then { round := round } else held
  let acc := if r.lanes.isEmpty then lanes else reapLanes op r.lanes lanes
  let r := { r with lanes := acc, flags := r.flags ||| flags, own := r.own || port.isNone, ports := r.ports ++ port.toList }
  let s := setRed s (g * 16 + idx) r
  if !e.testBit 31 then redDiscard s g round none
  else if !((r.own || e.testBit 29) && (redKids e).all (fun p => r.ports.contains p)) || r.sent then s
  else if e.testBit 30 then redDown s g idx round op r.lanes r.flags
  else
    let (s, err) := sendReduce (setRed s (g * 16 + idx) { r with sent := true }) g idx round op (fieldN e 27 24) false r.lanes r.flags
    if err.isSome then redDiscard s g round none else s

/-- The last contribution of a round has arrived: the module's result is formed, and combined across the fabric group under SCOPE
FABRIC; a group with a hole is discarded (09 R346, R347, R350, 11 R416). -/
def reapCombine (s : State) (key : Nat) : State :=
  let r := getReap s key
  match reapHole s r with
  | some h => reapDiscard s key (.hole h) (fun _ => ⟨0x0C, 0x03, holeInfo h⟩)
  | none =>
    let ms := members s r.rows r.cols
    if ms.all (fun c => r.ins.any (fun i => i.core == c)) && treeClear s r.rows r.cols then
      let lanes := foldModule s r.op r.ins ms
      let flags := r.ins.foldl (fun f i => f ||| i.flags) 0
      if r.scope = 2 then
        let s := setReap s key { r with ins := [], fabric := true }
        (List.range (r.npk + 1)).foldl (fun s i =>
          if (getReap s key).fabric then
            redIn s r.fgrp i ((r.round + 1).toNat) (redOp r.op) none (((lanes.drop (32 * i)).take 32).map (redTurn r.op))
              (flags / 2 ^ (32 * i) % 2 ^ 32)
          else s) s
      else reapDeliver (setReap s key { r with ins := [] }) key lanes flags
    else s

/-- A contribution of core c; the round it belongs to is the next to complete (notes/assumptions/20.md). -/
def reapContribute (s : State) (c n : Nat) (who : ReapWho) (lanes : List Nat) (flags : Nat) : BitVec 32 × State :=
  let key := reapKey (dieOf s.grid c) n
  let r := getReap s key
  let round := r.round + 1
  let s := setOuts s c ((getCore s c).sync.reapOut ++ [{ ctx := n, who := who, round := round, result := none, ended := none }])
  let s := setReap s key { r with ins := r.ins ++ [{ core := c, lanes := lanes, flags := flags }] }
  (round, reapCombine s key)

/-- Rounds that only a way to the root was missing for go on once a detour is written. -/
def reapsGo (s : State) : State :=
  (s.reaps.map (·.1)).foldl (fun s key => if (getReap s key).en && !(getReap s key).ins.isEmpty then reapCombine s key else s) s

/-- Writes a result to the area a REAP named (09 R348). -/
def reapWriteArea (s : State) (c : Nat) (area : Option Nat) (lanes : List Nat) (flags : Nat) : State :=
  match area with
  | none => s
  | some a =>
    if lanes.isEmpty then s
    else coreWrite s false c false a (lanes.flatMap (toBytes 4) ++ toBytes (lanes.length / 8) flags)

/-- The end of a thread contribution: its area is written and the contribution is no longer outstanding. -/
def reapCollect (s : State) (c n : Nat) : State :=
  match findOut s c n with
  | some o =>
    match o.who, o.result with
    | .thread _ area, some (lanes, flags) => dropOut (reapWriteArea s c area lanes flags) c n
    | _, _ => s
  | none => s

/-- A round's result reaches a member and is delivered to its contributor (09 R348, R349). -/
def reapResult (s : State) (key c : Nat) : State :=
  let r := getReap s key
  let n := reapNo key
  match r.outs.find? (fun o => o.core == c) with
  | none => s
  | some res =>
    let s := setReap s key { r with outs := r.outs.filter (fun o => o.core != c) }
    let s := updOut s c n (fun o => { o with result := some (res.lanes, res.flags) })
    match findOut s c n with
    | none => s
    | some o =>
      let waiting := allThreads.filter (fun t => match (getThread s c t).wait with
        | .reap m _ => m == n
        | _ => false)
      if waiting.isEmpty then s
      else
        let s := reapCollect s c n
        waiting.foldl (fun s t =>
          match (getThread s c t).wait with
          | .reap _ rd => finishWait s c t rd (word o.round.toNat)
          | _ => s) s

/-! ## Configuration (09 R345) -/

def ReapCtx.withCtl (r : ReapCtx) (v : Word) : ReapCtx :=
  { r with
    fgrp := field v 47 36
    scope := field v 35 34
    one := bitOf v 33
    rootr := field v 31 26
    rootc := field v 25 20
    npk := field v 15 12
    op := field v 7 4 }

def ReapCtx.ctlWord (r : ReapCtx) : Word :=
  word (r.fgrp * 2 ^ 36 + r.scope * 2 ^ 34 + boolN r.one * 2 ^ 33 + r.rootr * 2 ^ 26 + r.rootc * 2 ^ 20 + r.npk * 2 ^ 12
    + r.op * 2 ^ 4 + boolN r.en)

/-- The further refusals of R345. -/
def reapCfgBad (key : Nat) (r : ReapCtx) : Bool :=
  4 < r.op || r.scope == 3 || (if key < 768 then r.scope != 0 else r.scope == 0) || (r.one && r.scope == 2) ||
    (r.one && !(r.rootr < 48 && r.rootc < 48 && named r.rows r.cols (coreAt r.rootr r.rootc)))

def reapEnable (s : State) (key : Nat) (v : Word) (by_ : Option (Nat × Nat)) : State :=
  let r := (getReap s key).withCtl v
  if membersBad s (reapDie key) r.rows r.cols false || reapCfgBad key r then
    let s := setReap s key { getReap s key with refused := true }
    match by_ with
    | some (c, t) => deliverDeferred s c t ⟨0x0A, 0x01, word (reapNo key)⟩
    | none => s
  else setReap s key { r with en := true, refused := false, round := 0, ins := [], outs := [], fabric := false }

/-- Clearing EN discards the round in flight and ends what is outstanding. -/
def reapDisable (s : State) (key : Nat) : State :=
  if !(getReap s key).en then s
  else
    let s := reapDiscard s key .disabled (fun _ => ⟨0x0A, 0x04, word (reapNo key)⟩)
    setReap s key { getReap s key with en := false }

def rctlWrite (s : State) (key : Nat) (v : Word) (by_ : Option (Nat × Nat)) : State :=
  let r := getReap s key
  if r.en then (if bitOf v 0 then s else reapDisable s key)
  else if bitOf v 0 then reapEnable s key v by_
  else setReap s key (r.withCtl v)

def reapStateWord (s : State) (key : Nat) : Word :=
  let r := getReap s key
  let st := if !r.en then 0 else if r.ins.isEmpty && r.outs.isEmpty && !r.fabric then 1 else 2
  word (r.round.toNat * 2 ^ 32 + boolN r.refused * 4 + st)

/-- A reset by JSWITCH: the reap in flight is discarded (09 R351). -/
def reapResetRoot (s : State) (key : Nat) : State :=
  let s := if (getReap s key).scope = 2 then clearRed s (getReap s key).fgrp else s
  setReap s key { getReap s key with ins := [], outs := [], fabric := false, round := 0 }

/-- The reset reaches a member: what it has contributed since is discarded, and its contribution ends. -/
def reapResetCore (s : State) (key c origin : Nat) : State :=
  let r := getReap s key
  let s := setReap s key { r with ins := r.ins.filter (fun i => i.core != c) }
  endOut s c (reapNo key) .reset (if c = origin then none else some ⟨0x0A, 0x05, word (reapNo key)⟩)

end Sys2Proof.Machine
end

