-- ==== Sys2Proof/Machine/DrillRing.lean ====
section
/-!
DEFINITION. Machine/DrillRing.lean: the registers of the Drill rings, the posting order, and how a descriptor ends (08 R285–R293).
-/

namespace Sys2Proof.Machine

def getRing (s : State) (c r : Nat) : Ring := spGet {} (getCore s c).rings r

def setRing (s : State) (c r : Nat) (v : Ring) : State := updCore s c (fun k => { k with rings := spSet {} k.rings r v })

def updRing (s : State) (c r : Nat) (f : Ring → Ring) : State := setRing s c r (f (getRing s c r))

def Ring.slots (r : Ring) : Nat := 2 ^ r.logn

/-- The configurations under which a ring reads DISABLED (08 R286). -/
def ringValid (k : Core) (r : Ring) : Bool :=
  2 ≤ r.logn && r.logn ≤ 8 && r.base * 64 + 64 * r.slots ≤ localEnd && (!r.job || k.ctl.klim.toNat ≤ r.base * 64)

def ringOn (k : Core) (r : Ring) : Bool := r.en && ringValid k r

def slotAddr (r : Ring) (seq : Nat) : Nat := r.base * 64 + 64 * (seq % r.slots)

def drcfgWord (r : Ring) : Word :=
  word (r.owner * 2 ^ 48 + r.logn * 2 ^ 44 + r.base * 2 ^ 6 + boolN r.job * 2 + boolN r.en)

def drstatWord (r : Ring) : Word := word (r.tail % 2 ^ 32 * 2 ^ 32 + r.done % 2 ^ 32)

/-! ## Descriptor fields (08 R295) -/

def dWord (ws : List Nat) (i : Nat) : Nat := ws.getD i 0
def dOp (ws : List Nat) : Nat := fieldN (dWord ws 0) 63 56
def dPF (ws : List Nat) : Bool := (dWord ws 0).testBit 55
def dWG (ws : List Nat) : Bool := (dWord ws 0).testBit 54
def dCW (ws : List Nat) : Bool := (dWord ws 0).testBit 53
def dGA (ws : List Nat) : Bool := (dWord ws 0).testBit 52
def dDRN (ws : List Nat) : Bool := (dWord ws 0).testBit 51
def dWGEN (ws : List Nat) : Nat := fieldN (dWord ws 7) 63 32
def dWGATE (ws : List Nat) : Nat := fieldN (dWord ws 7) 31 23
def dCPL (ws : List Nat) : Nat := fieldN (dWord ws 7) 19 0

/-- The gate a descriptor waits for is enabled and has completed its generation on the core's copy (08 R296). -/
def wgReady (s : State) (c : Nat) (ws : List Nat) : Bool :=
  let n := dWGATE ws
  !dWG ws || 320 ≤ n ||
    ((getGate s (gateKey (dieOf s.grid c) n)).en && genReached (gateLocal s c n).c (BitVec.ofNat 32 (dWGEN ws)))

/-- The words of the descriptor next to start, as its slot holds them. -/
def nextWords (k : Core) (r : Ring) : List Nat :=
  match r.posted with
  | p :: _ => wordsOf 8 (k.mem.localMem.getBytes (slotAddr r p.seq) 64)
  | [] => []

/-- The stores that the poster issued before the DPOST are acknowledged (08 R289). -/
def storesAcked (k : Core) (p : Posted) : Bool :=
  !k.reqs.any (fun q => p.stores.contains q.id) && !k.tile.moves.any (fun m => p.moves.contains m.id) &&
    !k.drain.jobs.any (fun j => p.jobs.contains j.id)

/-- DRERR.STATE (08 R285). -/
def ringState (s : State) (c r : Nat) : Nat :=
  let k := getCore s c
  let v := getRing s c r
  if !ringOn k v then 5
  else if v.error then 4
  else match v.cur with
    | some d => if d.phase = .drainWait then 3 else 1
    | none =>
      match v.posted with
      | p :: _ => if storesAcked k p && !wgReady s c (nextWords k v) then 2 else 0
      | [] => 0

def drerrWord (s : State) (c r : Nat) : Word :=
  let v := getRing s c r
  word (ringState s c r * 2 ^ 60 + v.errStatus * 2 ^ 48 + v.errAddr % 2 ^ 48)

/-! ## The end of a descriptor -/

/-- The completion word (08 R290). -/
def cplWord (ring : Nat) (d : DescRun) (status : Nat) : Nat :=
  status * 2 ^ 48 + dOp d.words * 2 ^ 40 + ring * 2 ^ 36 + d.result % 2 ^ 32

/-- The completion word can be written: its address is aligned, in LOCAL, and not in the keeper area of a JOB = 1 ring
(08 R292, R298). -/
def cplOk (k : Core) (r : Ring) (d : DescRun) : Bool :=
  dCPL d.words % 8 == 0 && dCPL d.words < localEnd && !(r.job && k.ctl.klim.toNat ≤ dCPL d.words)

def writeCpl (s : State) (c ring : Nat) (d : DescRun) (status : Nat) : State :=
  if dCW d.words && cplOk (getCore s c) (getRing s c ring) d then
    latchPut s false c (dCPL d.words) (toBytes 8 (cplWord ring d status)) false
  else s

/-- The descriptor at the head of a ring that waits for its gate, as its slot holds it. -/
def gateWaiter (s : State) (c ring : Nat) (p : Posted) : DescRun :=
  { seq := p.seq, words := nextWords (getCore s c) (getRing s c ring), bad := false, phase := .run, status := 0, addr := 0, result := 0, taken := 0 }

end Sys2Proof.Machine
end

