-- ==== Sys2Proof/Machine/Formats.lean ====
section
/-!
DEFINITION. Machine/Formats.lean: the element formats of tiles and memory (03 R109, 04 R153–R157): sizes, decoding, conversion,
packing of elements in bytes.
-/

namespace Sys2Proof.Machine

/-- The format codes of 03 R109 that name a format. -/
def fmtAssigned (f : Nat) : Bool := f ≤ 9

/-- The code NONE. -/
def fmtNone : Nat := 15

/-- Element size in bits (FP4 is packed two per byte). -/
def fmtBits (f : Nat) : Nat :=
  match f with
  | 0 => 16
  | 1 => 16
  | 6 => 4
  | 8 => 32
  | _ => 8

/-- MX-capable formats (03 R109). -/
def fmtMX (f : Nat) : Bool := 2 ≤ f && f ≤ 7

/-- Decodes an element's raw bits to an exact value (04 R153; the upper two bits of an FP6 container are ignored). -/
def decodeElem (f raw : Nat) : FV :=
  match f with
  | 0 => fmtBF16.decode raw
  | 1 => fmtFP16.decode raw
  | 2 => fmtE4M3.decode raw
  | 3 => fmtE5M2.decode raw
  | 4 => fmtE3M2.decode (raw % 64)
  | 5 => fmtE2M3.decode (raw % 64)
  | 6 => fmtE2M1.decode (raw % 16)
  | 7 => let i := signedN 8 raw; .num (decide (i < 0)) i.natAbs 0
  | 8 => fp32 raw
  | _ => decodeU8Log (raw % 256)

/-- Converts an exact value to a format under a rounding mode (04 R156, R157); the flag is the INT8 saturation of 03 R151. -/
def convertElem (f : Nat) (mode : Rnd) (v : FV) : Nat × Bool :=
  match f with
  | 0 => (fmtBF16.convert false true (fun _ => 0x7FC0) mode v, false)
  | 1 => (fmtFP16.convert false true (fun _ => 0x7E00) mode v, false)
  | 2 => (fmtE4M3.convert true false (fun n => if n then 0xFF else 0x7F) mode v, false)
  | 3 => (fmtE5M2.convert false false (fun n => if n then 0xFE else 0x7E) mode v, false)
  | 4 => (fmtE3M2.convert true false (fun _ => 0) mode v, false)
  | 5 => (fmtE2M3.convert true false (fun _ => 0) mode v, false)
  | 6 => (fmtE2M1.convert true false (fun _ => 0) mode v, false)
  | 7 => convertInt8 mode v
  | 8 => (f32of v, false)
  | _ => (convertU8Log mode v, false)

/-- The largest finite magnitude of a format, as FMAX of 04 R166; 0 where q is 1 whatever the data. -/
def fmtFmax (f : Nat) : FV :=
  match f with
  | 1 => .num false 65504 0
  | 2 => .num false 448 0
  | 3 => .num false 57344 0
  | 4 => .num false 28 0
  | 5 => .num false 15 (-1)
  | 6 => .num false 6 0
  | 7 => .num false 127 0
  | _ => .num false 0 0

/-- EMAX of 04 R167. -/
def fmtEmax (f : Nat) : Int :=
  match f with
  | 2 => 8
  | 3 => 15
  | 4 => 4
  | 5 => 2
  | 6 => 2
  | _ => 0

/-- A value times 2^k. -/
def FV.scale (k : Int) : FV → FV
  | .num neg m e => .num neg m (e + k)
  | v => v

/-- A value times the E8M0 scale x: 0xFF makes it NaN (04 R154). -/
def FV.mxScale (x : Nat) (v : FV) : FV := if x = 255 then .nan false false else v.scale ((x : Int) - 127)

/-- An element in FP32 with its block scale applied: the NaN of scale 0xFF has no stated sign (04 R154, R157). -/
def f32scaled (x : Nat) (v : FV) : Nat := if x = 255 then f32of (v.mxScale x) else f32exact (v.mxScale x)

/-- The raw bits of element j of a packed run of elements held as a number, least significant first. -/
def elemAt (f run j : Nat) : Nat := (run >>> (j * fmtBits f)) % 2 ^ fmtBits f

/-- A packed run of elements from their raw bits, first element lowest. -/
def packElems (f : Nat) : List Nat → Nat
  | [] => 0
  | r :: rs => r % 2 ^ fmtBits f + (packElems f rs) <<< fmtBits f

/-- Bytes that n elements take, rounded up. -/
def fmtBytes (f n : Nat) : Nat := (n * fmtBits f + 7) / 8

/-- 8-byte granules that n elements take, rounded up. -/
def fmtGrans (f n : Nat) : Nat := (n * fmtBits f + 63) / 64

end Sys2Proof.Machine
end

