-- ==== Sys2Proof/Machine/TileOps.lean ====
section
/-!
DEFINITION. Machine/TileOps.lean: the tile file, the order of accesses to it, and the address checks of tile moves (03 R105–R125).
-/

namespace Sys2Proof.Machine

/-! ## Registers of the file -/

def getTile (s : State) (c p : Nat) : TileReg := spGet {} (getCore s c).tile.regs p

def updTileUnit (s : State) (c : Nat) (f : TileUnit → TileUnit) : State := updCore s c (fun k => { k with tile := f k.tile })

/-- A write of a register invalidates its copy in the operand cache (03 R113). -/
def setTile (s : State) (c p : Nat) (r : TileReg) : State :=
  updTileUnit s c (fun u => { u with regs := spSet {} u.regs p r, opCache := u.opCache.filter (· != p) })

def TileReg.row (r : TileReg) (i : Nat) : BitVec 512 := spGet 0 r.rows i

/-- The low n bytes of a row replaced. -/
def TileReg.setRow (r : TileReg) (i n : Nat) (v : Nat) : TileReg :=
  { r with rows := spSet 0 r.rows i (setField (r.row i) (8 * n - 1) 0 v) }

def setBit32 (v : BitVec 32) (i : Nat) (b : Bool) : BitVec 32 := setField v i i (boolN b)

/-- The bits of a sideband byte. -/
def sideByte (v : BitVec 1024) (j : Nat) : Nat := field v (8 * j + 7) (8 * j)

/-- A writer's rows with their poison, from row 0 on, then the tag; poison of every other row is cleared (03 R110). nrows and grans
are counts; none leaves a row alone. DESIGN CHOICE, notes/assumptions/78.md: the poison of a row the mask leaves alone (03 R150) is one of
those cleared. -/
def TileReg.write (r : TileReg) (fmt nrows grans : Nat) (rows : List (Option (Nat × Bool))) : TileReg :=
  let r := (rows.zip (List.range nrows)).foldl (fun (r : TileReg) x =>
    match x.1 with
    | some (v, _) => r.setRow x.2 (8 * grans) v
    | none => r) r
  let pois := (rows.zip (List.range nrows)).foldl (fun (p : BitVec 32) x =>
    match x.1 with
    | some (_, true) => setBit32 p x.2 true
    | _ => p) 0
  { r with fmt := fmt, nrows := nrows - 1, gran := grans - 1, prow := pois }

/-- The tag word (03 R108). -/
def tagWord (r : TileReg) : Word :=
  word (r.prow.toNat * 2 ^ 32 + boolN r.spois * 2 ^ 16 + r.fmt * 2 ^ 12 + r.nrows * 2 ^ 7 + r.gran * 2 ^ 4)

/-- The raw bits of element j of a row in its tag's format, or none where the tag does not hold it. -/
def TileReg.elem? (r : TileReg) (i j : Nat) : Option Nat :=
  if i ≤ r.nrows && (j + 1) * fmtBits r.fmt ≤ (r.gran + 1) * 64 then some (elemAt r.fmt (r.row i).toNat j) else none

/-- Physical register of a window-relative index (03 R106). -/
def winReg (th : Thread) (w : Nat) : Option Nat := if w < th.twCount.toNat then some (th.twBase.toNat + w) else none

/-- 0x08 for indices outside the window. -/
def winChecks (th : Thread) (w : Word) (idx : List Nat) : List Cand :=
  when? (idx.any (fun i => (winReg th i).isNone)) 0x08 0x01 w

/-- The physical register an index names once the window check holds. -/
def phys (th : Thread) (i : Nat) : Nat := th.twBase.toNat + i

/-! ## Fields of a TDRAIN word (04 R161) that other units look at -/

def tdAcc (w : Word) : Nat := field w 40 40
def tdBwd (w : Word) : Bool := bitOf w 39
def tdDst (w : Word) : Nat := field w 38 37
def tdRnd (w : Word) : Nat := field w 36 35
def tdFn (w : Word) : Nat := field w 29 26
def tdGated (w : Word) : Bool := tdFn w == 8 || tdFn w == 9

/-- The banks a TDRAIN reads and holds. -/
def tdBanks (w : Word) : List Nat := if tdGated w && !tdBwd w then [0, 1] else [tdAcc w]

/-! ## Order of accesses (03 R107) -/

def vecReads (v : VecOp) : List Nat :=
  match field v.word 63 56 with
  | 0x63 => [v.ta, v.tb, v.td]
  | 0x66 => [v.ta]
  | 0x67 => [v.ta]
  | 0x68 => [v.ta]
  | 0x69 => [v.ta]
  | 0x6A => []
  | _ => [v.ta, v.tb]

def vecWrites (v : VecOp) : List Nat := if field v.word 63 56 = 0x68 then [] else [v.td]

/-- B registers of a pass. -/
def passB (p : Pass) : List Nat := if p.segs.isEmpty then [p.tb] else p.segs.map (·.tb)

def passReads (p : Pass) : List Nat := (if p.conv.isSome then [] else [p.ta]) ++ (if p.yk then [] else passB p)

def drainWrites (j : DrainJob) : List Nat :=
  if tdDst j.word != 0 then [] else if tdGated j.word && tdBwd j.word then [j.td, j.td + 1] else [j.td]

def drainReads (j : DrainJob) : List Nat :=
  if !tdBwd j.word then [] else if tdGated j.word then [j.tz, j.tz + 1] else [j.tz]

/-- Physical registers of core c still to be written by earlier-issued instructions, those of the yoke partner's TXFERs included. -/
def pendWrites (s : State) (c : Nat) : List Nat :=
  let k := getCore s c
  let p := getCore s (partner c)
  (k.tile.moves.filter (fun m => !m.store)).map (·.reg) ++ k.tile.vecs.flatMap vecWrites ++ k.drain.jobs.flatMap drainWrites ++
    p.tile.xfers.map (·.dst)

/-- Physical registers of core c still to be read by earlier-issued instructions, the partner's YK passes included. -/
def pendReads (s : State) (c : Nat) : List Nat :=
  let k := getCore s c
  let p := getCore s (partner c)
  k.tile.passes.flatMap passReads ++ (k.tile.moves.filter (·.store)).map (·.reg) ++ k.tile.vecs.flatMap vecReads ++
    k.tile.xfers.map (·.src) ++ k.drain.jobs.flatMap drainReads ++ (p.tile.passes.filter (·.yk)).flatMap passB

/-- An instruction that reads and writes these registers is not ready. -/
def tileWait (s : State) (c : Nat) (reads writes : List Nat) : Bool :=
  (reads ++ writes).any (fun r => (pendWrites s c).contains r) || writes.any (fun r => (pendReads s c).contains r)

/-- Passes on a bank still to land. -/
def bankBusy (k : Core) (bank : Nat) : Bool := k.tile.passes.any (fun p => p.acc == bank)

/-- A TDRAIN holds the bank: from its issue until its outputs are written (04 R169). -/
def bankHeld (k : Core) (bank : Nat) : Bool := k.drain.jobs.any (fun j => j.phase != .written && (tdBanks j.word).contains bank)

def getBank (k : Core) (b : Nat) : AccBank := if b = 0 then k.tile.acc0 else k.tile.acc1

def setBank (s : State) (c b : Nat) (a : AccBank) : State :=
  updTileUnit s c (fun u => if b = 0 then { u with acc0 := a } else { u with acc1 := a })

/-- A fresh number for an operation of the tile unit. -/
def nextTileId (s : State) (c : Nat) : Nat × State :=
  ((getCore s c).tile.nextId, updTileUnit s c (fun u => { u with nextId := u.nextId + 1 }))

/-! ## Address checks shared with the drain, DPOST and REAP (03 R119) -/

def addrTag (a : Word) : Nat := field a 63 56
def addrOff (a : Word) : Nat := field a 55 0

def inJob (s : State) (c t : Nat) : Bool := !(getThread s c t).st.pm

/-- 02 R65: a job-mode access to CONTROL through a register that is not poisoned. -/
def controlJob (s : State) (c t n : Nat) : Option Nat :=
  let th := getThread s c t
  if inJob s c t && !(th.regs.gGet n).p && addrTag (th.regs.gGet n).v == 0x0F then some 3 else none

/-- Space, alignment, range and keeper area of span bytes at an address that must lie in LOCAL, or GRANARY where allowed.
DESIGN CHOICE (notes/assumptions/78.md): XINFO gives the base address ga also when only a later row is outside; 02 R100 says only Address. -/
def areaChecks (s : State) (c t : Nat) (gran : Bool) (a : Word) (span : Nat) (misaligned : Bool) : List Cand :=
  let k := getCore s c
  let off := addrOff a
  if addrTag a = 0 then
    when? misaligned 0x03 0x01 a ++ when? (localEnd < off + span) 0x05 0x02 a ++
      when? (inJob s c t && k.ctl.klim.toNat < off + span) 0x05 0x03 a
  else if gran && addrTag a = 1 then when? misaligned 0x03 0x01 a ++ when? (granEnd k < off + span) 0x05 0x02 a
  else when? misaligned 0x03 0x01 a ++ when? true 0x05 0x01 a

/-- Invalidates the L1 lines of a run of the core's own granary. -/
def l1KillGran (s : State) (c a n : Nat) : State :=
  l1Drop s c (fun l => l.space == 1 && l.owner == c && l.line * 64 < a + n && a < l.line * 64 + 64)

/-! ## Tile moves in flight -/

/-- The runs of memory a move touches. -/
def moveRuns (m : TileMove) : List (Nat × Nat) :=
  if m.side then [(m.base, 128)]
  else (List.range m.rows).map (fun i => (m.base + i * m.pitch, if m.skew then 64 else 8 * m.grans))

def runsMeet (a b : List (Nat × Nat)) : Bool :=
  a.any (fun x => b.any (fun y => x.1 < y.1 + y.2 && y.1 < x.1 + x.2))

/-- The memory runs that the MEM rows and the record of a held TDRAIN write: LOCAL and GRANARY (04 R161, R173). -/
def drainRuns (gran : Bool) (j : DrainJob) : List (Nat × Nat) :=
  let rows := field j.d0 36 32 + 1
  let bytes := fmtBytes j.fmt (field j.d0 31 27 + 1)
  (if tdDst j.word = 1 && (addrTag j.dest == 1) == gran then
    (List.range rows).map (fun i => (addrOff j.dest + i * field j.d1 51 32, bytes)) else []) ++
  (if bitOf j.d0 50 && !gran then [(field j.d1 19 0, 192)] else [])

/-- Bytes a request touches. -/
def reqSpan (q : Req) : Nat :=
  match q.kind with
  | .load _ n _ => n
  | .loadS _ => 128
  | .store => q.data.length
  | _ => 8

/-- An access of thread t to its own core's memory must wait for an earlier output of a drain, or an earlier request of the thread on its way to the
core's CORE or CGRAN space, that concerns the same bytes (02 R86, 04 R170). -/
def followsOutput (s : State) (c t : Nat) (gran store : Bool) (a n : Nat) : Bool :=
  let k := getCore s c
  k.drain.jobs.any (fun j => j.thread == t && runsMeet (drainRuns gran j) [(a, n)]) ||
  k.reqs.any (fun q => q.thread == t && q.target == c && q.stage == .sent && (q.va / 2 ^ 56 == (if gran then 3 else 2)) &&
    (store || !q.kind.isLoad) && q.off < a + n && a < q.off + reqSpan q)

/-- It must also wait for an earlier tile move of the thread on the same bytes (03 R121). -/
def mustFollow (s : State) (c t : Nat) (gran store : Bool) (a n : Nat) : Bool :=
  (getCore s c).tile.moves.any (fun m => m.thread == t && m.gran == gran && (m.store || store) && runsMeet (moveRuns m) [(a, n)]) ||
    followsOutput s c t gran store a n

/-! ## The move path (03 R115, 04 R170) -/

/-- A TLD or TLDS waits for the tile outputs of drains issued before it. -/
def afterDrains (k : Core) (m : TileMove) : Bool :=
  !m.store && k.drain.jobs.any (fun j => j.phase != .written && tdDst j.word == 0 && j.seq < m.id)

/-- A drain's tile output waits for the TLDs and TLDSs issued before it; its memory output for the thread's earlier moves on the same bytes. -/
def afterMoves (k : Core) (j : DrainJob) : Bool :=
  k.tile.moves.any (fun m => m.id < j.seq && ((tdDst j.word == 0 && !m.store) ||
    (m.thread == j.thread && runsMeet (drainRuns m.gran j) (moveRuns m))))

end Sys2Proof.Machine
end

