-- ==== Sys2Proof/Machine/Tile.lean ====
section
/-!
DEFINITION. Machine/Tile.lean: tile moves, copies, the yoke transfer and status reads (03 R118–R125), and the events that retire them
(03 R136).
-/

namespace Sys2Proof.Machine

/-! ## Fields (03 R118) -/

def tmT (w : Word) : Nat := field w 55 51
def tmRows (w : Word) : Nat := field w 40 36 + 1
def tmGrans (w : Word) : Nat := field w 35 33 + 1
def tmFmt (w : Word) : Nat := field w 32 29
def tmSkew (w : Word) : Bool := bitOf w 28

/-- The pitch in bytes: gb[19:0], or packed with g0. -/
def tmPitch (th : Thread) (w : Word) : Nat := if wGb w = 0 then tmGrans w * 8 else field (gVal th (wGb w)) 19 0

/-- Moves waiting in the queue: those issued less one in occupancy on each path that has any (03 R122). -/
def queueLen (k : Core) : Nat :=
  k.tile.moves.length - boolN (k.tile.moves.any (·.store)) - boolN (k.tile.moves.any (fun m => !m.store))

/-- Bytes of a move's span in memory from its base. -/
def tmSpan (th : Thread) (w : Word) : Nat := (tmRows w - 1) * tmPitch th w + (if tmSkew w then 64 else 8 * tmGrans w)

/-- The extent checks of a TST against the tag (03 R121). -/
def tstTag (r : TileReg) (w : Word) : List Cand :=
  if r.fmt = fmtNone then when? true 0x07 0x05 w
  else when? (r.fmt != tmFmt w || r.nrows + 1 < tmRows w || r.gran + 1 < tmGrans w) 0x07 0x08 w

/-- Queues a move. -/
def queueMove (s : State) (c : Nat) (m : Nat → TileMove) : State :=
  let (id, s) := nextTileId s c
  updTileUnit s c (fun u => { u with moves := u.moves ++ [m id] })

/-- A move waits for an earlier output of its thread to the bytes it touches (02 R86, 03 R121). -/
def moveFollows (s : State) (c : Nat) (m : TileMove) : Bool :=
  (moveRuns m).any (fun r => followsOutput s c m.thread m.gran m.store r.1 r.2)

/-- TLD and TST at issue (03 R119–R122). -/
def moveBody (c t : Nat) (w : Word) (store : Bool) (s : State) : Res :=
  let k := getCore s c
  let th := k.thread t
  let i := tmT w
  let p := phys th i
  let a := gVal th (wGa w)
  if (winReg th i).isSome && tileWait s c (if store then [p] else []) (if store then [] else [p]) then .wait
  else if 4 ≤ queueLen k then .wait
  else
    let pois := addrPoison th [wGa w, wGb w]
    let gran := addrTag a == 1
    let bad := if tmSkew w then a.toNat % 64 != 0 || tmPitch th w % 64 != 0 else a.toNat % 8 != 0 || tmPitch th w % 8 != 0
    let xs := winChecks th w [i] ++ when? (tmSkew w && tmGrans w != 8) 0x07 0x08 w ++
      (if store && (winReg th i).isSome then tstTag (getTile s c p) w else []) ++
      (if pois.isEmpty then areaChecks s c t true a (tmSpan th w) bad else pois)
    let m (id : Nat) : TileMove :=
      { id := id, thread := t, store := store, side := false, reg := p, gran := gran, base := addrOff a,
        pitch := tmPitch th w, rows := tmRows w, grans := tmGrans w, fmt := tmFmt w, skew := tmSkew w }
    if !xs.isEmpty then .raise xs
    else if moveFollows s c (m 0) then .wait
    else .done (advance (queueMove s c m) c t)

/-- TLDS and TSTS at issue (03 R122). -/
def sideBody (c t : Nat) (w : Word) (store : Bool) (s : State) : Res :=
  let k := getCore s c
  let th := k.thread t
  let i := tmT w
  let p := phys th i
  let a := gVal th (wGa w)
  if (winReg th i).isSome && tileWait s c (if store then [p] else []) (if store then [] else [p]) then .wait
  else if 4 ≤ queueLen k then .wait
  else
    let pois := addrPoison th [wGa w]
    let xs := winChecks th w [i] ++
      (if pois.isEmpty then areaChecks s c t true a 128 (a.toNat % 128 != 0) else pois)
    let m (id : Nat) : TileMove :=
      { id := id, thread := t, store := store, side := true, reg := p, gran := addrTag a == 1, base := addrOff a,
        pitch := 0, rows := 1, grans := 8, fmt := 15, skew := false }
    if !xs.isEmpty then .raise xs
    else if moveFollows s c (m 0) then .wait
    else .done (advance (queueMove s c m) c t)

/-- TLD and TST read address registers, which hold poison as an address does (02 R61). -/
def moveForm (c t : Nat) (s : State) (w : Word) (store : Bool) : Form :=
  { uses := { gIn := [wGa w, wGb w] }, priv := controlJob s c t (wGa w), body := moveBody c t w store }

def sideForm (c t : Nat) (s : State) (w : Word) (store : Bool) : Form :=
  { uses := { gIn := [wGa w] }, priv := controlJob s c t (wGa w), body := sideBody c t w store }

def execTld (c t : Nat) (w : Word) (s : State) : Out := issue .tld (moveForm c t s w false) c t w s
def execTst (c t : Nat) (w : Word) (s : State) : Out := issue .tst (moveForm c t s w true) c t w s
def execTlds (c t : Nat) (w : Word) (s : State) : Out := issue .tlds (sideForm c t s w false) c t w s
def execTsts (c t : Nat) (w : Word) (s : State) : Out := issue .tsts (sideForm c t s w true) c t w s

/-! ## Retirement of a move (03 R136) -/

/-- Byte j of tile row i stands at byte (j + 4 (i mod 16)) mod 64 of its slot (03 R114). -/
def unskewRow (i : Nat) (slot : List Byte) : List Byte := (List.range 64).map (fun j => slot.getD ((j + 4 * (i % 16)) % 64) 0)
def skewRow (i : Nat) (row : List Byte) : List Byte := (List.range 64).map (fun j => row.getD ((j + 60 * (i % 16)) % 64) 0)

/-- A TLD writes its rows and the tag (03 R120). -/
def retireLoad (s : State) (c : Nat) (m : TileMove) : State :=
  let (s, rows) := (List.range m.rows).foldl (fun (x : State × List (Option (Nat × Bool))) i =>
    let n := if m.skew then 64 else 8 * m.grans
    let g := coreRead x.1 m.gran c (m.base + i * m.pitch) n
    let bytes := if m.skew then unskewRow i g.data else g.data
    (g.st, x.2 ++ [some (ofBytes bytes, g.poison)])) (s, [])
  setTile s c m.reg ((getTile s c m.reg).write m.fmt m.rows m.grans rows)

/-- A TST writes its rows, a poisoned row as poison words, and invalidates L1 lines it overlaps (03 R121). -/
def retireStore (s : State) (c : Nat) (m : TileMove) : State :=
  let r := getTile s c m.reg
  (List.range m.rows).foldl (fun s i =>
    let bytes := toBytes (if m.skew then 64 else 8 * m.grans) (r.row i).toNat
    let bytes := if m.skew then skewRow i bytes else bytes
    let a := m.base + i * m.pitch
    let s := coreWrite s m.gran c (r.prow.getLsbD i) a bytes
    if m.gran then l1KillGran s c a bytes.length else s) s

def retireSide (s : State) (c : Nat) (m : TileMove) : State :=
  let r := getTile s c m.reg
  if m.store then
    let s := coreWrite s m.gran c r.spois m.base (toBytes 128 r.side.toNat)
    if m.gran then l1KillGran s c m.base 128 else s
  else
    let g := coreRead s m.gran c m.base 128
    setTile g.st c m.reg { r with side := BitVec.ofNat 1024 g.value, spois := g.poison }

/-- An earlier move of the same thread on the same bytes has not been made (02 R86). -/
def moveBlocked (before : List TileMove) (m : TileMove) : Bool :=
  before.any (fun b => b.thread == m.thread && b.gran == m.gran && (b.store || m.store) && runsMeet (moveRuns b) (moveRuns m))

/-- The oldest move of a path retires. -/
def moveRetire (s : State) (c : Nat) (store : Bool) : State :=
  let ms := (getCore s c).tile.moves
  match ms.find? (fun m => m.store == store) with
  | none => s
  | some m =>
    if moveBlocked (ms.takeWhile (fun b => b.id != m.id)) m || afterDrains (getCore s c) m then s
    else
      let s := updTileUnit s c (fun u => { u with moves := u.moves.filter (fun b => b.id != m.id) })
      if m.side then retireSide s c m else if store then retireStore s c m else retireLoad s c m

def execTileMoveRetire (core : Nat) (store : Bool) (s : State) : Out := .next (moveRetire s core store)

/-! ## TMOV, TZERO (03 R123) -/

def tmovBody (c t : Nat) (w : Word) (s : State) : Res :=
  let th := getThread s c t
  let td := phys th (tmT w)
  let ta := phys th (field w 50 46)
  let xs := winChecks th w [tmT w, field w 50 46]
  if !xs.isEmpty then .raise xs
  else if tileWait s c [ta] [td] then .wait
  else .done (advance (setTile s c td (getTile s c ta)) c t)

def tzeroBody (c t : Nat) (w : Word) (s : State) : Res :=
  let th := getThread s c t
  let p := phys th (tmT w)
  let xs := winChecks th w [tmT w]
  if !xs.isEmpty then .raise xs
  else if tileWait s c [] [p] then .wait
  else
    let r := (getTile s c p).write (tmFmt w) (tmRows w) (tmGrans w) (List.replicate (tmRows w) (some (0, false)))
    .done (advance (setTile s c p { r with side := sideOnes, spois := false }) c t)

def execTmov (c t : Nat) (w : Word) (s : State) : Out := issue .tmov { body := tmovBody c t w } c t w s
def execTzero (c t : Nat) (w : Word) (s : State) : Out := issue .tzero { body := tzeroBody c t w } c t w s

/-! ## TXFER (03 R124) -/

/-- The yoke is broken: 0x0C with the partner's coordinates (01 R29). -/
def yokeChecks (s : State) (c : Nat) : List Cand := when? (yokeBroken s c) 0x0C 0x02 (holeInfo (partner c))

def txferBody (c t : Nat) (w : Word) (s : State) : Res :=
  let th := getThread s c t
  let dst := phys th (tmT w)
  let src := phys th (field w 50 46)
  let xs := winChecks th w [tmT w, field w 50 46] ++ yokeChecks s c
  if !xs.isEmpty then .raise xs
  else if tileWait s c [src] [] || tileWait s (partner c) [] [dst] || !(getCore s c).tile.xfers.isEmpty ||
      (getCore s (partner c)).tile.passes.any (fun p => p.yk && p.started) then .wait
  else
    let (id, s) := nextTileId s c
    .done (advance (updTileUnit s c (fun u => { u with xfers := u.xfers ++ [{ id := id, thread := t, src := src, dst := dst }] })) c t)

def execTxfer (c t : Nat) (w : Word) (s : State) : Out := issue .txfer { body := txferBody c t w } c t w s

/-- The data of a core's oldest TXFER is written in the partner's file (03 R136). -/
def xferArrive (s : State) (c : Nat) : State :=
  match (getCore s c).tile.xfers with
  | [] => s
  | x :: rest =>
    let s := updTileUnit s c (fun u => { u with xfers := rest })
    setTile s (partner c) x.dst (getTile s c x.src)

def execTxferArrive (core : Nat) (s : State) : Out := .next (xferArrive s core)

/-! ## TTAG, TASTAT (03 R125) -/

def ttagBody (c t : Nat) (w : Word) (s : State) : Res :=
  let th := getThread s c t
  let p := phys th (field w 50 46)
  let xs := winChecks th w [field w 50 46]
  if !xs.isEmpty then .raise xs
  else if tileWait s c [p] [] then .wait
  else .done (advance (updCore s c (fun k => k.writeG t (wGd w) (tagWord (getTile s c p)))) c t)

def execTtag (c t : Nat) (w : Word) (s : State) : Out :=
  issue .ttag { uses := { gOut := [wGd w] }, body := ttagBody c t w } c t w s

def AccMode.codeN : AccMode → Nat
  | .empty => 0
  | .fp => 1
  | .int => 2

def bankWord (a : AccBank) : Word :=
  word (a.prow.toNat * 2 ^ 32 + a.mode.codeN * 2 ^ 6 + boolN a.iov * 4 + boolN a.inf * 2 + boolN a.nan)

def tastatBody (c t : Nat) (w : Word) (s : State) : Res :=
  let k := getCore s c
  let src := field w 29 28
  if src = 2 then
    if !k.tile.vecs.isEmpty then .wait
    else
      let u := k.tile
      let v := word (boolN u.viov * 4 + boolN u.vinf * 2 + boolN u.vnan)
      let s := updCore s c (fun k => k.writeG t (wGd w) v)
      .done (advance (if bitOf w 27 then updTileUnit s c (fun u => { u with vnan := false, vinf := false, viov := false }) else s)
        c t)
  else if bankBusy k src then .wait
  else
    let a := getBank k src
    let s := updCore s c (fun k => k.writeG t (wGd w) (bankWord a))
    .done (advance (if bitOf w 27 then setBank s c src { a with nan := false, inf := false, iov := false } else s) c t)

def execTastat (c t : Nat) (w : Word) (s : State) : Out :=
  issue .tastat { uses := { gOut := [wGd w] }, body := tastatBody c t w } c t w s

end Sys2Proof.Machine
end

