-- ==== Sys2Proof/Machine/Array.lean ====
section
/-!
DEFINITION. Machine/Array.lean: TMMA, TMMA.SEG and TMMA.CONV, and the passes they queue (03 R126–R147).
-/

namespace Sys2Proof.Machine

/-! ## Fields and shapes (03 R126–R128) -/

def mmPair (w : Word) : Nat := field w 55 52
def mmRows (w : Word) : Nat := field w 51 47 + 1
def mmCols (w : Word) : Nat := field w 46 42 + 1
def mmKg (w : Word) : Nat := field w 41 39 + 1
def mmA (w : Word) : Nat := field w 38 34
def mmB (w : Word) : Nat := field w 33 29
def mmAcc (w : Word) : Nat := field w 28 28
def mmClr (w : Word) : Bool := bitOf w 27
def mmMR (w : Word) : Nat := field w 26 24
def mmMC (w : Word) : Nat := field w 23 21
def mmZpad (w : Word) : Bool := bitOf w 20
def mmBT (w : Word) : Bool := bitOf w 19
def mmYK (w : Word) : Bool := bitOf w 18
def mmScl (w : Word) : Nat := field w 17 16

/-- Formats of A and B of a pair (03 R127). -/
def pairA (p : Nat) : Nat :=
  match p with
  | 0 => 0 | 1 => 1 | 2 => 2 | 3 => 2 | 4 => 3 | 5 => 3 | 6 => 4 | 7 => 5 | 8 => 6 | 9 => 2 | 10 => 7 | _ => 0

def pairB (p : Nat) : Nat :=
  match p with
  | 0 => 0 | 1 => 1 | 2 => 2 | 3 => 3 | 4 => 2 | 5 => 3 | 6 => 4 | 7 => 5 | 8 => 6 | 9 => 6 | 10 => 7 | _ => 2

def pairMode (p : Nat) : AccMode := if p = 10 then .int else .fp

/-- K of kg granules. -/
def pairK (p kg : Nat) : Nat := kg * 64 / fmtBits (pairA p)

/-- The k that a step consumes (03 R129). -/
def stepKs (p step : Nat) : List Nat :=
  if p = 8 then [2 * step, 2 * step + 1]
  else if p = 0 || p = 1 || p = 11 then (if step % 2 = 0 then [step / 2] else [])
  else [step]

/-- Rows and granules that B must cover (03 R128). -/
def extentB (p n kg : Nat) (bt : Bool) : Nat × Nat :=
  let bits := pairK p kg * fmtBits (pairB p)
  if bt then (n, (bits + 63) / 64) else ((bits + 15) / 16, 8)

/-- The rows of each segment of a pass, B register and granules: one for a plain pass (03 R141, R142). -/
structure Part where
  first : Nat
  last : Nat
  tb : Nat
  kg : Nat

def partsFrom : Nat → List Seg → List Part
  | _, [] => []
  | first, e :: es => ⟨first, e.last, e.tb, e.kg⟩ :: partsFrom (e.last + 1) es

def passParts (rows tb kg : Nat) (segs : List Seg) : List Part :=
  if segs.isEmpty then [⟨0, rows - 1, tb, kg⟩] else partsFrom 0 segs

/-- Rows fed in a part: within M, within the segment, and in the row mask. -/
def partRows (rows : Nat) (mr : BitVec 32) (p : Part) : List Nat :=
  (List.range rows).filter (fun m => p.first ≤ m && m ≤ p.last && mr.getLsbD m)

def fedCols (cols : Nat) (mc : BitVec 32) : List Nat := (List.range cols).filter (fun n => mc.getLsbD n)

/-! ## The geometry of a convolution (03 R144–R146) -/

structure ConvGeom where
  dims : Nat
  fmt : Nat
  base : Nat
  ppitch : Nat
  cin : Nat
  ih : Nat
  iw : Nat
  pb : Nat
  pt : Nat
  pr : Nat
  pl : Nat
  dye : Nat
  dxe : Nat
  sye : Nat
  sxe : Nat
  kh : Nat
  kw : Nat
  rpitch : Nat

def convGeom (a : ConvArg) : ConvGeom :=
  { dims := field a.d0 29 28, fmt := field a.d0 27 24, base := field a.d0 19 0,
    ppitch := field a.d1 63 48, cin := field a.d1 47 32, ih := field a.d1 31 16, iw := field a.d1 15 0,
    pb := field a.d2 63 56, pt := field a.d2 55 48, pr := field a.d2 47 40, pl := field a.d2 39 32,
    dye := field a.d2 31 28 + 1, dxe := field a.d2 27 24 + 1, sye := field a.d2 23 20 + 1, sxe := field a.d2 19 16 + 1,
    kh := field a.d2 15 8, kw := field a.d2 7 0, rpitch := field a.d3 19 0 }

/-- Output length along an axis (03 R145); 0 where none fits. -/
def convOut (inp pads dil ker str : Nat) : Nat :=
  if dil * (ker - 1) + 1 ≤ inp + pads then (inp + pads - dil * (ker - 1) - 1) / str + 1 else 0

def ConvGeom.ow (g : ConvGeom) : Nat := convOut g.iw (g.pl + g.pr) g.dxe g.kw g.sxe
def ConvGeom.oh (g : ConvGeom) : Nat := convOut g.ih (g.pt + g.pb) g.dye g.kh g.sye

/-! ## Checks at issue (03 R131–R134) -/

/-- Refused scale selections (03 R131). -/
def sclRefused (pair scl : Nat) (conv : Bool) : Bool :=
  let mx := 2 ≤ scl
  (mx && (pair = 0 || pair = 1)) || (scl != 0 && pair = 10) || (mx && conv)

/-- Tag checks of one operand: NONE, format, extent (03 R134). -/
def operandChecks (r : TileReg) (w : Word) (fmt rows grans : Nat) (zpad : Bool) (extSub fmtSub : Nat) : List Cand :=
  if r.fmt = fmtNone then when? true 0x07 0x05 w
  else when? (r.fmt != fmt) 0x07 fmtSub w ++ when? (!zpad && (r.nrows + 1 < rows || r.gran + 1 < grans)) 0x07 extSub w

/-- XINFO of a poisoned operand row: register [4:0], row [12:8]. -/
def rowInfo (reg row : Nat) : Word := word (reg + row * 256)

/-- The first poisoned row among some. -/
def poisonRow (r : TileReg) (rows : List Nat) : Option Nat := rows.find? (fun i => r.prow.getLsbD i)

def rowChecks (r : TileReg) (reg sub : Nat) (rows : List Nat) : List Cand :=
  match poisonRow r rows with
  | some i => [cand 0x06 sub (rowInfo reg i)]
  | none => []

/-- Whether a pass feeds a cell (03 R133, R146). -/
def passFeeds (p : Pass) : Bool :=
  !(fedCols p.cols p.mc).isEmpty && (passParts p.rows p.tb p.kg p.segs).any (fun part =>
    (partRows p.rows p.mr part).any (fun m => match p.conv with
      | none => true
      | some a => a.p0 + m < (convGeom a).ow * (convGeom a).oh))

/-- The mode a pass leaves its bank in (03 R132, R134). -/
def modeAfter (m : AccMode) (p : Pass) : AccMode :=
  if passFeeds p || (p.clr && m != .empty && m != pairMode p.fpair) then pairMode p.fpair else m

/-- The mode of a bank once the passes issued before have landed: theirs is the last pair class that wrote it (03 R132). -/
def bankModeAt (k : Core) (acc : Nat) : AccMode :=
  (k.tile.passes.filter (fun p => p.acc == acc)).foldl modeAfter (getBank k acc).mode

/-- Mode conflict with CLR = 0 (03 R132). -/
def modeConflict (m : AccMode) (pair : Nat) (clr : Bool) : Bool := !clr && m != .empty && m != pairMode pair

/-- The scale vector SCL bit 0 names (03 R131). -/
def sclVec (w : Word) : List Nat := if mmScl w % 2 = 1 then [mmAcc w] else []

/-- The checks common to the three instructions, for given parts and the rows that may be fed; A is absent under TMMA.CONV. -/
def mmChecks (s : State) (c t : Nat) (w : Word) (a : Option Nat) (mr : BitVec 32) (parts : List Part) : List Cand :=
  let th := getThread s c t
  let pair := mmPair w
  let zpad := mmZpad w
  let bc := if mmYK w then partner c else c
  let mc := th.regs.mGet (mmMC w)
  let cols := fedCols (mmCols w) mc.v
  let kgMax := parts.foldl (fun m p => max m p.kg) 0
  let aChecks := match a with
    | none => []
    | some ta =>
      let r := getTile s c ta
      let fed := if cols.isEmpty then [] else parts.flatMap (partRows (mmRows w) mr)
      operandChecks r w (pairA pair) (mmRows w) kgMax zpad 0x01 0x03 ++ rowChecks r ta 0x04 fed ++
        when? (2 ≤ mmScl w && fmtMX (pairA pair) && !fed.isEmpty && r.spois) 0x06 0x06 (word ta)
  let bChecks := if mmYK w && yokeBroken s c then [] else parts.flatMap (fun p =>
    let r := getTile s bc p.tb
    let e := extentB pair (mmCols w) p.kg (mmBT w)
    let fed := !(partRows (mmRows w) mr p).isEmpty && !cols.isEmpty
    operandChecks r w (pairB pair) e.1 e.2 zpad 0x02 0x04 ++
      rowChecks r p.tb 0x05 (if !fed then [] else if mmBT w then cols else List.range e.1) ++
      when? (2 ≤ mmScl w && fmtMX (pairB pair) && fed && r.spois) 0x06 0x06 (word p.tb))
  when? (sclRefused pair (mmScl w) a.isNone) 0x07 0x06 w ++
    when? (modeConflict (bankModeAt (getCore s c) (mmAcc w)) pair (mmClr w)) 0x07 0x07 w ++
    (if mmYK w then yokeChecks s c else []) ++ aChecks ++ bChecks

/-! ## Issue -/

/-- The array cannot accept a pass: one waits already; a TDRAIN holds the bank; registers are awaited, those of the partner under YK
too; the yoke link is busy (03 R107, R135, R137, R138). -/
def arrayWait (s : State) (c : Nat) (w : Word) (regs bregs : List Nat) : Bool :=
  let k := getCore s c
  k.tile.passes.any (fun p => !p.started) || bankHeld k (mmAcc w) ||
    (if mmYK w then tileWait s c regs [] || tileWait s (partner c) bregs [] || !(getCore s (partner c)).tile.xfers.isEmpty
     else tileWait s c (regs ++ bregs) [])

def queuePass (s : State) (c t : Nat) (w : Word) (ta tb kg : Nat) (segs : List Seg) (conv : Option ConvArg) : State :=
  let th := getThread s c t
  let (id, s) := nextTileId s c
  updTileUnit s c (fun u => { u with passes := u.passes ++ [
    { id := id, thread := t, fpair := mmPair w, rows := mmRows w, cols := mmCols w, kg := kg, ta := ta, tb := tb, acc := mmAcc w,
      clr := mmClr w, zpad := mmZpad w, bt := mmBT w, yk := mmYK w, scl := mmScl w,
      mr := (th.regs.mGet (mmMR w)).v, mc := (th.regs.mGet (mmMC w)).v, srow := (th.regs.sGet (mmAcc w)).v,
      segs := segs, conv := conv, started := false }] })

def mmUses (w : Word) (g : List Nat) : Uses := { gIn := g, mIn := [mmMR w, mmMC w], sIn := sclVec w }

def tmmaBody (c t : Nat) (w : Word) (s : State) : Res :=
  let th := getThread s c t
  let wx := winChecks th w [mmA w, mmB w]
  let ta := phys th (mmA w)
  let tb := phys th (mmB w)
  let pois := (mmUses w []).poison th
  if !wx.isEmpty then .raise (wx ++ pois)
  else if arrayWait s c w [ta] [tb] then .wait
  else match pois ++ mmChecks s c t w (some ta) (th.regs.mGet (mmMR w)).v [⟨0, mmRows w - 1, tb, mmKg w⟩] with
  | [] => .done (advance (queuePass s c t w ta tb (mmKg w) [] none) c t)
  | xs => .raise xs

def execTmma (c t : Nat) (w : Word) (s : State) : Out :=
  issue .tmma { uses := mmUses w [], body := tmmaBody c t w } c t w s

/-- The eight entries of a segment descriptor (03 R141). -/
def segEntries (lo hi : Word) : List Nat :=
  (List.range 4).map (fun e => field lo (16 * e + 15) (16 * e)) ++ (List.range 4).map (fun e => field hi (16 * e + 15) (16 * e))

/-- The validity of a segment descriptor: valid entries contiguous from entry 0, LAST rising, reserved bits zero (03 R142). -/
def segValid (es : List Nat) : Bool :=
  let valid := es.takeWhile (fun e => e.testBit 15)
  !valid.isEmpty && (es.drop valid.length).all (fun e => !e.testBit 15) && es.all (fun e => e % 4 == 0) &&
    (valid.zip (valid.drop 1)).all (fun p => fieldN p.1 9 5 < fieldN p.2 9 5)

def segsOf (th : Thread) (es : List Nat) : List Seg :=
  (es.takeWhile (fun e => e.testBit 15)).map (fun e => ⟨phys th (fieldN e 14 10), fieldN e 9 5, fieldN e 4 2 + 1⟩)

/-- With a descriptor that is not valid, the checks that need none of it still count (02 R99, 03 R142). -/
def tmmaSegBody (c t : Nat) (w : Word) (s : State) : Res :=
  let th := getThread s c t
  let gs := mmB w
  let pois := (mmUses w [gs, gs + 1]).poison th
  let es := segEntries (gVal th gs) (gVal th (gs + 1))
  let known := !(th.regs.gGet gs).p && !(th.regs.gGet (gs + 1)).p
  let ok := known && segValid es
  let idx := if ok then (es.takeWhile (fun e => e.testBit 15)).map (fun e => fieldN e 14 10) else []
  let wx := winChecks th w (mmA w :: idx)
  let bad := when? (known && !segValid es) 0x07 0x0A w
  let ta := phys th (mmA w)
  if !wx.isEmpty then .raise (wx ++ pois ++ bad)
  else if !ok then
    if arrayWait s c w [ta] [] then .wait
    else .raise (pois ++ bad ++ mmChecks s c t w (some ta) 0 [])
  else
    let segs := segsOf th es
    if arrayWait s c w [ta] (segs.map (·.tb)) then .wait
    else match pois ++ mmChecks s c t w (some ta) (th.regs.mGet (mmMR w)).v (partsFrom 0 segs) with
    | [] => .done (advance (queuePass s c t w ta 0 0 segs none) c t)
    | xs => .raise xs

def execTmmaSeg (c t : Nat) (w : Word) (s : State) : Out :=
  issue .tmmaSeg { uses := mmUses w [mmB w, mmB w + 1], body := tmmaSegBody c t w } c t w s

/-! ## TMMA.CONV (03 R143–R147) -/

/-- The size of an input element in eighths of a byte is its bits. -/
def ConvGeom.chanBits (g : ConvGeom) : Nat := g.cin * fmtBits g.fmt

/-- The limits of 03 R145 and the match with FPAIR (03 R144); words beyond the fourth are reserved. -/
def convValid (g : ConvGeom) (a : ConvArg) (rest : List Nat) (pois : Bool) (pair : Nat) : Bool :=
  !pois && field a.d0 63 30 == 0 && field a.d0 23 20 == 0 && field a.d3 63 20 == 0 && rest.all (· == 0) &&
  g.fmt == pairA pair &&
  ((g.dims == 1 && 1 ≤ g.kw && g.kw ≤ 64 && g.ih == 1 && g.kh == 1 && g.sye == 1 && g.dye == 1 && g.pt == 0 && g.pb == 0 &&
      g.pl ≤ 63 && g.pr ≤ 63) ||
   (g.dims == 2 && 1 ≤ g.kw && g.kw ≤ 7 && 1 ≤ g.kh && g.kh ≤ 7 && g.pl ≤ 6 && g.pr ≤ 6 && g.pt ≤ 6 && g.pb ≤ 6)) &&
  g.sxe ≤ 8 && g.sye ≤ 8 && g.dxe ≤ 8 && g.dye ≤ 8 &&
  1 ≤ g.cin && g.chanBits % 64 == 0 && g.chanBits / 8 ≤ g.ppitch && 1 ≤ g.ow && 1 ≤ g.oh &&
  g.base % 8 == 0 && g.ppitch % 8 == 0 && g.rpitch % 8 == 0

/-- The end of the input extent (03 R145); a descriptor with IH or IW of 0 counts its pitch down. -/
def ConvGeom.endN (g : ConvGeom) : Int :=
  g.base + ((g.ih : Int) - 1) * g.rpitch + ((g.iw : Int) - 1) * g.ppitch + ((g.chanBits / 8 : Nat) : Int)

def convPriv (c t : Nat) (w : Word) (s : State) : Option Nat := controlJob s c t (mmA w)

/-- The mask bits whose row is an output position (03 R146). -/
def convFed (g : ConvGeom) (p0 : Nat) (mr : BitVec 32) : BitVec 32 :=
  (List.range 32).foldl (fun q m => setBit32 q m (mr.getLsbD m && p0 + m < g.ow * g.oh)) 0

/-- The checks of the descriptor's address come before those of its contents; the checks of the word and its registers alone keep
their places (02 R99). DESIGN CHOICE, notes/assumptions/78.md: XINFO of an input extent out of range or in the keeper area is BASE. -/
def tmmaConvBody (c t : Nat) (w : Word) (s : State) : Res :=
  let k := getCore s c
  let th := k.thread t
  let gc := mmA w
  let d := gVal th gc
  let tb := phys th (mmB w)
  let wx := winChecks th w [mmB w]
  let pois := addrPoison th [gc]
  let upois := (mmUses w [gc + 1]).poison th
  let ax := if pois.isEmpty then areaChecks s c t false d 64 (d.toNat % 64 != 0) else pois
  let part : Part := ⟨0, mmRows w - 1, tb, mmKg w⟩
  if !wx.isEmpty then .raise (wx ++ ax ++ upois)
  else if arrayWait s c w [] [tb] then .wait
  else if !ax.isEmpty then .raise (ax ++ upois ++ mmChecks s c t w none 0 [part])
  else if mustFollow s c t false false (addrOff d) 64 then .wait
  else
    let g := coreRead s false c (addrOff d) 64
    let ws := wordsOf 8 g.data
    let pk := gVal th (gc + 1)
    let arg : ConvArg := { d0 := word (ws.getD 0 0), d1 := word (ws.getD 1 0), d2 := word (ws.getD 2 0), d3 := word (ws.getD 3 0),
                           p0 := field pk 31 0, k0 := field pk 63 32 }
    let geo := convGeom arg
    let s := g.st
    let good := convValid geo arg (ws.drop 4) g.poison (mmPair w)
    let xs := when? (!good) 0x07 0x09 w ++
      (if good then when? ((localEnd : Int) < geo.endN) 0x05 0x02 (word geo.base) ++
        when? (inJob s c t && (k.ctl.klim.toNat : Int) < geo.endN) 0x05 0x03 (word geo.base) else []) ++
      upois ++ mmChecks s c t w none (convFed geo arg.p0 (th.regs.mGet (mmMR w)).v) [part]
    match firstCand xs with
    | some x => .done (takeExc s c t x)
    | none => .done (advance (queuePass s c t w 0 tb (mmKg w) [] (some arg)) c t)

def execTmmaConv (c t : Nat) (w : Word) (s : State) : Out :=
  issue .tmmaConv
    { uses := mmUses w [mmA w, mmA w + 1]
      priv := convPriv c t w s
      body := tmmaConvBody c t w } c t w s

/-! ## The pass -/

/-- The decoded element at an index of a register, 0 beyond its tag, with its block scale if one applies (03 R129, R112). -/
def operandVal (r : TileReg) (i j : Nat) (mx : Bool) (scale : Nat) : FV :=
  match r.elem? i j with
  | none => .num false 0 0
  | some raw => if mx then (decodeElem r.fmt raw).mxScale scale else decodeElem r.fmt raw

/-- a(m, k) of a plain pass. -/
def elemA (p : Pass) (r : TileReg) (m k : Nat) : FV :=
  operandVal r m k (2 ≤ p.scl && fmtMX (pairA p.fpair)) (sideByte r.side (4 * m + k / 32))

/-- b(k, n): BT = 1 holds row n of K elements; BT = 0 element (32 k + n) in tile-row order (03 R128). -/
def elemB (p : Pass) (r : TileReg) (k n : Nat) : FV :=
  let mx := 2 ≤ p.scl && fmtMX (pairB p.fpair)
  if p.bt then operandVal r n k mx (sideByte r.side (4 * n + k / 32))
  else
    let per := 512 / fmtBits (pairB p.fpair)
    let i := 32 * k + n
    operandVal r (i / per) (i % per) mx (sideByte r.side (32 * (k / 32) + n))

/-- Where a(m, k) of a convolution lies: none in padding or beyond the kernel (03 R146). The second component is the LOCAL offset of
its 8-byte word and the bit within it. -/
def convAddr (g : ConvGeom) (p k : Nat) : Option (Nat × Nat) :=
  if g.kh * g.kw * g.cin ≤ k then none
  else
    let c := k % g.cin
    let tap := k / g.cin
    let iy : Int := ((p / g.ow * g.sye : Nat) : Int) - g.pt + ((tap / g.kw * g.dye : Nat) : Int)
    let ix : Int := ((p % g.ow * g.sxe : Nat) : Int) - g.pl + ((tap % g.kw * g.dxe : Nat) : Int)
    if iy < 0 || ix < 0 || (g.ih : Int) ≤ iy || (g.iw : Int) ≤ ix then none
    else
      let bit := c * fmtBits g.fmt
      some (g.base + iy.toNat * g.rpitch + ix.toNat * g.ppitch + bit / 64 * 8, bit % 64)

/-- A row of a convolution's A: its elements and whether a word of it could not be read. -/
def convRow (c : Nat) (g : ConvGeom) (pos k0 kk : Nat) (s : State) : List FV × Bool × State :=
  (List.range kk).foldl (fun (x : List FV × Bool × State) k =>
    match convAddr g pos (k0 + k) with
    | none => (x.1 ++ [.num false 0 0], x.2.1, x.2.2)
    | some (a, bit) =>
      let r := coreRead x.2.2 false c a 8
      if r.poison then (x.1 ++ [.num false 0 0], true, r.st)
      else (x.1 ++ [decodeElem g.fmt (r.value >>> bit)], x.2.1, r.st)) ([], false, s)

/-- The rows of A of a pass: (row, elements); rows of a convolution beyond the output are not fed. Then the rows found unreadable. -/
def passRowsA (s : State) (c : Nat) (p : Pass) (rows : List Nat) (kk : Nat) : List (Nat × List FV) × List Nat × State :=
  match p.conv with
  | none =>
    let r := getTile s c p.ta
    (rows.map (fun m => (m, (List.range kk).map (elemA p r m))), [], s)
  | some arg =>
    let g := convGeom arg
    rows.foldl (fun (x : List (Nat × List FV) × List Nat × State) m =>
      if g.ow * g.oh ≤ arg.p0 + m then x
      else
        let (es, bad, s) := convRow c g (arg.p0 + m) arg.k0 kk x.2.2
        (x.1 ++ [(m, es)], if bad then x.2.1 ++ [m] else x.2.1, s)) ([], [], s)

/-- What a cell and its bank's flags become. -/
structure CellAcc where
  bits : Nat
  nan : Bool
  inf : Bool
  iov : Bool

def zeroFV : FV := .num false 0 0

/-- The exact sum of a step's products (03 R130). -/
def stepSum : List (FV × FV) → FV
  | [] => zeroFV
  | [p] => (FV.mul p.1 p.2).1
  | p :: rest => (FV.add (FV.mul p.1 p.2).1 (stepSum rest)).1

/-- One step of a cell (03 R129). DESIGN CHOICE, notes/assumptions/78.md: the bank's NAN or INF flag is set by every step that leaves NaN
or Inf in a cell, also in one that held it already (03 R125). -/
def cellStep (int scaled : Bool) (srow : Nat) (x : CellAcc) (ps : List (FV × FV)) : CellAcc :=
  if ps.isEmpty then x
  else
    let sum := stepSum ps
    if int then
      let v := signedN 32 x.bits + sum.scaled 0
      let b := wrapInt 32 v
      { x with bits := b, iov := x.iov || signedN 32 b != v }
    else
      let add := if scaled then (FV.mul sum (fp32 srow)).1 else sum
      let b := f32 10 x.bits srow (FV.add (fp32 x.bits) add).1
      { x with bits := b, nan := x.nan || f32isNan b, inf := x.inf || f32isInf b }

/-- All the steps of a cell. -/
def cellRun (p : Pass) (kg : Nat) (m : Nat) (a b : List FV) (x : CellAcc) : CellAcc :=
  (List.range (kg * 8)).foldl (fun x st =>
    cellStep (p.fpair == 10) (p.scl % 2 == 1) (laneGet p.srow m) x
      ((stepKs p.fpair st).map (fun k => (a.getD k zeroFV, b.getD k zeroFV)))) x

/-- CLR (03 R129, R132): the whole bank where the mode changes, else the fed cells, and the poison of rows wholly fed. -/
def clearBank (a : AccBank) (p : Pass) (rows cols : List Nat) : AccBank :=
  if !p.clr then a
  else if a.mode != .empty && a.mode != pairMode p.fpair then { a with cells := [], prow := 0, mode := pairMode p.fpair }
  else
    { a with
      cells := a.cells.filter (fun x => !(rows.contains (x.1 / 32) && cols.contains (x.1 % 32)))
      prow := if cols.length = 32 then rows.foldl (fun q m => setBit32 q m false) a.prow else a.prow }

/-- One part of a pass on its bank. -/
def runPart (s : State) (c : Nat) (p : Pass) (first : Bool) (part : Part) : State :=
  let cols := fedCols p.cols p.mc
  let kk := pairK p.fpair part.kg
  let cand := if cols.isEmpty then [] else partRows p.rows p.mr part
  let (ra, bad, s) := passRowsA s c p cand kk
  let rows := ra.map (·.1)
  let br := getTile s (if p.yk then partner c else c) part.tb
  let a0 := getBank (getCore s c) p.acc
  let a1 := if first then clearBank a0 p rows cols else a0
  if rows.isEmpty || cols.isEmpty then setBank s c p.acc a1
  else
    let a1 := { a1 with mode := pairMode p.fpair, prow := bad.foldl (fun q m => setBit32 q m true) a1.prow }
    let bcols := cols.map (fun n => (n, (List.range kk).map (fun k => elemB p br k n)))
    setBank s c p.acc (ra.foldl (fun a x =>
      bcols.foldl (fun (a : AccBank) y =>
        let key := 32 * x.1 + y.1
        let r := cellRun p part.kg x.1 x.2 y.2 ⟨(spGet 0 a.cells key).toNat, false, false, false⟩
        { a with
          cells := spSet 0 a.cells key (BitVec.ofNat 32 r.bits)
          nan := a.nan || r.nan
          inf := a.inf || r.inf
          iov := a.iov || r.iov }) a) a1)

/-- A pass: its parts in order; CLR applies at the first (03 R142). -/
def runPass (s : State) (c : Nat) (p : Pass) : State :=
  ((passParts p.rows p.tb p.kg p.segs).foldl (fun (x : State × Bool) part => (runPart x.1 c p x.2 part, false)) (s, true)).1

/-- A counter of the core moves unless frozen (15 R540): index is (offset − 0x0001_0000) / 8. -/
def countStall (s : State) (c idx n : Nat) : State :=
  updCore s c (fun k =>
    if k.stall.frozen then k
    else { k with stall := { k.stall with
      counts := spUpd (0, false) k.stall.counts idx (fun v =>
        if 2 ^ 48 ≤ v.1 + n then ((v.1 + n) % 2 ^ 48, true) else (v.1 + n, v.2)) } })

/-- The array reads a register: the operand cache keeps the four read most recently (03 R113). -/
def opCacheRead (s : State) (c r : Nat) : State :=
  let u := (getCore s c).tile
  let s := countStall s c 193 1
  let s := if u.opCache.contains r then countStall s c 192 1 else s
  updTileUnit s c (fun u => { u with opCache := (r :: u.opCache.filter (· != r)).take 4 })

/-- The waiting pass begins its occupancy, unless two passes before it have not landed (03 R137). DESIGN CHOICE,
notes/assumptions/78.md: a B register of the yoke partner enters no operand cache of this core, and each distinct register of a pass counts
once (03 R113). -/
def passStart (s : State) (c : Nat) : State :=
  let ps := (getCore s c).tile.passes
  match ps.find? (fun p => !p.started) with
  | none => s
  | some p =>
    if 2 ≤ (ps.filter (·.started)).length then s
    else
      let s := updTileUnit s c (fun u =>
        { u with passes := u.passes.map (fun q => if q.id == p.id then { q with started := true } else q) })
      (passReads p).dedup.foldl (fun s r => opCacheRead s c r) s

/-- The last accumulation of the oldest started pass lands. -/
def passLand (s : State) (c : Nat) : State :=
  match (getCore s c).tile.passes with
  | [] => s
  | p :: rest =>
    if p.started then runPass (updTileUnit s c (fun u => { u with passes := rest })) c p else s

def execArrayPassStart (core : Nat) (s : State) : Out := .next (passStart s core)
def execArrayPassLand (core : Nat) (s : State) : Out := .next (passLand s core)

end Sys2Proof.Machine
end

