-- ==== Sys2Proof/Machine/Approx.lean ====
section
/-!
DEFINITION. Machine/Approx.lean: functions with an accuracy bound (03 R151, 04 R159). A reference is computed in fixed point with 192
fraction bits; the hardware's approximant, an opaque constant of Config, is what the function gives wherever it lies within
the bound, and the rounded reference elsewhere (notes/assumptions/3.md).
-/

namespace Sys2Proof.Machine

/-- Fraction bits of the fixed-point reference. -/
def fxP : Nat := 192
def fxOne : Int := (2 ^ fxP : Nat)

def fxMul (a b : Int) : Int := a * b / fxOne
def fxDiv (a b : Int) : Int := a * fxOne / b

/-- Σ x^(2k+1) / (2k+1) · s^k with x = 1 / n: atan for s = −1, atanh for s = 1. -/
def fxAtanInv (n s : Int) : Nat → Int → Int → Int
  | 0, _, _ => 0
  | k + 1, p, d => p / d + fxAtanInv n s k (s * p / (n * n)) (d + 2)

def fxLn2 : Int := 2 * fxAtanInv 3 1 70 (fxOne / 3) 1
def fxPi : Int := 16 * fxAtanInv 5 (-1) 50 (fxOne / 5) 1 - 4 * fxAtanInv 239 (-1) 20 (fxOne / 239) 1

/-- Taylor series of e^x, |x| ≤ 1: term n on. -/
def fxExpSeries (x : Int) : Nat → Int → Int → Int
  | 0, _, _ => 0
  | k + 1, term, n => term + fxExpSeries x k (fxMul term x / n) (n + 1)

/-- e^x for |x| below a few hundred. -/
def fxExp (x : Int) : Int :=
  let k := x / fxLn2
  let v := fxExpSeries (x - k * fxLn2) 60 fxOne 1
  if 0 ≤ k then v * (2 ^ k.toNat : Nat) else v / (2 ^ (-k).toNat : Nat)

/-- 2^x for an x between −200 and 200, exact where x is an integer. -/
def fxExp2 (x : Int) : Int :=
  let k := x / fxOne
  let v := fxExpSeries (fxMul (x - k * fxOne) fxLn2) 60 fxOne 1
  if 0 ≤ k then v * (2 ^ k.toNat : Nat) else v / (2 ^ (-k).toNat : Nat)

/-- log2 of m × 2^e, m ≠ 0, to 64 fraction bits. -/
def fxLog2 (m : Nat) (e : Int) : Int :=
  let k := Nat.log2 m
  let x := if k ≤ 96 then m <<< (96 - k) else m >>> (k - 96)
  ((k : Int) + e) * fxOne + ((log2Bits 64 x : Nat) : Int) * (2 ^ (fxP - 64) : Nat)

/-- tanh x. -/
def fxTanh (x : Int) : Int :=
  let a := if x < 0 then -x else x
  let t := if 60 * fxOne < a then fxOne else let q := fxExp (-2 * a); fxDiv (fxOne - q) (fxOne + q)
  if x < 0 then -t else t

def fxSigmoid (x : Int) : Int := fxDiv fxOne (fxOne + fxExp (-x))

/-- Σ (−1)^n z^(2n+1) / (n! (2n+1)), from term n on; p is z^(2n+1) / n! with its sign. -/
def fxErfSeries (z2 : Int) : Nat → Int → Int → Int
  | 0, _, _ => 0
  | k + 1, p, n => p / (2 * n + 1) + fxErfSeries z2 k (-(fxMul p z2) / (n + 1)) (n + 1)

def fxSqrt (x : Int) : Int := (isqrt (x.toNat * 2 ^ fxP) : Nat)

def fxErf (z : Int) : Int :=
  if 7 * fxOne < z then fxOne
  else if z < -7 * fxOne then -fxOne
  else fxDiv (2 * fxErfSeries (fxMul z z) 260 z 0) (fxSqrt fxPi)

/-- A reference as an exact value. -/
def fxVal (x : Int) : FV := .num (decide (x < 0)) x.natAbs (-(fxP : Int))

/-! ## Bounds -/

def FV.abs (v : FV) : FV := if v.neg? then v.negate else v

/-- |v − ref| ≤ |ref| × 2^−rel + 2^−abs; none: the term is absent. -/
def within (v ref : FV) (rel abs : Option Nat) : Bool :=
  let bound := (FV.add (match rel with
    | some r => ref.abs.scale (-(r : Int))
    | none => .num false 0 0) (match abs with
    | some a => .num false 1 (-(a : Int))
    | none => .num false 0 0)).1
  !v.isNan && !v.isInf && !(bound.lt (FV.add v ref.negate).1.abs)

/-- The approximant where it lies within the bound, else the rounded reference. -/
def bounded (cand : Nat) (ref : FV) (rel abs : Option Nat) : Nat :=
  if within (fp32 (cand % 2 ^ 32)) ref rel abs then cand % 2 ^ 32 else f32of ref

/-! ## TVFN (03 R151) -/

def fxIn (v : FV) : Int := v.scaled (-(fxP : Int))

/-- EXP2 and EXP of a finite value; the clamps lie far beyond overflow and underflow. -/
def expRef (two : Bool) (v : FV) : FV :=
  let x := fxIn v
  let lim := 290 * fxOne
  if lim < x then .num false 1 300
  else if x < -lim then .num false 1 (-400)
  else if two then .num false (fxExp2 (x + 300 * fxOne)).natAbs (-(fxP : Int) - 300)
  else .num false (fxExp (x + 300 * fxLn2)).natAbs (-(fxP : Int) - 300)

/-- (1 − 2^−22)^2 x ≤ y ≤ (1 + 2^−22)^2 x. -/
def withinSq (y x : FV) : Bool :=
  let up : FV := .num false ((2 ^ 22 + 1) ^ 2) (-44)
  let dn : FV := .num false ((2 ^ 22 - 1) ^ 2) (-44)
  !((FV.mul x up).1.lt y) && !(y.lt (FV.mul x dn).1)

def nanOf (v : FV) : Nat := f32of (.nan v.neg? false)

/-- TVFN functions on an FP32 pattern; special inputs give the IEEE 754-2019 results. -/
def tvfn (fn x : Nat) : Nat :=
  let v := fp32 x
  let c := Config.tvfn fn x
  if v.isNan then nanOf v
  else match fn with
  | 0 | 1 =>
    if v.isInf then (if v.neg? then 0 else 0x7F800000)
    else if v.isZero then f32one
    else bounded c (expRef (fn = 0) v) (some 21) none
  | 2 =>
    if v.isZero then 0xFF800000
    else if v.neg? then nanOf v
    else if v.isInf then 0x7F800000
    else match v with
      | .num _ m e => bounded c (fxVal (fxLog2 m e)) none (some 21)
      | _ => 0
  | 3 =>
    if v.isInf then (if v.neg? then 0x80000000 else 0)
    else if v.isZero then (if v.neg? then 0xFF800000 else 0x7F800000)
    else
      let r := fp32 (c % 2 ^ 32)
      if !r.isInf && within (FV.mul r v).1 (.num false 1 0) (some 22) none then c % 2 ^ 32 else f32div f32one x
  | 4 =>
    if v.isZero then (if v.neg? then 0xFF800000 else 0x7F800000)
    else if v.neg? then nanOf v
    else if v.isInf then 0
    else
      let r := fp32 (c % 2 ^ 32)
      if !r.isNan && !r.isInf && !r.neg? && withinSq (FV.mul (FV.mul r r).1 v).1 (.num false 1 0) then c % 2 ^ 32
      else f32div f32one (f32sqrt x)
  | _ =>
    if v.isZero then x
    else if v.neg? then nanOf v
    else if v.isInf then x
    else
      let r := fp32 (c % 2 ^ 32)
      if !r.isNan && !r.isInf && !r.neg? && withinSq (FV.mul r r).1 v then c % 2 ^ 32 else f32sqrt x

/-! ## Drain functions (04 R159) -/

/-- 0.7978845608 and 0.044715. -/
def geluC : Int := 7978845608 * fxOne / 10000000000
def geluK : Int := 44715 * fxOne / 1000000

def cube (y : Int) : Int := fxMul (fxMul y y) y

def geluTanh (y : Int) : Int := fxMul y (fxOne + fxTanh (fxMul geluC (y + fxMul geluK (cube y)))) / 2

def geluTanhD (y : Int) : Int :=
  let t := fxTanh (fxMul geluC (y + fxMul geluK (cube y)))
  (fxOne + t) / 2 + fxMul (fxMul y (fxOne - fxMul t t)) (fxMul geluC (fxOne + 3 * fxMul geluK (fxMul y y))) / 2

def geluErf (y : Int) : Int := fxMul y (fxOne + fxErf (fxDiv y (fxSqrt (2 * fxOne)))) / 2

def geluErfD (y : Int) : Int :=
  (fxOne + fxErf (fxDiv y (fxSqrt (2 * fxOne)))) / 2 + fxDiv (fxMul y (fxExp (-(fxMul y y) / 2))) (fxSqrt (2 * fxPi))

def silu (y : Int) : Int := fxMul y (fxSigmoid y)
def siluD (y : Int) : Int := let q := fxSigmoid y; fxMul q (fxOne + fxMul y (fxOne - q))

/-- ln(1 + e^y). -/
def softplus (y : Int) : Int :=
  let v := fxOne + fxExp y
  fxMul (fxLog2 v.natAbs (-(fxP : Int))) fxLn2

/-- Reference of a function with bounds: forward (04 R159), between −40 and 40. -/
def fwdRef (fn : Nat) (y : Int) : Int :=
  match fn with
  | 2 | 9 => geluTanh y
  | 3 => geluErf y
  | 4 | 8 => silu y
  | 5 => fxSigmoid y
  | 6 => fxTanh y
  | _ => softplus y

def derRef (fn : Nat) (y : Int) : Int :=
  match fn with
  | 2 | 9 => geluTanhD y
  | 3 => geluErfD y
  | 4 | 8 => siluD y
  | 5 => let q := fxSigmoid y; fxMul q (fxOne - q)
  | 6 => let t := fxTanh y; fxOne - fxMul t t
  | _ => fxSigmoid y

/-- The values far from zero: forward y or its limit, derivative 1 or 0. -/
def fwdFar (fn : Nat) (v : FV) : FV :=
  match fn with
  | 5 => if v.neg? then .num false 0 0 else .num false 1 0
  | 6 => .num v.neg? 1 0
  | _ => if v.neg? then .num true 0 0 else v

def derFar (fn : Nat) (v : FV) : FV :=
  match fn with
  | 5 => .num false 0 0
  | 6 => .num false 0 0
  | _ => if v.neg? then .num false 0 0 else .num false 1 0

def isFar (v : FV) : Bool := v.isInf || (FV.num false 40 0).lt v.abs

/-- f(y) in FP32 for codes 0–9; the gated functions give their activation. At −Inf, where the formula of GELU or SILU is no number, the
value is free. -/
def actFwd (fn y : Nat) : Nat :=
  let v := fp32 y
  let c := Config.drainFn fn 0 y
  if v.isNan then nanOf v
  else match fn with
  | 0 => y
  | 1 => if v.neg? || v.isZero then 0 else y
  | 5 => bounded c (if isFar v then fwdFar 5 v else fxVal (fwdRef 5 (fxIn v))) none (some 22)
  | 6 => bounded c (if isFar v then fwdFar 6 v else fxVal (fwdRef 6 (fxIn v))) none (some 22)
  | 7 =>
    if !v.isInf && (FV.num false 20 0).lt v then y
    else if v.isInf then (if v.neg? then bounded c (.num false 0 0) none (some 24) else y)
    else bounded c (if isFar v then fwdFar 7 v else fxVal (fwdRef 7 (fxIn v))) (some 21) (some 24)
  | _ =>
    if v.isInf then (if v.neg? then c % 2 ^ 32 else y)
    else bounded c (if isFar v then fwdFar fn v else fxVal (fwdRef fn (fxIn v))) (some 20) (some 24)

/-- f′(z) in FP32 for codes 0–9. -/
def actDer (fn z : Nat) : Nat :=
  let v := fp32 z
  let c := Config.drainFn fn 1 z
  if v.isNan then nanOf v
  else match fn with
  | 0 => f32one
  | 1 => if v.neg? || v.isZero then 0 else f32one
  | _ =>
    let abs := if fn = 5 || fn = 7 then 22 else if fn = 6 then 21 else 19
    if v.isInf && (fn = 2 || fn = 3 || fn = 4 || fn = 8 || fn = 9) then c % 2 ^ 32
    else bounded c (if isFar v then derFar fn v else fxVal (derRef fn (fxIn v))) none (some abs)

end Sys2Proof.Machine
end

