-- ==== Sys2Proof/Machine/Vector.lean ====
section
/-!
DEFINITION. Machine/Vector.lean: the vector-on-tile instructions (03 R148–R151).
-/

namespace Sys2Proof.Machine

/-! ## Fields (03 R148) -/

def vTd (w : Word) : Nat := field w 55 51
def vTa (w : Word) : Nat := field w 50 46
def vTb (w : Word) : Nat := field w 45 41
def vRows (w : Word) : Nat := field w 40 36 + 1
def vGrans (w : Word) : Nat := field w 35 33 + 1
def vFmt (w : Word) : Nat := field w 32 29
def vMR (w : Word) : Nat := field w 28 26
def vSV (w : Word) : Nat := field w 25 24
def vFN (w : Word) : Nat := field w 23 20
def vRnd (w : Word) : Nat := field w 19 18
def vZpad (w : Word) : Bool := bitOf w 17
def vBC (w : Word) : Bool := bitOf w 16
def vOp (w : Word) : Nat := field w 63 56

/-- Elements of a row (03 R150). -/
def vElems (w : Word) : Nat := vGrans w * 64 / fmtBits (vFmt w)

/-- Window-relative sources and destination of an opcode. -/
def vSources (w : Word) : List Nat :=
  match vOp w with
  | 0x63 => [vTa w, vTb w, vTd w]
  | 0x66 => [vTa w]
  | 0x67 => [vTa w]
  | 0x68 => [vTa w]
  | 0x69 => [vTa w]
  | 0x6A => []
  | _ => [vTa w, vTb w]

def vIsRed (w : Word) : Bool := vOp w == 0x68
def vDests (w : Word) : List Nat := if vIsRed w then [] else [vTd w]
def vReadsSV (w : Word) : Bool := vOp w == 0x66 || vOp w == 0x6A

def vUses (w : Word) : Uses :=
  { mIn := [vMR w]
    sIn := if vReadsSV w then [vSV w] else []
    sOut := if vIsRed w then [vSV w] else [] }

/-! ## Checks at issue (03 R150) -/

def maskRows (mr : BitVec 32) (rows : Nat) : List Nat := (List.range rows).filter (fun i => mr.getLsbD i)

def srcChecks (r : TileReg) (reg : Nat) (w : Word) (rows : List Nat) : List Cand :=
  if r.fmt = fmtNone then when? true 0x07 0x05 w
  else
    when? (!vZpad w && (r.nrows + 1 < vRows w || r.gran + 1 < fmtGrans r.fmt (vElems w))) 0x07 0x08 w ++
      rowChecks r reg 0x07 rows
where
  rowChecks (r : TileReg) (reg sub : Nat) (rows : List Nat) : List Cand :=
    match rows.find? (fun i => r.prow.getLsbD i) with
    | some i => [cand 0x06 sub (word (reg + i * 256))]
    | none => []

def vecChecks (s : State) (c t : Nat) (w : Word) : List Cand :=
  let th := getThread s c t
  let mr := (th.regs.mGet (vMR w)).v
  let rows := maskRows mr (vRows w)
  let d := getTile s c (phys th (vTd w))
  (vSources w).flatMap (fun i => srcChecks (getTile s c (phys th i)) (phys th i) w rows) ++
    when? (!vIsRed w && rows.length < vRows w && (d.fmt != vFmt w || d.nrows + 1 < vRows w || d.gran + 1 < vGrans w)) 0x07 0x0B w ++
    when? (vReadsSV w && vBC w && 32 < vElems w) 0x07 0x0B w

def vecBody (c t : Nat) (w : Word) (s : State) : Res :=
  let th := getThread s c t
  let wx := winChecks th w (vSources w ++ vDests w)
  let pois := (vUses w).poison th
  if !wx.isEmpty then .raise (wx ++ pois)
  else if tileWait s c ((vSources w).map (phys th)) ((vDests w).map (phys th)) then .wait
  else match pois ++ vecChecks s c t w with
  | [] =>
    let (id, s) := nextTileId s c
    let op : VecOp :=
      { id := id, thread := t, word := w, td := phys th (vTd w), ta := phys th (vTa w), tb := phys th (vTb w),
        mr := (th.regs.mGet (vMR w)).v, lanes := (th.regs.sGet (vSV w)).v }
    let s := updTileUnit s c (fun u => { u with vecs := u.vecs ++ [op] })
    let s := if vIsRed w then
        updCore s c (fun k => { k with ctl := { k.ctl with sBusy := (t, vSV w) :: k.ctl.sBusy } }) else s
    .done (advance s c t)
  | xs => .raise xs

def vecForm (c t : Nat) (w : Word) : Form := { uses := vUses w, body := vecBody c t w }

def execTvadd (c t : Nat) (w : Word) (s : State) : Out := issue .tvadd (vecForm c t w) c t w s
def execTvsub (c t : Nat) (w : Word) (s : State) : Out := issue .tvsub (vecForm c t w) c t w s
def execTvmul (c t : Nat) (w : Word) (s : State) : Out := issue .tvmul (vecForm c t w) c t w s
def execTvfma (c t : Nat) (w : Word) (s : State) : Out := issue .tvfma (vecForm c t w) c t w s
def execTvmin (c t : Nat) (w : Word) (s : State) : Out := issue .tvmin (vecForm c t w) c t w s
def execTvmax (c t : Nat) (w : Word) (s : State) : Out := issue .tvmax (vecForm c t w) c t w s
def execTvscl (c t : Nat) (w : Word) (s : State) : Out := issue .tvscl (vecForm c t w) c t w s
def execTvcvt (c t : Nat) (w : Word) (s : State) : Out := issue .tvcvt (vecForm c t w) c t w s
def execTvredSum (c t : Nat) (w : Word) (s : State) : Out := issue .redSum (vecForm c t w) c t w s
def execTvredMax (c t : Nat) (w : Word) (s : State) : Out := issue .redMax (vecForm c t w) c t w s
def execTvredMin (c t : Nat) (w : Word) (s : State) : Out := issue .redMin (vecForm c t w) c t w s
def execTvredAbsmax (c t : Nat) (w : Word) (s : State) : Out := issue .redAbsmax (vecForm c t w) c t w s
def execTvredSumsq (c t : Nat) (w : Word) (s : State) : Out := issue .redSumsq (vecForm c t w) c t w s
def execTvfnExp2 (c t : Nat) (w : Word) (s : State) : Out := issue .fnExp2 (vecForm c t w) c t w s
def execTvfnExp (c t : Nat) (w : Word) (s : State) : Out := issue .fnExp (vecForm c t w) c t w s
def execTvfnLog2 (c t : Nat) (w : Word) (s : State) : Out := issue .fnLog2 (vecForm c t w) c t w s
def execTvfnRcp (c t : Nat) (w : Word) (s : State) : Out := issue .fnRcp (vecForm c t w) c t w s
def execTvfnRsqrt (c t : Nat) (w : Word) (s : State) : Out := issue .fnRsqrt (vecForm c t w) c t w s
def execTvfnSqrt (c t : Nat) (w : Word) (s : State) : Out := issue .fnSqrt (vecForm c t w) c t w s
def execTvbcast (c t : Nat) (w : Word) (s : State) : Out := issue .tvbcast (vecForm c t w) c t w s

/-! ## The operation (03 R149, R151) -/

/-- An element of a source in FP32, +0 beyond its tag. -/
def vSrc (r : TileReg) (i j : Nat) : Nat :=
  match r.elem? i j with
  | none => 0
  | some raw => if r.fmt = 8 then raw else f32exact (decodeElem r.fmt raw)

/-- The FP32 result for element j of row i. -/
def vResult (v : VecOp) (a b d : TileReg) (i j : Nat) : Nat :=
  let lane := laneGet v.lanes (if vBC v.word then j else i)
  match vOp v.word with
  | 0x60 => f32add (vSrc a i j) (vSrc b i j)
  | 0x61 => f32sub (vSrc a i j) (vSrc b i j)
  | 0x62 => f32mul (vSrc a i j) (vSrc b i j)
  | 0x63 => f32fma (vSrc a i j) (vSrc b i j) (vSrc d i j)
  | 0x64 => f32min (vSrc a i j) (vSrc b i j)
  | 0x65 => f32max (vSrc a i j) (vSrc b i j)
  | 0x66 => f32mul (vSrc a i j) lane
  | 0x67 => vSrc a i j
  | 0x69 => tvfn (vFN v.word) (vSrc a i j)
  | _ => lane

/-- A rounding mode code; stochastic rounding takes 16 bits of the core's generator, the n-th of the model's draws (04 R156, R158). -/
def rndOf (code : Nat) (rng : BitVec 256) (n : Nat) : Rnd :=
  match code with
  | 0 => .rtz
  | 1 => .rne
  | _ => .sr (Config.rngBits rng n % 65536)

/-- The element written: raw bits, NaN, Inf, INT8 saturation. -/
def vConvert (fmt : Nat) (mode : Rnd) (x : Nat) : Nat × Bool × Bool × Bool :=
  if fmt = 8 then (x, f32isNan x, f32isInf x, false)
  else
    let r := convertElem fmt mode (fp32 x)
    let d := decodeElem fmt r.1
    (r.1, d.isNan, d.isInf, r.2)

/-- Adds to the vector unit's sticky flags. -/
def vFlags (s : State) (c : Nat) (nan inf iov : Bool) : State :=
  updTileUnit s c (fun u => { u with vnan := u.vnan || nan, vinf := u.vinf || inf, viov := u.viov || iov })

/-- One row of a destination, and the flags its elements raise. Draw n serves element 0. -/
def vRow (rng : BitVec 256) (v : VecOp) (a b d : TileReg) (i n : Nat) : Nat × Bool × Bool × Bool :=
  let fmt := vFmt v.word
  let es := (List.range (vElems v.word)).map (fun j => vConvert fmt (rndOf (vRnd v.word) rng (n + j)) (vResult v a b d i j))
  (packElems fmt (es.map (·.1)), es.any (·.2.1), es.any (·.2.2.1), es.any (·.2.2.2))

/-- A reduction of a row, left to right (03 R151). DESIGN CHOICE, notes/assumptions/78.md: MAX, MIN and ABSMAX take a NaN element as
maximumNumber and minimumNumber do. -/
def vReduce (fn : Nat) (xs : List Nat) : Nat :=
  let sq := if fn = 4 then xs.map (fun x => f32mul x x) else if fn = 3 then xs.map f32abs else xs
  match sq with
  | [] => 0
  | x :: rest => rest.foldl (fun a y => match fn with
    | 0 => f32add a y
    | 1 => f32max a y
    | 2 => f32min a y
    | 3 => f32max a y
    | _ => f32add a y) x

/-- The oldest vector-on-tile operation writes its last element and retires. A register none of whose rows is written keeps its
tag. DESIGN CHOICE, notes/assumptions/78.md: a TVRED whose mask selects no row still counts as a write of s[SV], which clears its poison. -/
def vecComplete (s : State) (c : Nat) : State :=
  match (getCore s c).tile.vecs with
  | [] => s
  | v :: rest =>
    let s := updTileUnit s c (fun u => { u with vecs := rest })
    let w := v.word
    let rows := maskRows v.mr (vRows w)
    let a := getTile s c v.ta
    if vIsRed w then
      let th := getThread s c v.thread
      let res := rows.map (fun i => (i, vReduce (vFN w) ((List.range (vElems w)).map (vSrc a i))))
      let lanes := res.foldl (fun l x => laneSet l x.1 x.2) (th.regs.sGet (vSV w)).v
      let s := updCore s c (fun k =>
        { k with ctl := { k.ctl with sBusy := k.ctl.sBusy.erase (v.thread, vSV w) } })
      let s := updCore s c (fun k => k.writeS v.thread (vSV w) ⟨lanes, false⟩)
      vFlags s c (res.any (fun x => f32isNan x.2)) (res.any (fun x => f32isInf x.2)) false
    else if rows.isEmpty then s
    else
      let b := getTile s c v.tb
      let d := getTile s c v.td
      let e := vElems w
      let out := (List.range (vRows w)).map (fun i =>
        if v.mr.getLsbD i then some (vRow (rngState s c) v a b d i (s.draws + e * i)) else none)
      let d' := d.write (vFmt w) (vRows w) (vGrans w) (out.map (fun o => o.map (fun x => (x.1, false))))
      let hit (f : Nat × Bool × Bool × Bool → Bool) : Bool := out.any (fun o => match o with
        | some x => f x
        | none => false)
      let s := setTile s c v.td d'
      let s := vFlags s c (hit (·.2.1)) (hit (·.2.2.1)) (hit (·.2.2.2))
      if vRnd w = 2 then { s with draws := s.draws + e * vRows w } else s

def execVectorOpComplete (core : Nat) (s : State) : Out := .next (vecComplete s core)

end Sys2Proof.Machine
end

