-- ==== Sys2Proof/Machine/Drain.lean ====
section
/-!
DEFINITION. Machine/Drain.lean: TDRAIN and the drain's passes (04 R159–R174). The second pass into a Drill ring is in Machine/DrillRun.lean.
-/

namespace Sys2Proof.Machine

/-! ## The descriptor (04 R162) -/

def ddSlot (j : Word) : Nat := field j 63 52
def ddStaten (j : Word) : Bool := bitOf j 51
def ddStw (j : Word) : Bool := bitOf j 50
def ddOsc (j : Word) : Nat := field j 49 48
def ddOsv (j : Word) : Nat := field j 47 46
def ddRse (j : Word) : Bool := bitOf j 45
def ddRsv (j : Word) : Nat := field j 44 43
def ddBias (j : Word) : Bool := bitOf j 42
def ddCsc (j : Word) : Bool := bitOf j 41
def ddZmode (j : Word) : Nat := field j 40 39
def ddZsv (j : Word) : Nat := field j 38 37
def ddRows (j : Word) : Nat := field j 36 32 + 1
def ddCols (j : Word) : Nat := field j 31 27 + 1
def ddG0 (j : Word) : Nat := field j 26 24
def ddPbase (j : Word) : Nat := field j 19 0

/-- The format code of a governor slot's FMT (04 R178). -/
def govFmt (code : Nat) : Nat := if code = 0 then 2 else if code = 1 then 3 else 0

/-- The output format: the word's, or the core's format table's under GOV (04 R177). -/
def drainFmt (s : State) (w d0 : Word) : Nat :=
  if bitOf w 34 then govFmt (spGet 1 s.gov.table (ddSlot d0)) else field w 33 30

/-- Whether OSC = MX works as MX: not for BF16, FP16 and FP32 outputs (04 R167). -/
def drainMX (d0 : Word) (fmt : Nat) : Bool := ddOsc d0 == 3 && fmtMX fmt

/-- Granules of an output row. -/
def drainGrans (d0 : Word) (fmt : Nat) : Nat := fmtGrans fmt (ddCols d0)

/-- The four vectors of the parameter block that a TDRAIN reads: BIAS, CSC, BIAS2, CSC2 (04 R162). -/
def paramVecs (w d0 : Word) : List Bool :=
  let up := tdGated w && !tdBwd w
  [ddBias d0, ddCsc d0, up && ddBias d0, up && ddCsc d0]

/-- End of the parameter vectors read, from PBASE; 0 where none is. -/
def paramEnd (w d0 : Word) : Nat :=
  ((paramVecs w d0).zipIdx.filter (·.1)).foldl (fun _ x => 128 * x.2 + 128) 0

/-! ## User tables (04 R160) -/

def tableWord (k : Core) (slot i : Nat) : Nat := (spGet 0 k.drain.tables (slot * 1024 + i)).toNat

def tableValid (k : Core) (slot : Nat) : Bool := (tableWord k slot 6).testBit 0

/-- The user slot a function code names. -/
def userSlot (fn : Nat) : Option Nat := if 12 ≤ fn then some (fn - 12) else none

/-- floor of a non-negative FP32 value, at most 63; 63 where it is no number. -/
def segIndex (x : Nat) : Nat :=
  match fp32 x with
  | .num false m e => min 63 (splitUnits m e 0).1
  | .num true _ _ => 0
  | _ => 63

/-- A user function, or its derivative (04 R160). -/
def userFn (k : Core) (slot : Nat) (der : Bool) (y : Nat) : Nat :=
  let g := tableWord k slot
  if f32isNan y then f32of (fp32 y)
  else if f32lt y (g 0) then (if der then g 3 else f32add (g 2) (f32mul (g 3) (f32sub y (g 0))))
  else if !f32lt y (g 1) then (if der then g 5 else f32add (g 4) (f32mul (g 5) (f32sub y (g 1))))
  else
    let sx := f32div (f32mul (f32sub y (g 0)) 0x42800000) (f32sub (g 1) (g 0))
    let i := segIndex sx
    let t := f32sub sx (f32ofInt i)
    let b := 8 + 8 * i + (if der then 4 else 0)
    f32add (f32mul (f32add (f32mul (f32add (f32mul (g (b + 3)) t) (g (b + 2))) t) (g (b + 1))) t) (g b)

def fnFwd (k : Core) (fn y : Nat) : Nat :=
  match userSlot fn with
  | some u => userFn k u false y
  | none => actFwd fn y

def fnDer (k : Core) (fn z : Nat) : Nat :=
  match userSlot fn with
  | some u => userFn k u true z
  | none => actDer fn z

/-! ## TDRAIN at issue (04 R163) -/

/-- The tag that the Z tile must have. -/
def zTagBad (r : TileReg) (d0 : Word) : Bool :=
  let rowsBad := r.nrows + 1 < ddRows d0
  let need (f : Nat) := r.fmt != f || rowsBad || r.gran + 1 < fmtGrans f (ddCols d0)
  match ddZmode d0 with
  | 0 => need 2
  | 1 => need 3
  | 2 => need 0
  | _ => r.fmt != 7 || rowsBad

/-- td's tag does not allow an output that starts at G0 > 0. -/
def g0Bad (r : TileReg) (d0 : Word) (fmt : Nat) : Bool :=
  ddG0 d0 != 0 && (r.fmt != fmt || r.nrows + 1 < ddRows d0 || r.gran + 1 < ddG0 d0)

def tdIdx (w : Word) : List Nat :=
  (if tdDst w = 0 then (if tdGated w && tdBwd w then [field w 55 51, field w 55 51 + 1] else [field w 55 51]) else []) ++
  (if tdBwd w then (if tdGated w then [field w 45 41, field w 45 41 + 1] else [field w 45 41]) else [])

/-- Scale vectors read. -/
def tdVecs (w d0 : Word) : List Nat :=
  (if ddRse d0 then [ddRsv d0] else []) ++ (if tdBwd w && ddZmode d0 ≤ 1 then [ddZsv d0] else [])

/-- The 0x07 checks that depend on the word and its registers alone; dest is none where it is not read or is poisoned. -/
def wordChecks (k : Core) (w : Word) (dest : Option Word) : List Cand :=
  when? (tdDst w == 2 && (dest.any (fun d => field d 63 4 != 0))) 0x07 0x0D w ++
    when? ((!bitOf w 34 && field w 33 30 == 9) || (tdGated w && tdBwd w && tdDst w != 0)) 0x07 0x0C w ++
    when? (match userSlot (tdFn w) with
      | some u => !tableValid k u
      | none => false) 0x07 0x0F w

/-- Those of gC+1 where it is poisoned: as an address for MEM, as a plain operand for DRILL (02 R61). -/
def destPoison (th : Thread) (w : Word) : List Cand :=
  let n := field w 50 46 + 1
  if tdDst w = 1 then addrPoison th [n] else when? (tdDst w == 2 && (th.regs.gGet n).p) 0x06 0x01 (word n)

/-- The checks of the descriptor's contents, with the address checks of what it names. -/
def drainChecks (s : State) (c t : Nat) (w d0 d1 d2 : Word) (dest : Option Word) (bad : Bool) : List Cand :=
  let k := getCore s c
  let th := k.thread t
  let fmt := drainFmt s w d0
  let gb := tdGated w && tdBwd w
  let td := phys th (field w 55 51)
  let tz := phys th (field w 45 41)
  let res := bad || field d0 23 20 != 0 || field d1 63 52 != 0 || field d1 31 20 != 0 || field d2 63 8 != 0
  let x0D := res || (ddZmode d0 == 3 && tdBwd w && tdFn w != 1) || ddPbase d0 % 128 != 0 || field d1 19 0 % 64 != 0 ||
    field d1 51 32 % 8 != 0
  let x0C := fmt == 9 ||
    (tdDst w == 0 && (8 < ddG0 d0 + drainGrans d0 fmt || g0Bad (getTile s c td) d0 fmt || (gb && g0Bad (getTile s c (td + 1)) d0 fmt)))
    || (ddOsc d0 == 3 && (tdDst w != 0 || ddG0 d0 * 64 % (32 * fmtBits fmt) != 0))
  let x0E := tdBwd w && (zTagBad (getTile s c tz) d0 || (tdGated w && zTagBad (getTile s c (tz + 1)) d0))
  let pa := word (ddPbase d0)
  let sa := word (field d1 19 0)
  let memSpan := (ddRows d0 - 1) * field d1 51 32 + fmtBytes fmt (ddCols d0)
  wordChecks k w dest ++ when? x0D 0x07 0x0D w ++ when? x0C 0x07 0x0C w ++ when? x0E 0x07 0x0E w ++ destPoison th w ++
    (if x0D then [] else
      (if paramEnd w d0 = 0 then [] else areaChecks s c t false pa (paramEnd w d0) false) ++
      (if ddStw d0 then areaChecks s c t false sa 192 false else []) ++
      (match tdDst w, dest with
        | 1, some d => areaChecks s c t true d memSpan false
        | _, _ => [])) ++
    ((tdVecs w d0).filter (fun v => (th.regs.sGet v).p)).map (fun v => cand 0x06 0x02 (word v))

/-- The registers of the pair that are read. -/
def tdPair (w : Word) : List Nat := if tdDst w = 1 || tdDst w = 2 then [field w 50 46, field w 50 46 + 1] else [field w 50 46]

/-! ## Writes of the user tables (04 R160) -/

/-- Whether a held TDRAIN names the slot. -/
def slotHeld (k : Core) (slot : Nat) : Bool := k.drain.jobs.any (fun j => userSlot (tdFn j.word) == some slot)

/-- The bits of a table word that are written; the others are reserved. -/
def tableMask (i : Nat) (v : BitVec 32) : BitVec 32 :=
  let w := i % 0x400
  if w = 6 then v &&& 1 else if w = 7 || 0x208 ≤ w then 0 else v

/-- Writes a table word or two: off is the offset from 0x0002_0000. -/
def tableWrite (s : State) (c off : Nat) (bs : List Byte) : State :=
  updCore s c (fun k => { k with drain := { k.drain with
    tables := (List.range (bs.length / 4)).foldl (fun t i =>
      spSet 0 t (off / 4 + i) (tableMask (off / 4 + i) (BitVec.ofNat 32 (bytesAt bs (4 * i) 4)))) k.drain.tables } })

/-- A write of the control cluster: it waits while a held TDRAIN names the slot. -/
def clusterTableWrite (s : State) (c off : Nat) (v : Word) : State :=
  if slotHeld (getCore s c) (off / 0x1000) then
    updCore s c (fun k => { k with drain := { k.drain with held := k.drain.held ++ [(off, v)] } })
  else tableWrite s c off (toBytes 8 v.toNat)

/-- The writes of the control cluster that waited are made once their slot is free. -/
def tablesGo (s : State) (c : Nat) : State :=
  let go := (getCore s c).drain.held.filter (fun h => !slotHeld (getCore s c) (h.1 / 0x1000))
  go.foldl (fun s h => tableWrite s c h.1 (toBytes 8 h.2.toNat))
    (updCore s c (fun k => { k with drain := { k.drain with held := k.drain.held.filter (fun h => slotHeld k (h.1 / 0x1000)) } }))

/-- A TDRAIN leaves the drain. -/
def dropJob (s : State) (c id : Nat) : State :=
  tablesGo (updCore s c (fun k => { k with drain := { k.drain with jobs := k.drain.jobs.filter (fun x => x.id != id) } })) c

/-- A store to the tables of a slot, of any core or of the control cluster, waits to be written (04 R160). -/
def tableStoreWaits (s : State) (c slot : Nat) : Bool :=
  s.cores.any (fun p => p.2.reqs.any (fun q => q.stage == .tableHeld && q.target == c && q.off / 0x1000 == slot)) ||
    (getCore s c).drain.held.any (fun h => h.1 / 0x1000 == slot)

/-- The drain cannot accept the TDRAIN (03 R138, 04 R160, R170). -/
def drainBusy (s : State) (c : Nat) (w : Word) : Bool :=
  let k := getCore s c
  2 ≤ (k.drain.jobs.filter (fun j => j.phase != .written)).length || (tdBanks w).any (fun b => bankHeld k b || bankBusy k b) ||
    (match userSlot (tdFn w) with
      | some u => tableStoreWaits s c u
      | none => false)

def tdrainBody (c t : Nat) (w : Word) (s : State) : Res :=
  let k := getCore s c
  let th := k.thread t
  let gc := field w 50 46
  let d := gVal th gc
  let dest := if (tdDst w = 1 || tdDst w = 2) && !(th.regs.gGet (gc + 1)).p then some (gVal th (gc + 1)) else none
  let wx := winChecks th w (tdIdx w)
  let ax := if (th.regs.gGet gc).p then addrPoison th [gc] else areaChecks s c t false d 64 (d.toNat % 64 != 0)
  let mx := when? (tdDst w == 1 && dest.any (fun a => 1 < addrTag a)) 0x05 0x01 (dest.getD 0)
  if !(wx ++ ax).isEmpty then .raise (wx ++ wordChecks k w dest ++ ax ++ destPoison th w ++ mx)
  else if drainBusy s c w || mustFollow s c t false false (addrOff d) 64 then .wait
  else
    let g := coreRead s false c (addrOff d) 64
    let ws := wordsOf 8 g.data
    let d0 := word (ws.getD 0 0)
    let d1 := word (ws.getD 1 0)
    let d2 := word (ws.getD 2 0)
    let bad := g.poison || (ws.drop 3).any (· != 0)
    let scaled := ddOsc d0 == 1 || ddOsc d0 == 2
    let tiles := (tdIdx w).map (phys th)
    if tileWait s c tiles (if tdDst w = 0 then tiles.take (if tdGated w && tdBwd w then 2 else 1) else []) ||
        (tdVecs w d0 ++ (if scaled then [ddOsv d0] else [])).any (k.sBusy t) then .wait
    else match firstCand (drainChecks g.st c t w d0 d1 d2 dest bad) with
    | some x => .done (takeExc g.st c t x)
    | none =>
      let job (id : Nat) : DrainJob :=
        { id := id, seq := k.tile.nextId, thread := t, word := w, d0 := d0, d1 := d1, d2 := d2, dest := dest.getD 0,
          td := phys th (field w 55 51), tz := phys th (field w 45 41), fmt := drainFmt s w d0,
          rs := (th.regs.sGet (ddRsv d0)).v, zs := (th.regs.sGet (ddZsv d0)).v, job := !th.st.pm, phase := .issued,
          vals := [], vals2 := [], rmax := [], counts := [], prow := 0, ppois := false, qexp := [], rowsOut := 0 }
      let s := updCore g.st c (fun k => { k with
        tile := { k.tile with nextId := k.tile.nextId + 1 }
        drain := { k.drain with jobs := k.drain.jobs ++ [job k.drain.nextId], nextId := k.drain.nextId + 1 }
        ctl := if scaled then { k.ctl with sBusy := (t, ddOsv d0) :: k.ctl.sBusy } else k.ctl })
      .done (advance s c t)

/-- CONTROL as the descriptor's or MEM address in job mode (02 R65). -/
def tdrainPriv (c t : Nat) (w : Word) (s : State) : Option Nat :=
  match controlJob s c t (field w 50 46) with
  | some n => some n
  | none => if tdDst w = 1 then controlJob s c t (field w 50 46 + 1) else none

def execTdrain (c t : Nat) (w : Word) (s : State) : Out :=
  issue .tdrain { uses := { gIn := tdPair w }, priv := tdrainPriv c t w s, body := tdrainBody c t w } c t w s

/-! ## What the drain computes (04 R164–R168) -/

/-- A lane of the parameter block's vector at an offset. -/
def paramLane (p : List Byte) (off n : Nat) : Nat := bytesAt p (off + 4 * n) 4

/-- lin() of 04 R164. -/
def drainLin (bank : AccBank) (p : List Byte) (j : DrainJob) (bOff cOff m n : Nat) : Nat :=
  let cell := (spGet 0 bank.cells (32 * m + n)).toNat
  let a := match bank.mode with
    | .fp => cell
    | .int => f32ofInt (signedN 32 cell)
    | .empty => 0
  let a := if ddBias j.d0 then f32add a (paramLane p bOff n) else a
  let a := f32mul a (if ddRse j.d0 then laneGet j.rs m else f32one)
  if ddCsc j.d0 then f32mul a (paramLane p cOff n) else a

/-- zval() of 04 R164. -/
def drainZ (r : TileReg) (j : DrainJob) (m n : Nat) : Nat :=
  match ddZmode j.d0 with
  | 3 => if (r.row m).getLsbD n then f32one else 0xBF800000
  | 2 => f32exact (fmtBF16.decode (elemAt 0 (r.row m).toNat n))
  | f => f32mul (f32exact (decodeElem (2 + f) (elemAt (2 + f) (r.row m).toNat n))) (laneGet j.zs m)

/-- The value, or the two values, of an element. -/
def drainValue (s : State) (c : Nat) (j : DrainJob) (p : List Byte) (m n : Nat) : Nat × Nat :=
  let k := getCore s c
  let w := j.word
  let fn := tdFn w
  let y := drainLin (getBank k (tdAcc w)) p j 0x000 0x080 m n
  if !tdBwd w then
    if tdGated w then (f32mul (fnFwd k fn y) (drainLin (getBank k (1 - tdAcc w)) p j 0x100 0x180 m n), 0)
    else (fnFwd k fn y, 0)
  else
    let z := drainZ (getTile s c j.tz) j m n
    if tdGated w then
      let u := drainZ (getTile s c (j.tz + 1)) j m n
      (f32mul (f32mul y u) (fnDer k fn z), f32mul y (fnFwd k fn z))
    else (f32mul y (fnDer k fn z), 0)

/-- The largest |v| of the finite elements of a row, +0 where there is none (04 R165). -/
def rowMax (vs : List Nat) : Nat :=
  (vs.filter f32finite).foldl (fun a v => if f32lt a (f32abs v) then f32abs v else a) 0

/-- The counts HIST 0–15, ZERO, NAN, INF of a row (04 R173). -/
def rowCounts (mr : Nat) (vs : List Nat) : List Nat :=
  let fin := vs.filter (fun v => f32finite v && !f32isZero v)
  let bin (v : Nat) : Nat := min 15 (f32expo mr - f32expo v).toNat
  (List.range 16).map (fun b => (fin.filter (fun v => bin v == b)).length) ++
    [(vs.filter f32isZero).length, (vs.filter f32isNan).length, (vs.filter f32isInf).length]

def addCounts (a b : List Nat) : List Nat := if a.isEmpty then b else List.zipWith (· + ·) a b

/-- ceil(log2(M / FMAX)) clamped; 0 where M is 0 or the output format has no scale (04 R166). -/
def qExp (fmt m : Nat) : Int :=
  match fp32 m, fmtFmax fmt with
  | .num _ mm e, .num _ fm fe =>
    if mm = 0 || fm = 0 then 0
    else
      let k0 := floorLog2 mm e - floorLog2 fm fe
      let k := if ((FV.num false fm fe).scale k0).lt (.num false mm e) then k0 + 1 else k0
      max (-126) (min 127 k)
  | _, _ => 0

/-- The scale vector OSC = ROW or TOKEN writes: q_r, and 1.0 beyond ROWS (04 R166). -/
def qLanes (j : DrainJob) (q : List Int) : BitVec 1024 :=
  lanesOf ((List.range 32).map (fun r => if r < ddRows j.d0 then f32pow2 (q.getD r 0) else f32one))

def updJob (s : State) (c id : Nat) (f : DrainJob → DrainJob) : State :=
  updCore s c (fun k => { k with drain := { k.drain with jobs := k.drain.jobs.map (fun j => if j.id == id then f j else j) } })

/-- s[OSV] no longer awaits the drain. -/
def freeOsv (s : State) (c : Nat) (j : DrainJob) : State :=
  if ddOsc j.d0 == 1 || ddOsc j.d0 == 2 then
    updCore s c (fun k => { k with ctl := { k.ctl with sBusy := k.ctl.sBusy.erase (j.thread, ddOsv j.d0) } })
  else s

/-- The scales are known: s[OSV] is written (04 R166, R169). -/
def drainScale (s : State) (c : Nat) (j : DrainJob) (ms : List Nat) : State :=
  let q := (List.range (ddRows j.d0)).map (fun r => if j.prow.getLsbD r then 0 else qExp j.fmt (ms.getD r 0))
  let s := updJob s c j.id (fun j => { j with qexp := q, phase := .scaled })
  if ddOsc j.d0 == 1 || ddOsc j.d0 == 2 then
    updCore (freeOsv s c j) c (fun k => k.writeS j.thread (ddOsv j.d0) ⟨qLanes j q, false⟩)
  else s

/-- A TDRAIN ends without a second pass: nothing is written and its bank is released (04 R172). -/
def endDrain (s : State) (c : Nat) (j : DrainJob) : State :=
  let s := if j.phase = .scaled || j.phase = .written then s else freeOsv s c j
  dropJob s c j.id

/-- Whether a context takes token drains: OP MAX, ONE = 0, 32 lanes (09 R349). -/
def tokenCtxOk (s : State) (c n : Nat) : Bool :=
  let r := getReap s (reapKey (dieOf s.grid c) n)
  r.en && named r.rows r.cols c && r.op == 1 && !r.one && r.npk == 0

def ReapWho.isDrain : ReapWho → Bool
  | .drain _ => true
  | _ => false

/-- The contribution of a drain's row maxima: queued behind another TDRAIN's, or refused (04 R171, 09 R349). -/
def drainContribute (s : State) (c : Nat) (j : DrainJob) : State :=
  let n := field j.d2 7 0
  match findOut s c n with
  | some o =>
    if o.who.isDrain then updJob s c j.id (fun j => { j with phase := .queued })
    else deliverDeferred (endDrain s c j) c j.thread ⟨0x0A, 0x22, word n⟩
  | none =>
    if tokenCtxOk s c n then
      let lanes := (List.range 32).map (fun r => j.rmax.getD r 0)
      let s := updJob s c j.id (fun j => { j with phase := .contributed })
      (reapContribute s c n (.drain j.id) lanes 0).2
    else deliverDeferred (endDrain s c j) c j.thread ⟨0x0A, 0x22, word n⟩

/-- The parameter block as a TDRAIN reads it: the vectors not selected are not read, and stand here as zeros (04 R162). -/
def paramRead (s : State) (c : Nat) (j : DrainJob) : Got :=
  (paramVecs j.word j.d0).zipIdx.foldl (fun (g : Got) x =>
    if x.1 then
      let r := coreRead g.st false c (ddPbase j.d0 + 128 * x.2) 128
      ⟨g.data ++ r.data, g.pois ++ r.pois, r.st⟩
    else ⟨g.data ++ List.replicate 128 0, g.pois, g.st⟩) ⟨[], [], s⟩

/-- The first pass of the oldest TDRAIN that has had none (04 R165). -/
def firstPassOf (s : State) (c : Nat) (j : DrainJob) : State :=
  let g := paramRead s c j
  let s := g.st
  let ppois := g.poison
  let rows := List.range (ddRows j.d0)
  let cols := List.range (ddCols j.d0)
  let all := rows.map (fun m => cols.map (fun n => drainValue s c j g.data m n))
  let two := tdGated j.word && tdBwd j.word
  let k := getCore s c
  let pr (r : Nat) : Bool := ppois || (tdBanks j.word).any (fun b => (getBank k b).prow.getLsbD r) ||
    (drainReads j).any (fun z => (getTile s c z).prow.getLsbD r)
  let prow := rows.foldl (fun p r => setBit32 p r (pr r)) (0 : BitVec 32)
  let both (row : List (Nat × Nat)) : List Nat := row.map (·.1) ++ (if two then row.map (·.2) else [])
  let rmax := (rows.zip all).map (fun x => if pr x.1 then 0 else rowMax (both x.2))
  let counts := ((rows.zip all).zip rmax).foldl (fun a x =>
    if pr x.1.1 then a else addCounts a (rowCounts x.2 (both x.1.2))) (List.replicate 19 0)
  let j' := { j with
    vals := all.map (fun r => r.map (·.1)), vals2 := (if two then all.map (fun r => r.map (·.2)) else []),
    rmax := rmax, counts := counts, prow := prow, ppois := ppois }
  let s := updJob s c j.id (fun _ => j')
  if ddOsc j.d0 = 2 then drainContribute s c j'
  else drainScale s c j' (if ddOsc j.d0 = 1 then rmax else [])

/-- The next TDRAIN queued on a context contributes (04 R171). -/
def nextQueued (s : State) (c n : Nat) : State :=
  match (getCore s c).drain.jobs.find? (fun j => j.phase = .queued && field j.d2 7 0 == n) with
  | some j => if (findOut s c n).isSome then s else drainContribute s c j
  | none => s

/-- A token reap's result reaches the drain, or its end (04 R171, R172). -/
def tokenResult (s : State) (c : Nat) : State :=
  let ready (j : DrainJob) : Bool := j.phase = .contributed && (match findOut s c (field j.d2 7 0) with
    | some o => o.who == .drain j.id && (o.result.isSome || o.ended.isSome)
    | none => false)
  match (getCore s c).drain.jobs.find? ready with
  | none => s
  | some j =>
    let n := field j.d2 7 0
    match findOut s c n with
    | none => s
    | some o =>
      let s := dropOut s c n
      let s := match o.result, o.ended with
        | some (lanes, _), _ => drainScale s c j lanes
        | none, some (.hole h) => deliverDeferred (endDrain s c j) c j.thread ⟨0x0C, 0x03, holeInfo h⟩
        | none, some .disabled => deliverDeferred (endDrain s c j) c j.thread ⟨0x0A, 0x04, word n⟩
        | none, _ => endDrain s c j
      nextQueued s c n

def execDrainTokenResult (core : Nat) (s : State) : Out := .next (tokenResult s core)

/-! ## The second pass (04 R166–R168) -/

/-- X_r of a row (04 R167). -/
def mxScaleOf (fmt mr : Nat) (hasNan : Bool) : Nat :=
  if hasNan then 255 else if f32isZero mr then 127 else (max 0 (min 254 (f32expo mr - fmtEmax fmt + 127))).toNat

/-- The raw bits of a row's elements: v / q, or v / 2^(X − 127) for MX; draw n serves its first element. -/
def drainRow (rng : BitVec 256) (j : DrainJob) (r n : Nat) (vs : List Nat) : List Nat :=
  let mr := j.rmax.getD r 0
  let hasNan := vs.any f32isNan
  let conv (i v : Nat) : Nat :=
    let mode := rndOf (tdRnd j.word) rng (n + i)
    if j.fmt = 8 then v
    else if drainMX j.d0 j.fmt then
      if hasNan then 0
      else
        let x := mxScaleOf j.fmt mr false
        (convertElem j.fmt mode ((fp32 v).scale (127 - (x : Int) + (if j.fmt = 7 then 6 else 0)))).1
    else (convertElem j.fmt mode ((fp32 v).scale (-(j.qexp.getD r 0)))).1
  (vs.zip (List.range vs.length)).map (fun x => conv x.2 x.1)

/-- Writes the rows of one output to a tile register (04 R163, R167, 03 R110). -/
def drainTile (s : State) (c : Nat) (j : DrainJob) (td n : Nat) (vals : List (List Nat)) : State :=
  let g0 := ddG0 j.d0
  let ng := drainGrans j.d0 j.fmt
  let cols := ddCols j.d0
  let r0 := getTile s c td
  let r1 := (vals.zip (List.range vals.length)).foldl (fun (r : TileReg) x =>
    let v := packElems j.fmt (drainRow (rngState s c) j x.2 (n + cols * x.2) x.1)
    let row := setField (r.row x.2) (64 * (g0 + ng) - 1) (64 * g0) v
    let side := if drainMX j.d0 j.fmt then
        let b := 4 * x.2 + g0 * 64 / (32 * fmtBits j.fmt)
        setField r.side (8 * b + 7) (8 * b) (mxScaleOf j.fmt (j.rmax.getD x.2 0) (x.1.any f32isNan && !j.prow.getLsbD x.2))
      else r.side
    { r with rows := spSet 0 r.rows x.2 row, side := side, prow := setBit32 r.prow x.2 (j.prow.getLsbD x.2) })
    { r0 with prow := 0 }
  let r2 := if g0 = 0 then { r1 with fmt := j.fmt, nrows := ddRows j.d0 - 1, gran := ng - 1 }
    else { r1 with gran := max r1.gran (g0 + ng - 1) }
  setTile s c td r2

/-- The bytes of an output row. -/
def rowBytes (rng : BitVec 256) (j : DrainJob) (r n : Nat) : List Byte :=
  toBytes (fmtBytes j.fmt (ddCols j.d0)) (packElems j.fmt (drainRow rng j r n (j.vals.getD r [])))

def drainMem (s : State) (c : Nat) (j : DrainJob) (n : Nat) : State :=
  let gran := addrTag j.dest == 1
  (List.range (ddRows j.d0)).foldl (fun s r =>
    let a := addrOff j.dest + r * field j.d1 51 32
    let bs := rowBytes (rngState s c) j r (n + ddCols j.d0 * r)
    let s := coreWrite s gran c (j.prow.getLsbD r) a bs
    if gran then l1KillGran s c a bs.length else s) s

/-- Draws a second pass uses under stochastic rounding. -/
def useDraws (s : State) (j : DrainJob) : State :=
  if tdRnd j.word = 2 then { s with draws := s.draws + 2 * ddRows j.d0 * ddCols j.d0 } else s

/-- The second pass of a TDRAIN to a tile, to memory, or to nothing. -/
def secondPass (s : State) (c : Nat) (j : DrainJob) : State :=
  let n := s.draws
  let s := useDraws s j
  let s := match tdDst j.word with
    | 0 =>
      let s := drainTile s c j j.td n j.vals
      if tdGated j.word && tdBwd j.word then drainTile s c j (j.td + 1) (n + ddRows j.d0 * ddCols j.d0) j.vals2 else s
    | 1 => drainMem s c j n
    | _ => s
  updJob s c j.id (fun j => { j with phase := .written })

/-! ## Retirement (04 R169, R173, R174) -/

/-- The statistics record (04 R173). -/
def drainRecord (j : DrainJob) : List Byte :=
  let ct (i : Nat) : Nat := j.counts.getD i 0
  (List.range 32).flatMap (fun r => toBytes 4 (j.rmax.getD r 0)) ++ (List.range 16).flatMap (fun b => toBytes 2 (ct b)) ++
    toBytes 8 (ct 16 + ct 17 * 2 ^ 16 + ct 18 * 2 ^ 32) ++
    toBytes 8 (j.prow.toNat + j.fmt * 2 ^ 32 + boolN j.ppois * 2 ^ 36 + boolN (bitOf j.word 34) * 2 ^ 37) ++
    List.replicate 16 0

def satCounts (a b : List Nat) : List Nat := (List.range 19).map (fun i => satAdd 32 (a.getD i 0) (b.getD i 0))

/-- A statistics entry sent to the die's governor (04 R174). -/
def flushStat (s : State) (c : Nat) (e : StatEntry) : State :=
  let key := dieOf s.grid c * 4096 + e.slot
  { s with gov := { s.gov with dies := spUpd [] s.gov.dies key (fun a => satCounts a e.counts) } }

/-- Adds a drain's counts to the cache: the entry for the slot, or a new one; the least recently used is flushed first. -/
def addStats (s : State) (c slot : Nat) (counts : List Nat) : State :=
  let es := (getCore s c).drain.stats
  let put (s : State) (l : List StatEntry) : State := updCore s c (fun k => { k with drain := { k.drain with stats := l } })
  match es.find? (fun e => e.slot == slot) with
  | some e => put s ({ e with counts := satCounts e.counts counts } :: es.filter (fun x => x.slot != slot))
  | none =>
    let new : StatEntry := { slot := slot, counts := satCounts [] counts }
    match (if 8 ≤ es.length then es.getLast? else none) with
    | some e => put (flushStat s c e) (new :: es.dropLast)
    | none => put s (new :: es)

/-- The oldest TDRAIN whose outputs are written retires. -/
def drainRetire (s : State) (c : Nat) : State :=
  match (getCore s c).drain.jobs.find? (fun j => j.phase = .written) with
  | none => s
  | some j =>
    let s := if ddStw j.d0 then coreWrite s false c false (field j.d1 19 0) (drainRecord j) else s
    let s := if ddStaten j.d0 then addStats s c (ddSlot j.d0) j.counts else s
    dropJob s c j.id

def execDrainRetire (core : Nat) (s : State) : Out := .next (drainRetire s core)

/-! ## User table stores (04 R160) -/

/-- A store to a user table is written once no held TDRAIN names its slot; those of a core in their order. -/
def userTableWrite (s : State) (c id : Nat) : State :=
  match findReq s c id with
  | none => s
  | some q =>
    let first := ((getCore s c).reqs.takeWhile (fun x => x.id != id)).all (fun x => x.stage != .tableHeld || x.target != q.target)
    if q.stage = .tableHeld && first && !slotHeld (getCore s q.target) (q.off / 0x1000) then
      answerReq (tableWrite s q.target q.off q.data) c id 0 false
    else s

def execUserTableWrite (core req : Nat) (s : State) : Out := .next (userTableWrite s core req)

/-- JSWITCH ends every TDRAIN that waits on a token reap or a Drill ring (02 R91, 04 R172). -/
def jswitchDrains (s : State) (c : Nat) : State :=
  (getCore s c).drain.jobs.foldl (fun s j =>
    if j.phase = .contributed || j.phase = .queued then endDrain (dropOut s c (field j.d2 7 0)) c j
    else if j.phase = .scaled && tdDst j.word = 2 then endDrain s c j
    else s) s

end Sys2Proof.Machine
end

