-- ==== Sys2Proof/Machine/DrillMem.lean ====
section
/-!
DEFINITION. Machine/DrillMem.lean: how the Drill reaches the memories and spaces (08 R291, R292, R297, R298; 07 R254, R263–R272). Statuses
are those of 08 R291; each comes with the address it was found at.
-/

namespace Sys2Proof.Machine

/-- A status and the address it was found at. -/
abbrev DErr := Nat × Nat

/-- What a Drill read answers: the bytes, the poison of each 64-bit word, the first error, the state. -/
structure DGot where
  data : List Byte
  pois : List Bool
  err : Option DErr
  st : State

def aTag (a : Nat) : Nat := a / 2 ^ 56
def aRow (a : Nat) : Nat := fieldN a 47 42
def aCol (a : Nat) : Nat := fieldN a 41 36
def aCore (a : Nat) : Nat := coreAt (aRow a) (aCol a)

/-- The part of an address that is an offset in its space, and the fields that must be zero. -/
def aOff (a : Nat) : Nat :=
  match aTag a with
  | 2 => a % 2 ^ 36
  | 3 => a % 2 ^ 36
  | 7 => a % 2 ^ 40
  | _ => a % 2 ^ 56

def aReservedBad (a : Nat) : Bool :=
  match aTag a with
  | 2 => fieldN a 55 48 != 0
  | 3 => fieldN a 55 48 != 0
  | _ => false

/-- The end of a space as a descriptor on core c can know it. -/
def aEnd (s : State) (c : Nat) (a : Nat) : Nat :=
  match aTag a with
  | 0 => localEnd
  | 1 => granEnd (getCore s c)
  | 2 => localEnd
  | 3 => 0x500000
  | 7 => 2 ^ 40
  | _ => 2 ^ 48

/-- An address moved by a signed distance. -/
def aMove (a : Nat) (d : Int) : Nat := ((a : Int) + d).toNat

/-- Stands for the address of an error that the spec places at no address: DRERR.ADDR is then a free value (08 R285;
notes/assumptions/33.md). -/
def noAddr : Nat := 2 ^ 64

/-- The checks before anything is written: space, then range (08 R292, R297, R298). d is a distance from the base address a. -/
def dCheck (s : State) (c : Nat) (job : Bool) (allowed : List Nat) (a : Nat) (d : Int) (n : Nat) : Option DErr :=
  let off : Int := (aOff a : Int) + d
  if !allowed.contains (aTag a) then some (0x04, a)
  else if decide (off < 0) || decide ((aEnd s c a : Int) < off + n) || aReservedBad a ||
      ((aTag a == 2 || aTag a == 3) && !inGrid s.grid (aRow a) (aCol a)) ||
      (aTag a == 0 && job && decide (((getCore s c).ctl.klim.toNat : Int) < off + n)) then some (0x05, noAddr)
  else none

/-- An address, length or stride must be a multiple of 8, and of 4,096 on a FLASH side (08 R298). -/
def dAligned (a n : Nat) (strides : List Int) : Bool :=
  let k : Nat := if aTag a = 5 then 4096 else 8
  a % k == 0 && n % k == 0 && strides.all (fun x => x % (k : Int) == 0)

/-- ALIGN: at the address if that is misaligned, at none for a length or stride. -/
def dAlign (a n : Nat) (strides : List Int) : Option DErr :=
  if dAligned a n strides then none else some (0x03, if dAligned a 0 [] then noAddr else a)

/-! ## Translation -/

/-- The protection sub-codes of a leaf for a Drill access (07 R269). -/
def dSubs (s : State) (w : Word) (write job sheaf : Bool) : List Nat :=
  (if write && !bitOf w 2 then [0x10] else []) ++ (if job && bitOf w 3 then [0x11] else []) ++
    (if slotHasKey s (leafSlot w) then [] else [0x12]) ++ (if leafSH w == sheaf then [] else [0x13])

/-- Where a translated access goes. -/
structure Place where
  /-- In flash: a FLASH page, or a BULK page held in flash. -/
  flash : Bool
  pa : Nat
  slot : Nat
  cached : Bool
  deriving DecidableEq, Repr

def placeOf (s : State) (va : Nat) (e : TlbEntry) (write job sheaf flash : Bool) : DErr ⊕ Place :=
  match dSubs s e.leaf write job sheaf with
  | n :: _ => .inl (0x20 + n, va)
  | [] => .inr { flash := flash, pa := leafPa e va, slot := leafSlot e.leaf, cached := leafC e.leaf }

/-- Translates one access of the Drill, walking where it must (07 R268, R269). -/
def dXlate (s : State) (c : Nat) (job write sheaf : Bool) (a : Nat) : (DErr ⊕ Place) × State :=
  let space := aTag a
  let va := a % 2 ^ 48
  let held := match tlbFind (getCore s c) space va with
    | some e => if write && !bitOf e.leaf 48 && (dSubs s e.leaf write job sheaf).isEmpty then none else some e
    | none => none
  match held with
  | some e => (placeOf s a e write job sheaf (space == 5), s)
  | none =>
    match walk s c space va with
    | (.fault n, s) => (.inl (0x20 + n, a), s)
    | (.flash l w, s) =>
      if write then (.inl (0x25, a), s)
      else (placeOf s a { space := space, level := l, vpn := va >>> lvlShift l, leaf := w } write job sheaf true, s)
    | (.leaf l w pa, s) =>
      let (w, s) := markLeaf s pa (write && (dSubs s w write job sheaf).isEmpty) w
      let e : TlbEntry := { space := space, level := l, vpn := va >>> lvlShift l, leaf := w }
      (placeOf s a e write job sheaf (space == 5), tlbInsert s c e)

/-- Bytes of the flash job region (07 R262, R284). -/
def jobRegion (s : State) : Nat := 7200000000000 - 2 * 2 ^ 30 - 16 * 2 ^ 20 - s.mstats.ckptBytes

/-- Cuts at 256-byte lines: (distance, length). The first argument bounds their number. -/
def lineCuts : Nat → Nat → Nat → Nat → List (Nat × Nat)
  | 0, _, _, _ => []
  | k + 1, a, n, d =>
    if n = 0 then []
    else
      let len := min n (256 - a % 256)
      (d, len) :: lineCuts k (a + len) (n - len) (d + len)

def cutsOf (a n : Nat) : List (Nat × Nat) := lineCuts (n / 256 + 2) a n 0

/-! ## One piece inside a 256-byte line -/

def dReadPiece (s : State) (c : Nat) (job : Bool) (a n : Nat) : DGot :=
  let off := aOff a
  let plain (g : Got) : DGot := ⟨g.data, g.pois, none, g.st⟩
  let fail (e : DErr) (s : State) : DGot := ⟨[], [], some e, s⟩
  match aTag a with
  | 0 => plain (coreRead s false c off n)
  | 1 => plain (coreRead s true c off n)
  | 2 =>
    if isHole s (aCore a) then fail (0x09, a) s
    else if job && (getCore s (aCore a)).ctl.klim.toNat < off + n then fail (0x05, a) s
    else plain (coreRead s false (aCore a) off n)
  | 3 =>
    if isHole s (aCore a) then fail (0x09, a) s
    else if granEnd (getCore s (aCore a)) < off + n then fail (0x34, a) s
    else plain (coreRead s true (aCore a) off n)
  | t =>
    match dXlate s c job false false a with
    | (.inl e, s) => fail e s
    | (.inr p, s) =>
      if t = 6 then
        if (hostRegion s p.pa).valid then plain (regionRead s p.pa n (Config.hostAnswers (p.pa / 2 ^ 47 % 2) (hostBus s p.pa)))
        else fail (0x04, a) s
      else if p.flash then (if jobRegion s < p.pa + n then fail (0x27, a) s else plain (flashRead s p.pa n))
      else plain (drillLoad s c p.pa p.slot n p.cached)

/-- A burst is taken from those left to a descriptor that is being ended: none where no burst is left (08 R293). -/
def takeBurst (s : State) (c : Nat) : Option State :=
  match (getCore s c).burst with
  | none => some s
  | some 0 => none
  | some (n + 1) => some (updCore s c (fun k => { k with burst := some n }))

/-- ABORTED, at no address. -/
def dAborted : DErr := (0x10, noAddr)

/-- Writes inside one 256-byte line, with the poison of each word. -/
def dWriteLine (s : State) (c : Nat) (job : Bool) (a : Nat) (bs : List Byte) (pois : List Bool) : Option DErr × State :=
  let off := aOff a
  let n := bs.length
  let toCore (gran : Bool) (tc : Nat) : Option DErr × State :=
    (none, writeRun (fun s p a b => coreWrite s gran tc p a b) off bs pois s)
  match aTag a with
  | 0 => toCore false c
  | 1 => toCore true c
  | 2 =>
    if isHole s (aCore a) then (some (0x09, a), s)
    else if job && (getCore s (aCore a)).ctl.klim.toNat < off + n then (some (0x05, a), s)
    else toCore false (aCore a)
  | 3 =>
    if isHole s (aCore a) then (some (0x09, a), s)
    else if granEnd (getCore s (aCore a)) < off + n then (some (0x34, a), s)
    else toCore true (aCore a)
  | t =>
    match dXlate s c job true false a with
    | (.inl e, s) => (some e, s)
    | (.inr p, s) =>
      if t = 6 then
        let r := hostRegion s p.pa
        if r.valid && r.writable then
          (none, writeRun (fun s b x d => regionPut s (pois.any id) b x d) p.pa bs pois s)
        else (some (0x04, a), s)
      else if t = 5 then
        if jobRegion s < p.pa + n then (some (0x27, a), s) else (none, writeRun (fun s b x d => flashWrite s b x d) p.pa bs pois s)
      else (none, writeRun (fun s b x d => drillStore s c x p.slot p.cached b d) p.pa bs pois s)

/-- One burst of writes. -/
def dWritePiece (s : State) (c : Nat) (job : Bool) (a : Nat) (bs : List Byte) (pois : List Bool) : Option DErr × State :=
  match takeBurst s c with
  | none => (some dAborted, s)
  | some s => dWriteLine s c job a bs pois

/-! ## Checks of a HOST extent and of the path to a core (10 R365, 01 R34) -/

/-- Where an address leads under the translations as they stand; nothing is loaded or marked. -/
def peekPlace (s : State) (c : Nat) (job write : Bool) (a : Nat) : Option Place :=
  match (dXlate s c job write false a).1 with
  | .inl _ => none
  | .inr p => some p

/-- The first address of an extent whose region is invalid, or not writable for a write. -/
def hostRefusal (s : State) (c : Nat) (job write : Bool) (a n : Nat) : Option DErr :=
  if aTag a != 6 then none
  else ((cutsOf a n).find? (fun x => match peekPlace s c job write (a + x.1) with
    | some p => let r := hostRegion s p.pa; !(r.valid && (!write || r.writable))
    | none => false)).map (fun x => (0x04, a + x.1))

/-- No path leads from core c to the core of a CORE or CGRAN address (notes/assumptions/73.md). -/
def cutFrom (s : State) (c a : Nat) : Bool :=
  (aTag a == 2 || aTag a == 3) && inGrid s.grid (aRow a) (aCol a) && !isHole s (aCore a) && coreRoute s c (aCore a) == .cut

/-! ## Runs -/

/-- Reads n bytes; it stops at the first error. -/
def dRead (s : State) (c : Nat) (job : Bool) (a n : Nat) : DGot :=
  (cutsOf a n).foldl (fun (g : DGot) x =>
    match g.err with
    | some _ => g
    | none =>
      let r := dReadPiece g.st c job (a + x.1) x.2
      ⟨g.data ++ r.data, g.pois ++ r.pois, r.err, r.st⟩) ⟨[], [], none, s⟩

/-- A movement in progress: the state, the first error, bytes or entries done. -/
structure DMove where
  st : State
  err : Option DErr
  done : Nat

/-- Writes bytes with the poison of each 64-bit word, and counts them; it stops at the first error. The address is a multiple of 8. -/
def dPutBytes (c : Nat) (job : Bool) (a : Nat) (bs : List Byte) (pois : List Bool) (m : DMove) : DMove :=
  (cutsOf a bs.length).foldl (fun m x =>
    match m.err with
    | some _ => m
    | none =>
      let (e, s) := dWritePiece m.st c job (a + x.1) ((bs.drop x.1).take x.2) ((pois.drop (x.1 / 8)).take ((x.2 + 7) / 8))
      { st := s, err := e, done := m.done + (if e.isNone then x.2 else 0) }) m

/-- Writes bytes that no count includes. -/
def dWrite (s : State) (c : Nat) (job : Bool) (a : Nat) (bs : List Byte) (pois : List Bool) : Option DErr × State :=
  let m := dPutBytes c job a bs pois ⟨s, none, 0⟩
  (m.err, m.st)

/-- The first length that keeps a piece inside a line of both its source and its destination, and so on: pieces of n bytes. The first argument
bounds their number. -/
def moveCuts : Nat → Nat → Nat → Nat → Nat → List (Nat × Nat)
  | 0, _, _, _, _ => []
  | k + 1, a, b, n, d =>
    if n = 0 then []
    else
      let len := min n (min (256 - a % 256) (256 - b % 256))
      (d, len) :: moveCuts k (a + len) (b + len) (n - len) (d + len)

/-- Moves n bytes burst by burst. -/
def dCopy (c : Nat) (job : Bool) (src dst n : Nat) (m : DMove) : DMove :=
  (moveCuts (2 * (n / 256) + 4) src dst n 0).foldl (fun m x =>
    match m.err with
    | some _ => m
    | none =>
      let g := dReadPiece m.st c job (src + x.1) x.2
      match g.err with
      | some e => { m with st := g.st, err := some e }
      | none => dPutBytes c job (dst + x.1) g.data g.pois { m with st := g.st }) m

/-- Writes n bytes as poison. -/
def dPoison (c : Nat) (job : Bool) (dst n : Nat) (m : DMove) : DMove :=
  dPutBytes c job dst (List.replicate n 0) (List.replicate ((n + 7) / 8) true) m

/-- Adds the lanes of one word into a destination word, at its memory (08 R304): FP32 lanes, or BF16. -/
def addLanes (bf : Bool) (a b : Nat) : Nat :=
  if bf then (List.range 4).foldl (fun r i =>
    let x := FV.add (fmtBF16.decode (a / 2 ^ (16 * i) % 2 ^ 16)) (fmtBF16.decode (b / 2 ^ (16 * i) % 2 ^ 16))
    r + fmtBF16.convert false true (fun _ => 0x7FC0) .rne x.1 * 2 ^ (16 * i)) 0
  else f32add (a % 2 ^ 32) (b % 2 ^ 32) + f32add (a / 2 ^ 32) (b / 2 ^ 32) * 2 ^ 32

/-- The lines of the core's granary cache that hold a word in BULK are written back and invalidated before an add (08 R304). -/
def dFlushWord (s : State) (c pa : Nat) : State := gcFlush s c (fun g => g.line == pa / 256)

/-- One word added into its destination. -/
def dAddWord (c : Nat) (job bf : Bool) (dst v : Nat) (pois : Bool) (m : DMove) : DMove :=
  match m.err with
  | some _ => m
  | none =>
    let s := if aTag dst = 4 then
        (match dXlate m.st c job true false dst with
          | (.inr p, s) => dFlushWord s c p.pa
          | (.inl _, s) => s)
      else m.st
    let g := dRead s c job dst 8
    match g.err with
    | some e => { m with st := g.st, err := some e }
    | none =>
      let bad := pois || g.pois.any id
      let (e, s) := dWriteLine g.st c job dst (toBytes 8 (addLanes bf (ofBytes g.data) v)) [bad]
      { m with st := s, err := e }

/-- The words of one burst added. -/
def dAddBurst (c : Nat) (job bf : Bool) (dst : Nat) (bs : List Byte) (pois : List Bool) (m : DMove) (x : Nat × Nat) : DMove :=
  match m.err, takeBurst m.st c with
  | some _, _ => m
  | none, none => { m with err := some dAborted }
  | none, some s =>
    (List.range (x.2 / 8)).foldl (fun m i =>
      let k := x.1 + 8 * i
      dAddWord c job bf (dst + k) (bytesAt bs k 8) (pois.getD (k / 8) false) m) { m with st := s }

def dAddRow (c : Nat) (job bf : Bool) (dst : Nat) (bs : List Byte) (pois : List Bool) (m : DMove) : DMove :=
  (cutsOf dst bs.length).foldl (dAddBurst c job bf dst bs pois) m

end Sys2Proof.Machine
end

