-- ==== Sys2Proof/Machine/DrillOps.lean ====
section
/-!
DEFINITION. Machine/DrillOps.lean: what the Drill's operations do, COPY to SOW (08 R297–R312). Each takes the words of the descriptor and
answers the state, status, error address and RESULT. The checks before anything is written come in the order fields, alignment,
space, range (notes/assumptions/33.md).
-/

namespace Sys2Proof.Machine

/-- The end of an operation's movement. -/
structure DEnd where
  st : State
  status : Nat := 0
  addr : Nat := 0
  result : Nat := 0
  phase : DescPhase := .moved

def dEnd (m : DMove) : DEnd :=
  match m.err with
  | none => { st := m.st, result := m.done }
  | some (n, a) => { st := m.st, status := n, addr := a, result := m.done }

def dFail (s : State) (e : DErr) : DEnd := { st := s, status := e.1, addr := e.2 }

/-- The first error of a list of checks. -/
def dFirst : List (Option DErr) → Option DErr
  | [] => none
  | some e :: _ => some e
  | none :: r => dFirst r

def dIf (b : Bool) (status addr : Nat) : Option DErr := if b then some (status, addr) else none

def badField (b : Bool) : Option DErr := dIf b 0x02 noAddr

/-- The place of a check's status in the order fields, alignment, space, range (08 R292; notes/assumptions/33.md). -/
def checkRank (status : Nat) : Nat :=
  match status with
  | 3 => 1
  | 4 => 2
  | 5 => 3
  | _ => 0

/-- The failed check of the lowest place, the first of the list among equals. -/
def dLowest (checks : List (Option DErr)) : Option DErr :=
  (List.range 4).findSome? (fun k => checks.findSome? (fun x => x.filter (fun e => checkRank e.1 == k)))

/-- The checks of the completion word's address (08 R295, R298). -/
def cplChecks (s : State) (c : Nat) (job : Bool) (ws : List Nat) : List (Option DErr) :=
  let a := dCPL ws
  [dIf (dCW ws && a % 8 != 0) 0x03 a, dIf (dCW ws && (localEnd ≤ a || (job && (getCore s c).ctl.klim.toNat ≤ a))) 0x05 a]

/-- Runs an operation over a descriptor that passes its checks. -/
def dGuard (s : State) (c : Nat) (job : Bool) (ws : List Nat) (checks : List (Option DErr)) (f : Unit → DEnd) : DEnd :=
  match dLowest (cplChecks s c job ws ++ checks) with
  | some e => dFail s e
  | none => f ()

/-- Bits [hi:lo] of the word at offset 8 i. -/
def dField (ws : List Nat) (i hi lo : Nat) : Nat := fieldN (dWord ws i) hi lo

/-- The address a field of the form "space and offset" names (08 R305). -/
def dSO (f : Nat) : Nat := (f / 2 ^ 23 % 2) * 2 ^ 56 + f % 2 ^ 23

/-- Spaces by role (08 R297). -/
def spNear : List Nat := [0, 1, 4]
def spLG : List Nat := [0, 1]

/-! ## The pattern (08 R299) -/

structure Pat where
  l0 : Nat
  n1 : Nat
  n2 : Nat
  n3 : Nat
  ss : List Int
  ds : List Int

def patOf (ws : List Nat) (dims : Nat) : Pat :=
  let lo (i : Nat) : Int := signedN 32 (dWord ws i % 2 ^ 32)
  let hi (i : Nat) : Int := signedN 32 (dWord ws i / 2 ^ 32)
  { l0 := dField ws 3 19 0, n1 := dField ws 3 39 28, n2 := dField ws 3 51 40, n3 := dField ws 3 63 52
    ss := (List.range dims).map (fun i => lo (4 + i)), ds := (List.range dims).map (fun i => hi (4 + i)) }

def Pat.total (p : Pat) : Nat := p.l0 * (p.n1 + 1) * (p.n2 + 1) * (p.n3 + 1)

/-- Distance of run (i1, i2, i3) under a list of strides. -/
def patDist (st : List Int) (i1 i2 i3 : Nat) : Int := st.getD 0 0 * i1 + st.getD 1 0 * i2 + st.getD 2 0 * i3

/-- The runs in order, i1 fastest: distances of source and destination. -/
def Pat.runs (p : Pat) : List (Int × Int) :=
  (List.range (p.n3 + 1)).flatMap (fun i3 => (List.range (p.n2 + 1)).flatMap (fun i2 => (List.range (p.n1 + 1)).map (fun i1 =>
    (patDist p.ss i1 i2 i3, patDist p.ds i1 i2 i3))))

/-- The lowest distance and the extent that runs under a list of strides cover. -/
def Pat.reach (p : Pat) (st : List Int) : Int × Nat :=
  let d : List Int := [st.getD 0 0 * p.n1, st.getD 1 0 * p.n2, st.getD 2 0 * p.n3]
  let lo : Int := d.foldl (fun a x => a + min 0 x) 0
  let hi : Int := d.foldl (fun a x => a + max 0 x) 0
  (lo, (hi - lo).toNat + p.l0)

/-- A check of an extent that a base address and a reach give. -/
def dExtent (s : State) (c : Nat) (job : Bool) (allowed : List Nat) (a : Nat) (r : Int × Nat) : Option DErr :=
  dCheck s c job allowed a r.1 r.2

/-! ## COPY (08 R299–R301, 11 R400) -/

/-- The memory and offset an address of core c reaches, for the overlap of R300. -/
def aCanon (c a : Nat) : Nat × Nat :=
  match aTag a with
  | 0 => (2 * c, aOff a)
  | 1 => (2 * c + 1, aOff a)
  | 2 => (2 * aCore a, a % 2 ^ 36)
  | 3 => (2 * aCore a + 1, a % 2 ^ 36)
  | t => (2 ^ 20 + t, a % 2 ^ 48)

/-- A destination word also lies in the source of the copy. -/
def dOverlaps (c src : Nat) (p : Pat) (a : Nat) : Bool :=
  let (m, o) := aCanon c a
  let (m', o') := aCanon c src
  m == m' && p.runs.any (fun r => decide ((o' : Int) + r.1 ≤ o) && decide ((o : Int) < o' + r.1 + p.l0))

/-- The words of a run with, where source and destination overlap, a free choice of the old and the copied word (08 R300). -/
def dMix (ovl : Nat → Bool) (draw : Nat) (old new : DGot) : List (List Byte × Bool) :=
  (List.range ((new.data.length + 7) / 8)).map (fun i =>
    let keep := ovl i && Config.draw (draw + i) % 2 == 1
    let g := if keep then old else new
    ((g.data.drop (8 * i)).take 8, g.pois.getD i false))

/-- One run of a COPY. -/
def dRun (c : Nat) (job : Bool) (p : Pat) (base src dst : Nat) (m : DMove) : DMove :=
  match m.err with
  | some _ => m
  | none =>
    let ovl (i : Nat) : Bool := dOverlaps c base p (dst + 8 * i)
    if (List.range (p.l0 / 8)).any ovl then
      let g := dRead m.st c job src p.l0
      let o := dRead g.st c job dst p.l0
      match dFirst [g.err, o.err] with
      | some e => { m with st := o.st, err := some e }
      | none =>
        let ws := dMix ovl o.st.draws o g
        dPutBytes c job dst (ws.flatMap (·.1)) (ws.map (·.2)) { m with st := { o.st with draws := o.st.draws + ws.length } }
    else dCopy c job src dst p.l0 m

/-- Cuts of a run at 4,096-byte boundaries of the destination offset (11 R400). -/
def putCuts : Nat → Nat → Nat → Nat → List (Nat × Nat)
  | 0, _, _, _ => []
  | k + 1, a, n, d =>
    if n = 0 then []
    else
      let len := min n (4096 - a % 4096)
      (d, len) :: putCuts k (a + len) (n - len) (d + len)

/-- Sends bytes as one packet: a PUT to another module, a SOW to a group (11 R399). -/
def dPutData (c ring dst : Nat) (bs : List Byte) (ps : List Bool) (m : DMove) : DMove :=
  match m.err, takeBurst m.st c with
  | some _, _ => m
  | none, none => { m with err := some dAborted }
  | none, some s =>
    let opc := if isGroup (fieldN dst 55 40) then 4 else 1
    match fabSend s (dieOf s.grid c) (.drill c ring) (vcOf opc) none
        { opc := opc, dst := fieldN dst 55 40, src := 0, chan := 0, fin := false, ver := 0, cseq := 0, len := bs.length,
          addr := aOff dst % 2 ^ 40, opf := 0, data := bs, pois := ps } with
    | (s, none) => { m with st := s, done := m.done + bs.length }
    | (s, some e) =>
      let s := if e = .noKey then interrupt s (.noPairKey (fieldN dst 55 40)) else s
      { m with st := s, err := some (0x0F, dst) }

/-- Sends a run held as bytes. -/
def dPutRun (c ring dst : Nat) (bs : List Byte) (ps : List Bool) (m : DMove) : DMove :=
  (putCuts (bs.length / 4096 + 2) (aOff dst) bs.length 0).foldl (fun m x =>
    dPutData c ring (dst + x.1) ((bs.drop x.1).take x.2) ((ps.drop (x.1 / 8)).take ((x.2 + 7) / 8)) m) m

/-- Sends a run of a source to another module (11 R400). -/
def dPut (c ring : Nat) (job : Bool) (src dst n : Nat) (m : DMove) : DMove :=
  match m.err with
  | some _ => m
  | none =>
    let g := dRead m.st c job src n
    match g.err with
    | some e => { m with st := g.st, err := some e }
    | none => dPutRun c ring dst g.data g.pois { m with st := g.st }

def spAll : List Nat := [0, 1, 2, 3, 4, 5, 6]

def copyChecks (s : State) (c : Nat) (job : Bool) (ws : List Nat) : List (Option DErr) :=
  let p := patOf ws 3
  let (src, dst) := (dWord ws 1, dWord ws 2)
  let drn := dDRN ws
  [badField (dField ws 0 31 0 != 0 || dField ws 3 27 20 != 0 || p.l0 == 0 || (drn && src != 0)),
   dAlign src p.l0 p.ss, dAlign dst p.l0 p.ds] ++
  (if drn then [] else [dIf (!spAll.contains (aTag src)) 0x04 src] ++ p.runs.map (fun r => hostRefusal s c job false (aMove src r.1) p.l0)) ++
  [dIf (!(7 :: spAll).contains (aTag dst)) 0x04 dst] ++ p.runs.map (fun r => hostRefusal s c job true (aMove dst r.2) p.l0) ++
  (if drn then [] else [dExtent s c job spAll src (p.reach p.ss)]) ++ [dExtent s c job (7 :: spAll) dst (p.reach p.ds)]

def copyOp (s : State) (c ring : Nat) (job : Bool) (ws : List Nat) : DEnd :=
  let p := patOf ws 3
  let (src, dst) := (dWord ws 1, dWord ws 2)
  dGuard s c job ws (copyChecks s c job ws) (fun _ =>
    if dDRN ws then { st := s, phase := .drainWait }
    else if aTag dst = 7 then
      { dEnd (p.runs.foldl (fun m r => dPut c ring job (aMove src r.1) (aMove dst r.2) p.l0 m) ⟨s, none, 0⟩) with phase := .fabric }
    else dEnd (p.runs.foldl (fun m r => dRun c job p src (aMove src r.1) (aMove dst r.2) m) ⟨s, none, 0⟩))

/-- One line of a run-ahead fetch, dropped without report where it meets poison: the page it is in, the state, bytes fetched (08 R300, 07 R281–R283). -/
def prefetchPiece (c : Nat) (x : State × Nat × Option (Option TlbEntry)) (a n : Nat) : State × Nat × Option (Option TlbEntry) :=
  match x.2.2 with
  | none => x
  | some prev =>
    let s := x.1
    let va := a % 2 ^ 48
    match tlbFind (getCore s c) 4 va with
    | none => (s, x.2.1, none)
    | some e =>
      let go := match prev with
        | none => true
        | some q => (q.level == e.level && q.vpn == e.vpn) || (leafP e.leaf && leafSlot q.leaf == leafSlot e.leaf)
      let pa := leafPa e va
      if !go || bitOf e.leaf 3 || leafSH e.leaf || !slotHasKey s (leafSlot e.leaf) then (s, x.2.1, none)
      else if !leafC e.leaf || (getCore s c).mem.mc.csteps == 0 || (gcFind (getCore s c) (pa / 256) (leafSlot e.leaf)).isSome then
        (s, x.2.1, some (some e))
      else
        let g := bulkRead s (pa / 256 * 256) 256
        if g.poison then (s, x.2.1, some (some e))
        else ((gcFill g.st c (pa / 256) (leafSlot e.leaf)).2, x.2.1 + n, some (some e))

def prefetchRun (c src : Nat) (x : State × Nat) (n : Nat) : State × Nat :=
  let r := (cutsOf src n).foldl (fun y d => prefetchPiece c y (src + d.1) d.2) (x.1, x.2, some none)
  (r.1, r.2.1)

/-- COPY with PF = 1: it always ends OK once its fields are allowed. -/
def prefetchOp (s : State) (c : Nat) (job : Bool) (ws : List Nat) : DEnd :=
  let p := patOf ws 3
  let src := dWord ws 1
  dGuard s c job ws
    [badField (dField ws 0 31 0 != 0 || dField ws 3 27 20 != 0 || p.l0 == 0 || dWord ws 2 != 0 || dDRN ws),
     dAlign src p.l0 p.ss, dAlign 0 p.l0 p.ds, dExtent s c job [4] src (p.reach p.ss)]
    (fun _ =>
      let r := p.runs.foldl (fun x d => prefetchRun c (aMove src d.1) x p.l0) (s, 0)
      { st := r.1, result := r.2 })

/-! ## GATHER and SCATTER_ADD (08 R303, R304) -/

/-- The index list: each index, or the address of the uncorrectable word that holds it. -/
def readIndices (s : State) (c : Nat) (job : Bool) (ws : List Nat) : List (Nat ⊕ Nat) × Option DErr × State :=
  let idx := dWord ws 3
  let n := dField ws 4 31 0
  let sz := if (dWord ws 0).testBit 29 then 8 else 4
  let g := dRead s c job idx (n * sz)
  ((List.range n).map (fun i =>
    if g.pois.getD (i * sz / 8) false then .inr (idx + i * sz / 8 * 8) else .inl (bytesAt g.data (i * sz) sz)), g.err, g.st)

/-- Windows of 1,024 entries in ascending order of the indexed address; entries of equal address in list order, or, with free, in an
order no rule states. -/
def sortWindows (free : Bool) (draw : Nat) (stride : Int) (es : List (Nat × Nat)) : List (Nat × Nat) :=
  (List.range ((es.length + 1023) / 1024)).flatMap (fun k =>
    ((((es.drop (1024 * k)).take 1024).map (fun e => (stride * e.2, (if free then Config.draw (draw + e.1) else 0), e))).insertionSort
      (fun a b => a.1 < b.1 ∨ (a.1 = b.1 ∧ a.2.1 ≤ b.2.1))).map (·.2.2))

def gsDstr (ws : List Nat) : Int := signedN 32 (dWord ws 5 / 2 ^ 32)
def gsSstr (ws : List Nat) : Int := signedN 32 (dWord ws 5 % 2 ^ 32)
def gsRowb (ws : List Nat) : Nat := dField ws 0 19 0
def gsN (ws : List Nat) : Nat := dField ws 4 31 0
def gsSize (ws : List Nat) : Nat := if (dWord ws 0).testBit 29 then 8 else 4

def lineReach (stride : Int) (n rowb : Nat) : Int × Nat :=
  let d : Int := stride * ((n - 1 : Nat) : Int)
  (min 0 d, d.natAbs + rowb)

/-- The fields GATHER and SCATTER_ADD share. -/
def gsBad (ws : List Nat) : Bool :=
  dField ws 0 28 20 != 0 || gsRowb ws == 0 || dField ws 4 63 32 != 0 || gsN ws == 0 || dWord ws 6 != 0

/-- Entries whose index is known, as (entry, index). -/
def goodEntries (ix : List (Nat ⊕ Nat)) : List (Nat × Nat) :=
  (ix.zip (List.range ix.length)).filterMap (fun x => match x.1 with
    | .inl v => some (x.2, v)
    | .inr _ => none)

def badEntries (ix : List (Nat ⊕ Nat)) : List (Nat × Nat) :=
  (ix.zip (List.range ix.length)).filterMap (fun x => match x.1 with
    | .inl _ => none
    | .inr a => some (x.2, a))

def gatherSrc : List Nat := [0, 1, 2, 3, 4, 6]

def gatherOp (s : State) (c : Nat) (job : Bool) (ws : List Nat) : DEnd :=
  let (src, dst, idx) := (dWord ws 1, dWord ws 2, dWord ws 3)
  let (rowb, n) := (gsRowb ws, gsN ws)
  dGuard s c job ws
    [badField (gsBad ws || dField ws 0 31 30 != 0),
     dAlign src rowb [gsSstr ws], dAlign dst rowb [gsDstr ws], dIf (idx % 8 != 0) 0x03 idx,
     dIf (!gatherSrc.contains (aTag src)) 0x04 src, dIf (!spNear.contains (aTag dst)) 0x04 dst,
     dIf (!spLG.contains (aTag idx)) 0x04 idx, dCheck s c job spLG idx 0 (n * gsSize ws),
     dExtent s c job spNear dst (lineReach (gsDstr ws) n rowb)]
    (fun _ =>
      let (ix, e, s) := readIndices s c job ws
      let good := goodEntries ix
      match dLowest (e :: good.map (fun x => hostRefusal s c job false (aMove src (gsSstr ws * x.2)) rowb) ++
          good.map (fun x => dCheck s c job gatherSrc src (gsSstr ws * x.2) rowb)) with
      | some e => dFail s e
      | none =>
        let m := (badEntries ix).foldl (fun m x => dPoison c job (aMove dst (gsDstr ws * x.1)) rowb m) (⟨s, none, 0⟩ : DMove)
        let m := (sortWindows false 0 (gsSstr ws) good).foldl (fun m x =>
          dCopy c job (aMove src (gsSstr ws * x.2)) (aMove dst (gsDstr ws * x.1)) rowb m) m
        dEnd { m with done := if m.err.isNone then n else m.done / rowb })

def scatterDst : List Nat := [0, 1, 2, 3, 4]

/-- ADDF of a SCATTER_ADD. -/
def scAddf (ws : List Nat) : Nat := dField ws 0 31 30

/-- One row stored or added at a destination. -/
def scatterRow (c : Nat) (job : Bool) (addf dst : Nat) (bs : List Byte) (pois : List Bool) (m : DMove) : DMove :=
  match m.err with
  | some _ => m
  | none =>
    let m' := if addf = 0 then
        (let (e, s) := dWrite m.st c job dst bs pois
         { m with st := s, err := e })
      else dAddRow c job (addf == 2) dst bs pois m
    { m' with done := m.done + boolN m'.err.isNone }

def scatterChecks (s : State) (c : Nat) (job : Bool) (ws : List Nat) : List (Option DErr) :=
  let (src, dst, idx) := (dWord ws 1, dWord ws 2, dWord ws 3)
  let (rowb, n) := (gsRowb ws, gsN ws)
  let drn := dDRN ws
  [badField (gsBad ws || scAddf ws == 3 || (drn && src != 0)),
   dAlign src rowb [gsSstr ws], dAlign dst rowb [gsDstr ws], dIf (idx % 8 != 0) 0x03 idx,
   dIf (!drn && !spLG.contains (aTag src)) 0x04 src, dIf (!scatterDst.contains (aTag dst)) 0x04 dst,
   dIf (!spLG.contains (aTag idx)) 0x04 idx, dCheck s c job spLG idx 0 (n * gsSize ws)] ++
  (if drn then [] else [dExtent s c job spLG src (lineReach (gsSstr ws) n rowb)])

/-- The end of a SCATTER_ADD that skipped entries (08 R304). -/
def scatterEnd (m : DMove) (ix : List (Nat ⊕ Nat)) : DEnd :=
  match m.err, badEntries ix with
  | none, x :: _ => { st := m.st, status := 0x11, addr := x.2, result := m.done }
  | _, _ => dEnd m

def scatterOp (s : State) (c : Nat) (job : Bool) (ws : List Nat) : DEnd :=
  let (src, dst) := (dWord ws 1, dWord ws 2)
  let rowb := gsRowb ws
  dGuard s c job ws (scatterChecks s c job ws) (fun _ =>
    let (ix, e, s) := readIndices s c job ws
    let good := goodEntries ix
    match dFirst (e :: good.map (fun x => dCheck s c job scatterDst dst (gsDstr ws * x.2) rowb)) with
    | some e => dFail s e
    | none =>
      if dDRN ws then { st := s, phase := .drainWait }
      else
        let free := scAddf ws != 0
        let order := sortWindows free s.draws (gsDstr ws) good
        let s := if free then { s with draws := s.draws + ix.length } else s
        let m := order.foldl (fun (m : DMove) x =>
          match m.err with
          | some _ => m
          | none =>
            let g := dRead m.st c job (aMove src (gsSstr ws * x.1)) rowb
            match g.err with
            | some e => { m with st := g.st, err := some e }
            | none => scatterRow c job (scAddf ws) (aMove dst (gsDstr ws * x.2)) g.data g.pois { m with st := g.st })
          (⟨s, none, 0⟩ : DMove)
        scatterEnd m ix)

/-! ## SORT_GATHER (08 R305–R307) -/

/-- Bytes read, with a free value for every poisoned word (no rule states what the Drill computes from it). -/
def dFree (g : DGot) : List Byte × State :=
  let n := (g.data.length + 7) / 8
  ((List.range n).flatMap (fun i =>
    let w := (g.data.drop (8 * i)).take 8
    if g.pois.getD i false then toBytes w.length (Config.draw (g.st.draws + i)) else w),
   if g.pois.any id then { g.st with draws := g.st.draws + n } else g.st)

/-- The rank field's K granules minus one (08 R306). -/
def rankKG (rank : Nat) : Nat := match rank with
  | 0 => 0
  | 1 => 1
  | 2 => 3
  | _ => 7

def tagHas (t : Nat) : Bool := t.testBit 31
def tagAdapter (t : Nat) : Nat := fieldN t 29 16
def tagSlot (t : Nat) : Nat := t % 2 ^ 14

/-- An output tile as it is built: its rows as (window row, or none for padding) and its segment entries. -/
structure SGTile where
  rows : List (Option Nat)
  ents : List Nat

/-- Sets LAST of the newest entry. -/
def sgLast (l : List Nat) (i : Nat) : List Nat := l.dropLast ++ [setFieldN (l.getLastD 0) 9 5 i]

/-- One row in the order of R306: closed tiles (newest first), the open tile, the previous adapter. -/
def sgStep (tbbase : Nat) (tag rank : Nat → Nat) (x : List SGTile × SGTile × Option Nat) (j : Nat) : List SGTile × SGTile × Option Nat :=
  let (closed, cur, prev) := x
  let (closed, cur, prev) := if cur.rows.length = 32 then (cur :: closed, ⟨[], []⟩, none) else (closed, cur, prev)
  let t := tag j
  if tagHas t then
    if prev = some (tagAdapter t) then
      (closed, ⟨cur.rows ++ [some j], sgLast cur.ents cur.rows.length⟩, prev)
    else
      let (closed, cur) := if cur.ents.length = 8 then
          ((⟨cur.rows ++ List.replicate (32 - cur.rows.length) none, cur.ents⟩ : SGTile) :: closed, (⟨[], []⟩ : SGTile))
        else (closed, cur)
      let e := 2 ^ 15 + (tbbase + cur.ents.length) % 32 * 2 ^ 10 + cur.rows.length * 2 ^ 5 + rankKG (rank (tagAdapter t)) * 2 ^ 2
      (closed, ⟨cur.rows ++ [some j], cur.ents ++ [e]⟩, some (tagAdapter t))
  else (closed, ⟨cur.rows ++ [some j], cur.ents⟩, prev)

def sgTiles (tbbase : Nat) (tag rank : Nat → Nat) (order : List Nat) : List SGTile :=
  let (closed, cur, _) := order.foldl (sgStep tbbase tag rank) ([], ⟨[], []⟩, none)
  (⟨cur.rows ++ List.replicate (32 - cur.rows.length) none, cur.ents⟩ :: closed).reverse

/-- The order of the window's rows. -/
def sgOrder (tags : List Nat) : List Nat :=
  ((List.range tags.length).map (fun j => (if tagHas (tags.getD j 0) then tagAdapter (tags.getD j 0) else 2 ^ 14, j))).insertionSort
    (fun a b => a.1 ≤ b.1) |>.map (·.2)

def sgNM (ws : List Nat) : Nat := dField ws 0 31 22 + 1
def sgRowb (ws : List Nat) : Nat := dField ws 0 15 0
def sgSstr (ws : List Nat) : Int := signedN 32 (dWord ws 4 % 2 ^ 32)
def sgDstr (ws : List Nat) : Int := signedN 32 (dWord ws 4 / 2 ^ 32)

def sgChecks (s : State) (c : Nat) (job : Bool) (ws : List Nat) : List (Option DErr) :=
  let (src, dst) := (dWord ws 1, dWord ws 2)
  let (n, rowb) := (sgNM ws, sgRowb ws)
  let tiles := (n + 7) / 8
  let (dtag, tags, perm, segd) := (dSO (dField ws 5 47 24), dSO (dField ws 5 23 0), dSO (dField ws 6 47 24), dSO (dField ws 6 23 0))
  [badField (24 < dField ws 0 21 17 || (dWord ws 0).testBit 16 || rowb == 0 || dField ws 3 63 48 != 0 || dField ws 5 63 48 != 0 ||
     dField ws 6 63 48 != 0),
   dAlign src rowb [sgSstr ws], dAlign dst rowb [sgDstr ws],
   dIf (dField ws 3 47 0 % 64 != 0) 0x03 (dField ws 3 47 0)] ++
  [dtag, tags, perm, segd].map (fun a => dIf (a % 8 != 0) 0x03 a) ++
  [dIf (!spNear.contains (aTag src)) 0x04 src, dIf (!spLG.contains (aTag dst)) 0x04 dst,
   dExtent s c job spNear src (lineReach (sgSstr ws) n rowb), dExtent s c job spLG dst (lineReach (sgDstr ws) (32 * tiles) rowb),
   dCheck s c job spLG tags 0 (4 * n), dCheck s c job spLG dtag 0 (128 * tiles), dCheck s c job spLG perm 0 (64 * tiles),
   dCheck s c job spLG segd 0 (16 * tiles)]

/-- Reads the table entries of the adapters a window names: (adapter, first word, its poison). -/
def sgTable (c : Nat) (job : Bool) (atab : Nat) (as : List Nat) (s : State) : List (Nat × Nat × Bool) × Option DErr × State :=
  as.foldl (fun x a =>
    match x.2.1 with
    | some _ => x
    | none =>
      let g := dRead x.2.2 c job (4 * 2 ^ 56 + atab + 64 * a) 8
      match g.err with
      | some e => (x.1, some e, g.st)
      | none => let (bs, s) := dFree g; ((a, ofBytes bs, g.pois.any id) :: x.1, none, s)) ([], none, s)

/-- The poison of the words that a list of entries, k to a word, fills. -/
def anyOf (k : Nat) : Nat → List Bool → List Bool
  | 0, _ => []
  | n + 1, l => if l.isEmpty then [] else (l.take k).any id :: anyOf k n (l.drop k)

/-- Writes one closed tile: rows, tags, origins and its segment descriptor. bad: what a window row's tag and table entry were built from holds a
poisoned word; the output words built from it are poison (07 R275). -/
def sgWrite (c : Nat) (job : Bool) (ws : List Nat) (tags : List Nat) (bad : Nat → Bool × Bool) (m : DMove) (x : SGTile × Nat) : DMove :=
  let (src, dst, rowb) := (dWord ws 1, dWord ws 2, sgRowb ws)
  let (dtag, perm, segd) := (dSO (dField ws 5 47 24), dSO (dField ws 6 47 24), dSO (dField ws 6 23 0))
  let put (a : Nat) (bs : List Byte) (ps : List Bool) (m : DMove) : DMove :=
    match m.err with
    | some _ => m
    | none => let (e, s) := dWrite m.st c job a bs ps; { m with st := s, err := e }
  let tagBad := x.1.rows.map (fun r => match r with
    | some j => (bad j).1
    | none => false)
  let segBad := x.1.rows.any (fun r => match r with
    | some j => (bad j).1 || (bad j).2
    | none => false)
  let rows := x.1.rows.zip (List.range 32)
  let m := rows.foldl (fun m r =>
    let dest := aMove dst (sgDstr ws * ((32 * x.2 + r.2 : Nat) : Int))
    match r.1 with
    | some j => dCopy c job (aMove src (sgSstr ws * j)) dest rowb m
    | none => put dest (List.replicate rowb 0) [] m) m
  let m := put (dtag + 128 * x.2) (x.1.rows.flatMap (fun r => toBytes 4 (match r with
    | some j => tags.getD j 0
    | none => 0))) (anyOf 2 16 tagBad) m
  let m := put (perm + 64 * x.2) (x.1.rows.flatMap (fun r => toBytes 2 (r.getD 0xFFFF))) (anyOf 4 8 tagBad) m
  let m := put (segd + 16 * x.2) (takeBytes 16 (x.1.ents.flatMap (toBytes 2))) [segBad, segBad] m
  { m with done := m.done + boolN m.err.isNone }

def sortGatherOp (s : State) (c : Nat) (job : Bool) (ws : List Nat) : DEnd :=
  dGuard s c job ws (sgChecks s c job ws) (fun _ =>
    let n := sgNM ws
    let g := dRead s c job (dSO (dField ws 5 23 0)) (4 * n)
    match g.err with
    | some e => dFail g.st e
    | none =>
      let (bs, s) := dFree g
      let tags := (List.range n).map (fun j => bytesAt bs (4 * j) 4)
      let order := sgOrder tags
      let adapters := ((order.filter (fun j => tagHas (tags.getD j 0))).map (fun j => tagAdapter (tags.getD j 0))).dedup
      let (tab, e, s) := sgTable c job (dField ws 3 47 0) adapters s
      match e with
      | some e => dFail s e
      | none =>
        let row (a : Nat) : Nat × Bool := ((tab.find? (fun x => x.1 == a)).map (·.2)).getD (0, false)
        let entry (a : Nat) : Nat := (row a).1
        let pois (j : Nat) : Bool × Bool :=
          (g.pois.getD (j / 2) false, tagHas (tags.getD j 0) && (row (tagAdapter (tags.getD j 0))).2)
        let bad (j : Nat) : Bool :=
          let t := tags.getD j 0
          let w := entry (tagAdapter t)
          tagHas t && (!w.testBit 63 || 4 < fieldN w 62 60 || fieldN w 55 42 != tagSlot t)
        match (List.range n).find? bad with
        | some j => dFail s (0x0A, j)
        | none =>
          let tiles := sgTiles (dField ws 0 21 17) (fun j => tags.getD j 0) (fun a => fieldN (entry a) 62 60) order
          dEnd ((tiles.zip (List.range tiles.length)).foldl (sgWrite c job ws tags pois) (⟨s, none, 0⟩ : DMove)))

/-! ## TRANSPOSE and CONVERT (08 R308–R310) -/

def tcIfmt (ws : List Nat) : Nat := dField ws 0 31 28
def tcOfmt (ws : List Nat) : Nat := dField ws 0 27 24
def tcBit (ws : List Nat) (i : Nat) : Bool := (dWord ws 0).testBit i
def tcRows (ws : List Nat) : Nat := dField ws 3 47 32
def tcCols (ws : List Nat) : Nat := dField ws 3 15 0
/-- Bits of a source and of an output element. -/
def tcIn (ws : List Nat) : Nat := if tcBit ws 19 then fmtBits (tcIfmt ws) else 8 * 2 ^ dField ws 0 21 20
def tcOut (ws : List Nat) : Nat := if tcBit ws 19 then fmtBits (tcOfmt ws) else 8 * 2 ^ dField ws 0 21 20
def tcSign (ws : List Nat) : Bool := tcBit ws 19 && tcOfmt ws == 0xA

/-- Output rows and their length in elements. -/
def tcORows (tr : Bool) (ws : List Nat) : Nat := if tr then tcCols ws else tcRows ws
def tcOLen (tr : Bool) (ws : List Nat) : Nat := if tr then tcRows ws else tcCols ws

/-- Bytes of an output row: TRANSPOSE fills its last 8-byte granule with zeros (05 R206). -/
def tcOBytes (tr : Bool) (ws : List Nat) : Nat :=
  let n := (tcOLen tr ws * tcOut ws + 7) / 8
  if tcSign ws then 8 * ((tcCols ws + 31) / 32) else if tr then roundUp n 8 else n

def tcBad (tr : Bool) (ws : List Nat) : Bool :=
  dField ws 0 14 0 != 0 || dField ws 3 63 48 != 0 || dField ws 3 31 16 != 0 || tcRows ws == 0 || tcCols ws == 0 ||
  dField ws 5 63 48 != 0 || dField ws 6 63 48 != 0 ||
  (if tcBit ws 19 then
    !fmtAssigned (tcIfmt ws) || !(fmtAssigned (tcOfmt ws) || (!tr && tcOfmt ws == 0xA)) || dField ws 0 23 22 == 3 ||
      (tcBit ws 17 && !fmtMX (tcOfmt ws)) ||
      (tcSign ws && (dField ws 0 23 22 != 0 || tcBit ws 17 || tcBit ws 15 || dField ws 5 47 24 != 0))
   else !tr || dField ws 0 21 20 == 3 || dField ws 0 31 22 != 0 || dField ws 0 18 15 != 0)

/-- The scale areas a descriptor uses: (address, bytes). -/
def tcAreas (tr : Bool) (ws : List Nat) : List (Nat × Nat) :=
  let r := tcRows ws
  (if tcBit ws 16 then [(dSO (dField ws 5 23 0), 4 * r)] else []) ++ (if tcBit ws 15 then [(dSO (dField ws 5 47 24), 4 * r)] else []) ++
    (if tcBit ws 18 then [(dSO (dField ws 6 23 0), r * ((tcCols ws + 31) / 32))] else []) ++
    (if tcBit ws 17 then
      [(dSO (dField ws 6 47 24), 128 * ((tcORows tr ws + 31) / 32) * ((tcOLen tr ws + 127) / 128))] else [])

def tcChecks (s : State) (c : Nat) (job tr : Bool) (ws : List Nat) : List (Option DErr) :=
  let (src, dst) := (dWord ws 1, dWord ws 2)
  let (sp, dp) := (dWord ws 4 % 2 ^ 32, dWord ws 4 / 2 ^ 32)
  [badField (tcBad tr ws), dAlign src sp [], dAlign dst dp []] ++
  (tcAreas tr ws).map (fun x => dIf (x.1 % 8 != 0) 0x03 x.1) ++
  [dIf (!spNear.contains (aTag src)) 0x04 src, dIf (!spNear.contains (aTag dst)) 0x04 dst,
   dCheck s c job spNear src 0 (sp * (tcRows ws - 1) + (tcCols ws * tcIn ws + 7) / 8),
   dCheck s c job spNear dst 0 (dp * (tcORows tr ws - 1) + tcOBytes tr ws)] ++
  (tcAreas tr ws).map (fun x => dCheck s c job spLG x.1 0 x.2)

/-- A list of reads, made in order. -/
def readAll (c : Nat) (job : Bool) (s : State) (l : List (Nat × Nat)) : List DGot × Option DErr × State :=
  l.foldl (fun x a =>
    match x.2.1 with
    | some _ => x
    | none => let g := dRead x.2.2 c job a.1 a.2; (x.1 ++ [g], g.err, g.st)) ([], none, s)

/-- A read's bits [k·n + k − 1 : k·n] and the poison of their word. -/
def DGot.bits (g : DGot) (k n : Nat) : Nat × Bool :=
  (bytesAt g.data (k * n / 8) ((k + 7) / 8) / 2 ^ (k * n % 8) % 2 ^ k, g.pois.getD (k * n / 64) false)

/-- The value of source element (r, j) as FP32, and whether anything it comes from is poisoned (08 R309). -/
def tcValue (ws : List Nat) (rows : List DGot) (sa sb sci : DGot) (r j : Nat) : Nat × Bool :=
  let none' : DGot := ⟨[], [], none, State.reset⟩
  let (raw, p) := (rows.getD r none').bits (tcIn ws) j
  let f := tcIfmt ws
  let d := decodeElem f raw
  let (x, p) := if tcBit ws 18 then
      (let (sc, q) := sci.bits 8 (r * ((tcCols ws + 31) / 32) + j / 32)
       (f32scaled sc (if f = 7 then d.scale (-6) else d), p || q))
    else (f32exact d, p)
  let mulBy (on : Bool) (g : DGot) (x : Nat × Bool) : Nat × Bool :=
    if on then (let (y, q) := g.bits 32 r; (f32mul x.1 y, x.2 || q)) else x
  mulBy (tcBit ws 15) sb (mulBy (tcBit ws 16) sa (x, p))

/-- The elements of a block of an output row: raw bits; the block scale with MXO (04 R167). Draw n serves the first. -/
def tcBlock (rng : BitVec 256) (ws : List Nat) (n : Nat) (vs : List Nat) : List Nat × Nat :=
  let fmt := tcOfmt ws
  let mode (i : Nat) : Rnd := rndOf (dField ws 0 23 22) rng (n + i)
  if tcBit ws 17 then
    let hasNan := vs.any f32isNan
    let x := mxScaleOf fmt (rowMax vs) hasNan
    ((vs.zip (List.range vs.length)).map (fun v =>
      if hasNan then 0
      else (convertElem fmt (mode v.2) ((fp32 v.1).scale (127 - (x : Int) + (if fmt = 7 then 6 else 0)))).1), x)
  else ((vs.zip (List.range vs.length)).map (fun v => if fmt = 8 then v.1 else (convertElem fmt (mode v.2) (fp32 v.1)).1), 0x7F)

/-- Packs elements of k bits. -/
def packBits (k : Nat) : List Nat → Nat
  | [] => 0
  | r :: rs => r % 2 ^ k + (packBits k rs) <<< k

/-- An output row: its bytes, the poison of each word, its block scales with their poison. -/
def tcRow (rng : BitVec 256) (tr : Bool) (ws : List Nat) (draw : Nat) (value : Nat → Nat → Nat × Bool) (raw : Nat → Nat → Nat × Bool) (k : Nat) :
    List Byte × List Bool × List (Nat × Bool) :=
  let len := tcOLen tr ws
  let at_ (f : Nat → Nat → Nat × Bool) (j : Nat) : Nat × Bool := if tr then f j k else f k j
  if tcSign ws then
    let gs := (List.range ((len + 31) / 32)).map (fun g =>
      let es := (List.range (min 32 (len - 32 * g))).map (fun n => at_ value (32 * g + n))
      ((es.zip (List.range 32)).foldl (fun a e => if (FV.num false 0 0).lt (fp32 e.1.1) then a + 2 ^ e.2 else a) 0, es.any (·.2)))
    (gs.flatMap (fun g => toBytes 8 g.1), gs.map (·.2), [])
  else
    let blocks := if tcBit ws 19 then
        (List.range ((len + 31) / 32)).map (fun b =>
          let es := (List.range (min 32 (len - 32 * b))).map (fun n => at_ value (32 * b + n))
          let (rs, x) := tcBlock rng ws (draw + len * k + 32 * b) (es.map (·.1))
          (rs.zip (es.map (fun e => e.2 || (tcBit ws 17 && es.any (·.2)))), (x, es.any (·.2))))
      else [((List.range len).map (at_ raw), (0, false))]
    let es := blocks.flatMap (·.1)
    let nb := tcOBytes tr ws
    (toBytes nb (packBits (tcOut ws) (es.map (·.1))),
     (List.range ((nb + 7) / 8)).map (fun w =>
       ((es.zip (List.range es.length)).filter (fun e => e.2 * tcOut ws / 64 == w)).any (·.1.2)),
     blocks.map (·.2))

/-- The sideband images of MXO (08 R310), and the poison of their words. -/
def tcImages (tr : Bool) (ws : List Nat) (scales : List (List (Nat × Bool))) : List Byte × List Bool :=
  let q := (tcOLen tr ws + 127) / 128
  let p := (tcORows tr ws + 31) / 32
  let cells := (List.range (p * q)).flatMap (fun t => (List.range 128).map (fun i =>
    ((scales.getD (32 * (t / q) + i / 4) []).getD (4 * (t % q) + i % 4) (0x7F, false))))
  (cells.map (fun x => BitVec.ofNat 8 x.1),
   (List.range (p * q * 16)).map (fun w => ((cells.drop (8 * w)).take 8).any (·.2)))

def convertOp (tr : Bool) (s : State) (c : Nat) (job : Bool) (ws : List Nat) : DEnd :=
  dGuard s c job ws (tcChecks s c job tr ws) (fun _ =>
    let (src, dst) := (dWord ws 1, dWord ws 2)
    let (sp, dp) := (dWord ws 4 % 2 ^ 32, dWord ws 4 / 2 ^ 32)
    let r := tcRows ws
    let (rows, e, s) := readAll c job s ((List.range r).map (fun i => (src + sp * i, (tcCols ws * tcIn ws + 7) / 8)))
    let area (on : Bool) (f n : Nat) : List (Nat × Nat) := [(dSO f, if on then n else 0)]
    let (sc, e', s) := readAll c job s (area (tcBit ws 16) (dField ws 5 23 0) (4 * r) ++
      area (tcBit ws 15) (dField ws 5 47 24) (4 * r) ++ area (tcBit ws 18) (dField ws 6 23 0) (r * ((tcCols ws + 31) / 32)))
    match dFirst [e, e'] with
    | some e => dFail s e
    | none =>
      let none' : DGot := ⟨[], [], none, State.reset⟩
      let raw (i j : Nat) : Nat × Bool := (rows.getD i none').bits (tcIn ws) j
      let value := tcValue ws rows (sc.getD 0 none') (sc.getD 1 none') (sc.getD 2 none')
      let out := (List.range (tcORows tr ws)).map (tcRow (rngState s c) tr ws s.draws value raw)
      let s := if tcBit ws 19 && dField ws 0 23 22 == 2 then { s with draws := s.draws + tcORows tr ws * tcOLen tr ws } else s
      let m := (out.zip (List.range out.length)).foldl (fun (m : DMove) x =>
        match m.err with
        | some _ => m
        | none =>
          dPutBytes c job (dst + dp * x.2) x.1.1 x.1.2.1 m) (⟨s, none, 0⟩ : DMove)
      match m.err, tcBit ws 17 with
      | none, true =>
        let (bs, ps) := tcImages tr ws (out.map (·.2.2))
        dEnd (dPutBytes c job (dSO (dField ws 6 47 24)) bs ps m)
      | _, _ => dEnd m)

/-! ## SKEW (08 R311, R312) -/

/-- A run of 4-byte groups with the poison of their words. -/
def groupsOf (bs : List Byte) (ps : List Bool) : List (Nat × Bool) :=
  (List.range (bs.length / 4)).map (fun k => (bytesAt bs (4 * k) 4, ps.getD (k / 2) false))

def ofGroups (gs : List (Nat × Bool)) : List Byte × List Bool :=
  (gs.flatMap (fun g => toBytes 4 g.1),
   (List.range ((gs.length + 1) / 2)).map (fun w => (gs.getD (2 * w) (0, false)).2 || (gs.getD (2 * w + 1) (0, false)).2))

/-- Groups of consecutive 64-byte rows, skewed: slot group s of row i holds tile group (s − i) mod 16; with un, the inverse. -/
def skewGroups (un : Bool) (gs : List (Nat × Bool)) : List (Nat × Bool) :=
  (List.range gs.length).map (fun n =>
    let i := n / 16
    gs.getD (16 * i + (if un then n + i else n + 15 * i) % 16) (0, false))

def skewChecks (s : State) (c : Nat) (job un : Bool) (ws : List Nat) : List (Option DErr) :=
  let p := patOf ws 3
  let (src, dst) := (dWord ws 1, dWord ws 2)
  let (flat, other) := if un then (src, dst) else (dst, src)
  let (used, zero) := if un then (p.ds, p.ss) else (p.ss, p.ds)
  [badField (dField ws 0 31 1 != 0 || dField ws 3 27 20 != 0 || p.l0 == 0 || zero.any (· != 0)),
   dAlign other p.l0 used, dIf (flat % 64 != 0) 0x03 flat, dIf (p.total % 64 != 0) 0x03 noAddr,
   dIf (!spNear.contains (aTag other)) 0x04 other, dIf (!spLG.contains (aTag flat)) 0x04 flat,
   dExtent s c job spNear other (p.reach used), dCheck s c job spLG flat 0 p.total]

def skewOp (s : State) (c : Nat) (job : Bool) (ws : List Nat) : DEnd :=
  let p := patOf ws 3
  dGuard s c job ws (skewChecks s c job false ws) (fun _ =>
    let (gs, e, s) := readAll c job s (p.runs.map (fun r => (aMove (dWord ws 1) r.1, p.l0)))
    match e with
    | some e => dFail s e
    | none =>
      let (bs, ps) := ofGroups (skewGroups false (groupsOf (gs.flatMap (·.data)) (gs.flatMap (·.pois))))
      dEnd (dPutBytes c job (dWord ws 2) bs ps ⟨s, none, 0⟩))

def unskewOp (s : State) (c : Nat) (job : Bool) (ws : List Nat) : DEnd :=
  let p := patOf ws 3
  dGuard s c job ws (skewChecks s c job true ws) (fun _ =>
    let g := dRead s c job (dWord ws 1) p.total
    match g.err with
    | some e => dFail g.st e
    | none =>
      let (bs, ps) := ofGroups (skewGroups true (groupsOf g.data g.pois))
      dEnd ((p.runs.zip (List.range p.runs.length)).foldl (fun (m : DMove) x =>
        match m.err with
        | some _ => m
        | none =>
          dPutBytes c job (aMove (dWord ws 2) x.1.2) ((bs.drop (p.l0 * x.2)).take p.l0)
            ((ps.drop (p.l0 * x.2 / 8)).take (p.l0 / 8)) m) (⟨g.st, none, 0⟩ : DMove)))

/-! ## SOW (08 R302, 01 R38–R41) -/

/-- A sow target: form, rows, columns, mask. -/
structure SowTarget where
  mode : Nat
  r0 : Nat
  r1 : Nat
  c0 : Nat
  c1 : Nat
  mask : Nat
  deriving DecidableEq, Repr

/-- The target fields of a descriptor (bits [29:6]) or of a schedule entry (moved down by 6). -/
def targetOf (mode fields mask : Nat) : SowTarget :=
  { mode := mode, r0 := fieldN fields 23 18, r1 := fieldN fields 17 12, c0 := fieldN fields 11 6, c1 := fieldN fields 5 0,
    mask := mask % 2 ^ 48 }

def SowTarget.useRows (t : SowTarget) : Bool := t.mode != 1
def SowTarget.useCols (t : SowTarget) : Bool := t.mode != 2

/-- A used pair is out of order. -/
def SowTarget.disordered (t : SowTarget) : Bool := (t.useRows && t.r1 < t.r0) || (t.useCols && t.c1 < t.c0)

/-- A used field or mask bit lies beyond the grid. -/
def SowTarget.beyond (g : Grid) (t : SowTarget) : Bool :=
  (t.useRows && gridRows g ≤ t.r1) || (t.useCols && 48 ≤ t.c1) || (t.mode == 1 && t.mask / 2 ^ gridRows g != 0)

def SowTarget.has (t : SowTarget) (c : Nat) : Bool :=
  (if t.mode = 1 then t.mask.testBit (rowOf c) else decide (t.r0 ≤ rowOf c ∧ rowOf c ≤ t.r1)) &&
    (if t.mode = 2 then t.mask.testBit (colOf c) else decide (t.c0 ≤ colOf c ∧ colOf c ≤ t.c1))

/-- The cores that receive a copy: a hole receives none (01 R39). -/
def sowCores (s : State) (t : SowTarget) : List Nat := (allCores s).filter (fun c => t.has c && !isHole s c)

/-- The copy for a core is refused there: the granary's cache part (08 R292), or the keeper area for a JOB = 1 ring. -/
def sowRefused (s : State) (job gran : Bool) (hi tc : Nat) : Bool :=
  if gran then granEnd (getCore s tc) < hi else job && (getCore s tc).ctl.klim.toNat < hi

/-- One burst of a sow's data, delivered to every target. -/
def sowBurst (c : Nat) (gran : Bool) (ts : List Nat) (a : Nat) (g : DGot) (m : DMove) (x : Nat × Nat) : DMove :=
  match m.err, takeBurst m.st c with
  | some _, _ => m
  | none, none => { m with err := some dAborted }
  | none, some s =>
    let put (s : State) (tc : Nat) : State :=
      writeRun (fun s p a b => coreWrite s gran tc p a b) (a + x.1) ((g.data.drop x.1).take x.2) ((g.pois.drop (x.1 / 8)).take ((x.2 + 7) / 8)) s
    { m with st := ts.foldl put s, done := m.done + x.2 }

/-- The target of a SOW descriptor. -/
def sowTarget (ws : List Nat) : SowTarget := targetOf (dField ws 0 31 30) (dField ws 0 29 6) (dField ws 6 47 0)

def sowOp (s : State) (c : Nat) (job : Bool) (ws : List Nat) : DEnd :=
  let p := patOf ws 2
  let (src, dst) := (dWord ws 1, dWord ws 2)
  let t := sowTarget ws
  let gran := aTag dst == 1
  let (lo, n) := p.reach p.ds
  let wide (a : Int) : Bool := decide (a < 0) || decide ((if gran then 0x500000 else (localEnd : Int)) < a + n)
  dGuard s c job ws
    [badField (dField ws 0 5 0 != 0 || dField ws 3 63 52 != 0 || dField ws 3 27 20 != 0 || p.l0 == 0 || dField ws 6 63 48 != 0 ||
       (t.mode != 3 && t.disordered)), dIf (t.mode == 3) 0x0B noAddr,
     dAlign src p.l0 p.ss, dAlign dst p.l0 p.ds,
     dIf (!spNear.contains (aTag src)) 0x04 src, dIf (!spLG.contains (aTag dst)) 0x04 dst, dIf (t.beyond s.grid) 0x05 noAddr,
     dExtent s c job spNear src (p.reach p.ss), dIf (wide ((aOff dst : Int) + lo)) 0x05 noAddr]
    (fun _ =>
      let (gs, e, s) := readAll c job s (p.runs.map (fun r => (aMove src r.1, p.l0)))
      match e with
      | some e => dFail s e
      | none =>
        let hi := ((aOff dst : Int) + lo).toNat + n
        let all := sowCores s t
        let ts := all.filter (fun tc => !sowRefused s job gran hi tc)
        let m := (p.runs.zip gs).foldl (fun m x =>
          let a := ((aOff dst : Int) + x.1.2).toNat
          (cutsOf a x.2.data.length).foldl (sowBurst c gran ts a x.2) m) (⟨s, none, 0⟩ : DMove)
        if m.err.isNone && all.any (sowRefused s job gran hi) then { dEnd m with status := 0x05, addr := noAddr } else dEnd m)

/-! ## The rows -/

/-- A target of a sow that the tree's branch to it cannot reach: a dead router lies on it, and neither a column-first path nor a detour leads on
(01 R39; notes/assumptions/73.md). -/
def sowCut (s : State) (src : Nat → Nat) (t : SowTarget) (tc : Nat) : Bool :=
  !s.grid.dead.isEmpty && (sowBranch s.grid t.mode (src tc) t.r0 t.r1 t.c0 t.c1 (siteOf s.grid tc)).isNone

/-- A descriptor whose data has no path waits until the map or a detour table gives it one. -/
def opCut (s : State) (c : Nat) (ws : List Nat) : Bool :=
  if dOp ws == 0x0A then (sowCores s (sowTarget ws)).any (sowCut s (fun _ => siteOf s.grid c) (sowTarget ws))
  else [0x01, 0x02, 0x03].contains (dOp ws) && (cutFrom s c (dWord ws 1) || cutFrom s c (dWord ws 2))

/-- Runs an operation on a ring's running descriptor whose OP and PF are the row's. -/
def drillOp (s : State) (c ring op : Nat) (pf : Bool) (f : State → Bool → List Nat → DEnd) : State :=
  let r := getRing s c ring
  match r.cur with
  | some d =>
    if coreExists s c && !isHole s c && !coresHold s && ringOn (getCore s c) r && d.phase == .run && !opCut s c d.words && dOp d.words == op && (op != 0x01 || dPF d.words == pf) then
      let e := f s r.job d.words
      updRing e.st c ring (fun r =>
        { r with cur := some { d with phase := e.phase, status := e.status, addr := e.addr, result := e.result } })
    else s
  | none => s

def execCopy (core ring : Nat) (s : State) : Out := .next (drillOp s core ring 0x01 false (fun s job ws => copyOp s core ring job ws))
def execCopyPrefetch (core ring : Nat) (s : State) : Out :=
  .next (drillOp s core ring 0x01 true (fun s job ws => prefetchOp s core job ws))
def execGather (core ring : Nat) (s : State) : Out := .next (drillOp s core ring 0x02 false (fun s job ws => gatherOp s core job ws))
def execScatterAdd (core ring : Nat) (s : State) : Out :=
  .next (drillOp s core ring 0x03 false (fun s job ws => scatterOp s core job ws))
def execSortGather (core ring : Nat) (s : State) : Out :=
  .next (drillOp s core ring 0x04 false (fun s job ws => sortGatherOp s core job ws))
def execTranspose (core ring : Nat) (s : State) : Out :=
  .next (drillOp s core ring 0x05 false (fun s job ws => convertOp true s core job ws))
def execConvert (core ring : Nat) (s : State) : Out :=
  .next (drillOp s core ring 0x06 false (fun s job ws => convertOp false s core job ws))

/-- The direction of a SKEW descriptor on a ring. -/
def skewDir (s : State) (c ring : Nat) : Bool :=
  match (getRing s c ring).cur with
  | some d => (dWord d.words 0).testBit 0
  | none => false

def execSkew (core ring : Nat) (s : State) : Out :=
  .next (if skewDir s core ring then s else drillOp s core ring 0x07 false (fun s job ws => skewOp s core job ws))
def execUnskew (core ring : Nat) (s : State) : Out :=
  .next (if skewDir s core ring then drillOp s core ring 0x07 false (fun s job ws => unskewOp s core job ws) else s)
def execSow (core ring : Nat) (s : State) : Out := .next (drillOp s core ring 0x0A false (fun s job ws => sowOp s core job ws))

end Sys2Proof.Machine
end

