-- ==== Sys2Proof/Machine/DrillCode.lean ====
section
/-!
DEFINITION. Machine/DrillCode.lean: sheaf pages and images (07 R270–R272, 08 R313) and the tenant ingress and egress of the Drill (08 R314,
13 R460).
-/

namespace Sys2Proof.Machine

/-! ## Sheaf blocks (07 R270, R271) -/

/-- The coded values and the raw stream of a method: 2 FOR8, 3 SPLIT16, 4 SPLIT32. -/
def sheafSplit (method : Nat) (bs : List Byte) : List Nat × List Byte :=
  match method with
  | 2 => (bs.map (·.toNat), [])
  | 3 =>
    let es := (List.range 2048).map (fun i => bytesAt bs (2 * i) 2)
    (es.map (fun e => fieldN e 14 7), es.map (fun e => BitVec.ofNat 8 (e / 2 ^ 15 * 128 + e % 128)))
  | _ =>
    let es := (List.range 1024).map (fun i => bytesAt bs (4 * i) 4)
    (es.map (fun e => fieldN e 30 23), es.flatMap (fun e => toBytes 3 (e / 2 ^ 31 * 2 ^ 23 + e % 2 ^ 23)))

/-- The inverse. -/
def sheafJoin (method : Nat) (vs : List Nat) (raw : List Byte) : List Byte :=
  match method with
  | 2 => vs.map (BitVec.ofNat 8)
  | 3 => (vs.zip (List.range vs.length)).flatMap (fun v =>
      let r := bytesAt raw v.2 1
      toBytes 2 (r / 128 * 2 ^ 15 + v.1 * 128 + r % 128))
  | _ => (vs.zip (List.range vs.length)).flatMap (fun v =>
      let r := bytesAt raw (3 * v.2) 3
      toBytes 4 (r / 2 ^ 23 * 2 ^ 31 + v.1 * 2 ^ 23 + r % 2 ^ 23))

/-- A group of 64 values: BASE the least of them, W the bits the largest difference takes; its bits and their number. -/
def codeGroup (vs : List Nat) : Nat × Nat :=
  let base := vs.foldl min 255
  let span := vs.foldl max 0 - base
  let w := if span = 0 then 0 else Nat.log2 span + 1
  ((vs.reverse.foldl (fun a v => a * 2 ^ w + (v - base)) 0) * 2 ^ 12 + w * 2 ^ 8 + base, 12 + 64 * w)

/-- The coded stream of values in groups of 64; the first argument bounds the groups. -/
def codeGroups : Nat → List Nat → Nat × Nat
  | 0, _ => (0, 0)
  | k + 1, vs =>
    if vs.isEmpty then (0, 0)
    else
      let (g, n) := codeGroup (vs.take 64)
      let (r, m) := codeGroups k (vs.drop 64)
      (g + r * 2 ^ n, n + m)

/-- Decodes n groups from bit pos on: the values and the end, or none where W or a value is out of range. -/
def decodeGroups (bits : Nat) : Nat → Nat → Option (List Nat × Nat)
  | 0, pos => some ([], pos)
  | n + 1, pos =>
    let base := bits / 2 ^ pos % 256
    let w := bits / 2 ^ (pos + 8) % 16
    let vs := (List.range 64).map (fun i => base + bits / 2 ^ (pos + 12 + i * w) % 2 ^ w)
    if 8 < w || vs.any (255 < ·) then none
    else (decodeGroups bits n (pos + 12 + 64 * w)).map (fun r => (vs ++ r.1, r.2))

/-- A coded block: its bytes with the poison of its words. -/
structure SheafBlock where
  len : Nat
  data : List Byte
  pois : List Bool

def sheafHeader (method len coded crc : Nat) : List Byte := toBytes 8 (method * 2 ^ 60 + len * 2 ^ 48 + coded * 2 ^ 32 + crc) ++ toBytes 8 0

def sheafRaw (bs : List Byte) (ps : List Bool) (crc : Nat) : SheafBlock :=
  { len := 65, data := padTo (65 * 64) (sheafHeader 0 65 0 crc ++ bs), pois := [false, false] ++ ps ++ List.replicate 6 false }

/-- A block under methods 2 to 4, or none where the coded form is longer than 4,112 bytes. -/
def sheafCoded (method : Nat) (bs : List Byte) (crc : Nat) : Option SheafBlock :=
  let (vs, raw) := sheafSplit method bs
  let (bits, n) := codeGroups 64 vs
  let coded := (n + 7) / 8
  let form := 16 + roundUp coded 8 + raw.length
  let len := (form + 63) / 64
  if 4112 < form then none
  else some { len := len, data := padTo (64 * len) (sheafHeader method len coded crc ++ padTo (roundUp coded 8) (toBytes coded bits) ++ raw),
              pois := List.replicate (8 * len) false }

/-- A block's bytes with those of poisoned words as zeros. -/
def clearPoison (bs : List Byte) (ps : List Bool) : List Byte :=
  (bs.zip (List.range bs.length)).map (fun x => if ps.getD (x.2 / 8) false then 0 else x.1)

/-- The shortest of the methods a HINT allows, ties to the earlier of ZERO, FOR8, SPLIT16, SPLIT32 and RAW (08 R313). The CRC takes a poisoned word as
zeros, as the unpacker does: what lies under poison is nobody's data. -/
def sheafBlock (hint : Nat) (bs : List Byte) (ps : List Bool) : SheafBlock :=
  let bs := clearPoison bs ps
  let crc := crc32 bs
  if ps.any id then sheafRaw bs ps crc
  else if bs.all (· == 0) then { len := 1, data := padTo 64 (sheafHeader 1 1 0 crc), pois := List.replicate 8 false }
  else
    let ms := if hint = 0 then [2, 3, 4] else [hint]
    (ms.filterMap (fun m => sheafCoded m bs crc) ++ [sheafRaw bs ps crc]).foldl
      (fun b x => if x.len < b.len || b.len = 0 then x else b) { len := 0, data := [], pois := [] }

/-- Decodes a block from its bytes and word poison: its 4,096 bytes and their poison, or none where the unpacker refuses it. -/
def sheafDecode (len : Nat) (bs : List Byte) (ps : List Bool) : Option (List Byte × List Bool) :=
  let h := bytesAt bs 0 8
  let method := fieldN h 63 60
  let coded := fieldN h 47 32
  let clean := List.replicate 512 false
  let crcOk (d : List Byte) : Bool := crc32 d == h % 2 ^ 32
  if (ps.take 2).any id || fieldN h 54 48 != len then none
  else if method = 0 then
    (let ps' := (ps.drop 2).take 512
     let d := clearPoison (takeBytes 4096 (bs.drop 16)) ps'
     if coded = 0 && len = 65 && crcOk d then some (d, ps') else none)
  else if ps.any id then none
  else if method = 1 then
    (let d := List.replicate 4096 0
     if coded = 0 && len = 1 && crcOk d then some (d, clean) else none)
  else if method ≤ 4 then
    (let groups := if method = 2 then 64 else if method = 3 then 32 else 16
     let rawLen := if method = 2 then 0 else if method = 3 then 2048 else 3072
     match decodeGroups (ofBytes (takeBytes coded (bs.drop 16))) groups 0 with
     | none => none
     | some (vs, n) =>
       let d := sheafJoin method vs (takeBytes rawLen (bs.drop (16 + roundUp coded 8)))
       if coded = (n + 7) / 8 && len = (16 + roundUp coded 8 + rawLen + 63) / 64 && crcOk d then some (d, clean) else none)
  else none

/-! ## Images (07 R272) -/

/-- A page as an image: index, then the blocks. -/
def sheafImage (hint : Nat) (bs : List Byte) (ps : List Bool) : Nat × List Byte × List Bool :=
  let blocks := (List.range 16).map (fun i => sheafBlock hint ((bs.drop (4096 * i)).take 4096) ((ps.drop (512 * i)).take 512))
  let (idx, total) := blocks.foldl (fun (x : List Byte × Nat) b => (x.1 ++ toBytes 4 (b.len * 2 ^ 16 + x.2), x.2 + b.len)) ([], 1)
  (total, idx ++ blocks.flatMap (·.data), List.replicate 8 false ++ blocks.flatMap (·.pois))

/-- Reads n bytes of an image at an offset: through the core's cache in bulk, by 4 KiB block in flash. None beyond its memory. -/
def imageRead (s : State) (c : Nat) (p : Place) (off n : Nat) : Option DGot :=
  let pa := p.pa + off
  if (if p.flash then jobRegion s < pa + n else !bulkExtentOk pa n) then none
  else some ((cutsOf pa n).foldl (fun (g : DGot) x =>
    let r := if p.flash then flashRead g.st (pa + x.1) x.2 else drillLoad g.st c (pa + x.1) p.slot x.2 p.cached
    ⟨g.data ++ r.data, g.pois ++ r.pois, none, r.st⟩) ⟨[], [], none, s⟩)

/-- Writes an image burst by burst; none where the descriptor is ended before its last. -/
def imageWrite (s : State) (c : Nat) (p : Place) (bs : List Byte) (ps : List Bool) : State × Bool :=
  let bs := if p.flash then padTo (roundUp bs.length 4096) bs else bs
  (cutsOf p.pa bs.length).foldl (fun m x =>
    match m.2, takeBurst m.1 c with
    | false, _ => m
    | true, none => (m.1, false)
    | true, some s =>
      let put (s : State) (b : Bool) (a : Nat) (d : List Byte) : State := if p.flash then flashWrite s b a d else drillStore s c a p.slot p.cached b d
      (writeRun put (p.pa + x.1) ((bs.drop x.1).take x.2) ((ps.drop (x.1 / 8)).take ((x.2 + 7) / 8)) s, true)) (s, true)

/-- Decodes the page of an image: 65,536 bytes, refused blocks as poison, and how many were refused. -/
def imageDecode (s : State) (c : Nat) (p : Place) : (List Byte × List Bool × Nat) × State :=
  match imageRead s c p 0 64 with
  | none => ((List.replicate 65536 0, List.replicate 8192 true, 16), s)
  | some ix =>
    (List.range 16).foldl (fun x i =>
      let e := bytesAt ix.data (4 * i) 4
      let len := fieldN e 22 16
      let got := if ix.pois.getD (i / 2) false || len = 0 || 65 < len then none else imageRead x.2 c p (64 * (e % 2 ^ 16)) (64 * len)
      let (d, s) := match got with
        | some g => (sheafDecode len g.data g.pois, g.st)
        | none => (none, x.2)
      match d with
      | some (bs, ps) => ((x.1.1 ++ bs, x.1.2.1 ++ ps, x.1.2.2), s)
      | none => ((x.1.1 ++ List.replicate 4096 0, x.1.2.1 ++ List.replicate 512 true, x.1.2.2 + 1), s)) (([], [], 0), ix.st)

/-- Counts blocks an unpacker refused (OD 05.0060). -/
def countRefused (s : State) (n : Nat) : State :=
  { s with mstats := { s.mstats with sheafRefused := satAdd 64 s.mstats.sheafRefused n } }

/-! ## SHEAF_PACK and SHEAF_UNPACK (08 R313) -/

def shPages (ws : List Nat) : Nat := dField ws 0 15 0
def shCap (ws : List Nat) : Nat := if dField ws 0 26 16 = 0 then 1041 else dField ws 0 26 16
def shHint (ws : List Nat) : Nat := dField ws 0 31 28

def sheafChecks (s : State) (c : Nat) (job pack : Bool) (ws : List Nat) : List (Option DErr) :=
  let (plain, sheaf) := if pack then (dWord ws 1, dWord ws 2) else (dWord ws 2, dWord ws 1)
  let n := 65536 * shPages ws
  [badField (shPages ws == 0 || dField ws 0 27 27 != 0 || dWord ws 3 != 0 || dWord ws 4 != 0 || dWord ws 5 != 0 || dWord ws 6 != 0 ||
     (pack && !([0, 2, 3, 4].contains (shHint ws)))),
   dIf (plain % 8 != 0) 0x03 plain, dIf (sheaf % 65536 != 0) 0x03 sheaf, dIf (!spNear.contains (aTag plain)) 0x04 plain,
   dIf (!([4, 5].contains (aTag sheaf))) 0x04 sheaf, dCheck s c job spNear plain 0 n, dCheck s c job [4, 5] sheaf 0 n]

/-- Packs one page. -/
def packPage (c : Nat) (job : Bool) (ws : List Nat) (e : DEnd) (i : Nat) : DEnd :=
  if e.status != 0 then e
  else
    let va := dWord ws 2 + 65536 * i
    let g := dRead e.st c job (dWord ws 1 + 65536 * i) 65536
    match g.err with
    | some x => { e with st := g.st, status := x.1, addr := x.2 }
    | none =>
      let (total, bs, ps) := sheafImage (shHint ws) g.data g.pois
      if shCap ws < total then { e with st := g.st, status := 0x0E, addr := va }
      else
        match dXlate g.st c job true true va with
        | (.inl x, s) => { e with st := s, status := x.1, addr := x.2 }
        | (.inr p0, s) =>
          let p := { p0 with flash := aTag va == 5 }
          if p.flash && p.pa % 4096 != 0 then { e with st := s, status := 0x03, addr := va }
          else if (if p.flash then jobRegion s < p.pa + roundUp bs.length 4096 else !bulkExtentOk p.pa bs.length) then
            { e with st := s, status := 0x27, addr := va }
          else match imageWrite s c p bs ps with
            | (s, true) => { st := s, result := total }
            | (s, false) => { e with st := s, status := 0x10 }

def packOp (s : State) (c : Nat) (job : Bool) (ws : List Nat) : DEnd :=
  dGuard s c job ws (sheafChecks s c job true ws) (fun _ => (List.range (shPages ws)).foldl (packPage c job ws) { st := s })

def unpackPage (c : Nat) (job : Bool) (ws : List Nat) (m : DMove) (i : Nat) : DMove :=
  match m.err with
  | some _ => m
  | none =>
    match dXlate m.st c job false true (dWord ws 1 + 65536 * i) with
    | (.inl x, s) => { m with st := s, err := some x }
    | (.inr p, s) =>
      let ((bs, ps, n), s) := imageDecode s c p
      dPutBytes c job (dWord ws 2 + 65536 * i) bs ps { m with st := countRefused s n }

def unpackOp (s : State) (c : Nat) (job : Bool) (ws : List Nat) : DEnd :=
  dGuard s c job ws (sheafChecks s c job false ws) (fun _ =>
    dEnd ((List.range (shPages ws)).foldl (unpackPage c job ws) (⟨s, none, 0⟩ : DMove)))

def execSheafPack (core ring : Nat) (s : State) : Out :=
  .next (drillOp s core ring 0x08 false (fun s job ws => packOp s core job ws))
def execSheafUnpack (core ring : Nat) (s : State) : Out :=
  .next (drillOp s core ring 0x09 false (fun s job ws => unpackOp s core job ws))

/-! ## CRYPT_IN and CRYPT_OUT (08 R314, 13 R458, R460) -/

def getSlot (s : State) (n : Nat) : KeySlot := spGet {} s.ward.slots n
def setSlot (s : State) (n : Nat) (k : KeySlot) : State := { s with ward := { s.ward with slots := spSet {} s.ward.slots n k } }

/-! ### The wrapped slot table (13 R459): 2 MiB at the start of the runtime region of stack 0 (notes/assumptions/79.md) -/

def slotPlace (n : Nat) : Nat := stackBytes - 4000000000 + 128 * n

/-- A slot's entry under KWRAP, which each boot makes anew. -/
def slotEntry (s : State) (n : Nat) : List Byte :=
  let k := getSlot s n
  takeBytes 128 (Config.aesWrap s.bootSeed [n, boolN (k.st == .installed), k.ticket, k.ninst, k.transport.getD 0, k.saved])

/-- The Ward writes a slot's entry, with its egress counter. -/
def slotWrap (s : State) (n : Nat) : State :=
  let k := getSlot s n
  let s := setSlot s n { k with saved := k.egress }
  bulkWrite s false (slotPlace n) (slotEntry s n)

/-- The entry of a slot as memory holds it passes its integrity check. -/
def slotIntact (s : State) (n : Nat) : Bool × State :=
  let g := bulkRead s (slotPlace n) 128
  (!g.poison && g.data == slotEntry s n, g.st)

def setCached (s : State) (die : Nat) (ns : List Nat) : State :=
  { s with ward := { s.ward with cached := spSet [] s.ward.cached die ns } }

/-- A die's crypto engine takes a slot in: one that it does not hold is read from the table, and retired where its entry fails its check; the slot used
longest ago makes place, its egress counter written back. -/
def slotLoad (s : State) (die n : Nat) : State :=
  let held := spGet [] s.ward.cached die
  if held.contains n then setCached s die (n :: held.erase n)
  else match slotIntact s n with
    | (false, s) => setSlot s n { st := .retired }
    | (true, s) =>
      let s := setCached s die ((n :: held).take 512)
      match held.drop 511 with
      | m :: _ => if (getSlot s m).st = .allocated || (getSlot s m).st = .installed then slotWrap s m else s
      | [] => s

def crSlot (ws : List Nat) : Nat := dField ws 0 31 18
def crLen (ws : List Nat) : Nat := dField ws 3 31 0

/-- Bytes of a message with a plaintext of n bytes. -/
def messageLen (n : Nat) : Nat := 16 + roundUp n 16 + 16

def cryptChecks (s : State) (c : Nat) (job inn : Bool) (ws : List Nat) : List (Option DErr) :=
  let (msg, plain) := if inn then (dWord ws 1, dWord ws 2) else (dWord ws 2, dWord ws 1)
  [badField (dField ws 0 17 0 != 0 || dField ws 3 63 32 != 0 || dWord ws 4 != 0 || dWord ws 5 != 0 || dWord ws 6 != 0),
   dIf (msg % 8 != 0) 0x03 msg, dIf (plain % 8 != 0) 0x03 plain, dIf (crLen ws % 8 != 0) 0x03 noAddr,
   dIf (!([4, 6].contains (aTag msg))) 0x04 msg, dIf (aTag plain != 4) 0x04 plain, hostRefusal s c job (!inn) msg (messageLen (crLen ws)),
   dCheck s c job [4, 6] msg 0 (messageLen (crLen ws)), dCheck s c job [4] plain 0 (crLen ws)]

/-- Every page of the plaintext can be reached and carries the slot (08 R314). -/
def slotPages (c : Nat) (job write : Bool) (a n slot : Nat) (s : State) : Option DErr × State :=
  (cutsOf a n).foldl (fun x d =>
    match x.1 with
    | some _ => x
    | none =>
      match dXlate x.2 c job write false (a + d.1) with
      | (.inl e, s) => (some e, s)
      | (.inr p, s) => (if p.slot = slot then none else some (0x0D, a + d.1), s)) (none, s)

/-- The transport key of a slot that is INSTALLED. -/
def transportKey (s : State) (n : Nat) : Option Nat :=
  let k := getSlot s n
  if k.st = .installed then k.transport else none

/-- The transport key of a slot as a die's crypto engine has it. -/
def engineKey (s : State) (die n : Nat) : Option Nat × State :=
  if (transportKey s n).isNone then (none, s) else (transportKey (slotLoad s die n) n, slotLoad s die n)

/-- An ingress message under a key: none where its header or tag fails, and whether anything may have been written (08 R314,
13 R460). -/
def openMessage (key len : Nat) (bs : List Byte) (ps : List Bool) : Option (List Byte) × Bool :=
  let iv := bytesAt bs 0 12
  let hdrOk := !(ps.take 2).any id && bytesAt bs 12 4 == len && iv % 2 ^ 32 < 0xE0000000
  let ct := takeBytes len (bs.drop 16)
  let tag := bytesAt bs (16 + roundUp len 16) 16
  if !hdrOk then (none, false)
  else if ps.any id || tag != Config.gcmTag key iv (bs.take 16) ct then (none, true)
  else (some (xorBytes ct (takeBytes len (Config.gcmStream key iv len))), true)

def cryptInOp (s : State) (c : Nat) (job : Bool) (ws : List Nat) : DEnd :=
  let (msg, dst, n) := (dWord ws 1, dWord ws 2, crLen ws)
  dGuard s c job ws (cryptChecks s c job true ws) (fun _ =>
    match engineKey s (dieOf s.grid c) (crSlot ws) with
    | (none, s) => dFail s (0x0D, noAddr)
    | (some key, s) =>
      match slotPages c job true dst n (crSlot ws) s with
      | (some e, s) => dFail s e
      | (none, s) =>
        let g := dRead s c job msg (messageLen n)
        match g.err with
        | some e => dFail g.st e
        | none =>
          match openMessage key n g.data g.pois with
          | (some bs, _) => dEnd (dPutBytes c job dst bs [] ⟨g.st, none, 0⟩)
          | (none, wrote) =>
            let m : DMove := if wrote then dPoison c job dst n ⟨g.st, none, 0⟩ else ⟨g.st, none, 0⟩
            { dFail m.st (m.err.getD (0x0C, msg)) with result := m.done })

/-- The egress IV of a slot (13 R460). -/
def egressIv (slot ctr : Nat) : List Byte := toBytes 4 (0xE0000000 + slot) ++ toBytes 8 ctr

/-- An egress message: poisoned plaintext makes its words and the tag poison. -/
def sealMessage (key slot ctr n : Nat) (bs : List Byte) (ps : List Bool) : List Byte × List Bool :=
  let hdr := egressIv slot ctr ++ toBytes 4 n
  let ct := xorBytes bs (takeBytes n (Config.gcmStream key (ofBytes (egressIv slot ctr)) n))
  let bad := ps.any id
  (hdr ++ padTo (roundUp n 16) ct ++ toBytes 16 (Config.gcmTag key (ofBytes (egressIv slot ctr)) hdr ct),
   [false, false] ++ ps ++ List.replicate (roundUp n 16 / 8 - ps.length) false ++ [bad, bad])

/-- The next egress counter of a slot, which no later egress uses again; none at its end. -/
def takeCounter (s : State) (slot : Nat) : Option (Nat × State) :=
  let k := getSlot s slot
  if k.egress < 2 ^ 64 - 1 then some (k.egress, setSlot s slot { k with egress := k.egress + 1 }) else none

def cryptOutOp (s : State) (c : Nat) (job : Bool) (ws : List Nat) : DEnd :=
  let (src, msg, n) := (dWord ws 1, dWord ws 2, crLen ws)
  dGuard s c job ws (cryptChecks s c job false ws) (fun _ =>
    match engineKey s (dieOf s.grid c) (crSlot ws) with
    | (none, s) => dFail s (0x0D, noAddr)
    | (some key, s) =>
      match slotPages c job false src n (crSlot ws) s with
      | (some e, s) => dFail s e
      | (none, s) =>
        let g := dRead s c job src n
        match g.err, takeCounter g.st (crSlot ws) with
        | some e, _ => dFail g.st e
        | none, none => dFail g.st (0x0D, noAddr)
        | none, some (ctr, s) =>
          let (bs, ps) := sealMessage key (crSlot ws) ctr n g.data g.pois
          dEnd (dPutBytes c job msg bs ps ⟨s, none, 0⟩))

def execCryptIn (core ring : Nat) (s : State) : Out := .next (drillOp s core ring 0x0B false (fun s job ws => cryptInOp s core job ws))
def execCryptOut (core ring : Nat) (s : State) : Out := .next (drillOp s core ring 0x0C false (fun s job ws => cryptOutOp s core job ws))

end Sys2Proof.Machine
end

