-- ==== Sys2Proof/Machine/SyncCmds.lean ====
section
/-!
DEFINITION. Machine/SyncCmds.lean: the gate and reap instructions and the events of their contexts (09 R337–R351).
-/

namespace Sys2Proof.Machine

/-! ## Gate instructions (09 R341, R342) -/

def wGate (w : Word) : Nat := field w 8 0

/-- The checks of R342, the third arrival apart. A disabled context has no members (notes/assumptions/26.md). -/
def gateChecks (s : State) (c n : Nat) (arrive : Bool) : List Cand :=
  let info := word n
  if 320 ≤ n then [cand 0x0A 0x06 info]
  else
    let g := getGate s (gateKey (dieOf s.grid c) n)
    if !g.en then [cand 0x0A 0x04 info]
    else when? (arrive && !named g.rows g.cols c) 0x0A 0x03 info

def garriveBody (c t : Nat) (w : Word) (s : State) : Res :=
  match gateChecks s c (wGate w) true with
  | [] =>
    match localArrive s c (wGate w) with
    | some (g, s) => .done (advance (updCore s c (fun k => k.writeG t (wGd w) (word g.toNat))) c t)
    | none => .raise [cand 0x0A 0x02 (word (wGate w))]
  | xs => .raise xs

def execGarrive (c t : Nat) (w : Word) (s : State) : Out :=
  issue .garrive { uses := { gOut := [wGd w] }, body := garriveBody c t w } c t w s

/-- The thread waits until the core's copy of gate n reaches gen; at once where it has. gd is written when the wait ends. -/
def gateWait (s : State) (c t n gen rd : Nat) (sync : Bool) : State :=
  let s := updThread s c t (fun th => { th with st := { th.st with state := .waiting }, wait := .gate n gen rd sync })
  let cc := (gateLocal s c n).c
  if genReached cc (BitVec.ofNat 32 gen) then finishWait s c t rd (word (if sync then gen else cc.toNat)) else s

def gwaitBody (c t : Nat) (w : Word) (s : State) : Res :=
  let th := getThread s c t
  let xs := gateChecks s c (wGate w) false ++ ({ gIn := [wGa w] } : Uses).poison th
  if xs.isEmpty then .done (gateWait s c t (wGate w) ((gVal th (wGa w)).toNat % 2 ^ 32) (wGd w) false) else .raise xs

def execGwait (c t : Nat) (w : Word) (s : State) : Out :=
  issue .gwait { uses := { gIn := [wGa w], gOut := [wGd w] }, body := gwaitBody c t w } c t w s

def gsyncBody (c t : Nat) (w : Word) (s : State) : Res :=
  match gateChecks s c (wGate w) true with
  | [] =>
    match localArrive s c (wGate w) with
    | some (g, s) => .done (gateWait s c t (wGate w) g.toNat (wGd w) true)
    | none => .raise [cand 0x0A 0x02 (word (wGate w))]
  | xs => .raise xs

def execGsync (c t : Nat) (w : Word) (s : State) : Out :=
  issue .gsync { uses := { gOut := [wGd w] }, body := gsyncBody c t w } c t w s

/-! ## Reap instructions (09 R348, R349) -/

def wCtx (w : Word) : Nat := field w 7 0

/-- Lanes and flags of a contribution area: a poisoned word gives the identity and sets the flags of its lanes; a poisoned word of
flag bytes sets the flags it holds (09 R346, notes/assumptions/27.md). -/
def reapArea (r : ReapCtx) (g : Got) : List Nat × Nat :=
  let n := r.lanes
  let lane (i : Nat) : Nat := if g.pois.getD (i / 2) false then reapIdentity r.op else bytesAt g.data (4 * i) 4
  let flag (i : Nat) : Bool :=
    g.pois.getD (i / 2) false || g.pois.getD ((4 * n + i / 8) / 8) false || (bytesAt g.data (4 * n + i / 8) 1).testBit (i % 8)
  ((List.range n).map lane, (List.range n).foldl (fun f i => if flag i then f + 2 ^ i else f) 0)

def reapBody (c t : Nat) (w : Word) (s : State) : Res :=
  let th := getThread s c t
  let n := wCtx w
  let r := getReap s (reapKey (dieOf s.grid c) n)
  let span := r.lanes * 4 + r.lanes / 8
  let a := gVal th (wGa w)
  let b := gVal th (wGb w)
  let info := word n
  let pois := addrPoison? th
  let area (reg : Nat) (v : Word) : List Cand :=
    if (th.regs.gGet reg).p then [] else areaChecks s c t false v span (v.toNat % 128 != 0)
  let ax := pois ++ area (wGa w) a ++ (if wGb w = 0 then [] else area (wGb w) b)
  let cx :=
    if !r.en then [cand 0x0A 0x04 info]
    else when? (!named r.rows r.cols c) 0x0A 0x03 info ++ when? (findOut s c n).isSome 0x0A 0x20 info
  if !ax.isEmpty then .raise ax
  else if !cx.isEmpty then .raise cx
  else if mustFollow s c t false false (addrOff a) span then .wait
  else
    let g := coreRead s false c (addrOff a) span
    let (lanes, flags) := reapArea r g
    let (round, s) := reapContribute g.st c n (.thread t (if wGb w = 0 then none else some (addrOff b))) lanes flags
    .done (advance (updCore s c (fun k => k.writeG t (wGd w) (word round.toNat))) c t)
where
  addrPoison? (th : Thread) : List Cand :=
    ([wGa w, wGb w].filter (fun n => (th.regs.gGet n).p)).map (fun n => ⟨5, ⟨0x06, 0x01, word n⟩⟩)

def reapPriv (c t : Nat) (w : Word) (s : State) : Option Nat :=
  match controlJob s c t (wGa w) with
  | some n => some n
  | none => if wGb w = 0 then none else controlJob s c t (wGb w)

def execReap (c t : Nat) (w : Word) (s : State) : Out :=
  issue .reap
    { uses := { gIn := [wGa w, wGb w], gOut := [wGd w] }
      priv := reapPriv c t w s
      body := reapBody c t w } c t w s

/-- RWAIT collects a result that is there, or waits for it. -/
def rwaitBody (c t : Nat) (w : Word) (s : State) : Res :=
  let n := wCtx w
  match findOut s c n with
  | some o =>
    match o.who with
    | .thread _ _ =>
      if o.result.isSome then
        .done (advance (updCore (reapCollect s c n) c (fun k => k.writeG t (wGd w) (word o.round.toNat))) c t)
      else
        .done (updThread s c t (fun th => { th with st := { th.st with state := .waiting }, wait := .reap n (wGd w) }))
    | _ => .raise [cand 0x0A 0x31 (word n)]
  | none => .raise [cand 0x0A 0x31 (word n)]

def execRwait (c t : Nat) (w : Word) (s : State) : Out :=
  issue .rwait { uses := { gOut := [wGd w] }, body := rwaitBody c t w } c t w s

/-! ## Events of the contexts -/

/-- A write that sets EN (09 R338). -/
def execGateEnable (by_ : Option (Nat × Nat)) (gate : Nat) (v : Word) (s : State) : Out :=
  .next (if gate < 1088 && bitOf v 0 then gctlWrite s gate v by_ else s)

def execGateDisable (gate : Nat) (v : Word) (s : State) : Out :=
  .next (if gate < 1088 && !bitOf v 0 then gctlWrite s gate v none else s)

def execGateComplete (gate : Nat) (s : State) : Out :=
  .next (if gateReady s gate then gateComplete s gate else s)

def execGateRelease (gate core : Nat) (s : State) : Out :=
  .next (if (inScope s (gateDie gate)).contains core then gateRelease s gate core else s)

def execReapEnable (by_ : Option (Nat × Nat)) (ctx : Nat) (v : Word) (s : State) : Out :=
  .next (if ctx < 832 && bitOf v 0 then rctlWrite s ctx v by_ else s)

def execReapDisable (ctx : Nat) (v : Word) (s : State) : Out :=
  .next (if ctx < 832 && !bitOf v 0 then rctlWrite s ctx v none else s)

def execReapResult (ctx core : Nat) (s : State) : Out := .next (reapResult s ctx core)

/-- A reset reaches a core in scope (09 R351). -/
def resetArrive (s : State) (core : Nat) (reap : Bool) (ctx : Nat) : State :=
  match s.resets.find? (fun m => m.target == core && m.reap == reap && m.ctx == ctx) with
  | none => s
  | some m =>
    let s := { s with resets := s.resets.erase m }
    if reap then reapResetCore s ctx core m.origin else gateResetCore s ctx core m.origin m.idle

def execGateResetArrive (core : Nat) (reap : Bool) (ctx : Nat) (s : State) : Out := .next (resetArrive s core reap ctx)

end Sys2Proof.Machine
end

