-- ==== Sys2Proof/Machine/DrillRun.lean ====
section
/-!
DEFINITION. Machine/DrillRun.lean: posting, starting and ending Drill descriptors (08 R286–R293), and the drain's second pass, which may hand
its rows to a ring (04 R164, R170, 08 R301).
-/

namespace Sys2Proof.Machine

def wRing (w : Word) : Nat := field w 3 0

/-- A job-mode thread may not use a ring with JOB = 0 (08 R287, R288). -/
def ringPriv (c t : Nat) (w : Word) (s : State) : Option Nat :=
  if !(getThread s c t).st.pm && !(getRing s c (wRing w)).job then some 0x04 else none

/-- DPOST may not name a CONTROL address in job mode either (02 R65); of the two sub-codes the lower is reported (R99). -/
def dpostPriv (c t : Nat) (w : Word) (s : State) : Option Nat :=
  match controlJob s c t (wGa w) with
  | some n => some n
  | none => ringPriv c t w s

/-- The stores of a thread that are not acknowledged (08 R289): those whose request slots are held, and those of tile moves and drains. -/
def postedOf (k : Core) (t seq : Nat) : Posted :=
  { seq := seq, thread := t
    stores := ((k.reqs.filter (fun q => q.thread == t && (match q.kind with
      | .store => true
      | .fill => true
      | .put => true
      | .clear => true
      | _ => false))).map (·.id))
    moves := (k.tile.moves.filter (fun m => m.thread == t && m.store)).map (·.id)
    jobs := (k.drain.jobs.filter (fun j => j.thread == t && (tdDst j.word == 1 || ddStw j.d0))).map (·.id) }

def dpostBody (c t : Nat) (w : Word) (s : State) : Res :=
  let k := getCore s c
  let th := k.thread t
  let ga := gVal th (wGa w)
  let n := wRing w
  let r := getRing s c n
  let off := ga.toNat % 2 ^ 56
  let ax := if (th.regs.gGet (wGa w)).p then addrPoison th [wGa w] else
    when? (field ga 63 56 != 0) 0x05 0x01 ga ++
    when? (off % 64 != 0) 0x03 0x01 ga ++ when? (field ga 63 56 == 0 && localEnd ≤ off) 0x05 0x02 ga ++
    when? (!th.st.pm && field ga 63 56 == 0 && k.ctl.klim.toNat < off + 64) 0x05 0x03 ga
  let xs := ax ++ when? (!ringOn k r || r.error) 0x0D 0x40 (word n)
  if !xs.isEmpty then .raise xs
  else if r.slots ≤ (r.tail + 2 ^ 32 - r.done) % 2 ^ 32 || mustFollow s c t false false off 64 then .wait
  else
    let g := coreRead s false c off 64
    let s := writeRun (fun s p a b => coreWrite s false c p a b) (slotAddr r r.tail) g.data g.pois g.st
    let p := postedOf (getCore s c) t r.tail
    let s := setRing s c n { r with tail := (r.tail + 1) % 2 ^ 32, posted := r.posted ++ [p] }
    .done (advance (updCore s c (fun k => k.writeG t (wGd w) (word r.tail))) c t)

def execDpost (c t : Nat) (w : Word) (s : State) : Out :=
  issue .dpost { uses := { gIn := [wGa w], gOut := [wGd w] }, priv := dpostPriv c t w s, body := dpostBody c t w } c t w s

def dstatBody (c t : Nat) (w : Word) (s : State) : Res :=
  .done (advance (updCore s c (fun k => k.writeG t (wGd w) (drstatWord (getRing s c (wRing w))))) c t)

def execDstat (c t : Nat) (w : Word) (s : State) : Out :=
  issue .dstat { uses := { gOut := [wGd w] }, priv := ringPriv c t w s, body := dstatBody c t w } c t w s

/-! ## Ending a ring's descriptors (08 R286, R293) -/

/-- What a running descriptor still moves: its operation, over the bursts left to it. -/
def runDesc (s : State) (c ring : Nat) (job : Bool) (ws : List Nat) : DEnd :=
  match dOp ws with
  | 0x01 => if dPF ws then prefetchOp s c job ws else copyOp s c ring job ws
  | 0x02 => gatherOp s c job ws
  | 0x03 => scatterOp s c job ws
  | 0x04 => sortGatherOp s c job ws
  | 0x05 => convertOp true s c job ws
  | 0x06 => convertOp false s c job ws
  | 0x07 => if (dWord ws 0).testBit 0 then unskewOp s c job ws else skewOp s c job ws
  | 0x08 => packOp s c job ws
  | 0x09 => unpackOp s c job ws
  | 0x0A => sowOp s c job ws
  | 0x0B => cryptInOp s c job ws
  | 0x0C => cryptOutOp s c job ws
  | _ => { st := s }

/-- How much a descriptor that is being ended has moved by the end of its current burst no rule says: a free number of bursts, none of one that
waits for the drain or for a path. -/
def lastBursts (s : State) (c ring : Nat) (d : DescRun) : State × Nat :=
  if d.phase != .run || opCut s c d.words then (s, d.result)
  else
    let (n, s) := drawFree s
    let e := runDesc (updCore s c (fun k => { k with burst := some n })) c ring (getRing s c ring).job d.words
    (updCore e.st c (fun k => { k with burst := none }), e.result)

/-- The packets of a ring's transfers: all acknowledged, one of them failed at a FABRIC address, or still awaited (11 R403). -/
def fabricWait (s : State) (c ring : Nat) : Option (Option Nat) :=
  let mine := (s.fabric.chans.map (·.2)).filter (fun x => x.user == .drill c ring)
  match mine.find? (fun x => x.failed && !x.unacked.isEmpty) with
  | some x => some (x.unacked.head?.map (fun p => 7 * 2 ^ 56 + p.dst * 2 ^ 40 + p.addr))
  | none => if mine.all (fun x => x.unacked.isEmpty) then some none else none

def descDone (s : State) (c ring : Nat) : State := updRing s c ring (fun r => { r with cur := none, done := (r.done + 1) % 2 ^ 32 })

/-- The running descriptor ends with ABORTED after its current burst, once what it has sent to other modules is acknowledged (R290). One that only
waited for its gate arrival has written its completion word already (notes/assumptions/22.md). -/
def abortCur (s : State) (c ring : Nat) (d : DescRun) : State :=
  let (s, n) := lastBursts s c ring d
  let d := { d with status := 0x10, result := n }
  if d.phase = .arrival then descDone s c ring
  else if (fabricWait s c ring).isSome then descDone (writeCpl s c ring d 0x10) c ring
  else updRing s c ring (fun r => { r with cur := some { d with phase := .fabric } })

/-- Ends the running descriptor, or the one in GATE_WAIT, with ABORTED. -/
def abortRunning (s : State) (c ring : Nat) : State :=
  let r := getRing s c ring
  match r.cur, r.posted with
  | some d, _ => if d.phase = .fabric && d.status = 0x10 then s else abortCur s c ring d
  | none, p :: rest =>
    if ringState s c ring = 2 then
      descDone (updRing (writeCpl s c ring (gateWaiter s c ring p) 0x10) c ring (fun r => { r with posted := rest })) c ring
    else s
  | none, [] => s

/-- The end of what runs, and the discard of what is posted behind it. -/
def abortRing (s : State) (c ring : Nat) : State := updRing (abortRunning s c ring) c ring (fun r => { r with posted := [] })

/-- JSWITCH leaves EN set and advances DONE past every discarded descriptor. -/
def jswitchRing (s : State) (c ring : Nat) : State :=
  updRing (abortRunning s c ring) c ring (fun r => { r with posted := [], done := (r.done + r.posted.length) % 2 ^ 32 })

/-- A descriptor that clearing EN has ended, and that still waits for acknowledgements when EN is set again, writes its completion word then
(notes/assumptions/22.md). -/
def endLeft (s : State) (c ring : Nat) : State :=
  match (getRing s c ring).cur with
  | some d => writeCpl s c ring d 0x10
  | none => s

/-- A write of DRCFG. -/
def drcfgWrite (s : State) (c ring : Nat) (v : Word) : State :=
  let r := getRing s c ring
  if r.en then
    if bitOf v 0 then s else updRing (abortRing s c ring) c ring (fun r => { r with en := false })
  else
    let r := { r with owner := field v 51 48, logn := field v 47 44, base := field v 19 6, job := bitOf v 1, en := bitOf v 0 }
    if r.en then setRing (endLeft s c ring) c ring { r with tail := 0, done := 0, error := false, posted := [], cur := none } else setRing s c ring r

/-! ## Rings -/

def execDrillRingEnable (core ring : Nat) (v : Word) (s : State) : Out :=
  .next (if coreUp s core && ring < 16 && bitOf v 0 then drcfgWrite s core ring v else s)

def execDrillRingDisable (core ring : Nat) (v : Word) (s : State) : Out :=
  .next (if coreUp s core && ring < 16 && !bitOf v 0 then drcfgWrite s core ring v else s)

/-- The status of a descriptor whose common fields fail before it starts (08 R291, R292, R295, R296). -/
def startStatus (bad : Bool) (ws : List Nat) : Nat × Nat :=
  let op := dOp ws
  if bad then (0x02, noAddr)
  else if op = 0 || 0x0C < op then (0x01, noAddr)
  else if dField ws 0 50 49 != 0 || dField ws 0 39 32 != 0 || dField ws 7 22 20 != 0 || (dWG ws && 320 ≤ dWGATE ws) ||
      (dGA ws && 320 ≤ descGate ws) || (dPF ws && op != 0x01) || (dDRN ws && op != 0x01 && op != 0x03) then (0x02, noAddr)
  else (0, 0)

/-- The words of a descriptor, with CW read as 0 where the word that holds CW or CPL is uncorrectable: no completion word is then
written (notes/assumptions/33.md). -/
def cplKnown (pois : List Bool) (ws : List Nat) : List Nat :=
  if pois.getD 0 false || pois.getD 7 false then setFieldN (dWord ws 0) 53 0 0 :: ws.drop 1 else ws

/-- The next posted descriptor starts (08 R289). -/
def descStart (s : State) (c ring : Nat) : State :=
  let r := getRing s c ring
  if !coreUp s c || coresHold s || !ringOn (getCore s c) r || r.error || r.cur.isSome then s
  else
    match r.posted with
    | [] => s
    | p :: rest =>
      let g := coreRead s false c (slotAddr r p.seq) 64
      let ws := cplKnown g.pois (wordsOf 8 g.data)
      if !storesAcked (getCore s c) p || (!g.poison && !wgReady s c ws) then s
      else
        let (st, ad) := startStatus g.poison ws
        setRing g.st c ring
          { r with
            posted := rest
            cur := some { seq := p.seq, words := ws, bad := g.poison, phase := if st = 0 then .run else .moved, status := st,
                          addr := ad, result := 0, taken := 0 } }

def execDrillDescriptorStart (core ring : Nat) (s : State) : Out := .next (descStart s core ring)

/-- Forgets the packets of a failed channel of a ring. -/
def dropFailed (s : State) (c ring : Nat) : State :=
  { s with fabric := { s.fabric with chans := s.fabric.chans.map (fun x =>
      if x.2.user == .drill c ring && x.2.failed then (x.1, { x.2 with unacked := [] }) else x) } }

/-- The descriptor's arrival at its gate (08 R290, 09 R340, R342): none where it must wait for the next generation. -/
def drillArrive (s : State) (c ring n : Nat) : Option State :=
  let g := getGate s (gateKey (dieOf s.grid c) n)
  if !g.en || !named g.rows g.cols c then some (arrivalDropped s (srcCore c) n ring)
  else (localArrive s c n).map (·.2)

/-- The end of a descriptor in error (08 R292). -/
def descError (s : State) (c ring : Nat) (d : DescRun) : State :=
  let s := descDone (writeCpl s c ring d d.status) c ring
  let (a, s) := if d.addr = noAddr then drawFree s else (d.addr, s)
  let s := updRing s c ring (fun r => { r with error := true, errStatus := d.status, errAddr := a % 2 ^ 48 })
  deliverDeferred s c (getRing s c ring).owner ⟨0x0D, d.status, word (ring * 2 ^ 32 + d.seq % 2 ^ 32)⟩

/-- The arrival, and then the end; an arrival that finds no place is tried again. -/
def descArrive (s : State) (c ring : Nat) (d : DescRun) : State :=
  if !dGA d.words || d.arrDropped then descDone s c ring
  else
    match drillArrive s c ring (descGate d.words) with
    | some s => descDone s c ring
    | none => updRing s c ring (fun r => { r with cur := some { d with phase := .arrival } })

/-- The end steps of a descriptor whose movement is over (08 R290). -/
def descFinish (s : State) (c ring : Nat) (d : DescRun) : State :=
  if d.status = 0 then descArrive (writeCpl s c ring d 0) c ring d
  else if d.status = 0x10 then descDone (writeCpl s c ring d 0x10) c ring
  else descError s c ring d

def descEnd (s : State) (c ring : Nat) : State :=
  match (getRing s c ring).cur with
  | none => s
  | some d =>
    match d.phase with
    | .moved => descFinish s c ring d
    | .arrival => descArrive s c ring d
    | .fabric =>
      (match fabricWait s c ring with
      | none => s
      | some none => descFinish s c ring d
      | some (some a) =>
        descFinish (dropFailed s c ring) c ring (if d.status = 0 then { d with status := 0x0F, addr := a } else d))
    | _ => s

def execDrillDescriptorEnd (core ring : Nat) (s : State) : Out := .next (if coreUp s core then descEnd s core ring else s)

/-! ## Rows from the drain (08 R301) -/

/-- The ring of a TDRAIN with DST = DRILL. -/
def drainRing (j : DrainJob) : Nat := field j.dest 3 0

/-- The ring's running descriptor takes rows. -/
def takesRows (s : State) (c ring : Nat) : Option DescRun :=
  let r := getRing s c ring
  if !ringOn (getCore s c) r || r.error then none
  else match r.cur with
    | some d => if d.phase = .drainWait && !opCut s c d.words then some d else none
    | none => none

def setCur (s : State) (c ring : Nat) (d : DescRun) : State := updRing s c ring (fun r => { r with cur := some d })

/-- One row goes to the running descriptor: a COPY's run, or the destination of a SCATTER_ADD's entry. A row of another length ends the
descriptor with BAD_FIELD and is discarded. -/
def giveRow (s : State) (c ring : Nat) (d : DescRun) (bs : List Byte) (ps : List Bool) : State :=
  let ws := d.words
  let job := (getRing s c ring).job
  let copy := dOp ws == 0x01
  let p := patOf ws 3
  let want := if copy then p.l0 else gsRowb ws
  let last := if copy then (p.n1 + 1) * (p.n2 + 1) * (p.n3 + 1) else gsN ws
  if bs.length != want then
    setCur s c ring { d with phase := if copy && aTag (dWord ws 2) == 7 then .fabric else .moved, status := 0x02, addr := noAddr }
  else if copy then
    let i := d.taken
    let dst := aMove (dWord ws 2) (patDist p.ds (i % (p.n1 + 1)) (i / (p.n1 + 1) % (p.n2 + 1)) (i / (p.n1 + 1) / (p.n2 + 1)))
    let fab := aTag dst == 7
    let m : DMove := if fab then dPutRun c ring dst bs ps ⟨s, none, 0⟩
      else dPutBytes c job dst bs ps ⟨s, none, 0⟩
    match m.err with
    | some (n, a) => setCur m.st c ring { d with phase := if fab then .fabric else .moved, status := n, addr := a, result := d.result + m.done }
    | none => setCur m.st c ring { d with
        phase := if i + 1 = last then (if fab then .fabric else .moved) else .drainWait, taken := i + 1, result := d.result + m.done }
  else
    let (ix, e, s) := readIndices s c job ws
    let i := d.taken
    let m0 : DMove := ⟨s, e, 0⟩
    let m := match ix.getD i (.inr 0) with
      | .inl v => scatterRow c job (scAddf ws) (aMove (dWord ws 2) (gsDstr ws * v)) bs ps m0
      | .inr _ => m0
    let r := scatterEnd m ix
    if m.err.isSome then setCur r.st c ring { d with phase := .moved, status := r.status, addr := r.addr, result := d.result + m.done }
    else if i + 1 = last then
      setCur r.st c ring { d with phase := .moved, status := r.status, addr := r.addr, taken := i + 1, result := d.result + m.done }
    else setCur r.st c ring { d with taken := i + 1, result := d.result + m.done }

/-- Hands the rows of a job on while the ring takes them; the first argument bounds them. -/
def giveRows (c : Nat) (n : Nat) : Nat → State → DrainJob → State × DrainJob
  | 0, s, j => (s, j)
  | k + 1, s, j =>
    match (if j.rowsOut < ddRows j.d0 then takesRows s c (drainRing j) else none) with
    | none => (s, j)
    | some d =>
      let r := j.rowsOut
      let bs := rowBytes (rngState s c) j r (n + ddCols j.d0 * r)
      let bs := padTo (roundUp bs.length 8) bs
      giveRows c n k (giveRow s c (drainRing j) d bs (List.replicate (bs.length / 8) (j.prow.getLsbD r))) { j with rowsOut := r + 1 }

/-- A TDRAIN issued before j hands its rows to the same ring, and has not handed on the last (08 R301). -/
def ringBefore (k : Core) (j : DrainJob) : Bool :=
  k.drain.jobs.any (fun x => x.seq < j.seq && tdDst x.word == 2 && drainRing x == drainRing j && x.phase != .written)

/-- A pass that can run now: a first pass, or a second one whose outputs have their turn. -/
def passReady (s : State) (c : Nat) (j : DrainJob) : Bool :=
  j.phase == .issued || (j.phase == .scaled && !afterMoves (getCore s c) j &&
    (tdDst j.word != 2 || ((takesRows s c (drainRing j)).isSome && !ringBefore (getCore s c) j)))

/-- The datapath takes the ready passes in the issue order of their TDRAINs (04 R170). -/
def nextPass (s : State) (c : Nat) : Option DrainJob := (getCore s c).drain.jobs.find? (passReady s c)

/-- A first pass, where one is next. -/
def firstPass (s : State) (c : Nat) : State :=
  match nextPass s c with
  | none => s
  | some j => if j.phase = .issued then firstPassOf s c j else s

def execDrainFirstPass (core : Nat) (s : State) : Out := .next (firstPass s core)

/-- A second pass, where one is next. -/
def drainSecond (s : State) (c : Nat) : State :=
  match nextPass s c with
  | none => s
  | some j =>
    if j.phase = .issued then s
    else if tdDst j.word != 2 then secondPass s c j
    else
      let n := s.draws
      let (s, j') := giveRows c n (ddRows j.d0) (useDraws s j) j
      updJob s c j.id (fun j => { j with rowsOut := j'.rowsOut, phase := if j'.rowsOut = ddRows j.d0 then .written else j.phase })

def execDrainSecondPass (core : Nat) (s : State) : Out := .next (if coreUp s core then drainSecond s core else s)

end Sys2Proof.Machine
end

