-- ==== Sys2Proof/Machine/EngineRing.lean ====
section
/-!
DEFINITION. Machine/EngineRing.lean: the command rings of the Harrow and the Winnow, their registers, the taking of a slot and the end of
a command (06 R207–R215).
-/

namespace Sys2Proof.Machine

def getEng (s : State) (c : Nat) (winnow : Bool) : EngRing := if winnow then (getCore s c).eng.winnow else (getCore s c).eng.harrow

def setEng (s : State) (c : Nat) (winnow : Bool) (r : EngRing) : State :=
  updCore s c (fun k => { k with eng := if winnow then { k.eng with winnow := r } else { k.eng with harrow := r } })

def EngRing.slots (r : EngRing) : Nat := 2 ^ r.logn

/-- The engine takes commands (06 R208). -/
def engOn (r : EngRing) : Bool := r.en && 2 ≤ r.logn && r.logn ≤ 8 && r.base * 64 + 64 * r.slots ≤ 0xC0000

/-- HRING or WRING as a word. -/
def ringWord (r : EngRing) : Word := word (r.logn * 2 ^ 40 + r.base * 2 ^ 6 + boolN r.en)

/-- A write of HRING or WRING (06 R208): while EN is 1 only clearing EN has an effect. -/
def ringWrite (s : State) (c : Nat) (winnow : Bool) (v : Word) : State :=
  let r := getEng s c winnow
  if r.en then (if bitOf v 0 then s else setEng s c winnow { r with en := false })
  else
    let r := { r with logn := field v 43 40, base := field v 19 6 }
    setEng s c winnow (if bitOf v 0 then { r with en := true, head := 0 } else r)

def engState (r : EngRing) : Nat :=
  match r.cmd with
  | some k =>
    match k.phase with
    | .epochWait => 2
    | .reapWait => 3
    | _ => 1
  | none => if engOn r then 0 else 4

def engStatWord (r : EngRing) : Word := word (r.done % 2 ^ 32 * 2 ^ 32 + r.head * 2 ^ 8 + engState r)

def hlaneWord (k : Core) : Word := word (k.eng.laneN * 2 ^ 32 + k.eng.laneBase * 2 ^ 5)

def hlaneWrite (s : State) (c : Nat) (v : Word) : State :=
  updCore s c (fun k => { k with eng := { k.eng with laneN := field v 44 32, laneBase := field v 22 5 } })

def execHringEnable (core : Nat) (winnow : Bool) (v : Word) (s : State) : Out :=
  .next (if bitOf v 0 then ringWrite s core winnow v else s)

def execHringDisable (core : Nat) (winnow : Bool) (v : Word) (s : State) : Out :=
  .next (if bitOf v 0 then s else ringWrite s core winnow v)

/-! ## Fields of a command -/

def eWord (ws : List Nat) (i : Nat) : Nat := ws.getD i 0
def eField (ws : List Nat) (i hi lo : Nat) : Nat := fieldN (eWord ws i) hi lo
def eBit (ws : List Nat) (i b : Nat) : Bool := (eWord ws i).testBit b
def eOp (ws : List Nat) : Nat := eField ws 0 63 56
def eLane (ws : List Nat) : Nat := eField ws 0 43 32
def eCount (ws : List Nat) : Nat := eField ws 0 31 0
def eCpl (ws : List Nat) : Nat := eField ws 7 19 0
def eMode (ws : List Nat) : Nat := eField ws 0 55 54

/-- OP and MODE assigned (06 R214). -/
def eOpOk (winnow : Bool) (ws : List Nat) : Bool :=
  1 ≤ eOp ws && eOp ws ≤ 3 && !(winnow && eOp ws != 3 && eMode ws == 3)

/-- Any of the listed bit ranges, (word, high, low), holds a one. -/
def eReserved (ws : List Nat) (l : List (Nat × Nat × Nat)) : Bool := l.any (fun x => eField ws x.1 x.2.1 x.2.2 != 0)

/-- A LOCAL region of a command (06 R215): below the end of LOCAL, and at or above KLIM only if the ring is. -/
def eLocalOk (k : Core) (r : EngRing) (off n : Nat) : Bool :=
  off + n ≤ 0xC0000 && (off + n ≤ k.ctl.klim.toNat || k.ctl.klim.toNat ≤ r.base * 64)

def eCplOk (k : Core) (r : EngRing) (ws : List Nat) : Bool := eCpl ws % 8 == 0 && eLocalOk k r (eCpl ws) 8

/-- A granary region of a command, with its alignment: inside the scratch part (06 R215). -/
def eGranOk (k : Core) (x : Nat × Nat × Nat) : Bool := x.1 % x.2.2 == 0 && x.1 + x.2.1 ≤ granEnd k

/-- No two regions overlap. -/
def eDisjoint : List (Nat × Nat × Nat) → Bool
  | [] => true
  | x :: xs => xs.all (fun y => x.1 + x.2.1 ≤ y.1 || y.1 + y.2.1 ≤ x.1) && eDisjoint xs

/-- The first check that fails, lowest code first (06 R214, R215). -/
def eFirst : List (Bool × Nat) → Option Nat
  | [] => none
  | (b, n) :: r => if b then some n else eFirst r

/-! ## Taking a slot and ending a command -/

def updCmd (s : State) (c : Nat) (winnow : Bool) (f : EngCmd → EngCmd) : State :=
  let r := getEng s c winnow
  setEng s c winnow { r with cmd := r.cmd.map f }

/-- The command ends with a status; its completion word is still to be written. -/
def endCmd (s : State) (c : Nat) (winnow : Bool) (status result : Nat) : State :=
  updCmd s c winnow (fun k => { k with phase := .ended, status := status, result := result })

/-- The engine takes the command in the slot at HEAD (06 R211). A command with an unassigned OP or MODE, or whose slot holds a
poisoned word, ends before any work (R214, R215). -/
def takeSlot (s : State) (c : Nat) (winnow : Bool) : State :=
  let r := getEng s c winnow
  let a := r.base * 64 + 64 * r.head
  if !coreExists s c || isHole s c || !engOn r || r.cmd.isSome then s
  else
    let (s, k, _) := latchProbe s false c (a / 8)
    if !k.full then s
    else
      let g := coreRead s false c a 64
      let ws := wordsOf 8 g.data
      let ok := eOpOk winnow ws
      let cmd : EngCmd :=
        { words := ws, bad := g.poison, phase := (if ok && !g.poison then .run else .ended), epoch := 0,
          status := (if g.poison then 0x11 else if ok then 0 else 0x10), result := 0 }
      let s := setEng g.st c winnow { r with head := (r.head + 1) % r.slots, cmd := some cmd }
      serve (latchSet s false c (a / 8) false) false c (a / 8)

def execEngineTakeSlot (core : Nat) (winnow : Bool) (s : State) : Out := .next (takeSlot s core winnow)

/-- The completion word (06 R213). -/
def eCplWord (k : EngCmd) : Nat := k.status * 2 ^ 48 + eOp k.words * 2 ^ 40 + k.result % 2 ^ 32

/-- Codes that also write an event-recorder entry (06 R214). -/
def eStatusEvent (n : Nat) : Bool := n == 0x02 || (0x20 ≤ n && n ≤ 0x23)

/-- The end of a command: its completion word, where its address is one the engine may write (notes/assumptions/30.md). -/
def commandEnd (s : State) (c : Nat) (winnow : Bool) : State :=
  let r := getEng s c winnow
  match r.cmd with
  | none => s
  | some k =>
    if k.phase != .ended then s
    else
      let s := setEng s c winnow { r with cmd := none, done := (r.done + 1) % 2 ^ 32 }
      let s := if eStatusEvent k.status then
          sendEvent s { sev := 1, code := 0x0020, source := srcCore c, arg0 := boolN winnow * 2 ^ 16 + k.status, arg1 := eCpl k.words }
        else s
      if eCplOk (getCore s c) r k.words then latchPut s false c (eCpl k.words) (toBytes 8 (eCplWord k)) false else s

def execEngineCommandEnd (core : Nat) (winnow : Bool) (s : State) : Out := .next (commandEnd s core winnow)

/-- The running command of an engine, if it has the given OP and MODE and is in the given phase. -/
def engCmd (s : State) (c : Nat) (winnow : Bool) (op : Nat) (mode : Option Nat) (phase : EngPhase) : Option EngCmd :=
  match (getEng s c winnow).cmd with
  | some k => if k.phase == phase && eOp k.words == op && mode.all (fun m => eMode k.words == m) then some k else none
  | none => none

/-- JSWITCH ends a command that holds in EPOCH_WAIT or REAP_WAIT; a VERDICT's contribution is forgotten with it (06 R234, R246). -/
def jswitchEngines (s : State) (c : Nat) : State :=
  [false, true].foldl (fun s w =>
    match (getEng s c w).cmd with
    | some k =>
      if k.phase == .epochWait then endCmd s c w 0x23 0
      else if k.phase == .reapWait then endCmd (dropOut s c (eField k.words 1 7 0)) c w 0x23 0
      else s
    | none => s) s

def enginesIdle (k : Core) : Bool := k.eng.harrow.cmd.isNone && k.eng.winnow.cmd.isNone

/-! ## The lane table (06 R228) -/

def laneAddr (k : Core) (l : Nat) : Nat := k.eng.laneBase * 32 + 32 * l

/-- A 32-bit field of a lane entry, as stored. -/
def laneField (s : State) (c l off : Nat) : Nat := ofBytes ((getCore s c).mem.gran.getBytes (laneAddr (getCore s c) l + off) 4)

def lanePoison (s : State) (c l off : Nat) : Bool := ((getCore s c).mem.gran.mark ((laneAddr (getCore s c) l + off) / 8)).poison

/-- The 32 bytes of a lane entry, read with their check bits. -/
def laneRead (s : State) (c l : Nat) : Got := coreRead s true c (laneAddr (getCore s c) l) 32

def setLaneField (s : State) (c l off v : Nat) : State :=
  coreWrite s true c false (laneAddr (getCore s c) l + off) (toBytes 4 v)

def laneSkip (s : State) (c l : Nat) : Bool := (laneField s c l 0x18).testBit 31
def laneNfp (s : State) (c l : Nat) : Bool := (laneField s c l 0x18).testBit 30

def setNfp (s : State) (c l : Nat) (b : Bool) : State :=
  setLaneField s c l 0x18 (setFieldN (laneField s c l 0x18) 30 30 (boolN b))

/-! ## Arrays in the granary slice -/

/-- Element i of a run of elements of n bytes, and whether the word that holds it is poisoned. -/
def Got.elem (g : Got) (n i : Nat) : Nat := bytesAt g.data (n * i) n
def Got.bad (g : Got) (n i : Nat) : Bool := g.pois.getD (n * i / 8) false

/-- Writes a run of elements of n bytes with a poison bit each: a word with a poisoned element is written as poison. -/
def putElems (s : State) (c off n : Nat) (l : List (Nat × Bool)) : State :=
  let words := (l.length * n + 7) / 8
  writeRun (fun s p a b => coreWrite s true c p a b) off (l.flatMap (fun x => toBytes n x.1))
    ((List.range words).map (fun w => ((l.drop (8 * w / n)).take (max 1 (8 / n))).any (·.2))) s

end Sys2Proof.Machine
end

