-- ==== Sys2Proof/Machine/CoreStop.lean ====
section
/-!
DEFINITION. Machine/CoreStop.lean: stopping threads, abandoning waits, JSWITCH, a change of the granary split, core reset and wipe (02 R89–R91,
R101; 07 R253; 09 R332, R351; 13 R461).
-/

namespace Sys2Proof.Machine

/-! ## Waits and stops -/

/-- A cancel goes to the latch unit that holds the thread's waiter (09 R332). -/
def sendCancel (s : State) (c req : Nat) (why : CancelWhy) : State :=
  updReq s c req (fun q => if q.cancel.isNone then { q with cancel := some why } else q)

/-- A thread that is asked to stop abandons its wait (02 R90): at once at a gate or reap, by a cancel at a latch word. -/
def abandonForStop (s : State) (c t : Nat) : State :=
  let th := getThread s c t
  if th.st.state != .waiting then s
  else match th.wait with
    | .latch req => sendCancel s c req .stop
    | _ => updThread s c t (fun th => { th with st := { th.st with state := .running }, wait := .none })

/-- Asks a thread to stop for requesters (thread, gd). -/
def askStop (s : State) (c t : Nat) (who : List (Nat × Nat)) : State :=
  let s := updThread s c t (fun th => { th with stopReq := some (th.stopReq.getD [] ++ who) })
  abandonForStop s c t

/-- The loads a stopping thread waits for (02 R90). -/
def loadsPending (k : Core) (t : Nat) : Bool := k.reqs.any (fun q => q.thread == t && q.kind.isLoad)

/-- THR.STOP's gd is written in the requester. -/
def stopAnswer (s : State) (c v : Nat) (x : Nat × Nat) : State :=
  updCore s c (fun k => ({ k with ctl := { k.ctl with gBusy := k.ctl.gBusy.erase x } }).writeG x.1 x.2 (word v))

/-- The thread reaches STOPPED once its loads have written their registers. -/
def stopComplete (s : State) (c t : Nat) : State :=
  let k := getCore s c
  let th := k.thread t
  match th.stopReq with
  | none => s
  | some who =>
    if th.st.state != .running || th.walk.isSome || loadsPending k t || inSwitch k t then s
    else
      let s := updThread s c t (fun th =>
        { th with st := { th.st with state := if th.haltReq then .halted else .stopped }, stopReq := none, haltReq := false })
      who.foldl (fun s x => stopAnswer s c 0 x) s

/-- A HELD thread is released: RUNNING, or STOPPED where a stop was recorded (01 R17, 02 R89). -/
def releaseThread (s : State) (c t : Nat) : State :=
  updThread s c t (fun th =>
    if th.st.state = .held then
      { th with st := { th.st with state := if th.stopHeld then .stopped else .running }, stopHeld := false, fenceHeld := false }
    else th)

/-! ## Steps 1 and 2 of R91 -/

/-- Asks thread u of a core to stop for a JSWITCH or a change of split. -/
def stopForSwitch (s : State) (c u : Nat) : State :=
  let th := getThread s c u
  match th.st.state with
  | .held => updThread s c u (fun th => { th with stopHeld := true })
  | .running => askStop s c u []
  | .waiting => askStop s c u []
  | _ => s

/-- Every thread but the issuing one is stopped. -/
def othersStopped (k : Core) (t : Option Nat) : Bool :=
  allThreads.all (fun u => some u == t || (match (k.thread u).st.state with
    | .stopped => true
    | .faulted => true
    | .halted => true
    | .held => (k.thread u).stopHeld
    | _ => false))

def ringsIdle (k : Core) : Bool := k.rings.all (fun p => p.2.cur.isNone && p.2.posted.isEmpty)

/-- Step 1 and the start of step 2: threads asked to stop, ring descriptors, waiting drains and engine commands ended. -/
def switchBegin (s : State) (c : Nat) (j : JSwitch) : State :=
  let s := (allThreads.filter (fun u => some u != j.thread)).foldl (fun s u => stopForSwitch s c u) s
  let s := (List.range 16).foldl (fun s r => jswitchRing s c r) s
  let s := jswitchEngines (jswitchDrains s c) c
  updCore s c (fun k => { k with sync := { k.sync with jsw := some j } })

/-- Step 2 is over: threads stopped, request slots free, rings and engines idle. -/
def switchDrained (s : State) (c : Nat) (t : Option Nat) : Bool :=
  let k := getCore s c
  othersStopped k t && k.reqs.isEmpty && ringsIdle k && enginesIdle k

/-- Threads whose loads are done reach STOPPED. -/
def settleStops (s : State) (c : Nat) : State := allThreads.foldl (fun s u => stopComplete s c u) s

/-- While the core drains, a TDRAIN or an engine command that comes to a wait later is ended too (04 R172, 06 R246). -/
def settleSwitch (s : State) (c : Nat) : State := jswitchEngines (jswitchDrains (settleStops s c) c) c

def settleWhileDraining (s : State) (c : Nat) : State :=
  match (getCore s c).sync.jsw with
  | some j => if j.phase = .draining then settleSwitch s c else settleStops s c
  | none => s

/-- Both engine heads return to slot 0 (06 R246). -/
def Engines.rewound (e : Engines) : Engines := { e with harrow := { e.harrow with head := 0 }, winnow := { e.winnow with head := 0 } }

/-! ## Step 3 (09 R351) -/

/-- A gate at c = 0 with nothing counted, at its root or in any core in scope (09 R351). -/
def gateIdle (s : State) (key : Nat) : Bool :=
  let g := getGate s key
  g.gen == 0 && g.arr == {} && (inScope s (gateDie key)).all (fun c => gateLocal s c (gateNo key) == {})

/-- The resets a JSWITCH sends, each to every core in scope; the roots discard their counts at once. -/
def sendResets (s : State) (c : Nat) : State :=
  let gs := (s.gates.filter (fun p => p.2.en && named p.2.rows p.2.cols c)).map (·.1)
  let rs := (s.reaps.filter (fun p => p.2.en && named p.2.rows p.2.cols c)).map (·.1)
  let idle := gs.filter (gateIdle s)
  let s := rs.foldl reapResetRoot (gs.foldl gateResetRoot s)
  let msgs (reap : Bool) (die : Nat → Option Nat) (keys : List Nat) : List ResetMsg :=
    keys.flatMap (fun k => (inScope s (die k)).map (fun x => { reap := reap, ctx := k, origin := c, target := x, idle := !reap && idle.contains k }))
  { s with resets := s.resets ++ msgs false gateDie gs ++ msgs true reapDie rs }

/-- Every latch bit of the core becomes empty, and the engines' heads return to slot 0; waiters are discarded, those of other cores told to restart their waits. -/
def clearCoreLatches (s : State) (c : Nat) : State :=
  let k := getCore s c
  let (lm, f0) := k.mem.localMem.clearLatches
  let (gm, f1) := k.mem.gran.clearLatches
  let ws := k.mem.latch
  let s := setCore s c { k with mem := { k.mem with localMem := lm, gran := gm, latch := [] }, eng := k.eng.rewound }
  let s := reportUncorr (reportUncorr s 0 (srcCore c) f0) 1 (srcCore c) f1
  ws.foldl (fun s w => sendCancel s w.core w.req .reset) s

/-- Steps 4 and 5, and the reseeding of the random-bit generator (04 R158); what the latch unit held is served. -/
def switchEnd (s : State) (c t : Nat) : State :=
  let s := updCore (reseed s c) c (fun k => { k with
    mem := { k.mem with l1 := [], tlb := [], wcache := [] }, sync := { k.sync with jsw := none } })
  latchPutsHeld (updCore s c (fun k => k.mapThreads (fun u th => if u = t then th else { th with regs := {}, twCount := 0 }))) c

/-- As much of a JSWITCH as can be done now: true where it is over. -/
def jswitchGo (s : State) (c t : Nat) : State × Bool :=
  let s := settleWhileDraining s c
  match (getCore s c).sync.jsw with
  | none => (s, false)
  | some j =>
    let s := if j.phase = .draining && switchDrained s c (some t) then
        sendResets (updCore s c (fun k => { k with sync := { k.sync with jsw := some { j with phase := .resetting } } })) c
      else s
    let ready := (match (getCore s c).sync.jsw with
      | some j => j.phase == .resetting
      | none => false) && !s.resets.any (fun m => m.origin == c)
    if ready then (switchEnd (clearCoreLatches s c) c t, true) else (s, false)

/-! ## The granary split (07 R251, R253) -/

/-- A write of GSPLIT: a value above 20 is ignored; a change stops the core first. -/
def gsplitWrite (s : State) (c : Nat) (t : Option Nat) (v : Word) : State :=
  let n := field v 4 0
  let k := getCore s c
  if 20 < n || n = k.mem.mc.csteps || k.sync.jsw.isSome then s
  else switchBegin s c { thread := t, phase := .draining, newSplit := some n }

/-- Steps 2 to 4 of R253, once the core has stopped: caches written back and invalidated, the steps that change role zeroed. -/
def gsplitGo (s : State) (c : Nat) : State :=
  let s := settleWhileDraining s c
  match (getCore s c).sync.jsw with
  | some { thread := t, phase := _, newSplit := some n } =>
    if !switchDrained s c t then s
    else
      let s := gcFlush s c (fun _ => true)
      let s := updCore s c (fun k =>
        let lo := 0x500000 - max n k.mem.mc.csteps * 0x40000
        let hi := 0x500000 - min n k.mem.mc.csteps * 0x40000
        { k with
          mem := { k.mem with gran := k.mem.gran.zeroRange lo (hi - lo), mc := { k.mem.mc with csteps := n } }
          sync := { k.sync with jsw := none } })
      serveAll s c
  | _ => s

def execGsplitWrite (core : Nat) (v : Word) (s : State) : Out :=
  .next (if coreUp s core then gsplitGo (gsplitWrite s core none v) core else s)

/-! ## Core reset and wipe -/

/-- What a core holds of others' requests is gone; requests of the core itself are forgotten elsewhere. -/
def forgetCore (s : State) (c : Nat) : State :=
  let ws := (getCore s c).mem.latch
  let s := ws.foldl (fun s w => if w.core = c then s else sendCancel s w.core w.req .reset) s
  (s.cores.map (·.1)).foldl (fun s x => updCore s x (fun k => { k with
    mem := { k.mem with latch := k.mem.latch.filter (fun w => w.core != c) } })) s

/-- Core reset: every field at its reset value, memories wiped, the generator reseeded (02 R101, 04 R158). Request numbers go on, so that
no answer on its way meets a new request. -/
def coreResetAt (s : State) (c : Nat) : State :=
  let s := forgetCore s c
  reseed (setCore s c { (coreReset : Core) with nextReq := (getCore s c).nextReq }) c

def execCoreReset (core : Nat) (s : State) : Out := .next (if coreExists s core then coreResetAt s core else s)

/-- The Ward's CORE_WIPE (13 R461); fills that waited at a full word are served. -/
def coreWipe (s : State) (c : Nat) : State :=
  let s := updCore (reseed s c) c (fun k => { k with
    mem := { k.mem with localMem := {}, gran := {}, gcache := [], l1 := [], tlb := [] }
    tile := { k.tile with regs := [], acc0 := {}, acc1 := {}, opCache := [] }
    drain := { k.drain with tables := [], held := [] } })
  serveAll s c

def execCoreWipe (core : Nat) (s : State) : Out := .next (if coreExists s core then coreWipe s core else s)

/-- The control cluster releases thread 0 after loading the supervisor (02 R101). -/
def threadZeroRelease (s : State) (c : Nat) : State :=
  if coreHeld s c then updThread s c 0 (fun th => { th with fenceHeld := th.fenceHeld || th.st.state == .held }) else releaseThread s c 0

def execThreadZeroRelease (core : Nat) (s : State) : Out := .next (if coreUp s core then threadZeroRelease s core else s)

/-- A FAULTED thread runs again from a given pc (02 R54; notes/assumptions/40.md). -/
def faultedRestart (s : State) (c t : Nat) (pc : Word) (keeper : Bool) : State :=
  updThread s c t (fun th =>
    if th.st.state = .faulted then { th with pc := pc, st := { th.st with state := wakeState s c, pm := keeper }, fenceHeld := coreHeld s c }
    else th)

def execFaultedThreadRestart (core thread : Nat) (pc : Word) (keeper : Bool) (s : State) : Out :=
  .next (if coreUp s core && thread < 16 then faultedRestart s core thread pc keeper else s)

/-- The Ward entropy source reseeds a core's generator (04 R158), unless it has failed (13 R454). -/
def execRngReseed (core : Nat) (s : State) : Out :=
  .next (if coreUp s core && !s.ward.entropyBad then reseed s core else s)

end Sys2Proof.Machine
end

