-- ==== Sys2Proof/Machine/Walks.lean ====
section
/-!
DEFINITION. Machine/Walks.lean: table walks by units other than a core: the sowing engines, the fabric and the host ports (08 R318, 11 R405,
10 R363). They use no walker cache of a core.
-/

namespace Sys2Proof.Machine

/-- Walks from a level's table on; the first argument is the number of levels left. -/
def plainFrom (space va : Nat) : Nat → Nat → State → Walk × State
  | 0, _, s => (.fault 7, s)
  | k + 1, table, s =>
    let l := 4 - k
    let pa := table + 8 * lvlIndex l va
    let g := bulkRead s pa 8
    let w := word g.value
    let s := g.st
    if g.poison then (.fault 7, s)
    else if !bitOf w 0 then (absent space l w, s)
    else if bitOf w 1 then
      if leafBad space l w then (.fault 7, s) else (.leaf l w pa, s)
    else if tableBad l w then (.fault 7, s)
    else plainFrom space va k (leafAddr w) s

/-- A walk under a root of the layout of R266. -/
def plainWalk (s : State) (root : Word) (space va : Nat) : Walk × State :=
  if bitOf root 0 then plainFrom space va 4 (field root 47 12 * 4096) s else (.fault 6, s)

end Sys2Proof.Machine
end

