-- ==== Sys2Proof/Machine/Sowing.lean ====
section
/-!
DEFINITION. Machine/Sowing.lean: the sowing engine of a die (08 R316–R323).
-/

namespace Sys2Proof.Machine

def sowctlWord (e : SowEngine) : Word :=
  word (e.gate * 2 ^ 55 + e.ahead * 2 ^ 51 + e.first * 2 ^ 36 + e.last * 2 ^ 24 + e.period * 2 ^ 8 + boolN e.en)

def sowstatWord (e : SowEngine) : Word :=
  word (e.next * 2 ^ 52 + e.running.length * 2 ^ 48 + e.errEnt * 2 ^ 36 + e.errSt * 2 ^ 28)

/-- A write of SOWCTL (08 R316). -/
def sowctlWrite (s : State) (die : Nat) (v : Word) : State :=
  let e := getSow s die
  if e.en then (if bitOf v 0 then s else setSow s die { e with en := false })
  else
    let a := field v 54 51
    let e := { e with
      gate := field v 63 55, ahead := if 1 ≤ a && a ≤ 8 then a else e.ahead, first := field v 47 36, last := field v 35 24,
      period := field v 23 8, en := bitOf v 0 }
    setSow s die (if e.en then { e with next := e.first } else e)

def execSowctlWrite (die : Nat) (v : Word) (s : State) : Out := .next (if die < 4 then sowctlWrite s die v else s)

def sowbaseWrite (s : State) (die : Nat) (v : Word) : State :=
  let e := getSow s die
  if e.en then s else setSow s die { e with base := field v 31 0 }

/-! ## Entry fields (08 R317) -/

def enV (ws : List Nat) : Bool := (dWord ws 0).testBit 63
def enTile (ws : List Nat) : Bool := (dWord ws 0).testBit 62
def enUnpack (ws : List Nat) : Bool := (dWord ws 0).testBit 60
def enSkew (ws : List Nat) : Bool := (dWord ws 0).testBit 61
def enGran (ws : List Nat) : Bool := (dWord ws 0).testBit 57
def enGA (ws : List Nat) : Bool := (dWord ws 0).testBit 56
def enSrc (ws : List Nat) : Nat := dWord ws 1
def enLen (ws : List Nat) : Nat := dField ws 2 63 32
def enDst (ws : List Nat) : Nat := dField ws 2 22 0
def enLword (ws : List Nat) : Nat := dField ws 5 19 0
def enTarget (ws : List Nat) : SowTarget := targetOf (dField ws 0 59 58) (dField ws 4 23 0) (dField ws 3 47 0)

/-- The 64 KiB pages of an entry's source. -/
def enPages (ws : List Nat) : Nat :=
  if enLen ws = 0 then 0 else (enSrc ws % 65536 + enLen ws - 1) / 65536 + 1

def getEntry (e : SowEngine) (n : Nat) : SowEntry := spGet {} e.entries n

/-! ## Writing an entry (08 R318) -/

/-- The root an engine walks from for a space (notes/assumptions/35.md). -/
def sowRootWord (s : State) (die space : Nat) : Word :=
  let cs := (allCores s).filter (fun c => dieOf s.grid c == die)
  rootOf (getCore s (cs.getD (Config.sowRoot die % max 1 cs.length) 0)) space

/-- A demand walk for one page: its stored translation, or the status of R291. -/
def sowWalk (s : State) (die va : Nat) : (Nat ⊕ SowPage) × State :=
  let space := aTag va
  let a := va % 2 ^ 48
  match plainWalk s (sowRootWord s die space) space a with
  | (.fault n, s) => (.inl (0x20 + n), s)
  | (.flash l w, s) =>
    (.inr { flash := true, base := leafAddr w + a % 2 ^ lvlShift l, slot := leafSlot w, sh := leafSH w, p := leafP w, late := true }, s)
  | (.leaf l w pa, s) =>
    let (w, s) := markLeaf s pa false w
    (.inr { flash := space == 5, base := leafAddr w + a % 2 ^ lvlShift l, slot := leafSlot w, sh := leafSH w, p := leafP w, late := bitOf w 3 }, s)

def sowWalks (s : State) (die : Nat) (ws : List Nat) : (Nat ⊕ List SowPage) × State :=
  if !([4, 5].contains (aTag (enSrc ws))) then (.inl 0x04, s)
  else (List.range (enPages ws)).foldl (fun x i =>
    match x.1 with
    | .inl _ => x
    | .inr ps =>
      match sowWalk x.2 die (enSrc ws / 65536 * 65536 + 65536 * i) with
      | (.inl n, s) => (.inl n, s)
      | (.inr p, s) => (.inr (ps ++ [p]), s)) (.inr [], s)

/-- Translations that the other entries of an engine hold. -/
def heldPages (e : SowEngine) (n : Nat) : Nat :=
  (e.entries.filter (fun x => x.1 != n)).foldl (fun a x => a + x.2.pages.length) 0

/-- A write of an entry that is not running. -/
def entryWrite (s : State) (die n : Nat) (ws : List Nat) : State :=
  let e := getSow s die
  if e.running.any (fun r => r.entry == n) then s
  else
    let put (s : State) (x : SowEntry) : State :=
      let e := getSow s die
      setSow s die { e with entries := spSet {} e.entries n x }
    if !enV ws then put s { words := ws, valid := false, pages := [] }
    else
      match sowWalks s die ws with
      | (.inr ps, s) =>
        if heldPages e n + ps.length ≤ 32768 then put s { words := ws, valid := true, pages := ps }
        else
          let (v, s) := drawFree s
          let s := put s { words := ws, valid := false, pages := [] }
          setSow s die { getSow s die with errEnt := n, errSt := v % 256 }
      | (.inl st, s) =>
        let s := put s { words := ws, valid := false, pages := [] }
        setSow s die { getSow s die with errEnt := n, errSt := st }

def execSowEntryWrite (die entry : Nat) (words : List Word) (s : State) : Out :=
  .next (if die < 4 && entry < 4096 && words.length == 8 then entryWrite s die entry (words.map (·.toNat)) else s)

/-! ## Starting an entry (08 R319) -/

/-- The status of an entry's fields (08 R291, R302, R317; 01 R10). -/
def entryStatus (s : State) (ws : List Nat) : Nat :=
  let t := enTarget ws
  let len := enLen ws
  let unit : Nat := if aTag (enSrc ws) = 5 || enUnpack ws then 4096 else if enTile ws || enSkew ws then 2048 else 8
  let tiles := if enTile ws then len / 2048 else 1
  if dField ws 0 46 16 != 0 || dField ws 2 31 23 != 0 || dField ws 3 63 48 != 0 || dField ws 4 63 24 != 0 || dField ws 5 63 20 != 0 ||
      dWord ws 6 != 0 || dWord ws 7 != 0 || (enGA ws && 320 ≤ entryGate ws) || (t.mode != 3 && t.disordered) then 0x02
  else if t.mode = 3 then 0x0B
  else if len % unit != 0 || (enTile ws && len % 2048 != 0) || (enSkew ws && len % 2048 != 0) ||
      enSrc ws % (if enUnpack ws then 65536 else if aTag (enSrc ws) = 5 then 4096 else 8) != 0 ||
      enDst ws % (if enSkew ws then 64 else 8) != 0 || enLword ws % 8 != 0 then 0x03
  else if t.beyond s.grid || (if enGran ws then 0x500000 else localEnd) < enDst ws + len || localEnd < enLword ws + 8 * tiles then 0x05
  else 0

/-- Passes over entries that are not valid; wrapping at LAST adds PERIOD to BASE. The first argument bounds the entries passed. -/
def sowSeek : Nat → SowEngine → SowEngine
  | 0, e => e
  | k + 1, e =>
    if (getEntry e e.next).valid then e
    else if e.next = e.last then sowSeek k { e with next := e.first, base := (e.base + e.period) % 2 ^ 32 }
    else sowSeek k { e with next := (e.next + 1) % 4096 }

/-- NEXT after an entry starts. -/
def sowAdvance (e : SowEngine) : SowEngine :=
  if e.next = e.last then { e with next := e.first, base := (e.base + e.period) % 2 ^ 32 } else { e with next := (e.next + 1) % 4096 }

def enTrigger (e : SowEngine) (ws : List Nat) : Nat := (e.base + dField ws 0 15 0) % 2 ^ 32

/-- The schedule gate has reached a generation, compared as in R296. -/
def sowReached (s : State) (die : Nat) (e : SowEngine) (t : Nat) : Bool :=
  e.gate < 320 && (getGate s (gateKey die e.gate)).en && genReached (sowCopy s die (gateKey die e.gate)) (BitVec.ofNat 32 t)

def sowShares (s : State) (a b : List Nat) : Bool :=
  (sowCores s (enTarget a)).any (fun c => (enTarget b).has c)

/-- A run that starts: its fields are checked. -/
def startRun (s : State) (ws : List Nat) (n t : Nat) (redo : Bool) : SowRun :=
  { entry := n, trigger := t, redo := redo, status := entryStatus s ws, delivered := false }

/-- The oldest entry written to SOWREDO starts once fewer than 8 run. -/
def redoNext (s : State) (die : Nat) : State :=
  let e := getSow s die
  match e.redos with
  | [] => s
  | n :: rest =>
    let x := getEntry e n
    if !x.valid || e.running.any (fun r => r.entry == n) then setSow s die { e with redos := rest }
    else if 8 ≤ e.running.length then s
    else setSow s die { e with redos := rest, running := e.running ++ [startRun s x.words n (enTrigger e x.words) true] }

def sowStart (s : State) (die : Nat) : State :=
  let e0 := getSow s die
  if coresHold s then s
  else if !e0.redos.isEmpty then redoNext s die
  else if !e0.en then s
  else
    let e := sowSeek 4096 e0
    let x := getEntry e e.next
    let t := enTrigger e x.words
    if x.valid && sowReached s die e (t + 2 ^ 32 - e.ahead) && e.running.length < 8 &&
        !e.running.any (fun r => r.entry == e.next || sowShares s (getEntry e r.entry).words x.words) then
      setSow s die (sowAdvance { e with running := e.running ++ [startRun s x.words e.next t false] })
    else s

def execSowEntryStart (die : Nat) (s : State) : Out := .next (if die < 4 then sowStart s die else s)

/-- SOWREDO starts an entry at once (08 R321); with 8 running, or while the module quiesces, it starts once it can (notes/assumptions/35.md). -/
def sowRedo (s : State) (die n : Nat) : State :=
  let e := getSow s die
  if !(getEntry e n).valid || e.running.any (fun r => r.entry == n) || e.redos.contains n then s
  else
    let s := setSow s die { e with redos := e.redos ++ [n] }
    if coresHold s then s else redoNext s die

def execSowredo (die entry : Nat) (s : State) : Out := .next (if die < 4 && entry < 4096 then sowRedo s die entry else s)

/-! ## Fetching and delivering (08 R319–R321, 07 R280–R283) -/

/-- A demand fetch of a page fails: protection, SH against XF, or an address its memory does not have. -/
def pageStatus (s : State) (unpack : Bool) (p : SowPage) : Nat :=
  if !slotHasKey s p.slot then 0x32
  else if p.sh != unpack then 0x33
  else if p.flash && jobRegion s < p.base + 4096 then 0x27
  else 0

/-- The bytes of one page from an offset on, with their poison. -/
def pageRead (s : State) (unpack : Bool) (p : SowPage) (off n : Nat) : List Byte × List Bool × State :=
  let pl : Place := { flash := p.flash, pa := p.base, slot := p.slot, cached := false }
  if unpack then
    (let ((bs, ps, k), s) := imageDecode s 0 pl
     ((bs.drop off).take n, (ps.drop (off / 8)).take (n / 8), countRefused s k))
  else
    match imageRead s 0 pl off n with
    | some g => (g.data, g.pois, g.st)
    | none => (List.replicate n 0, List.replicate ((n + 7) / 8) true, s)

/-- What a fetch has brought: bytes, poison, the status of the page that failed. -/
structure SowData where
  data : List Byte := []
  pois : List Bool := []
  status : Nat := 0
  st : State

/-- One page of a fetch: its stored translation, or a new walk's. -/
def sowPage (die : Nat) (ws : List Nat) (again : Bool) (r : SowData) (p : SowPage × Nat) : SowData :=
  if r.status != 0 then r
  else
    match (if again then sowWalk r.st die (enSrc ws / 65536 * 65536 + 65536 * p.2) else (.inr p.1, r.st)) with
    | (.inl n, s) => { r with status := n, st := s }
    | (.inr pg, s) =>
      let st := pageStatus s (enUnpack ws) pg
      if st != 0 then { r with status := st, st := s }
      else
        let off := if p.2 = 0 then enSrc ws % 65536 else 0
        let n := min (65536 - off) (enLen ws - r.data.length)
        let (b, q, s) := pageRead s (enUnpack ws) pg off n
        { data := r.data ++ b, pois := r.pois ++ q, st := s }

/-- The pages of an entry in order, up to the first that fails. -/
def sowFetch (s : State) (die : Nat) (x : SowEntry) (again : Bool) : SowData :=
  (x.pages.zip (List.range x.pages.length)).foldl (sowPage die x.words again) { st := s }

/-- A run-ahead fetch may read every page and go from each into the next (07 R281, R282). -/
def aheadOk (ps : List SowPage) : Bool :=
  ps.all (fun p => !p.late) && (ps.zip (ps.drop 1)).all (fun x => x.2.p && x.1.slot == x.2.slot)

/-- The run-ahead fetch of an entry brings all of its data: it is not stopped, and not dropped over poison. -/
def aheadBrings (x : SowEntry) (r : SowData) : Bool := aheadOk x.pages && r.status == 0 && !r.pois.any id

/-- The data of an entry whose trigger generation is complete: what run-ahead fetches could bring, or else demand fetches, which walk again
(07 R283). -/
def sowDemand (s : State) (die : Nat) (x : SowEntry) (redo : Bool) : SowData :=
  let r := sowFetch s die x false
  if !redo && aheadBrings x r then r else sowFetch s die x true

/-- The part of a target on one die: the die's engine delivers it (08 R320). -/
def dieTarget (s : State) (t : SowTarget) (die : Nat) : SowTarget :=
  let cs := (sowCores s t).filter (fun c => dieOf s.grid c == die)
  let least (f : Nat → Nat) : Nat := cs.foldl (fun a c => min a (f c)) 63
  let most (f : Nat → Nat) : Nat := cs.foldl (fun a c => max a (f c)) 0
  { t with r0 := least rowOf, r1 := most rowOf, c0 := least colOf, c1 := most colOf }

/-- A target that the trees of the entry's engines cannot reach. -/
def treeCut (s : State) (x : SowEntry) : Bool :=
  let t := enTarget x.words
  let from_ (c : Nat) : Nat := Config.sowSite (dieOf s.grid c) ((x.pages.map (·.base)).headD 0)
  (sowCores s t).any (fun c => sowCut s from_ (dieTarget s t (dieOf s.grid c)) c)

/-- Delivers the first bytes of an entry's data to its targets and fills the latch words they complete; the cores whose cache part
the extent reaches get nothing (08 R320). -/
def sowDeliver (s : State) (ws : List Nat) (trigger : Nat) (bs : List Byte) (ps : List Bool) (whole : Bool) : State :=
  let (bs, ps) := if enSkew ws then ofGroups (skewGroups false (groupsOf (bs.take (bs.length / 64 * 64)) ps)) else (bs, ps)
  let gran := enGran ws
  let cs := (sowCores s (enTarget ws)).filter (fun c => !sowRefused s false gran (enDst ws + enLen ws) c)
  let s := cs.foldl (fun s c => writeRun (fun s p a b => coreWrite s gran c p a b) (enDst ws) bs ps s) s
  let fills : List (Nat × Nat) :=
    if enTile ws then (List.range (bs.length / 2048)).map (fun i => (8 * i, trigger + i * 2 ^ 32))
    else if whole then [(0, trigger)] else []
  cs.foldl (fun s c => fills.foldl (fun s f => latchPut s false c (enLword ws + f.1) (toBytes 8 f.2) false) s) s

def updRun (s : State) (die n : Nat) (f : SowRun → SowRun) : State :=
  let e := getSow s die
  setSow s die { e with running := e.running.map (fun r => if r.entry == n then f r else r) }

def endRun (s : State) (die n : Nat) : State :=
  let e := getSow s die
  setSow s die { e with running := e.running.filter (fun r => r.entry != n) }

/-- The gate arrival of a delivered entry, and its end (08 R320, 09 R340, R342). -/
def sowFinish (s : State) (die : Nat) (r : SowRun) (ws : List Nat) : State :=
  if !enGA ws || r.arrDropped then endRun s die r.entry
  else
    let key := gateKey die (entryGate ws)
    let g := getGate s key
    if !g.en || !g.sowm.getLsbD die then endRun (arrivalDropped s (srcUnit 1 die) (entryGate ws) 0) die r.entry
    else
      match sowArrive s key die with
      | some s => endRun s die r.entry
      | none => s

/-- The entry's fetches can all have been made: once its trigger generation has completed, or, before, by run-ahead fetches that meet
no poison and no boundary. -/
def sowComplete (s : State) (die n : Nat) : State :=
  let e := getSow s die
  match e.running.find? (fun r => r.entry == n) with
  | none => s
  | some r =>
    let x := getEntry e n
    let ws := x.words
    if r.status != 0 || coresHold s then s
    else if r.delivered then sowFinish s die r ws
    else
      let demand := r.redo || sowReached s die e r.trigger
      let f := if demand then sowDemand s die x r.redo else sowFetch s die x false
      if f.status != 0 || (!demand && !aheadBrings x f) || treeCut s x then s
      else
        let s := sowDeliver f.st ws r.trigger f.data f.pois true
        if (sowCores s (enTarget ws)).any (sowRefused s false (enGran ws) (enDst ws + enLen ws)) then
          updRun s die n (fun r => { r with status := 0x05 })
        else
          let s := updRun s die n (fun r => { r with delivered := true })
          sowFinish s die { r with delivered := true } ws

def execSowEntryComplete (die entry : Nat) (s : State) : Out := .next (if die < 4 then sowComplete s die entry else s)

/-- The end of an entry in error (08 R321). -/
def sowReport (s : State) (die n st : Nat) : State :=
  let s := endRun s die n
  let s := setSow s die { getSow s die with errEnt := n, errSt := st }
  let s := sendEvent s { sev := 2, code := 0x0021, source := srcUnit 1 die, arg0 := n, arg1 := st }
  interrupt s (.sowError die n)

/-- An entry whose fields failed, or a demand fetch of which fails: what precedes the fault is delivered. -/
def sowError (s : State) (die n : Nat) : State :=
  let e := getSow s die
  match e.running.find? (fun r => r.entry == n) with
  | none => s
  | some r =>
    if coresHold s then s
    else if r.status != 0 then sowReport s die n r.status
    else if r.delivered || !(r.redo || sowReached s die e r.trigger) then s
    else
      let x := getEntry e n
      let f := sowDemand s die x r.redo
      if f.status = 0 || treeCut s x then s else sowReport (sowDeliver f.st x.words r.trigger f.data f.pois false) die n f.status

def execSowEntryError (die entry : Nat) (s : State) : Out := .next (if die < 4 then sowError s die entry else s)

end Sys2Proof.Machine
end

