-- ==== Sys2Proof/Machine/Control.lean ====
section
/-!
DEFINITION. Machine/Control.lean: the registers of a core's CONTROL space (07 R264, 15 R540, R556), as its own keeper threads, other cores
and the control cluster read and write them.
-/

namespace Sys2Proof.Machine

/-! ## CYCLE and the stall counters -/

/-- A read of CYCLE: the CCLK that issues account for, and a free number of others (02 R87). -/
def readCycle (s : State) (c : Nat) : Word × State :=
  let v := (getCore s c).ctl.cycle + word (Config.idleCycles s.draws)
  (v, updCore { s with draws := s.draws + 1 } c (fun k => { k with ctl := { k.ctl with cycle := v } }))

/-- The counters that the clock alone moves, by index; ISSUED, the operand-cache counters and STALLCTL are not among them. -/
def timedCounters : List Nat :=
  (List.range 19).map (· + 1) ++ (List.range 20).map (· + 33) ++ (List.range 7).map (· + 64) ++ [79] ++ (List.range 5).map (· + 80) ++
    (List.range 10).map (· + 96) ++ (List.range 6).map (· + 128) ++ [160, 161, 162, 165]

/-- The counters a core has. -/
def coreCounters : List Nat := [0, 32, 192, 193] ++ timedCounters

/-- A count moved on by a free number of cycles (15 R539). -/
def chargeFree (n : Nat) (v : Nat × Bool) : Nat × Bool := ((v.1 + n) % 2 ^ 48, v.2 || 2 ^ 48 ≤ v.1 + n)

/-- The clock's charges to some counters up to now: no rule fixes them without a clock, so they are free. -/
def chargeTimed (s : State) (c : Nat) (l : List Nat) : State :=
  if (getCore s c).stall.frozen then s
  else l.foldl (fun s i =>
    if timedCounters.contains i then
      (let (n, s) := drawFree s
       updCore s c (fun k => { k with stall := { k.stall with counts := spUpd (0, false) k.stall.counts i (chargeFree n) } }))
    else s) s

def countWord (v : Nat × Bool) : Word := word (v.1 + boolN v.2 * 2 ^ 48)

/-- FREEZE of STALLCTL: the counters come to a stop, or go on (15 R540). -/
def stallFreeze (s : State) (c : Nat) (on : Bool) : State :=
  let s := if on then chargeTimed s c timedCounters else s
  updCore s c (fun k => { k with stall := { k.stall with frozen := on } })

def stallClear (s : State) (c : Nat) : State := updCore s c (fun k => { k with stall := { k.stall with counts := [] } })

def stallRead (s : State) (c i : Nat) : Word × State :=
  if i = 510 then (word (boolN (getCore s c).stall.frozen), s)
  else if coreCounters.contains i then
    (let s := chargeTimed s c [i]
     (countWord (spGet (0, false) (getCore s c).stall.counts i), s))
  else (0, s)

def stallWrite (s : State) (c i : Nat) (v : Word) : State :=
  if i = 510 then (let s := stallFreeze s c (bitOf v 0); if bitOf v 1 then stallClear s c else s)
  else if coreCounters.contains i then
    updCore s c (fun k => { k with stall := { k.stall with counts := spSet (0, false) k.stall.counts i (field v 47 0, false) } })
  else s

def execStallFreeze (core : Nat) (on : Bool) (s : State) : Out := .next (if coreUp s core then stallFreeze s core on else s)
def execStallClear (core : Nat) (s : State) : Out := .next (if coreUp s core then stallClear s core else s)

/-! ## Registers of R87 -/

/-- A register of thread scope as keeper rights read it. -/
def threadReg (s : State) (c t n : Nat) : Word :=
  let th := getThread s c t
  match n with
  | 0x000 => tstatWord t th
  | 0x001 => twinWord (getThread (settleTwin s c t) c t)
  | 0x010 => th.k.xpc
  | 0x011 => th.k.xstat
  | 0x012 => th.k.xinfo
  | 0x013 => th.k.kscr0
  | 0x014 => th.k.kscr1
  | 0x015 => th.k.kscr2
  | 0x016 => th.k.kscr3
  | 0x023 => th.k.wwdog
  | _ => 0

def coreReg (s : State) (c n : Nat) : Word × State :=
  let k := getCore s c
  match n with
  | 0x002 => (coreIdWord s c, s)
  | 0x003 => readCycle s c
  | 0x004 => (thrStateWord k, s)
  | 0x020 => (k.ctl.kvec, s)
  | 0x021 => (k.ctl.klim, s)
  | 0x022 => (k.ctl.twdog, s)
  | 0x024 => (k.ctl.stallsel, s)
  | _ => (0, s)

/-- KLIM takes a multiple of 64 KiB from 0 to 0x000B_0000 that is not above KVEC (02 R66). -/
def klimOk (k : Core) (v : Word) : Bool := v.toNat % 0x10000 == 0 && v.toNat ≤ 0xB0000 && v.toNat ≤ k.ctl.kvec.toNat

/-- KVEC takes a 1 KiB multiple from KLIM to 0x000B_FC00 (02 R87). -/
def kvecOk (k : Core) (v : Word) : Bool := v.toNat % 1024 == 0 && k.ctl.klim.toNat ≤ v.toNat && v.toNat ≤ 0xBFC00

def klimWrite (s : State) (c : Nat) (v : Word) : State :=
  updCore s c (fun k => if klimOk k v then { k with ctl := { k.ctl with klim := v } } else k)

def kvecWrite (s : State) (c : Nat) (v : Word) : State :=
  updCore s c (fun k => if kvecOk k v then { k with ctl := { k.ctl with kvec := v } } else k)

def coreRegWrite (s : State) (c n : Nat) (v : Word) : State :=
  match n with
  | 0x020 => kvecWrite s c v
  | 0x021 => klimWrite s c v
  | 0x022 => updCore s c (fun k => { k with ctl := { k.ctl with twdog := v } })
  | 0x024 => updCore s c (fun k => { k with ctl := { k.ctl with stallsel := v } })
  | _ => s

/-- A write of XSTAT, which has TSTAT's layout: FLAGS, XACT, TE_IDZ and TE; its other fields stay (02 R62). -/
def xstatWrite (old v : Word) : Word :=
  setField (setField (setField old 28 24 (field v 28 24)) 14 14 (field v 14 14)) 5 0 (field v 5 0)

/-- Keeper registers of a thread, TSTAT and TWIN apart. -/
def keepRegWrite (n : Nat) (v : Word) (k : KRegs) : KRegs :=
  match n with
  | 0x010 => { k with xpc := v }
  | 0x011 => { k with xstat := xstatWrite k.xstat v }
  | 0x012 => { k with xinfo := v }
  | 0x013 => { k with kscr0 := v }
  | 0x014 => { k with kscr1 := v }
  | 0x015 => { k with kscr2 := v }
  | 0x016 => { k with kscr3 := v }
  | 0x023 => { k with wwdog := word (field v 31 0) }
  | _ => k

/-- A TWIN value keeps BASE + COUNT at or below 32 (02 R64). -/
def twinOk (v : Word) : Bool := field v 10 5 + field v 4 0 ≤ 32

/-- A remote TWIN write (15 R556). -/
def twinRemote (s : State) (c t : Nat) (v : Word) : State :=
  let st := (getThread s c t).st.state
  if twinOk v && (st == .stopped || st == .faulted || st == .halted) then
    settleTwin (updThread s c t (fun th =>
      { th with twPend := some (BitVec.ofNat 6 (field v 10 5), BitVec.ofNat 5 (field v 4 0)) })) c t
  else s

/-- A write of a thread-scope register with keeper rights from outside the thread. -/
def threadRegWrite (s : State) (c t n : Nat) (v : Word) : State :=
  match n with
  | 0x000 => updThread s c t (tstatWrite true v)
  | 0x001 => twinRemote s c t v
  | _ => updThread s c t (fun th => { th with k := keepRegWrite n v th.k })

/-! ## Granary-cache maintenance (07 R256) -/

def setMc (s : State) (c : Nat) (f : MemCtl → MemCtl) : State := updCore s c (fun k => { k with mem := { k.mem with mc := f k.mem.mc } })

/-- A write of GCMD: one of GO is ignored while BUSY. -/
def gcmdWrite (s : State) (c : Nat) (v : Word) : State :=
  let op := field v 1 0
  setMc s c (fun m =>
    if !bitOf v 2 then { m with gcop := op }
    else if m.gcbusy then m
    else if op = 3 then { m with gcop := op }
    else { m with gcop := op, gcrun := op, gcbusy := true, gcdone := false })

/-- The operation of a GCMD that has been started makes its write-backs. -/
def gcRun (s : State) (c op : Nat) (f : State → State) : State :=
  let m := (getCore s c).mem.mc
  if coreUp s c && m.gcbusy && !m.gcdone && m.gcrun == op then setMc (f s) c (fun m => { m with gcdone := true }) else s

/-- The cache lines that hold bytes of the range whose page a translation entry gives. -/
def inRange (k : Core) (g : GLine) : Bool :=
  let lo := k.mem.mc.gcaddr.toNat % 2 ^ 48
  let hi := lo + k.mem.mc.gclen.toNat
  lo < hi && k.mem.tlb.any (fun e =>
    let size := 2 ^ lvlShift e.level
    let base := leafAddr e.leaf
    let va := e.vpn * size
    e.space == 4 && leafSlot e.leaf == g.slot && base < g.line * 256 + 256 && g.line * 256 < base + size &&
      va + g.line * 256 < hi + base && lo + base < va + g.line * 256 + 256)

def execWball (core : Nat) (s : State) : Out := .next (gcRun s core 0 (fun s => gcClean s core))
def execWbinvall (core : Nat) (s : State) : Out := .next (gcRun s core 1 (fun s => gcFlush s core (fun _ => true)))
def execWbinv (core : Nat) (s : State) : Out := .next (gcRun s core 2 (fun s => gcFlush s core (inRange (getCore s core))))

def execGcmdComplete (core : Nat) (s : State) : Out :=
  .next (if (getCore s core).mem.mc.gcbusy && (getCore s core).mem.mc.gcdone then setMc s core (fun m => { m with gcbusy := false }) else s)

def gcmdWord (m : MemCtl) : Word := word (boolN m.gcbusy * 2 ^ 63 + m.gcop)

def rootWord (v : Word) : Word := word (field v 47 12 * 4096 + boolN (bitOf v 0))

/-! ## The space (07 R264) -/

/-- A unit of the CONTROL space that an 8-byte offset names. -/
inductive CtlReg where
  | core (n : Nat)
  | thread (t n : Nat)
  | stall (i : Nat)
  | table (off : Nat)
  | engine (off : Nat)
  | gsplit | gcaddr | gclen | gcmd
  | root (i : Nat)
  | ring (n i : Nat)
  | gate (n i : Nat)
  | reap (n i : Nat)
  | waitCount (t : Nat)
  | none
  deriving DecidableEq, Repr

def ctlReg (off : Nat) : CtlReg :=
  if off < 0x8000 then .core (off / 8)
  else if off < 0xA000 then .thread ((off - 0x8000) / 0x200) ((off - 0x8000) % 0x200 / 8)
  else if 0x10000 ≤ off && off < 0x20000 then .stall ((off - 0x10000) / 8)
  else if 0x20000 ≤ off && off < 0x24000 then .table (off - 0x20000)
  else if 0x30000 ≤ off && off < 0x30200 then .engine (off - 0x30000)
  else if off = 0x40000 then .gsplit
  else if off = 0x40008 then .gcaddr
  else if off = 0x40010 then .gclen
  else if off = 0x40018 then .gcmd
  else if 0x50000 ≤ off && off < 0x50018 then .root ((off - 0x50000) / 8)
  else if 0x60000 ≤ off && off < 0x60200 then .ring ((off - 0x60000) / 0x20) ((off - 0x60000) % 0x20)
  else if 0x70000 ≤ off && off < 0x75000 then .gate ((off - 0x70000) / 0x40) ((off - 0x70000) % 0x40)
  else if 0x78000 ≤ off && off < 0x7C000 then .reap ((off - 0x78000) / 0x40) ((off - 0x78000) % 0x40)
  else if 0x7F000 ≤ off && off < 0x7F080 then .waitCount ((off - 0x7F000) / 8)
  else .none

def gateRead (s : State) (key i : Nat) : Word :=
  let g := getGate s key
  match i with
  | 0x00 => g.ctlWord
  | 0x08 => word g.rows.toNat
  | 0x10 => word g.cols.toNat
  | 0x18 => gateStateWord s key
  | 0x20 => word (boolN g.farr * 4 + boolN g.evrec * 2 + boolN g.ccint)
  | _ => 0

def gateWrite (s : State) (key i : Nat) (v : Word) (by_ : Option (Nat × Nat)) : State :=
  let g := getGate s key
  match i with
  | 0x00 => gctlWrite s key v by_
  | 0x08 => if g.en then s else setGate s key { g with rows := BitVec.ofNat 48 (field v 47 0) }
  | 0x10 => if g.en then s else setGate s key { g with cols := BitVec.ofNat 48 (field v 47 0) }
  | 0x20 => setGate s key { g with farr := bitOf v 2, evrec := bitOf v 1, ccint := bitOf v 0 }
  | _ => s

def reapRead (s : State) (key i : Nat) : Word :=
  let r := getReap s key
  match i with
  | 0x00 => r.ctlWord
  | 0x08 => word r.rows.toNat
  | 0x10 => word r.cols.toNat
  | 0x18 => reapStateWord s key
  | _ => 0

def reapWrite (s : State) (key i : Nat) (v : Word) (by_ : Option (Nat × Nat)) : State :=
  let r := getReap s key
  match i with
  | 0x00 => rctlWrite s key v by_
  | 0x08 => if r.en then s else setReap s key { r with rows := BitVec.ofNat 48 (field v 47 0) }
  | 0x10 => if r.en then s else setReap s key { r with cols := BitVec.ofNat 48 (field v 47 0) }
  | _ => s

def engineRead (k : Core) (off : Nat) : Word :=
  match off with
  | 0x000 => ringWord k.eng.harrow
  | 0x008 => hlaneWord k
  | 0x010 => word k.eng.hwdog
  | 0x018 => engStatWord k.eng.harrow
  | 0x100 => ringWord k.eng.winnow
  | 0x118 => engStatWord k.eng.winnow
  | _ => 0

def engineWrite (s : State) (c off : Nat) (v : Word) : State :=
  match off with
  | 0x000 => ringWrite s c false v
  | 0x008 => hlaneWrite s c v
  | 0x010 => updCore s c (fun k => { k with eng := { k.eng with hwdog := field v 31 0 } })
  | 0x100 => ringWrite s c true v
  | _ => s

def drillRead (s : State) (c n i : Nat) : Word :=
  match i with
  | 0x00 => drcfgWord (getRing s c n)
  | 0x08 => drstatWord (getRing s c n)
  | 0x10 => drerrWord s c n
  | _ => 0

/-- Reads the register at an 8-byte offset of core c's CONTROL space. -/
def controlRead (s : State) (c off : Nat) : Word × State :=
  let k := getCore s c
  let die := dieOf s.grid c
  match ctlReg off with
  | .core n => coreReg s c n
  | .thread t n => (threadReg s c t n, s)
  | .stall i => stallRead s c i
  | .table o => (word ((spGet 0 k.drain.tables (o / 4)).toNat + (spGet 0 k.drain.tables (o / 4 + 1)).toNat * 2 ^ 32), s)
  | .engine o => (engineRead k o, s)
  | .gsplit => (word k.mem.mc.csteps, s)
  | .gcaddr => (k.mem.mc.gcaddr, s)
  | .gclen => (k.mem.mc.gclen, s)
  | .gcmd => (gcmdWord k.mem.mc, s)
  | .root i => ((match i with
    | 0 => k.mem.mc.trootb
    | 1 => k.mem.mc.trootf
    | _ => k.mem.mc.trooth), s)
  | .ring n i => (drillRead s c n i, s)
  | .gate n i => (gateRead s (gateKey die n) i, s)
  | .reap n i => (reapRead s (reapKey die n) i, s)
  | .waitCount t =>
    if t < 16 && (k.thread t).st.state == .waiting then (let (n, s) := drawFree s; (word (n % 2 ^ 42), s)) else (0, s)
  | .none => (0, s)

/-- Writes a register of core c's CONTROL space with 64 bits; by_ is the thread that writes, none the control cluster. -/
def controlWrite (s : State) (c off : Nat) (v : Word) (by_ : Option (Nat × Nat)) : State :=
  let die := dieOf s.grid c
  match ctlReg off with
  | .core n => coreRegWrite s c n v
  | .thread t n => threadRegWrite s c t n v
  | .stall i => stallWrite s c i v
  | .table o => if by_.isNone then clusterTableWrite s c o v else tableWrite s c o (toBytes 8 v.toNat)
  | .engine o => engineWrite s c o v
  | .gsplit => gsplitWrite s c (match by_ with
    | some (c', t) => if c' = c then some t else none
    | none => none) v
  | .gcaddr => setMc s c (fun m => { m with gcaddr := v })
  | .gclen => setMc s c (fun m => { m with gclen := v })
  | .gcmd => gcmdWrite s c v
  | .root i => setMc s c (fun m => match i with
    | 0 => { m with trootb := rootWord v }
    | 1 => { m with trootf := rootWord v }
    | _ => { m with trooth := rootWord v })
  | .ring n i => if i = 0 then drcfgWrite s c n v else s
  | .gate n i => gateWrite s (gateKey die n) i v by_
  | .reap n i => reapWrite s (reapKey die n) i v by_
  | _ => s

end Sys2Proof.Machine
end

