-- ==== Sys2Proof/Machine/Recorder.lean ====
section
/-!
DEFINITION. Machine/Recorder.lean: the event recorder's ring, its freeze and the black box (15 R550–R553).
-/

namespace Sys2Proof.Machine

/-- The flash controller on C3 has power. -/
def flashPowered (s : State) : Bool :=
  s.power.powered && !s.power.tripped && s.power.st != .off && s.power.st != .deepSleep

/-- TIME at an entry or a copy: ACLK cycles that no rule counts have passed since the last (15 R550). -/
def recTime (s : State) : Nat × State :=
  let (n, s) := drawFree s
  let t := (s.recorder.time + n) % 2 ^ 64
  (t, { s with recorder := { s.recorder with time := t } })

/-- The ring's entries, oldest first. -/
def Recorder.entries (r : Recorder) : List EventRec :=
  (r.ring.filter (fun p => r.next ≤ p.1)).map (·.2) ++ (r.ring.filter (fun p => p.1 < r.next)).map (·.2)

/-- The black-box record a copy goes to: one never written, else the one with the oldest TIME. -/
def Recorder.oldest (r : Recorder) : Nat :=
  match (List.range 255).find? (fun k => !spHas r.black k) with
  | some k => k
  | none => (r.black.foldl (fun (b : Nat × Nat) p => if p.2.time < b.2 then (p.1, p.2.time) else b) (0, 2 ^ 64)).1

/-- Copies the ring to the black box; an empty ring makes no record. -/
def blackCopy (s : State) (cause : Nat) : State :=
  let (t, s) := recTime s
  let es := s.recorder.entries
  match es.getLast? with
  | none => { s with recorder := { s.recorder with copyDue := none } }
  | some e => { s with recorder := { s.recorder with
      copyDue := none
      black := spInsert s.recorder.black s.recorder.oldest { cause := cause, boot := e.boot, time := t, entries := es } } }

/-- Freezes the ring (15 R552). -/
def freezeRing (s : State) : State := { s with recorder := { s.recorder with frozen := true } }

/-- The fail phase begins on HG20–HG23 (14 R512). -/
def failPhase (s : State) : State :=
  { s with power := { s.power with phases := [20, 21, 22, 23].foldl (fun m n => spSet 3 m n 5) s.power.phases } }

def countDiscard (s : State) : State := { s with recorder := { s.recorder with discarded := (s.recorder.discarded + 1) % 2 ^ 32 } }

/-- The entry e goes to the ring. -/
def recordEntry (s : State) (e : Event) : State :=
  let (t, s) := recTime s
  let r := s.recorder
  let x : EventRec := { seq := r.seq, boot := r.boot, time := t, ev := e }
  { s with recorder := { r with
      ring := spInsert r.ring r.next x, next := (r.next + 1) % 2048, seq := (r.seq + 1) % 2 ^ 32 }
           od := if e.sev = 3 then { s.od with smbus := { s.od.smbus with released := false } } else s.od }

/-- The recorder takes one entry from its intake buffer. -/
def eventTake (s : State) : State :=
  match s.recorder.intake with
  | [] => s
  | e :: rest =>
    let s := { s with recorder := { s.recorder with intake := rest } }
    if s.recorder.frozen then countDiscard s
    else
      let s := recordEntry s e
      if e.sev != 4 then s
      else
        let s := failPhase (freezeRing s)
        if flashPowered s then blackCopy s 0 else { s with recorder := { s.recorder with copyDue := some 0 } }

def execEventRecord (s : State) : Out := .next (eventTake s)

/-- A copy to the black box: one that a freeze left due, or one asked for by another cause. -/
def blackBoxCopy (s : State) (cause : Nat) : State :=
  if !flashPowered s || 3 < cause || (cause == 0 && s.recorder.copyDue.isNone) then s else blackCopy s cause

def execBlackBoxCopy (cause : Nat) (s : State) : Out := .next (blackBoxCopy s cause)

/-- An ALERT entry that is in the ring and not acknowledged: ATTN_N and ALERT_N are low (14 R516, 15 R554). -/
def alertUnread (s : State) : Bool :=
  s.recorder.ring.any (fun p => p.2.ev.sev == 3 && decide (s.recorder.acked < p.2.seq))

/-- An entry as 32 bytes. -/
def EventRec.bytes (e : EventRec) : List Byte :=
  toBytes 8 (e.seq * 2 ^ 32 + e.boot % 2 ^ 16 * 2 ^ 16 + e.ev.sev * 2 ^ 12) ++ toBytes 8 e.time ++
    toBytes 8 (e.ev.code * 2 ^ 48 + e.ev.source % 2 ^ 16 * 2 ^ 32 + e.ev.arg0 % 2 ^ 32) ++ toBytes 8 e.ev.arg1

/-- A black-box directory entry (15 R553). -/
def BlackBox.dirBytes (b : BlackBox) : List Byte :=
  let first := (b.entries.head?.map (·.seq)).getD 0
  let last := (b.entries.getLast?.map (·.seq)).getD 0
  let head := toBytes 8 (2 ^ 63 + b.cause * 2 ^ 48 + b.boot % 2 ^ 16 * 2 ^ 32 + b.entries.length) ++
    toBytes 8 (last * 2 ^ 32 + first) ++ toBytes 8 b.time ++ toBytes 8 0
  head ++ takeBytes 32 (Config.shake256 32 (head ++ b.entries.flatMap EventRec.bytes))

/-! ## Fatal errors that a monitor reports (15 R551) -/

def fatal (s : State) (code source arg0 arg1 : Nat) : State :=
  sendEvent s { sev := 4, code := code, source := source, arg0 := arg0, arg1 := arg1 }

def execRailFault (rail mv : Nat) (s : State) : Out := .next (fatal s 0x00F1 (srcUnit 7 0) rail mv)
def execAlwaysOnFault (unit : Nat) (s : State) : Out := .next (fatal s 0x00F3 (srcUnit 5 unit) unit 0)

end Sys2Proof.Machine
end

