-- ==== Sys2Proof/Machine/Power.lean ====
section
/-!
DEFINITION. Machine/Power.lean: DVFS, the power limiters, temperature and the power-state machine (14 R491–R503), and what a loss of power
or a reset loses.
-/

namespace Sys2Proof.Machine

/-! ## DVFS (14 R499–R501) -/

/-- Table voltage of a point, mV, and its frequency, kHz. -/
def pointMv (p : Nat) : Nat := [800, 720, 660, 600, 560].getD p 560
def pointKhz (p : Nat) : Nat := [2000000, 1700000, 1400000, 1100000, 800000].getD p 800000

def getDie (s : State) (d : Nat) : DieClock := spGet {} s.power.dies d
def setDie (s : State) (d : Nat) (x : DieClock) : State := { s with power := { s.power with dies := spSet {} s.power.dies d x } }
def updDie (s : State) (d : Nat) (f : DieClock → DieClock) : State := setDie s d (f (getDie s d))

/-- The requested point of a die. -/
def pointAsked (s : State) (d : Nat) : Nat := odNum s 0x02 0x20 d 0

/-- The point in force: the lowest of the request, the caps and BRAKE_N (14 R500). -/
def pointInForce (s : State) (d : Nat) : Nat :=
  let x := getDie s d
  max (max (pointAsked s d) x.powerCap) (max x.thermCap (if s.power.brake then 4 else 0))

/-- The voltage ramp a die at its point needs: to its direct voltage, else to the table's. -/
def railRamp (p : Nat) (x : DieClock) : Option Nat :=
  let v := x.direct.getD (pointMv p)
  if x.mv = v then none else some v

/-- The die moves toward its point: down, the frequency at once and then the voltage; up, the voltage first (14 R499). A frequency step
clears a direct voltage. A request that replaces a target in mid-ramp sends the rail to where the new target has it (14 R500). -/
def dieMove (p : Nat) (x : DieClock) : DieClock :=
  if x.point < p then { x with point := p, direct := none, ramp := some (pointMv p) }
  else if p < x.point then { x with ramp := some (max (pointMv p) (x.direct.getD 0)) }
  else { x with ramp := railRamp p x }

def dvfsGo (s : State) (d : Nat) : State := updDie s d (dieMove (pointInForce s d))

def dies : List Nat := [0, 1, 2, 3]

def dvfsAll (s : State) : State := dies.foldl dvfsGo s

/-- The rail has settled. -/
def rampDone (s : State) (d : Nat) : State :=
  let x := getDie s d
  match x.ramp with
  | none => s
  | some v =>
    let p := pointInForce s d
    let x := { x with mv := v, ramp := none }
    if p < x.point && pointMv p ≤ v then setDie s d { x with point := p, direct := none, ramp := railRamp p { x with direct := none } }
    else if p = x.point then setDie s d x
    else setDie s d (dieMove p x)

def execDvfsRampDone (die : Nat) (s : State) : Out := .next (if die < 4 then rampDone s die else s)

/-- Principals by number: 0 HOST, 1 MGMT, 2 FW, 3 DEBUG. -/
def fwOrMgmt (who : Nat) : Bool := who == 1 || who == 2

/-- A request for a point (14 R500): the status of 14 R497. -/
def dvfsRequest (s : State) (d p who : Nat) : State :=
  if 4 ≤ d then s
  else if !fwOrMgmt who then updDie s d (fun x => { x with status := 1 })
  else if 4 < p then updDie s d (fun x => { x with status := 6 })
  else dvfsGo (updDie (odSet s 0x02 0x20 d p) d (fun x => { x with status := 0 })) d

def execDvfsRequest (die point who : Nat) (s : State) : Out := .next (dvfsRequest s die point who)

/-- A direct rail voltage (14 R501). -/
def directVoltage (s : State) (d mv who : Nat) : State :=
  if 4 ≤ d then s
  else
    let x := getDie s d
    if !fwOrMgmt who then setDie s d { x with status := 1 }
    else if mv < 560 || 850 < mv || mv % 5 != 0 then setDie s d { x with status := 6 }
    else if mv < pointMv x.point then setDie s d { x with status := 5 }
    else setDie s d { x with status := 0, direct := some mv, ramp := some mv }

def execDirectVoltage (die mv who : Nat) (s : State) : Out := .next (directVoltage s die mv who)

/-! ## Power class and limiters (14 R491, R492) -/

def strapVal (s : State) (n : Nat) : Nat := spGet 0 s.power.straps n

/-- The maximum class of the HG2 strap; a reserved value acts as 0 (14 R515). -/
def maxClass (s : State) : Nat := if strapVal s 2 = 3 then 0 else strapVal s 2

def classInForce (s : State) : Nat := odNum s 0x02 0x10 0 (maxClass s)

def classWatts (n : Nat) : Nat := [1200, 1600, 2000].getD n 1200

/-- A write of the class; OD 02.0002 holds its status, NOT_ALLOWED above the strap (14 R491, R497). -/
def classRequest (s : State) (n : Nat) : State :=
  if maxClass s < n then { s with power := { s.power with status := 1 } }
  else
    let s := odSet s 0x02 0x10 0 n
    { s with power := { s.power with status := 0 } }

def execPowerClassWrite (cls : Nat) (s : State) : Out := .next (classRequest s cls)

/-- The slow loop sets a cap on each die's point. -/
def slowLoop (s : State) (caps : List Nat) : State :=
  let s := (dies.zip caps).foldl (fun s x => updDie s x.1 (fun y => { y with powerCap := min 4 x.2 })) s
  dvfsAll { s with power := { s.power with throttled := caps.any (fun c => c != 0) } }

def execPowerSlowLoop (caps : List Nat) (s : State) : Out := .next (slowLoop s caps)

/-- The fast limiter acts where the 100 µs average exceeds the class by more than 5 %: every die falls by one point. -/
def fastLimit (s : State) (watts : Nat) : State :=
  if watts * 100 ≤ classWatts (classInForce s) * 105 then s
  else
    let to1 (d : Nat) : Nat := min 4 (pointInForce s d + 1)
    let s' := dies.foldl (fun t d => updDie t d (fun y => { y with powerCap := to1 d })) s
    let s' := dvfsAll { s' with power := { s'.power with throttled := true, limiter := (s.power.limiter + 1) % 2 ^ 32 } }
    sendEvent s' { sev := 1, code := 0x0071, source := srcUnit 7 0, arg0 := watts, arg1 := to1 0 }

def execFastLimiter (watts : Nat) (s : State) : Out := .next (fastLimit s watts)

/-- BRAKE_N falls: every die runs at P4, and stays there until the slow loop raises the points. -/
def brakeOn (s : State) : State :=
  let s := { s with power := { s.power with brake := true, throttled := true } }
  dvfsAll (dies.foldl (fun s d => updDie s d (fun y => { y with powerCap := 4 })) s)

def execBrakeAssert (s : State) : Out := .next (brakeOn s)

def execBrakeRelease (s : State) : Out := .next (dvfsAll { s with power := { s.power with brake := false } })

/-! ## Temperature (14 R503) -/

/-- The warning threshold, thousandths of °C. -/
def warnAt (s : State) : Nat := odNum s 0x03 0x11 0 95 * 1000

def dieTemp (s : State) (d temp : Nat) : State := updDie s d (fun x => { x with temp := temp })

def thermalWarn (s : State) (d temp sensor : Nat) : State :=
  let s := dieTemp s d temp
  if temp < warnAt s then s
  else sendEvent (updDie s d (fun x => { x with warn := true }))
    { sev := 2, code := 0x0070, source := srcUnit 1 d, arg0 := temp, arg1 := sensor }

def execThermalWarn (die temp sensor : Nat) (s : State) : Out := .next (if die < 4 then thermalWarn s die temp sensor else s)

def execThermalWarnClear (die temp : Nat) (s : State) : Out :=
  .next (if die < 4 then
    (let s := dieTemp s die temp
     if temp < warnAt s then updDie s die (fun x => { x with warn := false }) else s)
   else s)

/-- A period of the thermal cap: 10 ms above the threshold, 100 ms at least 5 °C below. -/
def capStep (s : State) (d temp : Nat) : State :=
  let s := dieTemp s d temp
  let x := getDie s d
  if warnAt s ≤ temp then dvfsGo (setDie s d { x with thermCap := min 4 (x.thermCap + 1) }) d
  else if temp + 5000 ≤ warnAt s then dvfsGo (setDie s d { x with thermCap := x.thermCap - 1 }) d
  else s

def execThermalCapStep (die temp : Nat) (s : State) : Out := .next (if die < 4 then capStep s die temp else s)

def execThermalCapP4 (die temp : Nat) (s : State) : Out :=
  .next (if die < 4 then
    (let s := dieTemp s die temp
     if 105000 ≤ temp then dvfsGo (updDie s die (fun x => { x with thermCap := 4 })) die else s)
   else s)

/-! ## What a loss of power or a reset loses (13 R471, 14 R494, R509) -/

/-- Positions in FENCING go back to the state that the fence record gives them. -/
def unfenced (g : Grid) : Sparse CoreFence :=
  g.pos.foldl (fun m p =>
    if p.2 = .fencing then
      (let f := furrowOf g p.1
       let lc := colOf p.1 % 24
       spSet .active m p.1 (if physCol lc (skipOf g f).1 = physCol lc (testSkip (spGet {} g.fuses f)).1 then .active else .moved))
    else m) g.pos

/-- The module's volatile state is gone, and its next start seeds the cores' generators anew (04 R158): cores, memories, gates and reaps, engines, queues and functions, links and the tables the
runtime writes, keys, sessions, staged writes. A port keeps only its host's memory, which is the host's. -/
def loseVolatile (s : State) : State :=
  let slots : Sparse GovSlot := (s.gov.slots.map (fun p => (p.1, { p.2 with run := 0 }))).filter (fun p => p.2 ≠ {})
  let ports : Sparse Port := (s.host.ports.map (fun p => (p.1, ({ mem := p.2.mem } : Port)))).filter (fun p => p.2 ≠ {})
  { s with
    cores := [], gates := [], reaps := [], resets := [], sow := [], bulk := {}, fabric := {}, ints := []
    draws := s.draws + 1, bootSeed := s.draws
    grid := { s.grid with proc := none, detours := [], pos := unfenced s.grid }
    gov := { ({} : Governor) with slots := slots }
    mstats := { ({} : MemStats) with ckptBytes := s.mstats.ckptBytes }
    host := { ({} : HostSide) with ports := ports }
    ward := { s.ward with slots := [], aliasKey := none, nonce := none, spdm := [], sessions := [], reply := none, nextSession := 1 }
    fw := { s.fw with armed := none, feature := none }
    resil := { ({} : Resil) with ckpts := s.resil.ckpts, sealedStep := s.resil.sealedStep, sharedStep := s.resil.sharedStep }
    od := { ({} : OD) with vals := s.od.vals } }

/-- The trip (14 R503): the recorder freezes on the FATAL entry, and only the always-on domain keeps its power. -/
def thermalTrip (s : State) (d temp sensor : Nat) : State :=
  let s := dieTemp s d temp
  if temp < 112000 then s
  else
    let s := sendEvent s { sev := 4, code := 0x00F0, source := srcUnit 1 d, arg0 := temp, arg1 := sensor }
    let s := loseVolatile s
    { s with power := { s.power with tripped := true, target := none, queued := none, wakeAfter := false } }

def execThermalTrip (die temp sensor : Nat) (s : State) : Out := .next (if die < 4 then thermalTrip s die temp sensor else s)

/-! ## Power states (14 R494–R498, 13 R476–R478) -/

def PowerState.codeN : PowerState → Nat
  | .run => 0
  | .idle => 1
  | .sleep => 2
  | .deepSleep => 3
  | .off => 4

def powerOf (n : Nat) : Option PowerState :=
  match n with
  | 0 => some .run
  | 1 => some .idle
  | 2 => some .sleep
  | 3 => some .deepSleep
  | 4 => some .off
  | _ => none

/-- The life-cycle state (13 R468). -/
def lifeCycle (s : State) : Nat := s.ward.lcrec.getLast?.getD 0

/-- A LAUNCH is in flight. -/
def launchInFlight (s : State) : Bool :=
  s.host.queues.any (fun q => q.2.cmds.any (fun c => c.words.headD 0 % 256 == 0x20 && (c.st == .fetched || c.st == .running)))

def anyHalted (s : State) : Bool := s.cores.any (fun p => p.2.threads.any (fun t => t.2.st.state == .halted))

def ioQueueExists (s : State) : Bool := s.host.queues.any (fun q => q.2.idx != 0)

/-- Who may request which state (13 R478). -/
def mayRequest (who n : Nat) : Bool :=
  match who with
  | 0 => n ≤ 2
  | 1 => true
  | 2 => n ≤ 2
  | _ => false

/-- The status of a request (14 R497). -/
def powerStatus (s : State) (n who : Nat) : Nat :=
  if 4 < n then 6
  else if s.power.tripped then 7
  else if !mayRequest who n || (lifeCycle s == 5 && (n == 2 || n == 3)) then 1
  else if n != 0 && launchInFlight s then 2
  else if (n == 2 || n == 3) && anyHalted s then 3
  else if (n == 3 || n == 4) && ioQueueExists s then 4
  else 0

/-- A request, in a state that is not in transition; else it waits for the transition's end (14 R498). -/
def powerRequest (s : State) (n who : Nat) : State :=
  if s.power.st = .off then s
  else if s.power.target.isSome then
    (if s.power.wakeAfter && n != 0 then { s with power := { s.power with status := 2 } }
     else { s with power := { s.power with queued := some (n, who) } })
  else
    let st := powerStatus s n who
    let s := { s with power := { s.power with status := st } }
    match (if st = 0 then powerOf n else none) with
    | some p => if p = s.power.st then s else { s with power := { s.power with target := some p } }
    | none => s

def execPowerRequestRun (who : Nat) (s : State) : Out := .next (powerRequest s 0 who)
def execPowerRequestIdle (who : Nat) (s : State) : Out := .next (powerRequest s 1 who)
def execPowerRequestSleep (who : Nat) (s : State) : Out := .next (powerRequest s 2 who)
def execPowerRequestDeepSleep (who : Nat) (s : State) : Out := .next (powerRequest s 3 who)
def execPowerRequestOff (who : Nat) (s : State) : Out := .next (powerRequest s 4 who)

/-- A wake source acts: an entry in progress is followed by an exit, and a request waiting for its end is refused (14 R495, R498). -/
def wake (s : State) : State :=
  if s.power.tripped || s.power.st == .off then s
  else match s.power.target with
    | some .run => s
    | some _ => { s with power := { s.power with
        wakeAfter := true, queued := none, status := if s.power.queued.isSome then 2 else s.power.status } }
    | none => if s.power.st = .run then s else { s with power := { s.power with target := some .run } }

/-- Work for a core wakes the module from IDLE only (14 R495). -/
def wakeIdle (s : State) : State := if s.power.st = .idle then wake s else s

/-- Host, fabric and management traffic wakes the module from SLEEP. -/
def wakeSleep (s : State) : State := if s.power.st = .sleep then wake s else s

def updPort (s : State) (p : Nat) (f : Port → Port) : State := setPort s p (f (getPort s p))

/-- Links go down with their lasers or ports on entry to DEEP_SLEEP, and come up again after it. -/
def deepEntry (s : State) : State :=
  let s := (List.range 16).foldl (fun s p => updFabPort (clearPort s p) p (fun x => { x with state := .off })) s
  (List.range 2).foldl (fun s p => updPort s p (fun x => { x with up := false, width := 0, rate := 0, flit := false })) s

/-- The state of a transition is reached. -/
def enterPower (s : State) (p : PowerState) : State :=
  let s := match p with
    | .deepSleep => deepEntry s
    | .off => loseVolatile (blackCopy (freezeRing s) 1)
    | _ => s
  { s with power := { s.power with
      st := p, target := none
      phases := if p = .off then (List.range 24).foldl (fun m n => spSet 3 m n 1) [] else s.power.phases } }

/-- A transition ends: a wake that met it makes the module exit, a request that met it is acted on. -/
def transitionDone (s : State) : State :=
  match s.power.target with
  | none => s
  | some p =>
    let s := enterPower s p
    if s.power.wakeAfter then wake { s with power := { s.power with wakeAfter := false, queued := none } }
    else match s.power.queued with
      | some (n, who) => powerRequest { s with power := { s.power with queued := none } } n who
      | none => s

/-- The strapped SMBus address (14 R515). -/
def smbusAddr (s : State) : Nat := 0x40 + 4 * strapVal s 1 + strapVal s 0

/-- An address match wakes the module; in OFF there is no ACK (14 R495, R496). -/
def execSmbusAddressMatch (addr : Nat) (s : State) : Out :=
  .next (if addr = smbusAddr s && (s.power.st == .sleep || s.power.st == .deepSleep || s.power.target.isSome) then wake s else s)

/-- HG20 toggles in RUN, IDLE and SLEEP, outside the fail phase (14 R512, R516). -/
def execHeartbeatToggle (s : State) : Out :=
  .next (if (s.power.st == .run || s.power.st == .idle || s.power.st == .sleep) && spGet 3 s.power.phases 20 == 3
    then { s with power := { s.power with heartbeat := !s.power.heartbeat } } else s)

end Sys2Proof.Machine
end

