-- ==== Sys2Proof/Machine/Alias.lean ====
section
/-!
DEFINITION. Machine/Alias.lean: the Ward's identity and alias keys (13 R463, R464) and whom it accepts as a peer (13 R466).
-/

namespace Sys2Proof.Machine

/-- The always-on domain has power (14 R494). -/
def wardUp (s : State) : Bool := s.power.powered && s.power.st != .off

/-- The firmware slot that runs. -/
def runSlot (s : State) : FwSlot := if s.fw.boot = 0 then s.fw.a else s.fw.b

/-- The identity exists: it is generated at entry to TEST, and its seed is blown to all ones in SCRAPPED. -/
def hasIdentity (s : State) : Bool := lifeCycle s != 0 && lifeCycle s != 5

/-- The next identity index, reserving a block where the last is spent; none when all are. -/
def takeIndex (s : State) : Option (Nat × State) :=
  let w := s.ward
  if w.nextIdx < 1024 * w.xidx then some (w.nextIdx, { s with ward := { w with nextIdx := w.nextIdx + 1 } })
  else if w.xidx < 1024 then some (1024 * w.xidx, { s with ward := { w with nextIdx := 1024 * w.xidx + 1, xidx := w.xidx + 1 } })
  else none

/-- The alias key serves: it names the debug level in force and has signatures left. -/
def aliasGood (s : State) : Bool :=
  match s.ward.aliasKey with
  | some k => k.debug == s.ward.debug && k.left != 0
  | none => false

/-- Makes and certifies an alias key where none serves; it stays absent where the identity key refuses to sign. -/
def aliasEnsure (s : State) : State :=
  if aliasGood s || !hasIdentity s then s
  else match takeIndex s with
  | none => s
  | some (_, s) =>
    let (_, s) := drawFree s
    { s with ward := { s.ward with aliasKey := some { seed := s.draws, left := 65536, debug := s.ward.debug } } }

/-- A signature with the alias key. -/
def aliasSign (s : State) (msg : List Byte) : Option (List Byte × State) :=
  match s.ward.aliasKey with
  | some k =>
    if k.left = 0 then none
    else some (Config.xmssSign k.seed (65536 - k.left) msg, { s with ward := { s.ward with aliasKey := some { k with left := k.left - 1 } } })
  | none => none

/-- A Ward accepts a peer (13 R466). -/
def accepts (s : State) (p : PeerIdent) : Bool :=
  p.chain && p.lifeCycle == lifeCycle s && (p.debug == 0 || (p.debug == 1 && odNum s 0x01 0x40 0 0 == 1))

/-- The Ward's part in an SPDM session with another module's: it needs an alias key, which it first makes where none serves, and signs once with
it; false where the session fails (13 R464, R466). -/
def peerSession (s : State) (p : PeerIdent) : State × Bool :=
  if !wardUp s || s.ward.entropyBad then (s, false)
  else
    let s := aliasEnsure s
    match (if aliasGood s && accepts s p then aliasSign s [] else none) with
    | some (_, s) => (s, true)
    | none => (s, false)

end Sys2Proof.Machine
end

