-- ==== Sys2Proof/Machine/Peers.lean ====
section
/-!
DEFINITION. Machine/Peers.lean: CONTROL messages between control clusters (11 R399) and the modules of a job: who coordinates, and what is done when a
module is named as failed (12 R444, R445).
-/

namespace Sys2Proof.Machine

/-- The control cluster works (14 R494, 10 R357). -/
def clusterUp (s : State) : Bool :=
  s.power.powered && !s.power.tripped && (s.power.st == .run || s.power.st == .idle || s.power.st == .sleep) && s.host.ccFailed.length < 16

/-- A CONTROL message, in packets of at most 4 flits (11 R394). -/
def sendControl (s : State) (die dst kind : Nat) (bs : List Byte) : State :=
  (List.range ((bs.length + 927) / 928 + boolN bs.isEmpty)).foldl (fun s i =>
    let part := (bs.drop (928 * i)).take 928
    (fabSend s die (if sessionMsg 7 kind then .session die else .control die) 7 none
      { opc := 7, dst := dst, src := 0, chan := 0, fin := false, ver := 0, cseq := 0, len := part.length, addr := 0, opf := kind,
        data := part, pois := [] }).1) s

/-- The modules of the job that have not failed. -/
def survivors (s : State) : List Nat := s.resil.members.filter (fun m => !s.resil.failed.contains m)

/-- The coordinator: the survivor with the lowest ID (12 R445). -/
def coordinator (s : State) : Option Nat := (survivors s).min?

def isCoordinator (s : State) : Bool := coordinator s == some (moduleId s)

def isPeer (s : State) (m : Nat) : Bool := (survivors s).contains m && m != moduleId s

def sendAll (s : State) (kind : Nat) (bs : List Byte) : State :=
  ((survivors s).filter (fun m => m != moduleId s)).foldl (fun s m => sendControl s 0 m kind bs) s

/-- The module that probes m: the coordinator, or where m is the coordinator the next-lowest survivor (12 R445, R447). -/
def prober (s : State) (m : Nat) : Option Nat := ((survivors s).filter (fun x => x != m)).min?

/-- A source names a peer as failed: the coordinator probes it, any other module reports it to the coordinator (12 R444, R445). -/
def suspect (s : State) (m : Nat) : State :=
  if !clusterUp s || !isPeer s m || s.resil.probing.contains m then s
  else
    let s := { s with resil := { s.resil with probing := s.resil.probing ++ [m], state := if s.resil.state = 0 then 1 else s.resil.state } }
    if prober s m = some (moduleId s) then sendControl s 0 m (Config.controlKind 1) []
    else match prober s m with
      | some p => sendControl s 0 p (Config.controlKind 10) (toBytes 8 m)
      | none => s

/-- A link has gone down: a peer that no port reaches any more is named (12 R444). -/
def portLost (s : State) (peer : Nat) : State :=
  if (List.range 16).any (fun p => (getFabPort s p).peer == peer && (getFabPort s p).state == .up) then s else suspect s peer

/-- A wait on a fabric-linked gate has expired: which module it names no rule says, so every peer is (DESIGN CHOICE, notes/assumptions/35.md). -/
def fabricGateLost (s : State) : State := (survivors s).foldl suspect s

/-! ## Digest records and salvage (12 R435, R448) -/

/-- Bytes 0x00–0x1F of a digest record. -/
def digestHead (r : DigestRec) : List Byte :=
  toBytes 8 (r.kind * 2 ^ 56 + r.owner * 2 ^ 40 + r.shard) ++ toBytes 8 (r.block * 2 ^ 32 + r.step % 2 ^ 32) ++
    toBytes 8 (r.len * 2 ^ 32 + boolN r.pois) ++ toBytes 8 0

def digestBytes (r : DigestRec) : List Byte := digestHead r ++ padTo 32 r.digest

/-- The latest sealed checkpoint. -/
def latestCkpt (s : State) : Option Checkpoint :=
  [0, 1].findSome? (fun n => let c := spGet ({} : Checkpoint) s.resil.ckpts n; if c.sealed_ && c.step = s.resil.sealedStep then some c else none)

/-- What a module in salvage serves: the blocks of its latest sealed checkpoint, each after its record (the order is the model's:
notes/assumptions/35.md). -/
def salvageBytes (s : State) : List Byte :=
  match latestCkpt s with
  | some c => c.blocks.flatMap (fun b => digestBytes b.1 ++ b.2)
  | none => []

end Sys2Proof.Machine
end

