-- ==== Sys2Proof/Machine/Link.lean ====
section
/-!
DEFINITION. Machine/Link.lean: the link layer of a fabric port: flits, retries, credits and packets on their way (11 R390–R396, R410–R412),
bring-up and failure (11 R421–R423), pair keys (R402).
-/

namespace Sys2Proof.Machine

/-! ## Going down (11 R423) -/

/-- A link goes down for a reason: it sends DOWN if it was up, and reports to
the resilience agent. -/
def goDown (s : State) (port reason : Nat) (st : PortState) : State :=
  let p := getFabPort s port
  let s := if p.state = .up then setFabPort s port (p.sendLctl (lctlBytes 3 reason)) else s
  let s := updFabPort (clearPort s port) port (fun p => { p with state := st, reason := reason })
  let s := interrupt (sendEvent s { sev := 2, code := 0x0050, source := srcUnit 3 port, arg0 := reason, arg1 := p.peer }) (.linkDown port)
  if p.state = .up then portLost s p.peer else s

/-- A port of this module goes down: a disabled one is off, any other has failed. -/
def portDown (s : State) (port reason : Nat) : State := goDown s port reason (if reason = 5 then .off else .failed)

def portAlive (p : FabPort) : Bool := p.state != .off && p.state != .failed

def execPortDown (port reason : Nat) (s : State) : Out :=
  .next (if port < 16 && portAlive (getFabPort s port) then portDown s port reason else s)

/-- The peer takes the link down, for whatever reason: this port has failed, and tries again. -/
def downIn (s : State) (port reason : Nat) : State := if (getFabPort s port).state = .up then goDown s port reason .failed else s

def execDown (port reason : Nat) (s : State) : Out := .next (if port < 16 then downIn s port reason else s)

/-! ## Retries (11 R393) -/

/-- A received RETRY: the unacknowledged DATA flits from the named SEQ on are sent again; the link goes down when one has been resent 16
times. -/
def retryIn (s : State) (port seq : Nat) : State :=
  let p := getFabPort s port
  if p.state != .up || !p.unacked.any (fun x => x.1.seq == seq) then s
  else
    let kept := p.unacked.takeWhile (fun x => x.1.seq != seq)
    let again := (p.unacked.dropWhile (fun x => x.1.seq != seq)).map (fun x => (x.1, x.2 + 1))
    let s := setFabPort s port (again.foldl (fun p x => p.emit x.1) { p with unacked := kept ++ again })
    if again.any (fun x => decide (16 ≤ x.2)) then portDown s port 2 else s

def execRetry (port seq : Nat) (s : State) : Out := .next (if port < 16 then retryIn s port seq else s)

/-- The receiver names the SEQ it expects. -/
def FabPort.askRetry (p : FabPort) : FabPort :=
  { p with retrying := true, retries := satAdd 64 p.retries 1 }.sendLctl (lctlBytes 2 p.rxSeq)

def execRetryRepeat (port : Nat) (s : State) : Out :=
  .next (if port < 16 && (getFabPort s port).state == .up && (getFabPort s port).retrying then updFabPort s port FabPort.askRetry else s)

/-! ## Packets that have arrived whole -/

def rxKey (src chan : Nat) : Nat := src * 4096 + chan

def getRx (s : State) (k : Nat) : RxChan := spGet {} s.fabric.rxs k
def setRx (s : State) (k : Nat) (r : RxChan) : State := { s with fabric := { s.fabric with rxs := spSet {} s.fabric.rxs k r } }

/-- A packet in the clear joins its channel in CSEQ order; a duplicate or a packet beyond a gap is discarded, and a duplicate of one acted on is
acknowledged again (11 R397, R403). o names the n flits it takes of the receive buffer. -/
def takePacket (s : State) (o : FlitSrc) (n : Nat) (p : Packet) : State :=
  let x : InPacket := { port := o.port, flits := n, vc := o.vc, cls := o.cls, seq := o.seq, pkt := p }
  let keep (s : State) : State := { s with fabric := { s.fabric with inbox := s.fabric.inbox ++ [x] } }
  if !opcOk p.opc then freeFlits (countFab s 0) o n
  else if outside p.opc p.opf then keep s
  else
    let k := rxKey p.src p.chan
    let r := getRx s k
    if p.cseq = r.expect then keep (setRx s k { r with expect := r.expect + 1 })
    else
      let s := if p.cseq < r.acted then setRx s k { r with pend := max r.pend 1 } else s
      freeFlits (countFab s 5) o n

/-- Key of the incarnations accepted of a source's channel toward a destination. -/
def rxIncKey (src chan dst : Nat) : Nat := rxKey src chan * 65536 + dst

/-- The incarnations a receiver tries: that of the stream it receives, then the next sixteen (notes/assumptions/32.md). -/
def incTries (s : State) (src chan dst : Nat) : List Nat :=
  let r := getRx s (rxKey src chan)
  (if r.dst = dst then [r.inc] else []) ++ (List.range 16).map (fun i => spGet 0 s.fabric.rxIncs (rxIncKey src chan dst) + i)

/-- The packet that bytes spell under a key, with its incarnation; none where no tag verifies. -/
def openTry (key : Nat) (bs : List Byte) (incs : List Nat) : Option (Packet × Nat) :=
  incs.findSome? (fun i => if (openPacket key i bs).2 then some ((openPacket key i bs).1, i) else none)

/-- A packet of a channel's next incarnation starts that incarnation's stream. -/
def newStream (s : State) (src chan dst inc : Nat) : State :=
  let r := getRx s (rxKey src chan)
  if r.dst = dst && r.inc = inc then s
  else
    let s := setRx s (rxKey src chan) { dst := dst, inc := inc }
    { s with fabric := { s.fabric with rxIncs := spSet 0 s.fabric.rxIncs (rxIncKey src chan dst) (inc + 1) } }

/-- Source, channel, destination and whether it is a session message, as a packet's header gives them. -/
def headSrc (bs : List Byte) : Nat := fieldN (bytesAt bs 0 8) 39 24
def headChan (bs : List Byte) : Nat := fieldN (bytesAt bs 0 8) 23 12
def headDst (bs : List Byte) : Nat := fieldN (bytesAt bs 0 8) 55 40
def headSession (bs : List Byte) : Bool := sessionMsg (fieldN (bytesAt bs 0 8) 63 56) (bytesAt bs 24 8)

/-- A packet for this module is opened under its pair's or group's key, a session message under the link's (11 R401, R402); a bad tag is counted
and the packet discarded. -/
def openHere (s : State) (o : FlitSrc) (n : Nat) (bs : List Byte) : State :=
  let dst := headDst bs
  let id := if headSession bs then (getFabPort s o.port).peer else if isGroup dst then dst else headSrc bs
  match (fabKey s id).bind (fun key => openTry key bs (incTries s (headSrc bs) (headChan bs) dst)) with
  | some (p, inc) => takePacket (newStream s (headSrc bs) (headChan bs) dst inc) o n p
  | none => freeFlits (countFab s 1) o n

/-- An ACK: the channel it acknowledges is named in its address field (notes/assumptions/32.md). -/
def sendAck (s : State) (die dst chan cseq status : Nat) : State :=
  (fabSend s die (.ack die) 3 none
    { opc := 8, dst := dst, src := 0, chan := 0, fin := false, ver := 0, cseq := 0, len := 0, addr := chan,
      opf := cseq * 2 ^ 32 + status, data := [], pois := [] }).1

/-- A packet in transit leaves on a port: as it came, or, a session message, decrypted and under the key of that port's link (11 R401, R402). -/
def forward (s : State) (o : FlitSrc) (n q cls : Nat) (bs : List Byte) : State :=
  let drop (s : State) : State := freeFlits (countFab s 1) o n
  if headSession bs then
    match (fabKey s (getFabPort s o.port).peer).bind (fun key => openTry key bs (incTries s (headSrc bs) (headChan bs) (headDst bs))) with
    | none => drop s
    | some (p, inc) =>
      let s := newStream s (headSrc bs) (headChan bs) (headDst bs) inc
      match fabKey s (getFabPort s q).peer with
      | some key => portQueue s q o.vc cls (sealPacket key inc p) (some o)
      | none => freeFlits s o n
  else portQueue s q o.vc cls bs (some o)

/-- A whole packet: taken here, forwarded, or both (11 R410, R412). Its flits leave the receive buffer as its copies leave or are taken. -/
def packetIn (s : State) (o : FlitSrc) (bs : List Byte) : State :=
  let dst := headDst bs
  let n := bs.length / 244
  if isGroup dst then
    let e := groupEntry s dst
    if !e.testBit 31 then
      freeFlits (sendEvent (countFab s 2) { sev := 2, code := 0x0052, source := srcUnit 3 o.port, arg0 := dst - 0xF000, arg1 := o.port }) o n
    else
      let s := (groupPorts e).foldl (fun s q => portQueue s q o.vc o.cls bs (some o)) s
      let s := if e.testBit 30 then openHere s o n bs else freeFlits s o n
      (groupPorts e).foldl pumpPort s
  else if dst = (getFabPort s o.port).selfId then openHere s o n bs
  else match pickRoute s dst o.vc o.cls with
    | some (q, cls) => pumpPort (forward s o n q cls bs) q
    | none => sendAck (freeFlits (countFab s 3) o n) (o.port / 4) (headSrc bs) (headChan bs) (bytesAt bs 8 8 / 2 ^ 32) 6

/-! ## Flits (11 R391–R395) -/

/-- ACK and the credit count of a header. -/
def FabPort.header (p : FabPort) (f : Flit) : FabPort :=
  let n := (f.ack + 1 + 2 ^ 16 - (match p.unacked.head? with
    | some x => x.1.seq
    | none => f.ack + 1)) % 2 ^ 16
  let p := if n ≤ p.unacked.length then { p with unacked := p.unacked.drop n } else p
  let k := vcKey f.crvc f.crcls
  let back := (f.crn + 1024 - spGet 0 p.lastCrn k) % 1024
  { p with
    lastCrn := spSet 0 p.lastCrn k f.crn
    used := spUpd 0 p.used k (fun u => u - back) }

/-- A good DATA flit. -/
def dataFlit (s : State) (port : Nat) (f : Flit) : State :=
  let p := getFabPort s port
  if f.seq != p.rxSeq then
    -- a flit seen before is dropped; one beyond a gap asks for the missing one
    (if p.retrying || 2 ^ 15 ≤ (f.seq + 2 ^ 16 - p.rxSeq) % 2 ^ 16 then s else setFabPort s port p.askRetry)
  else
    let k := vcKey f.vc f.cls
    let bs := (if f.sop then [] else spGet [] p.part k) ++ f.payload
    let p := { p with rxSeq := (p.rxSeq + 1) % 2 ^ 16, retrying := false, part := spSet [] p.part k (if f.eop then [] else bs) }
    let s := setFabPort s port p
    if f.eop then packetIn s { port := port, vc := f.vc, cls := f.cls, seq := f.seq, i := 0 } bs else s

/-! ## HELLO (11 R393, R422) -/

/-- MAXVER and MINVER of the image that runs (13 R479), where its header is known. -/
def imageVersion (s : State) (hi lo n : Nat) : Nat :=
  match (runSlot s).header with
  | [] => Config.version n
  | h => fieldN (h.getD 2 0) hi lo

def highestVersion (s : State) : Nat := imageVersion s 47 40 0
def lowestVersion (s : State) : Nat := odNum s 0x06 2 0 (imageVersion s 39 32 1)

/-- Default buffer flits of a VC (11 R394). -/
def vcBuffer (v : Nat) : Nat := [32, 256, 128, 512, 2048, 512, 512, 96].getD v 0

/-- Buffer flits of a (VC, class), keyed 2 × VC + class. -/
def bufferFlits (s : State) (k : Nat) : Nat :=
  fieldN (odNum s 0x06 0x20 (k / 2) (vcBuffer (k / 2) * 65537)) (16 * (k % 2) + 15) (16 * (k % 2))

/-- The HELLO this module sends on a port. -/
def helloBytes (s : State) (laneSet : Nat) : List Byte :=
  toBytes 8 1 ++ toBytes 2 (moduleId s) ++ toBytes 1 (lowestVersion s) ++ toBytes 1 (highestVersion s) ++ toBytes 4 laneSet ++
    (List.range 16).flatMap (fun k => toBytes 2 (bufferFlits s k))

/-- The HELLO that an LCTL payload spells. -/
def helloOf (bs : List Byte) : Hello :=
  { id := bytesAt bs 8 2, minver := bytesAt bs 10 1, maxver := bytesAt bs 11 1, laneSet := bytesAt bs 12 1,
    credits := (List.range 16).map (fun k => bytesAt bs (16 + 2 * k) 2) }

/-- A failure of bring-up, reported where it has a reason code. -/
def bringFail (s : State) (port : Nat) (reason : Option Nat) : State :=
  match reason with
  | some r => portDown s port r
  | none => updFabPort (clearPort s port) port (fun p => { p with state := .failed, reason := 0 })

/-- A port enters NEGOTIATE: its buffers are set out, and its HELLO goes out with the module's ID of now. -/
def enterNegotiate (s : State) (port laneSet : Nat) : State :=
  updFabPort (clearPort s port) port (fun p => FabPort.sendLctl { p with
    state := .negotiate
    laneSet := laneSet
    selfId := moduleId s
    rxAlloc := (List.range 16).foldl (fun m k => spSet 0 m k (bufferFlits s k)) [] } (helloBytes s laneSet))

/-- The peer's HELLO: the version both accept, and the credits it allots. -/
def negotiate (s : State) (port : Nat) (h : Hello) : State :=
  let v := min h.maxver (highestVersion s)
  if (getFabPort s port).selfId = 0xFFFF || h.id = 0xFFFF then bringFail s port none
  else if v < h.minver || v < lowestVersion s then bringFail s port (some 3)
  else
    updFabPort s port (fun p => { p with
      state := .secure
      peer := h.id
      ver := v
      alloc := ((List.range 16).zip h.credits).foldl (fun m x => spSet 0 m x.1 x.2) [] })

/-! ## A flit arrives -/

/-- An LCTL flit: HELLO in NEGOTIATE, RETRY and DOWN on a link that is up. -/
def lctlFlit (s : State) (port : Nat) (f : Flit) : State :=
  match bytesAt f.payload 0 1 with
  | 1 => if (getFabPort s port).state = .negotiate then negotiate s port (helloOf f.payload) else s
  | 2 => retryIn s port (bytesAt f.payload 8 2)
  | 3 => downIn s port (bytesAt f.payload 8 2)
  | _ => s

/-- An intact flit of a link that is up. -/
def goodFlit (s : State) (port : Nat) (f : Flit) : State :=
  let s := updFabPort s port (fun p => p.header f)
  match f.kind with
  | 1 => pumpPort (dataFlit (updFabPort s port (fun p => { p with intact := satAdd 64 p.intact 1 })) port f) port
  | 2 => pumpPort (lctlFlit s port f) port
  | _ => pumpPort s port

/-- A bad DATA flit is discarded, and the flit expected asked for. -/
def badFlit (s : State) (port : Nat) (f : Flit) : State :=
  let s := updFabPort s port (fun p => { p with bad := satAdd 64 p.bad 1 })
  if f.kind = 1 && !(getFabPort s port).retrying then updFabPort s port FabPort.askRetry else s

/-- The 256 bytes of a flit arrive; it is bad if its CRC fails or the FEC could not correct it. -/
def flitIn (s : State) (port : Nat) (bs : List Byte) (fec : Bool) : State :=
  let f := flitOf bs
  let good := !fec && flitIntact bs
  match (getFabPort s port).state with
  | .up => if good then goodFlit s port f else badFlit s port f
  | .negotiate => if good && f.kind = 2 then lctlFlit s port f else s
  | _ => s

def execFlitReceive (port : Nat) (bs : List Byte) (fec : Bool) (s : State) : Out := .next (if port < 16 then flitIn s port bs fec else s)

/-- A (VC, class) output has waited for credits beyond the limit (11 R411). -/
def creditStall (s : State) (port vc cls : Nat) : State :=
  let p := getFabPort s port
  if p.state = .up && p.txq.any (fun x => x.flit.vc == vc && x.flit.cls == cls) && p.credits (vcKey vc cls) == 0 then
    interrupt (sendEvent s { sev := 3, code := 0x0051, source := srcUnit 3 port, arg0 := vc * 16 + cls, arg1 := port }) (.creditStall port)
  else s

def execCreditStall (port vc cls : Nat) (s : State) : Out := .next (if port < 16 then creditStall s port vc cls else s)

/-! ## Bring-up (11 R390, R421, R422) -/

def portEnabled (s : State) (port : Nat) : Bool := odNum s 0x06 0x11 port 1 != 0

/-- The lane set that every lane of works: all, else a half (11 R390). -/
def laneChoice (lanes : BitVec 8) : Option Nat :=
  if lanes = BitVec.allOnes 8 then some 0
  else if field lanes 3 0 = 15 then some 1
  else if field lanes 7 4 = 15 then some 2
  else none

/-- A fresh pair key with a module (11 R402). Incarnations count anew under it. -/
def newPairKey (s : State) (m : Nat) : State :=
  let (k, s) := drawFree s
  { s with fabric := { s.fabric with
    pairKeys := spSet none s.fabric.pairKeys m (some k)
    incs := s.fabric.incs.filter (fun x => x.1 % 65536 != m)
    rxIncs := s.fabric.rxIncs.filter (fun x => x.1 / 2 ^ 28 != m || isGroup (x.1 % 65536)) } }

/-- SECURE: the two Wards authenticate each other and agree the key of the pair (11 R421, R402, 13 R466). -/
def secure (s : State) (port : Nat) (peer : PeerIdent) : State :=
  match peerSession s peer with
  | (s, true) => updFabPort (newPairKey s (getFabPort s port).peer) port (fun p => { p with state := .up })
  | (s, false) => bringFail s port (some 4)

/-- A bring-up state ends: whether the state's own condition held, lanes that work, and what the peer said. -/
def portAdvance (s : State) (port : Nat) (ok : Bool) (lanes : Nat) (said : Option PeerSaid) : State :=
  let p := getFabPort s port
  let goto (st : PortState) : State := setFabPort s port { p with state := st }
  match p.state with
  | .off => if portEnabled s port then goto .laser else s
  | .laser => if ok then goto .train else bringFail s port none
  | .train =>
    let l := BitVec.ofNat 8 lanes
    if ok && 4 ≤ popN 8 l.toNat then setFabPort s port { p with state := .align, lanes := l } else bringFail s port none
  | .align =>
    (match (if ok then laneChoice p.lanes else none) with
    | some n => enterNegotiate s port n
    | none => bringFail s port none)
  | .negotiate =>
    (match said with
    | some (.hello h) => if ok then negotiate s port h else bringFail s port none
    | _ => s)
  | .secure =>
    (match (if ok then said else none) with
    | some (.ident x) => secure s port x
    | _ => bringFail s port (some 4))
  | _ => s

def execPortStateAdvance (port : Nat) (ok : Bool) (lanes : Nat) (said : Option PeerSaid) (s : State) : Out :=
  .next (if port < 16 then portAdvance s port ok lanes said else s)

def execPortRetrain (port : Nat) (s : State) : Out :=
  .next (if port < 16 && (getFabPort s port).state == .failed && portEnabled s port
    then updFabPort s port (fun p => { p with state := .laser }) else s)

/-- Lanes in use. -/
def FabPort.uses (p : FabPort) (lane : Nat) : Bool := p.laneSet == 0 || p.laneSet == lane / 4 + 1

/-- A lane is lost: the port retrains onto a half that works, or fails. -/
def laneFail (s : State) (port lane : Nat) : State :=
  let p := getFabPort s port
  let l := p.lanes &&& ~~~BitVec.ofNat 8 (2 ^ lane)
  let s := setFabPort s port { p with lanes := l }
  if p.state != .up || !p.uses lane then s
  else match laneChoice l with
  | some _ => updFabPort (clearPort s port) port (fun p => { p with state := .train })
  | none => bringFail s port none

def execLaneFail (port lane : Nat) (s : State) : Out := .next (if port < 16 && lane < 8 then laneFail s port lane else s)

/-- A session message goes toward a module (11 R402). -/
def sendSession (s : State) (module : Nat) (bs : List Byte) : State :=
  (fabSend s 0 (.session 0) 7 none
    { opc := 7, dst := module, src := 0, chan := 0, fin := false, ver := 0, cseq := 0, len := bs.length, addr := 0, opf := 1, data := bs,
      pois := [] }).1

/-- The Wards of two modules that share no link agree a key (11 R402): that of the lower ID opens the session. -/
def pairSession (s : State) (module : Nat) (peer : PeerIdent) : State :=
  let s := if moduleId s < module then sendSession s module (Config.spdmText [2, module]) else s
  match peerSession s peer with
  | (s, true) => newPairKey s module
  | (s, false) => s

/-- The pair's session: what the other Ward shows of itself, or none where the session fails. -/
def execPairSessionOpen (module : Nat) (peer : Option PeerIdent) (s : State) : Out :=
  match peer with
  | some x => .next (if module < 0xF000 && module != moduleId s then pairSession s module x else s)
  | none => .next s

end Sys2Proof.Machine
end

