-- ==== Sys2Proof/Machine/FabricRx.lean ====
section
/-!
DEFINITION. Machine/FabricRx.lean: what a module does with the packets that reach it, and how channels are acknowledged and resent
(11 R397, R399, R403–R408, R416–R419).
-/

namespace Sys2Proof.Machine

/-! ## Taking a packet up -/

/-- The oldest packet of a transaction leaves the receive buffer: its credits return. -/
def takeIn (s : State) (opc : Nat) : Option (InPacket × State) :=
  match s.fabric.inbox.find? (fun x => x.pkt.opc == opc) with
  | none => none
  | some x =>
    some (x, freeFlits { s with fabric := { s.fabric with inbox := s.fabric.inbox.erase x } }
      { port := x.port, vc := x.vc, cls := x.cls, seq := x.seq, i := 0 } x.flits)

/-- The die whose fabric block serves a port; 16 stands for the module itself. -/
def dieOfPort (port : Nat) : Nat := if port < 16 then port / 4 else 0

/-- The channel's packets acted on so far are acknowledged, with the status of the last (11 R403, R406). -/
def ackNow (s : State) (die src chan status : Nat) : State :=
  let k := rxKey src chan
  let r := getRx s k
  sendAck (setRx s k { r with pend := 0 }) die src chan (r.acted - 1) status

/-- A packet has been acted on: an ACK goes at once for a refusal, and after eight packets. -/
def acted (s : State) (x : InPacket) (status : Nat) : State :=
  let k := rxKey x.pkt.src x.pkt.chan
  let r := getRx s k
  let s := setRx s k { r with acted := x.pkt.cseq + 1, pend := r.pend + 1 }
  if status != 0 || 8 ≤ r.pend + 1 then ackNow s (dieOfPort x.port) x.pkt.src x.pkt.chan status else s

def execAckTimer (src chan : Nat) (s : State) : Out :=
  .next (if 0 < (getRx s (rxKey src chan)).pend then ackNow s 0 src chan 0 else s)

/-! ## Receive windows (11 R405–R407) -/

def getWindow (s : State) (e : Nat) : Window := spGet {} s.fabric.windows e
def setWindow (s : State) (e : Nat) (w : Window) : State := { s with fabric := { s.fabric with windows := spSet {} s.fabric.windows e w } }

/-- SRC may write: its own ID, any, or through the group named. -/
def Window.admits (w : Window) (p : Packet) : Bool :=
  let g := field w.w2 63 48
  g == 0xFFFF || g == p.src || (isGroup g && g == p.dst)

/-- The runs of an extent that lie each in one 64 KiB page: distance and length. The first argument bounds them. -/
def pageCuts : Nat → Nat → Nat → Nat → List (Nat × Nat)
  | 0, _, _, _ => []
  | k + 1, a, n, d =>
    if n = 0 then []
    else
      let len := min n (0x10000 - a % 0x10000)
      (d, len) :: pageCuts k (a + len) (n - len) (d + len)

/-- Translates a run under FROOT: the bulk address, or a status. -/
def windowPage (s : State) (die va slot : Nat) (write : Bool) : (Nat ⊕ Nat) × State :=
  match plainWalk s (spGet 0 s.fabric.froot die) 4 va with
  | (.leaf l w _, s) =>
    if bitOf w 3 || leafSH w || (write && !bitOf w 2) || !slotHasKey s (leafSlot w) then (.inr 4, s)
    else if leafSlot w != slot then (.inr 5, s)
    else (.inl (leafAddr w + va % 2 ^ lvlShift l), s)
  | (_, s) => (.inr 4, s)

/-- The pages of an extent, or the first status. -/
def windowPages (die va n slot : Nat) (write : Bool) (s : State) : List (Nat × Nat × Nat) × Nat × State :=
  (pageCuts (n / 0x10000 + 2) va n 0).foldl (fun (x : List (Nat × Nat × Nat) × Nat × State) c =>
    if x.2.1 != 0 then x
    else match windowPage x.2.2 die ((va + c.1) % 2 ^ 48) slot write with
      | (.inl pa, s) => (x.1 ++ [(pa, c.1, c.2)], 0, s)
      | (.inr st, s) => (x.1, st, s)) ([], 0, s)

/-- Where an extent of a window lies: a core's memory, or runs of bulk (address, distance, length). -/
inductive WinPlace where
  | core (gran : Bool) (c off : Nat)
  | bulk (runs : List (Nat × Nat × Nat))

/-- The checks of R406 in the order of its codes; the place where they pass. -/
def windowCheck (s : State) (die : Nat) (p : Packet) (n : Nat) (write : Bool) : (WinPlace ⊕ Nat) × State :=
  let w := getWindow s (p.addr / 2 ^ 32)
  let off := p.addr % 2 ^ 32
  let kind := field w.w0 62 61
  let base := w.w1.toNat
  if !bitOf w.w0 63 || kind = 3 then (.inr 1, s)
  else
    let c := aCore base
    let at_ := base % 2 ^ 36 + off
    if (field w.w0 31 12 + 1) * 4096 < off + n ||
        (kind = 1 && (!inGrid s.grid (aRow base) (aCol base) || isHole s c || localEnd < at_ + n)) ||
        (kind = 2 && (!inGrid s.grid (aRow base) (aCol base) || isHole s c || granEnd (getCore s c) < at_ + n)) then (.inr 2, s)
    else if (write && (!bitOf w.w0 60 || !w.admits p)) || (!write && !bitOf w.w0 59) then (.inr 3, s)
    else if kind = 0 then
      let (runs, st, s) := windowPages die ((base + off) % 2 ^ 48) n (field w.w0 57 44) write s
      (if st = 0 then .inl (.bulk runs) else .inr st, s)
    else (.inl (.core (kind == 2) c at_), s)

/-- The poison of each 64-bit word that n bytes at an address touch, from the poison of the data's own words. -/
def spreadPois (a n : Nat) (pois : List Bool) : List Bool :=
  ((wordCuts (n + 1) a n).map (fun x =>
    let d := x.1 - a
    (List.range ((d + x.2 - 1) / 8 + 1 - d / 8)).any (fun i => pois.getD (d / 8 + i) false)))

/-- Writes the data of a packet where its window puts it. -/
def windowWrite (s : State) (pl : WinPlace) (p : Packet) : State :=
  let n := p.data.length
  match pl with
  | .core gran c off => writeRun (fun s q a b => coreWrite s gran c q a b) off p.data (spreadPois off n p.pois) s
  | .bulk runs => runs.foldl (fun s r =>
      let bs := (p.data.drop r.2.1).take r.2.2
      -- a run starts on a page boundary or at the start of the data
      let ps := (List.range r.2.2).map (fun i => p.pois.getD ((r.2.1 + i) / 8) false)
      writeRun bulkWrite r.1 bs ((wordCuts (r.2.2 + 1) r.1 r.2.2).map (fun x => ((ps.drop (x.1 - r.1)).take x.2).any id)) s) s

/-- Fills the notify word for each quantum the count has completed; the first argument bounds them. -/
def notifyFills (e : Nat) : Nat → State → State
  | 0, s => s
  | k + 1, s =>
    let w := getWindow s e
    let q := field w.w2 31 0
    if q = 0 || w.bytes < q then s
    else
      let n := (w.quanta + 1) % 2 ^ 64
      let s := setWindow s e { w with bytes := w.bytes - q, quanta := n }
      let a := w.w3.toNat
      let s := if inGrid s.grid (aRow a) (aCol a) && !isHole s (aCore a) && a % 2 ^ 36 + 8 ≤ localEnd then
          latchPut s false (aCore a) (a % 2 ^ 36 / 8 * 8) (toBytes 8 n) false
        else s
      notifyFills e k s

/-- Counts bytes written into an entry (11 R407). -/
def notify (s : State) (e n : Nat) : State :=
  let w := getWindow s e
  if bitOf w.w0 58 then notifyFills e (n + 1) (setWindow s e { w with bytes := w.bytes + n }) else s

/-- A packet that writes: checked, written, counted; its status. A module in salvage takes no writes, and serves GETs of its sealed checkpoint
(12 R448). -/
def windowPut (s : State) (x : InPacket) : State :=
  let p := x.pkt
  if s.resil.state = 6 then acted s x 3
  else match windowCheck s (dieOfPort x.port) p p.data.length true with
  | (.inl pl, s) => acted (notify (windowWrite s pl p) (p.addr / 2 ^ 32) p.data.length) x 0
  | (.inr st, s) => acted s x st

def putIn (s : State) : State :=
  match takeIn s 1 with
  | some (x, s) => windowPut s x
  | none => s

def execPut (s : State) : Out := .next (putIn s)

def getRspIn (s : State) : State :=
  match takeIn s 3 with
  | some (x, s) => windowPut s x
  | none => s

def execGetRsp (s : State) : Out := .next (getRspIn s)

def sowPacketIn (s : State) : State :=
  match takeIn s 4 with
  | some (x, s) => windowPut s x
  | none => s

def execFabricSow (s : State) : Out := .next (sowPacketIn s)

/-- Reads a window's bytes with the poison of each word of the data. -/
def windowRead (s : State) (pl : WinPlace) (n : Nat) : List Byte × List Bool × State :=
  match pl with
  | .core gran c off =>
    let g := coreRead s gran c off n
    (g.data, dataPois off n g.pois, g.st)
  | .bulk runs =>
    let r := runs.foldl (fun (x : List Byte × List Bool × State) r =>
      let g := bulkRead x.2.2 r.1 r.2.2
      (x.1 ++ g.data, x.2.1 ++ bytePois r.1 r.2.2 g.pois, g.st)) ([], [], s)
    (r.1, wordPois n r.2.1, r.2.2)
where
  /-- The poison of each byte, from that of the words they lie in. -/
  bytePois (a n : Nat) (pois : List Bool) : List Bool := (List.range n).map (fun i => pois.getD ((a + i) / 8 - a / 8) false)
  wordPois (n : Nat) (b : List Bool) : List Bool := (List.range ((n + 7) / 8)).map (fun i => ((b.drop (8 * i)).take 8).any id)
  dataPois (a n : Nat) (pois : List Bool) : List Bool := wordPois n (bytePois a n pois)

/-- The response to a GET: packets of at most 4,096 bytes, the last marked FIN (11 R408). -/
def sendResponse (s : State) (die dst raddr : Nat) (bs : List Byte) (ps : List Bool) : State :=
  let k := max 1 ((bs.length + 4095) / 4096)
  (List.range k).foldl (fun s i =>
    let d := (bs.drop (4096 * i)).take 4096
    (fabSend s die (.control die) 3 none
      { opc := 3, dst := dst, src := 0, chan := 0, fin := i + 1 == k, ver := 0, cseq := 0, len := d.length,
        addr := (raddr + 4096 * i) % 2 ^ 40, opf := 4096 * i, data := d, pois := (ps.drop (512 * i)).take ((d.length + 7) / 8) }).1) s

def getIn (s : State) : State :=
  match takeIn s 2 with
  | none => s
  | some (x, s) =>
    let p := x.pkt
    if s.resil.state = 6 then
      (if (salvageBytes s).length < p.addr + p.len then acted s x 2
       else acted (sendResponse s (dieOfPort x.port) p.src (p.opf % 2 ^ 40) ((salvageBytes s).drop p.addr |>.take p.len) []) x 0)
    else match windowCheck s (dieOfPort x.port) p p.len false with
    | (.inl pl, s) =>
      let (bs, ps, s) := windowRead s pl p.len
      acted (sendResponse s (dieOfPort x.port) p.src (p.opf % 2 ^ 40) bs ps) x 0
    | (.inr st, s) => acted s x st

def execGet (s : State) : Out := .next (getIn s)

/-! ## Reaps, gates, control (11 R416–R419) -/

def reduceIn (s : State) : State :=
  match takeIn s 5 with
  | none => s
  | some (x, s) =>
    let p := x.pkt
    let g := fieldN p.opf 63 52
    let idx := fieldN p.opf 51 48
    let round := fieldN p.opf 39 8
    let valid := (redEntry s g).testBit 31
    let op := fieldN p.opf 6 4
    let lanes := (List.range 32).map (fun i => if p.pois.getD (i / 2) false then reapIdentity op else bytesAt p.data (4 * i) 4)
    let bad := (List.range 32).foldl (fun f i => if p.pois.getD (i / 2) false then f + 2 ^ i else f) 0
    let flags := (if p.pois.getD 16 false then 2 ^ 32 - 1 else bytesAt p.data 128 4) ||| bad
    let s := acted s x 0
    -- the sender learns that this module cannot combine; a notice goes on along the tree
    if !valid then (if op = 7 then s else (sendReduce (redDiscardHere s g) g 0 round 7 x.port false [] 0).1)
    else if op = 7 then redDiscard s g round (some x.port)
    else if p.opf.testBit 7 then redDown s g idx round op lanes flags
    else redIn s g idx round op (some x.port) lanes flags

def execReduce (s : State) : Out := .next (reduceIn s)

/-- A GATE_ARRIVE at gate TGATE (11 R419). -/
def fabArrive (s : State) (tgate gen port : Nat) : State :=
  let key := 1024 + (tgate - 256)
  let g := getGate s key
  let c := g.gen.toNat
  let ok := decide (256 ≤ tgate) && decide (tgate < 320) && g.en
  if ok && gen == (c + 1) % 2 ^ 32 && decide (g.arr.fab < g.fabn) then
    setGate s key { g with arr := { g.arr with fab := g.arr.fab + 1 } }
  else if ok && gen == (c + 2) % 2 ^ 32 && decide (g.arr.fabHeld < g.fabn) then
    setGate s key { g with arr := { g.arr with fabHeld := g.arr.fabHeld + 1 } }
  else sendEvent (countFab s 4) { sev := 2, code := 0x0031, source := srcUnit 3 port, arg0 := tgate, arg1 := gen }

def gateArriveIn (s : State) : State :=
  match takeIn s 6 with
  | none => s
  | some (x, s) => fabArrive (acted s x 0) (x.pkt.opf % 512) (fieldN x.pkt.opf 63 32) x.port

def execFabricGateArrive (s : State) : Out := .next (gateArriveIn s)

/-! ## Acknowledgements and resends at the source (11 R403) -/

/-- The FABRIC address of a packet of a channel. -/
def packetAddr (p : Packet) : Nat := 7 * 2 ^ 56 + p.dst * 2 ^ 40 + p.addr

/-- What a packet refused at its destination does to its user: a Drill descriptor ends with status FABRIC, a reap is discarded. -/
def packetRefused (s : State) (u : ChanUser) (p : Packet) : State :=
  match u with
  | .drill c ring => updRing s c ring (fun r => match r.cur with
      | some d => if d.status = 0 then { r with cur := some { d with status := 0x0F, addr := packetAddr p } } else r
      | none => r)
  | .reduce g q => redDiscard s g (fieldN p.opf 39 8) (some q)
  | _ => s

/-- The CSEQ up to which every module that must answer has answered. -/
def chanDone (s : State) (c : Chan) : Nat :=
  if isGroup c.dst then
    let need := fieldN (groupEntry s c.dst) 29 16
    if c.acks.length < need || c.acks.isEmpty then 0 else c.acks.foldl (fun m a => min m a.2) (2 ^ 32)
  else c.acks.foldl (fun m a => max m a.2) 0

/-- An ACK of module src for channel n: packets up to cseq are acknowledged, the last with a status. NO_ROUTE comes from a module on the way:
it refuses that one packet and acknowledges none, and the packet stays, to be resent (11 R403, R406; notes/assumptions/32.md). -/
def ackIn (s : State) (n src cseq status : Nat) : State :=
  match getChan s n with
  | none => s
  | some c =>
    if status = 6 then
      (match c.unacked.find? (fun p => p.cseq == cseq) with
      | some p => packetRefused (countFab s 6) c.user p
      | none => s)
    else
    let old := (c.acks.find? (fun a => a.1 == src)).map (·.2) |>.getD 0
    let c := { c with acks := (src, max old (cseq + 1)) :: c.acks.filter (fun a => a.1 != src) }
    let done := chanDone s c
    let left := c.unacked.filter (fun p => done ≤ p.cseq)
    let s := match (if status = 0 then none else c.unacked.find? (fun p => p.cseq == cseq)) with
      | some p => packetRefused (countFab s 6) c.user p
      | none => s
    setChan s n { c with unacked := left, resends := if left.length < c.unacked.length then 0 else c.resends }

def fabricAckIn (s : State) : State :=
  match takeIn s 8 with
  | none => s
  | some (x, s) => ackIn s (x.pkt.addr % 4096) x.pkt.src (fieldN x.pkt.opf 63 32) (x.pkt.opf % 256)

def execFabricAck (s : State) : Out := .next (fabricAckIn s)

/-- The port a channel is bound to. -/
def chanFixed (c : Chan) : Option Nat :=
  match c.user with
  | .reduce _ p => some p
  | _ => none

/-- A channel fails: its operations end with error and the agent is told. -/
def chanFail (s : State) (n : Nat) (c : Chan) : State :=
  suspect (chanEnd s n c) c.dst
where
 chanEnd (s : State) (n : Nat) (c : Chan) : State :=
  match c.user with
  | .reduce g q =>
    interrupt (redDiscard (setChan s n { c with failed := true, unacked := [] }) g
      (fieldN ((c.unacked.head?.map (·.opf)).getD 0) 39 8) (some q)) (.channelFailed c.dst)
  | .drill _ _ => interrupt (setChan s n { c with failed := true }) (.channelFailed c.dst)
  | _ => interrupt (setChan s n { c with failed := true, unacked := [] }) (.channelFailed c.dst)

/-- The resend timeout of a channel. -/
def chanResend (s : State) (n : Nat) : State :=
  match getChan s n with
  | none => s
  | some c =>
    if c.failed || c.unacked.isEmpty then s
    else if odNum s 0x06 0x31 0 8 ≤ c.resends then chanFail s n c
    else
      let s := setChan s n { c with resends := c.resends + 1 }
      c.unacked.foldl (fun s p => match getChan s n with
        | some c => (transmit s n c (chanFixed c) true p).1
        | none => s) s

def execChannelResend (chan : Nat) (s : State) : Out := .next (chanResend s chan)

end Sys2Proof.Machine
end

