-- ==== Sys2Proof/Machine/LoadStore.lean ====
section
/-!
DEFINITION. Machine/LoadStore.lean: loads, stores and latch operations from issue to response (02 R80–R86, 07 R251–R269, 09 R325–R332).
Own memories, bulk, host and the core's own CONTROL space are reached at issue and the response is held in the request slot; CORE, CGRAN
and another core's CONTROL space are reached when the request arrives (notes/assumptions/41.md).
-/

namespace Sys2Proof.Machine

/-! ## Fields and address (02 R69, R80) -/

def wSZ (w : Word) : Nat := field w 36 34
def wSize (w : Word) : Nat := 2 ^ (wSZ w % 4)
def wSigned (w : Word) : Bool := 4 ≤ wSZ w

/-- The address a memory instruction forms. -/
def memAddr (th : Thread) (w : Word) : Word :=
  let a := gVal th (wGa w)
  let b := gVal th (wGb w)
  let off := (field a 55 0 + field b 55 0 * 2 ^ field w 33 32 + wrapInt 56 (signedN 32 (field w 31 0))) % 2 ^ 56
  word (field a 63 56 * 2 ^ 56 + off)

/-- What kind of access an instruction makes, for R81. -/
inductive Acc where
  | plain
  | scale
  | latch
  deriving DecidableEq, Repr

/-- A CONTROL address: the core it names. -/
def ctlCore (c : Nat) (a : Nat) : Nat := if a.testBit 35 then c else aCore a

/-- The space allows the access (02 R81); else the exception. -/
def spaceChecks (acc : Acc) (store : Bool) (n : Nat) (a : Word) : List Cand :=
  match acc, field a 63 56 with
  | .latch, 0x04 => [cand 0x09 0x01 a]
  | .latch, 0x06 => [cand 0x09 0x01 a]
  | .latch, 0x0F => [cand 0x09 0x01 a]
  | .scale, 0x06 => [cand 0x05 0x01 a]
  | _, 0x0F => when? (store && n < 8) 0x05 0x01 a
  | _, t => when? (t == 5 || 6 < t) 0x05 0x01 a

/-- Range, reserved address bits, keeper area and holes (01 R10, R21; 02 R66; 07 R252, R263). -/
def rangeChecks (s : State) (c : Nat) (job : Bool) (n : Nat) (a : Word) : List Cand :=
  let k := getCore s c
  let off := field a 55 0
  let far (limit : Nat) : List Cand :=
    let tc := aCore a.toNat
    if field a 55 48 != 0 || limit < a.toNat % 2 ^ 36 + n || !inGrid s.grid (aRow a.toNat) (aCol a.toNat) then [cand 0x05 0x02 a]
    else when? (isHole s tc) 0x0C 0x01 (holeInfo tc)
  match field a 63 56 with
  | 0x00 => if localEnd < off + n then [cand 0x05 0x02 a] else when? (job && k.ctl.klim.toNat < off + n) 0x05 0x03 a
  | 0x01 => when? (granEnd k < off + n) 0x05 0x02 a
  | 0x02 => far localEnd
  | 0x03 => far 0x500000
  | 0x04 => when? (field a 55 48 != 0) 0x05 0x02 a
  | 0x06 => when? (field a 55 48 != 0) 0x05 0x02 a
  | 0x0F =>
    let tc := ctlCore c a.toNat
    if field a 55 48 != 0 || field a 34 24 != 0 || (!a.toNat.testBit 35 && !inGrid s.grid (aRow a.toNat) (aCol a.toNat)) then
      [cand 0x05 0x02 a]
    else when? (isHole s tc) 0x0C 0x01 (holeInfo tc)
  | _ => []

/-- The checks that need no translation. -/
def addressChecks (s : State) (c t : Nat) (acc : Acc) (store : Bool) (n : Nat) (w : Word) : List Cand :=
  let th := getThread s c t
  match addrPoison th [wGa w, wGb w] with
  | [] =>
    let a := memAddr th w
    let sp := spaceChecks acc store n a
    when? (a.toNat % n != 0) 0x03 0x01 a ++ sp ++ rangeChecks s c (inJob s c t) n a
  | xs => xs

/-- A job-mode access to CONTROL (02 R65). -/
def memPriv (c t : Nat) (w : Word) (s : State) : Option Nat := controlJob s c t (wGa w)

/-- What translation answers: the leaf, an exception, or a walk to wait for. -/
inductive Trans where
  | none
  | leaf (e : TlbEntry)
  | raise (xs : List Cand)
  | walk

def isVirtual (a : Word) : Bool := field a 63 56 == 4 || field a 63 56 == 6

def translate (s : State) (c t : Nat) (store : Bool) (a : Word) : Trans :=
  if !isVirtual a then .none
  else
    match lookup (getCore s c) (field a 63 56) (field a 47 0) store (inJob s c t) with
    | none => .walk
    | some e =>
      match pageSubs e.leaf store (inJob s c t) with
      | [] => .leaf e
      | subs => .raise (subs.map (fun n => ⟨8, ⟨0x05, n, a⟩⟩))

/-- The thread waits for a walk (02 R83). -/
def needWalk (s : State) (c t : Nat) (store : Bool) (a : Word) : Res :=
  .hold (updThread s c t (fun th => { th with walk := some { va := a.toNat, write := store } }))

/-- A request that takes a slot. -/
def newReq (t : Nat) (kind : ReqKind) (a : Word) (target off : Nat) (job : Bool) (data : List Byte) (poison : Bool) (stage : ReqStage)
    (resp : Nat) (respPoison : Bool) (route : Route) (id : Nat) : Req :=
  { id := id, thread := t, kind := kind, va := a.toNat, target := target, off := off, job := job, data := data, poison := poison,
    stage := stage, resp := resp, respPoison := respPoison, orphan := 0, superseded := false, cancel := none, route := route }

/-! ## Reading through the L1 (02 R85) -/

/-- One line, from the L1 or fetched and allocated. -/
def l1Line (s : State) (c space owner line : Nat) (fetch : State → Nat → Got) : L1Line × State :=
  match l1Find (getCore s c) space owner line with
  | some l => (l, s)
  | none =>
    let g := fetch s (line * 64)
    let l : L1Line := { space := space, owner := owner, line := line, data := g.data, pois := g.pois }
    (l, l1Insert g.st c l)

/-- n bytes at an address, whole lines where more than one. -/
def l1Read (s : State) (c space owner a n : Nat) (fetch : State → Nat → Got) : Nat × Bool × State :=
  (List.range ((n + 63) / 64)).foldl (fun (x : Nat × Bool × State) i =>
    let (l, s) := l1Line x.2.2 c space owner (a / 64 + i) fetch
    let (v, p) := l.get (a % 64) (min n 64)
    (x.1 + v * 2 ^ (512 * i), x.2.1 || p, s)) (0, false, s)

/-! ## Loads at issue -/

/-- A load of registers of core tc's CONTROL space: a part of one, or sixteen. -/
def controlLoad (s : State) (tc o n : Nat) : Nat × State :=
  if n ≤ 8 then (let (v, s) := controlRead s tc (o / 8 * 8); (v.toNat / 2 ^ (8 * (o % 8)) % 2 ^ (8 * n), s))
  else (List.range 16).foldl (fun (x : Nat × State) i => let (v, s) := controlRead x.2 tc (o + 8 * i); (x.1 + v.toNat * 2 ^ (64 * i), s)) (0, s)

def Got.answer (g : Got) : Nat × Bool × State := (g.value, g.poison, g.st)

/-- The run-ahead fetch that a miss of the granary cache may start on a page with C = 1 and P = 1: the next line, or one a stride away; whether and which
is left to the cache (07 R280–R283; notes/assumptions/77.md). -/
def cacheAhead (s : State) (c va : Nat) (e : TlbEntry) : State :=
  let (n, s) := drawFree s
  let line := va / 256 + (n / 2 + 1) % 2 ^ 40
  if n % 2 = 0 then s else (prefetchPiece c (s, 0, some (some e)) (line % 2 ^ 40 * 256) 256).1

/-- Runs an access through the granary cache, and the run-ahead fetch that follows a miss. -/
def withAhead (s : State) (c pa va : Nat) (e : TlbEntry) (f : State → State) : State :=
  let held (s : State) : Bool := (gcFind (getCore s c) (pa / 256) (leafSlot e.leaf)).isSome
  let s' := f s
  if leafC e.leaf && leafP e.leaf && !held s && held s' then cacheAhead s' c va e else s'

/-- The value, poison and state of a load that reaches its memory at issue; the leaf where the space is translated. -/
def loadNow (s : State) (c t n : Nat) (a : Word) (leaf : Option TlbEntry) : Nat × Bool × State :=
  let off := field a 55 0
  match field a 63 56, leaf with
  | 0x00, _ => (coreRead s false c off n).answer
  | 0x01, _ => l1Read s c 1 c off n (fun s x => coreRead s true c x 64)
  | 0x0F, _ =>
    let (v, s) := controlLoad s (ctlCore c a.toNat) (field a 23 0) n
    (v, false, s)
  | tag, some e =>
    let pa := leafPa e (field a 47 0)
    let slot := leafSlot e.leaf
    if !slotHasKey s slot then (0, true, deliverDeferred s c t ⟨0x05, 0x12, a⟩)
    else if tag = 6 then
      if (hostRegion s pa).valid then (regionRead s pa n true).answer else (0, true, s)
    else if leafC e.leaf then
      let r := l1Read s c 4 slot pa n (fun s x => cacheLoad s c x slot 64 true)
      (r.1, r.2.1, withAhead s c pa (field a 47 0) e (fun _ => r.2.2))
    else
      let r := (cutsOf pa n).foldl (fun (g : Got) x => let g' := cacheLoad g.st c (pa + x.1) slot x.2 false; ⟨g.data ++ g'.data, g.pois ++ g'.pois, g'.st⟩) ⟨[], [], s⟩
      r.answer
  | _, none => (0, false, s)

/-- A granary line of another core, if the L1 holds every line the access needs. -/
def l1Holds (s : State) (c target off n : Nat) : Bool :=
  (List.range ((n + 63) / 64)).all (fun i => (l1Find (getCore s c) 1 target (off / 64 + i)).isSome)

def loadBody (c t : Nat) (w : Word) (n : Nat) (kind : ReqKind) (acc : Acc) (s : State) : Res :=
  if !slotFree (getCore s c) t then .wait
  else
    match addressChecks s c t acc false n w with
    | x :: xs => .raise (x :: xs)
    | [] =>
      let a := memAddr (getThread s c t) w
      let job := inJob s c t
      let tag := field a 63 56
      let put (s : State) (target off : Nat) (stage : ReqStage) (v : Nat) (p : Bool) (r : Route) : Res :=
        .done (advance (addReq s c (newReq t kind a target off job [] false stage v p r)).2 c t)
      match translate s c t false a with
      | .walk => needWalk s c t false a
      | .raise xs => .raise xs
      | tr =>
        let leaf := match tr with
          | .leaf e => some e
          | _ => none
        if tag = 2 || tag = 3 then
          let tc := aCore a.toNat
          let off := a.toNat % 2 ^ 36
          if tag = 3 && l1Holds s c tc off n then
            (let (v, p, s) := l1Read s c 1 tc off n (fun s _ => ⟨[], [], s⟩)
             put s tc off .done v p .own)
          else put s tc off .sent 0 false (coreRoute s c tc)
        else if tag = 0x0F && ctlCore c a.toNat != c then
          put s (ctlCore c a.toNat) (field a 23 0) .sent 0 false (coreRoute s c (ctlCore c a.toNat))
        else if tag < 2 && mustFollow s c t (tag == 1) false (field a 55 0) n then .wait
        else
          let (v, p, s) := loadNow s c t n a leaf
          put s c (field a 55 0) .done v p .own

def execLd (c t : Nat) (w : Word) (s : State) : Out :=
  issue .ld
    { uses := { gOut := [wGd w], gData := [wGa w, wGb w] }
      priv := memPriv c t w s
      body := loadBody c t w (wSize w) (.load (wGd w) (wSize w) (wSigned w)) .plain } c t w s

def execLds (c t : Nat) (w : Word) (s : State) : Out :=
  issue .lds
    { uses := { gData := [wGa w, wGb w], sOut := [wGd w % 4] }
      priv := memPriv c t w s
      body := loadBody c t w 128 (.loadS (wGd w % 4)) .scale } c t w s

/-! ## Stores at issue -/

/-- Stores bytes, one word at a time where there are several. -/
def byWords (a : Nat) (bs : List Byte) (f : State → Nat → List Byte → State) (s : State) : State :=
  (wordCuts (bs.length / 8 + 2) a bs.length).foldl (fun (x : State × Nat) k =>
    (f x.1 k.1 ((bs.drop x.2).take k.2), x.2 + k.2)) (s, 0) |>.1

/-- A register write that carries a poisoned word is discarded and counted in OD 0B.0031 (14 R507). -/
def ctlDrop (s : State) : State := { s with od := { s.od with ctlDrops := (s.od.ctlDrops + 1) % 2 ^ 64 } }

/-- A store to registers of core tc's CONTROL space by a thread: a store to a user table that a held TDRAIN names waits (04 R160). -/
def controlStore (s : State) (tc o : Nat) (bs : List Byte) (p : Bool) (by_ : Nat × Nat) : State × ReqStage :=
  match p, ctlReg o with
  | false, .table o' => if slotHeld (getCore s tc) (o' / 0x1000) then (s, .tableHeld) else (tableWrite s tc o' bs, .done)
  | _, _ => (byWords o bs (fun s x b => if p then ctlDrop s else controlWrite s tc x (word (ofBytes b)) (some by_)) s, .done)

/-- A store that reaches its memory at issue; the stage of its request. -/
def storeNow (s : State) (c t : Nat) (a : Word) (leaf : Option TlbEntry) (bs : List Byte) (p : Bool) : State × ReqStage :=
  let off := field a 55 0
  match field a 63 56, leaf with
  | 0x00, _ => (coreWrite s false c p off bs, .done)
  | 0x01, _ => (byWords off bs (fun s x b => l1Store (coreWrite s true c p x b) c 1 c x p b) s, .done)
  | 0x0F, _ =>
    controlStore s (ctlCore c a.toNat) (field a 23 0) bs p (c, t)
  | tag, some e =>
    let pa := leafPa e (field a 47 0)
    let slot := leafSlot e.leaf
    if !slotHasKey s slot then (deliverDeferred s c t ⟨0x05, 0x12, a⟩, .done)
    else if tag = 6 then
      let r := hostRegion s pa
      (if r.valid && r.writable then regionPut s p p pa bs else s, .done)
    else
      let cached := leafC e.leaf
      (withAhead s c pa (field a 47 0) e (byWords pa bs (fun s x b =>
        let s := cacheStore s c x slot cached p b
        if cached then l1Store s c 4 slot x p b else s)), .done)
  | _, none => (s, .done)

def storeBody (c t : Nat) (w : Word) (n : Nat) (acc : Acc) (data : Thread → Nat × Bool) (s : State) : Res :=
  if !slotFree (getCore s c) t then .wait
  else
    match addressChecks s c t acc true n w with
    | x :: xs => .raise (x :: xs)
    | [] =>
      let th := getThread s c t
      let a := memAddr th w
      let job := inJob s c t
      let tag := field a 63 56
      let (v, p) := data th
      let bs := toBytes n v
      let put (s : State) (target off : Nat) (stage : ReqStage) (r : Route) : Res :=
        .done (advance (addReq s c (newReq t .store a target off job bs p stage 0 false r)).2 c t)
      match translate s c t true a with
      | .walk => needWalk s c t true a
      | .raise xs => .raise xs
      | tr =>
        let leaf := match tr with
          | .leaf e => some e
          | _ => none
        if tag = 2 || tag = 3 then
          let tc := aCore a.toNat
          let off := a.toNat % 2 ^ 36
          put (if tag = 3 then byWords off bs (fun s x b => l1Store s c 1 tc x p b) s else s) tc off .sent (coreRoute s c tc)
        else if tag = 0x0F && ctlCore c a.toNat != c then
          put s (ctlCore c a.toNat) (field a 23 0) .sent (coreRoute s c (ctlCore c a.toNat))
        else if tag < 2 && mustFollow s c t (tag == 1) true (field a 55 0) n then .wait
        else
          let (s, stage) := storeNow s c t a leaf bs p
          put s c (if stage = .tableHeld then field a 23 0 - 0x20000 else field a 55 0) stage .own

def gData (w : Word) (th : Thread) : Nat × Bool := let r := th.regs.gGet (wGd w); (r.v.toNat, r.p)

def execSt (c t : Nat) (w : Word) (s : State) : Out :=
  issue .st
    { uses := { gData := [wGd w, wGa w, wGb w] }
      priv := memPriv c t w s
      body := storeBody c t w (wSize w) .plain (gData w) } c t w s

def execSts (c t : Nat) (w : Word) (s : State) : Out :=
  issue .sts
    { uses := { gData := [wGa w, wGb w], sIn := [] }
      priv := memPriv c t w s
      body := fun s =>
        if (getCore s c).sBusy t (wGd w % 4) then .wait
        else storeBody c t w 128 .scale (fun th => let r := th.regs.sGet (wGd w % 4); (r.v.toNat, r.p)) s } c t w s

/-! ## Latch operations (09 R325, R326) -/

/-- A latch operation is issued: LD.TAKE, LD.PEEK and ST.FILL make the thread WAITING. -/
def latchBody (c t : Nat) (w : Word) (kind : ReqKind) (s : State) : Res :=
  if !slotFree (getCore s c) t then .wait
  else
    let store := match kind with
      | .take _ => false
      | .peek _ => false
      | _ => true
    match addressChecks s c t .latch store 8 w with
    | x :: xs => .raise (x :: xs)
    | [] =>
      let th := getThread s c t
      let a := memAddr th w
      let tag := field a 63 56
      let remote := tag == 2 || tag == 3
      let tc := if remote then aCore a.toNat else c
      let off := if remote then a.toNat % 2 ^ 36 else field a 55 0
      let (v, p) := gData w th
      if !remote && mustFollow s c t (tag == 1) store off 8 then .wait
      else
        let s := if tag = 1 || tag = 3 then l1Kill s c 1 tc off else s
        let mk := newReq t kind a tc off (inJob s c t) (toBytes 8 v) p .sent 0 false (if remote then coreRoute s c tc else .own)
        let (id, s) := addReq s c mk
        let s := if remote then s else latchRequest s (tag == 1) c off c (mk id)
        if kind.waits then .done (updThread s c t (fun th => { th with st := { th.st with state := .waiting }, wait := .latch id }))
        else .done (advance s c t)

def latchForm (c t : Nat) (w : Word) (kind : ReqKind) (s : State) : Form :=
  { uses := match kind.gDest with
      | some rd => { gOut := [rd], gData := [wGa w, wGb w] }
      | none => { gData := [wGd w, wGa w, wGb w] }
    priv := memPriv c t w s
    body := latchBody c t w kind }

def execLdTake (c t : Nat) (w : Word) (s : State) : Out := issue .take (latchForm c t w (.take (wGd w)) s) c t w s
def execLdPeek (c t : Nat) (w : Word) (s : State) : Out := issue .peek (latchForm c t w (.peek (wGd w)) s) c t w s
def execStFill (c t : Nat) (w : Word) (s : State) : Out := issue .fill (latchForm c t w .fill s) c t w s
def execStPut (c t : Nat) (w : Word) (s : State) : Out := issue .put (latchForm c t w .put s) c t w s
def execLclr (c t : Nat) (w : Word) (s : State) : Out := issue .lclr (latchForm c t w .clear s) c t w s

/-! ## Arrival at another core (02 R66, 07 R252, 01 R36) -/

/-- The virtual channels of the data and control networks (01 R30, R35); sows travel on a channel of their own, on which no request and
no answer waits. -/
inductive NetChannel where
  | dataReq
  | dataRsp
  | controlReq
  | controlRsp
  deriving DecidableEq, Repr

/-- Latch operations and registers travel on the control network, loads and stores on the data network. -/
def Req.onControl (q : Req) : Bool := q.kind.isLatch || q.va / 2 ^ 56 == 0x0F

/-- The channel a request is on: to its target until it is served, then back. -/
def Req.channel (q : Req) : NetChannel :=
  match q.onControl, q.stage == .done with
  | false, false => .dataReq
  | false, true => .dataRsp
  | true, false => .controlReq
  | true, true => .controlRsp

/-- The requests touch a word of the same memory in common. -/
def shareWord (x q : Req) : Bool :=
  x.va / 2 ^ 56 == q.va / 2 ^ 56 && x.off / 8 ≤ (q.off + reqSpan q - 1) / 8 && q.off / 8 ≤ (x.off + reqSpan x - 1) / 8

/-- An earlier packet between the same two cores on the same channel has not arrived (01 R36): a request sent before, or an answer given
before. The banks of the data network's target complete requests to different words in any order (09 R333), so there only one to the
same word is waited for. -/
def behind (k : Core) (q : Req) : Bool :=
  k.reqs.any (fun x => (x.stage == .sent || x.stage == .done) && x.target == q.target && x.route != .own && x.channel == q.channel &&
    (if q.stage == .done then decide (x.ans < q.ans) else decide (x.id < q.id) && (q.onControl || shareWord x q)))

/-- The answer of a request can reach its core: one that travels is behind no other, and there is a way back (01 R34, R36). -/
def answerHere (s : State) (c : Nat) (q : Req) : Bool :=
  q.route == .own || (!behind (getCore s c) q && coreRoute s q.target c != .cut)

/-- The target refuses the request: keeper area or cache part. -/
def targetRefuses (s : State) (q : Req) : Option Nat :=
  let k := getCore s q.target
  let n := reqSpan q
  if q.va / 2 ^ 56 = 0x0F then none
  else if q.va / 2 ^ 56 = 2 then (if q.job && k.ctl.klim.toNat < q.off + n then some 0x03 else none)
  else if granEnd k < q.off + n then some 0x14 else none

/-- A store of the core to a line of another core's granary is still on its way. -/
def storeInFlight (k : Core) (target line : Nat) : Bool :=
  k.reqs.any (fun x => x.stage == .sent && x.kind == .store && x.va / 2 ^ 56 == 3 && x.target == target &&
    x.off / 64 ≤ line && line ≤ (x.off + reqSpan x - 1) / 64)

/-- A load from another core's granary reads its lines there and allocates them in the L1. -/
def remoteLines (s : State) (c : Nat) (q : Req) : Nat × Bool × State :=
  let n := reqSpan q
  (List.range ((n + 63) / 64)).foldl (fun (x : Nat × Bool × State) i =>
    let line := q.off / 64 + i
    let g := coreRead x.2.2 true q.target (line * 64) 64
    let l : L1Line := { space := 1, owner := q.target, line := line, data := g.data, pois := g.pois }
    let (v, p) := l.get (q.off % 64) (min n 64)
    (x.1 + v * 2 ^ (512 * i), x.2.1 || p,
      if storeInFlight (getCore g.st c) q.target line then g.st else l1Insert g.st c l)) (0, false, s)

/-- Words of 32 bits that fail their parity check at a crossing queue, by position from the first that the access touches: those the
access has (14 R506, R507; notes/assumptions/70.md). -/
def badWords (q : Req) (bad : List Nat) : List Nat := (bad.filter (fun j => j < (q.off % 4 + reqSpan q + 3) / 4)).eraseDups

/-- Each word of bad parity is reported by the core that reads it and counted in OD 0B.0030 (14 R507). -/
def xqReport (s : State) (reader : Nat) (latch : Bool) : List Nat → State
  | [] => s
  | _ :: r =>
    xqReport (sendEvent { s with od := { s.od with xqParity := (s.od.xqParity + 1) % 2 ^ 64 } }
      { sev := 2, code := 0x0012, source := srcCore reader, arg0 := boolN latch, arg1 := 0 }) reader latch r

/-- The 64-bit words that an access touches, poisoned where a 32-bit word of them has bad parity. -/
def badMarks (q : Req) (b : List Nat) : List Bool :=
  (List.range ((q.off % 8 + reqSpan q + 7) / 8)).map (fun i => b.any (fun j => (q.off / 4 + j) / 2 == q.off / 8 + i))

/-- The request carries data to its target. -/
def ReqKind.carries : ReqKind → Bool
  | .store => true
  | .fill => true
  | .put => true
  | _ => false

/-- A store to a user table that a held TDRAIN names. -/
def slotStore (k : Core) (q : Req) : Bool :=
  !q.poison && (match ctlReg q.off with
    | .table o => slotHeld k (o / 0x1000)
    | _ => false)

/-- An access to another core's CONTROL space is made where it arrives; with words of bad parity, a store to a table in use stays at
the network interface. -/
def controlArrive (s : State) (c : Nat) (q : Req) (b : List Nat) : State :=
  match q.kind with
  | .store =>
    if b.isEmpty then
      match controlStore s q.target q.off q.data q.poison (c, q.thread) with
      | (s, .tableHeld) => updReq s c q.id (fun q => { q with stage := .tableHeld, off := q.off - 0x20000 })
      | (s, _) => answerReq s c q.id 0 false
    else if slotStore (getCore s q.target) q then s
    else answerReq (writeRun (fun s p a x => (controlStore s q.target a x (q.poison || p) (c, q.thread)).1) q.off q.data (badMarks q b) s)
      c q.id 0 false
  | _ =>
    let (v, s) := controlLoad s q.target q.off (reqSpan q)
    answerReq s c q.id v false

def remoteArrive (s : State) (c id : Nat) (bad : List Nat) : State :=
  match findReq s c id with
  | none => s
  | some q =>
    if q.stage != .sent || q.route == .cut || behind (getCore s c) q || (q.kind.isLatch && latchHeld s q.target) then s
    else
      let b := if q.kind.carries then badWords q bad else []
      let s := xqReport s q.target q.kind.isLatch b
      match targetRefuses s q with
      | some sub => deliverDeferred (answerReq s c id 0 true) c q.thread ⟨0x05, sub, word q.va⟩
      | none =>
        let gran := q.va / 2 ^ 56 == 3
        if q.va / 2 ^ 56 = 0x0F then controlArrive s c q b
        else match q.kind with
        | .store =>
          if b.isEmpty then answerReq (coreWrite s gran q.target q.poison q.off q.data) c id 0 false
          else answerReq (writeRun (fun s p a x => coreWrite s gran q.target (q.poison || p) a x) q.off q.data (badMarks q b) s) c id 0 false
        | .load _ n _ =>
          if gran then (let (v, p, s) := remoteLines s c q; answerReq s c id v p)
          else (let g := coreRead s false q.target q.off n; answerReq g.st c id g.value g.poison)
        | .loadS _ =>
          if gran then (let (v, p, s) := remoteLines s c q; answerReq s c id v p)
          else (let g := coreRead s false q.target q.off 128; answerReq g.st c id g.value g.poison)
        | _ => latchRequest s gran q.target q.off c { q with poison := q.poison || !b.isEmpty }

def execRemoteAccessArrive (core req : Nat) (bad : List Nat) (s : State) : Out := .next (remoteArrive s core req bad)

/-! ## Responses (02 R84, R96) -/

/-- The value a load of a size writes. -/
def extend (size : Nat) (signed : Bool) (v : Nat) : Word := if signed then sextWord (8 * size) v else word (v % 2 ^ (8 * size))

/-- A response writes the registers of its load; a load issued before it that is still in flight no longer writes them, while one issued
after it does (02 R96). -/
def writeLoad (s : State) (c : Nat) (q : Req) (f : Regs → Regs) : State :=
  updCore s c (fun k =>
    let k := k.updThread q.thread (fun th => { th with regs := f th.regs })
    { k with reqs := k.reqs.map (fun x =>
        if x.thread == q.thread && decide (x.id < q.id) && (q.kind.gDest.isSome && x.kind.gDest == q.kind.gDest ||
          q.kind.sDest.isSome && x.kind.sDest == q.kind.sDest) then { x with superseded := true } else x) })

def writeLoadG (s : State) (c : Nat) (q : Req) (rd : Nat) (v : Word) (p : Bool) : State :=
  writeLoad s c q (fun r => r.gSet rd ⟨v, p⟩)

/-- A latch wait is over: the pc passes the operation. -/
def latchDone (s : State) (c : Nat) (q : Req) : State :=
  let th := getThread s c q.thread
  if th.wait = .latch q.id then
    updThread (wakeThread s c q.thread) c q.thread (fun th => { th with pc := th.pc + 8 })
  else s

/-- Reports the words of a response that have bad parity; the L1 keeps no line then. -/
def responseParity (s : State) (c : Nat) (q : Req) (b : List Nat) : State :=
  if b.isEmpty then s else xqReport (l1Drop s c (fun _ => true)) c q.kind.isLatch b

def loadResponse (s : State) (c id : Nat) (bad : List Nat) : State :=
  match findReq s c id with
  | none => s
  | some q =>
    if q.stage != .done || q.cancel.isSome || !answerHere s c q then s
    else
      let b := badWords q bad
      let p := q.respPoison || !b.isEmpty
      let s' := responseParity (freeReq s c id) c q b
      match q.kind with
      | .load rd n sg => if q.superseded then s' else writeLoadG s' c q rd (extend n sg q.resp) p
      | .loadS sd => if q.superseded then s' else writeLoad s' c q (fun r => r.sSet sd ⟨BitVec.ofNat 1024 q.resp, p⟩)
      | .take rd => latchDone (writeLoadG s' c q rd (word q.resp) p) c q
      | .peek rd => latchDone (writeLoadG s' c q rd (word q.resp) p) c q
      | _ => s

def execLoadResponse (core req : Nat) (bad : List Nat) (s : State) : Out := .next (loadResponse s core req bad)

def storeAck (s : State) (c id : Nat) : State :=
  match findReq s c id with
  | none => s
  | some q =>
    if q.stage != .done || q.cancel.isSome || !answerHere s c q then s
    else match q.kind with
      | .store => freeReq s c id
      | .put => freeReq s c id
      | .clear => freeReq s c id
      | .fill => latchDone (freeReq s c id) c q
      | _ => s

def execStoreAck (core req : Nat) (s : State) : Out := .next (storeAck s core req)

/-- A table walk ends: the entry is loaded, or the thread takes exception 0x04 (07 R268, R269). -/
def walkEnd (s : State) (c t : Nat) : State :=
  match (getThread s c t).walk with
  | none => s
  | some r =>
    let (f, s) := demandWalk s c (r.va / 2 ^ 56) (r.va % 2 ^ 48) r.write (inJob s c t)
    let s := updThread s c t (fun th => { th with walk := none })
    match f with
    | some sub => takeExc s c t ⟨0x04, sub, word r.va⟩
    | none => s

def execTranslationWalk (core thread : Nat) (s : State) : Out :=
  .next (if coreUp s core && thread < 16 then walkEnd s core thread else s)

/-! ## Latch waits that end otherwise (09 R329, R331, R332) -/

/-- A returned request comes again to its latch unit; one whose target has become a hole is refused instead (01 R21). -/
def latchResend (s : State) (c id : Nat) : State :=
  match findReq s c id with
  | none => s
  | some q =>
    if q.stage != .returned || q.cancel.isSome || latchHeld s q.target then s
    else if isHole s q.target then takeExc (freeReq s c id) c q.thread ⟨0x0C, 0x01, holeInfo q.target⟩
    else latchRequest s (q.va / 2 ^ 56 == 1 || q.va / 2 ^ 56 == 3) q.target q.off c q

def execLatchResend (core req : Nat) (s : State) : Out := .next (latchResend s core req)

/-- A pending deferred exception is taken at once. -/
def takeDeferred (s : State) (c t : Nat) : State :=
  match (getThread s c t).deferred with
  | some x => takeExc (updThread s c t (fun th => { th with deferred := none })) c t x
  | none => s

/-- The cancel's answer: the operation completes, or the wait ends for the reason of the cancel. A deferred exception that ends the wait finds
the thread out of it, so XSTAT.STATE holds RUNNING (HELD or HALTED where that is its state then); an exit from a gate or reap wait,
and that of the wait watchdog, saves WAITING. 02 R94 saves TSTAT as it stands at the entry and no rule says which it is (DESIGN
CHOICE, notes/assumptions/74.md). -/
def cancelAnswer (s : State) (c id : Nat) : State :=
  match findReq s c id with
  | none => s
  | some q =>
    match q.cancel with
    | none => s
    | some why =>
      if q.stage = .sent then s
      else if q.stage = .done then updReq s c id (fun q => { q with cancel := none })
      else
        let drop (w : Waiter) : Bool := w.core == c && w.req == id
        let s := setWaiters s q.target ((getCore s q.target).mem.latch.filter (fun w => !drop w))
        let s := freeReq s c id
        match why with
        | .watchdog => takeExc s c q.thread ⟨0x09, 0x10, word q.va⟩
        | .deferred => takeDeferred (wakeThread s c q.thread) c q.thread
        | .stop => updThread (wakeThread s c q.thread) c q.thread (fun th => { th with st := { th.st with state := .running }, fenceHeld := false })
        | .reset => wakeThread s c q.thread

def execLatchCancelAnswer (core req : Nat) (s : State) : Out := .next (cancelAnswer s core req)

/-- The wait watchdog expires. -/
def waitWatchdog (s : State) (c t : Nat) : State :=
  let th := getThread s c t
  if th.st.state != .waiting || th.k.wwdog = 0 || th.deferred.isSome || th.stopReq.isSome then s
  else match th.wait with
    | .latch req => sendCancel s c req .watchdog
    | .gate g _ _ _ =>
      let s := if (getGate s (gateKey (dieOf s.grid c) g)).fabUsed (gateKey (dieOf s.grid c) g) != 0 then fabricGateLost s else s
      takeExc s c t ⟨0x0A, 0x10, word g⟩
    | .reap n _ => takeExc s c t ⟨0x0A, 0x30, word n⟩
    | .none => s

def execWaitWatchdog (core thread : Nat) (s : State) : Out :=
  .next (if coreUp s core && thread < 16 then waitWatchdog s core thread else s)

/-- A pending deferred exception is taken at the next instruction boundary, or ends the thread's wait (02 R98). -/
def deferredException (s : State) (c t : Nat) : State :=
  let th := getThread s c t
  if th.deferred.isNone || th.stopReq.isSome then s
  else match th.st.state with
    | .running => if inSwitch (getCore s c) t then s else takeDeferred s c t
    | .waiting =>
      (match th.wait with
      | .latch req => sendCancel s c req .deferred
      | _ => takeDeferred s c t)
    | _ => s

def execDeferredException (core thread : Nat) (s : State) : Out :=
  .next (if coreUp s core && thread < 16 then deferredException s core thread else s)

end Sys2Proof.Machine
end

