-- ==== Sys2Proof/Machine/Fence.lean ====
section
/-!
DEFINITION. Machine/Fence.lean: the fences (02 R85, R96; 09 R334) and the cache and translation instructions (02 R85, R92).
-/

namespace Sys2Proof.Machine

/-- Space tags a fence covers; none for all of them. -/
def fenceTags (m : Mn) : Option (List Nat) :=
  match m with
  | .fenceL => some [0, 2]
  | .fenceG => some [1, 3]
  | .fenceB => some [4, 6]
  | _ => none

def coveredTag (m : Mn) (tag : Nat) : Bool :=
  match fenceTags m with
  | some l => l.contains tag
  | none => true

/-- An earlier access of the thread that a fence covers has not completed: a request that holds its slot, a tile move, a
convolution's reads, the MEM rows or the record of a TDRAIN. -/
def fencePending (k : Core) (t : Nat) (m : Mn) : Bool :=
  k.reqs.any (fun q => q.thread == t && coveredTag m (q.va / 2 ^ 56)) ||
  k.tile.moves.any (fun x => x.thread == t && coveredTag m (boolN x.gran)) ||
  k.tile.passes.any (fun p => p.thread == t && p.conv.isSome && coveredTag m 0) ||
  k.drain.jobs.any (fun j => j.thread == t &&
    ((tdDst j.word == 1 && coveredTag m (addrTag j.dest)) || (bitOf j.d0 50 && coveredTag m 0)))

def dropGranLines (s : State) (c : Nat) : State := l1Drop s c (fun l => l.space == 1)
def dropBulkLines (s : State) (c : Nat) : State := gcClean (l1Drop s c (fun l => l.space == 4)) c

/-- A fence: nothing issues while an access it covers is outstanding. -/
def fenceBody (c t : Nat) (m : Mn) (effect : State → State) (s : State) : Res :=
  if fencePending (getCore s c) t m then .wait else .done (advance (effect s) c t)

def execFenceL (c t : Nat) (w : Word) (s : State) : Out := issue .fenceL { body := fenceBody c t .fenceL id } c t w s

def execFenceG (c t : Nat) (w : Word) (s : State) : Out :=
  issue .fenceG { body := fenceBody c t .fenceG (fun s => dropGranLines s c) } c t w s

def execFenceB (c t : Nat) (w : Word) (s : State) : Out :=
  issue .fenceB { body := fenceBody c t .fenceB (fun s => dropBulkLines s c) } c t w s

def execFenceA (c t : Nat) (w : Word) (s : State) : Out :=
  issue .fenceA { body := fenceBody c t .fenceA (fun s => dropBulkLines (dropGranLines s c) c) } c t w s

/-! ## CACHE -/

def execCacheInvAll (c t : Nat) (w : Word) (s : State) : Out :=
  issue .cacheAll { body := fun s => .done (advance (l1Drop s c (fun _ => true)) c t) } c t w s

/-- Where the L1 would hold an address: space, owner and offset; a BULK address is looked up in the translation entries, else in the
tables (notes/assumptions/42.md). -/
def l1Place (s : State) (c t : Nat) (a : Word) : Option (Nat × Nat × Nat) × State :=
  match field a 63 56 with
  | 0x01 => (some (1, c, field a 55 0), s)
  | 0x03 => (some (1, aCore a.toNat, a.toNat % 2 ^ 36), s)
  | 0x04 =>
    (match lookup (getCore s c) 4 (field a 47 0) false (inJob s c t) with
    | some e => (some (4, leafSlot e.leaf, leafPa e (field a 47 0)), s)
    | none =>
      match plainWalk s (rootOf (getCore s c) 4) 4 (field a 47 0) with
      | (.leaf l w _, s) =>
        (some (4, leafSlot w, leafPa { space := 4, level := l, vpn := field a 47 0 >>> lvlShift l, leaf := w } (field a 47 0)), s)
      | (_, s) => (none, s))
  | _ => (none, s)

def cacheLineBody (c t : Nat) (w : Word) (s : State) : Res :=
  let th := getThread s c t
  match ({ gIn := [wGa w] } : Uses).poison th with
  | [] =>
    match l1Place s c t (gVal th (wGa w)) with
    | (some (space, owner, off), s) => .done (advance (l1Kill s c space owner off) c t)
    | (none, s) => .done (advance s c t)
  | xs => .raise xs

def execCacheInvLine (c t : Nat) (w : Word) (s : State) : Out :=
  issue .cacheLine { uses := { gIn := [wGa w] }, body := cacheLineBody c t w } c t w s

/-! ## TLBINV -/

/-- Job mode may not issue a keeper instruction (02 R65). -/
def keeperOnly (s : State) (c t : Nat) : Option Nat := if inJob s c t then some 0x01 else none

/-- Drops translation entries; the walker cache, whose entries are translation entries of upper levels, goes with them
(notes/assumptions/42.md). -/
def tlbDrop (s : State) (c : Nat) (p : TlbEntry → Bool) : State :=
  updCore s c (fun k => { k with mem := { k.mem with tlb := k.mem.tlb.filter (fun e => !p e), wcache := [] } })

def execTlbinvAll (c t : Nat) (w : Word) (s : State) : Out :=
  issue .tlbAll { priv := keeperOnly s c t, body := fun s => .done (advance (tlbDrop s c (fun _ => true)) c t) } c t w s

def tlbEntryBody (c t : Nat) (w : Word) (s : State) : Res :=
  let th := getThread s c t
  match ({ gIn := [wGa w] } : Uses).poison th with
  | [] =>
    let a := gVal th (wGa w)
    .done (advance (tlbDrop s c (tlbCovers (field a 63 56) (field a 47 0))) c t)
  | xs => .raise xs

def execTlbinvEntry (c t : Nat) (w : Word) (s : State) : Out :=
  issue .tlbEntry { uses := { gIn := [wGa w] }, priv := keeperOnly s c t, body := tlbEntryBody c t w } c t w s

end Sys2Proof.Machine
end

