-- ==== Sys2Proof/Machine/Grid.lean ====
section
/-!
DEFINITION. Machine/Grid.lean: the fence procedure, the test-time map and the field fences (01 R12–R25).
-/

namespace Sys2Proof.Machine

/-! ## The fence procedure (01 R17–R22) -/

/-- The cores that hold at their next gate generation (01 R17 step 1): those that an enabled gate context names, the fenced one apart. A core
that no gate names, and the fenced one, which takes no work (R25), hold at once (DEDUCED, notes/assumptions/37.md). -/
def gateCores (s : State) (c : Nat) : List Nat :=
  (allCores s).filter (fun x => x != c && s.gates.any (fun p => p.2.en && named p.2.rows p.2.cols x &&
    (match gateDie p.1 with
      | some d => dieOf s.grid x == d
      | none => true)))

/-- The cores that no gate holds later hold now. -/
def holdAll (s : State) (later : List Nat) : State :=
  ((allCores s).filter (fun c => !later.contains c)).foldl holdCore s

/-- Reaps in flight over a group that includes the position (01 R21). -/
def discardReaps (s : State) (c : Nat) : State :=
  (s.reaps.map (·.1)).foldl (fun s key =>
    let r := getReap s key
    if r.en && named r.rows r.cols c && (reapDie key == none || reapDie key == some (dieOf s.grid c)) then
      reapDiscard s key (.hole c) (fun _ => ⟨0x0C, 0x03, holeInfo c⟩)
    else s) s

/-- The agent fences a core; the module quiesces. One procedure runs at a time. -/
def fenceCore (s : State) (c cause : Nat) (readable deadRtr : Bool) : State :=
  if !coreExists s c || isHole s c || s.grid.proc.isSome then s
  else
    let hole := !(skipOf s.grid (furrowOf s.grid c)).2
    let s := { s with grid := { s.grid with
      pos := spSet .active s.grid.pos c .fencing
      proc := some { pos := c, readable := readable, deadRtr := deadRtr, cause := cause, hole := hole, mapWritten := false, running := gateCores s c } } }
    let s := holdAll s (gateCores s c)
    let s := if hole then discardReaps s c else s
    sendEvent s { sev := 3, code := 0x0060, source := srcCore c, arg0 := cause, arg1 := boolN hole }

def execFenceCore (core cause : Nat) (readable deadRtr : Bool) (s : State) : Out := .next (fenceCore s core cause readable deadRtr)

/-- A request of a core that a network carries: it, its answer or its cancel is on the way. -/
def Req.onWay (q : Req) : Bool := q.stage == .sent || (q.stage == .done && q.route != .own) || q.cancel.isSome

/-- The networks carry nothing (01 R17 step 3): no request, answer or cancel, no gate release, no reap result and no reset. -/
def netsDrained (s : State) : Bool :=
  s.resets.isEmpty && s.cores.all (fun p => p.2.reqs.all (fun q => !q.onWay)) &&
    s.gates.all (fun p => !p.2.en || (inScope s (gateDie p.1)).all (fun c => (gateLocal s c (gateNo p.1)).c == p.2.gen)) &&
    s.reaps.all (fun p => p.2.outs.isEmpty)

/-- The logical columns of a furrow that change site when its skip site moves. -/
def movedCols (oldSkip newSkip : Nat) : List Nat :=
  (List.range 24).filter (fun lc => physCol lc oldSkip != physCol lc newSkip)

/-- The core of a furrow at a logical column of its die. -/
def furrowCore (c lc : Nat) : Nat := coreAt (rowOf c) (colOf c / 24 * 24 + lc)

/-- Adds a field fence to the sealed record and applies it to the maps. -/
def recordFence (s : State) (c : Nat) (deadRtr hole : Bool) : State :=
  let fur := furrowOf s.grid c
  let col := siteCol s.grid c
  let site := fur * 25 + col
  { s with grid := { s.grid with
      fences := s.grid.fences ++ [{ furrow := fur, col := col, deadRtr := deadRtr, hole := hole }]
      dead := if deadRtr && !s.grid.dead.contains site then s.grid.dead ++ [site] else s.grid.dead } }

/-- The spare takes over (01 R18, R19). The position stays FENCING until the cores are released (R25, R29). Memories that cannot be read are
zeroed, the lines of the slice's cache part with them. -/
def spareMove (s : State) (p : FenceProc) : State :=
  let c := p.pos
  let fur := furrowOf s.grid c
  let old := (skipOf s.grid fur).1
  let col := siteCol s.grid c
  let s := recordFence s c p.deadRtr false
  let moved := (movedCols old col).map (furrowCore c)
  let s := { s with grid := { s.grid with
    skips := spInsert s.grid.skips fur (col, false)
    pos := (moved.filter (· != c)).foldl (fun m x => if spGet .active m x == .hole then m else spSet .active m x .moved) s.grid.pos } }
  if p.readable then s else updCore s c (fun k => { k with mem := { k.mem with localMem := {}, gran := {}, gcache := [] } })

/-- The position becomes a hole (01 R20): what it held is gone, and waits at its words start again. -/
def makeHole (s : State) (p : FenceProc) : State :=
  let c := p.pos
  let s := forgetCore (recordFence s c p.deadRtr true) c
  setCore { s with grid := { s.grid with pos := spSet .active s.grid.pos c .hole } } c coreReset

def fenceMapWrite (s : State) : State :=
  match s.grid.proc with
  | none => s
  | some p =>
    if p.mapWritten || !coresHold s || !netsDrained s then s
    else
      let s := if p.hole then makeHole s p else spareMove s p
      { s with grid := { s.grid with proc := some { p with mapWritten := true, running := [] } } }

def execFenceMapWrite (s : State) : Out := .next (fenceMapWrite s)

/-- The cores are released (01 R17 step 5); a position that a spare took over is in service again, and its yoke LINKED (R29). -/
def releaseCores (s : State) : State :=
  match s.grid.proc with
  | none => s
  | some p =>
    if !p.mapWritten then s
    else
      let s := { s with grid := { s.grid with
        proc := none, pos := if p.hole then s.grid.pos else spSet .active s.grid.pos p.pos .moved } }
      (allCores s).foldl (fun s c => allThreads.foldl (fun s t =>
        if (getThread s c t).fenceHeld then releaseThread s c t else s) s) s

def execReleaseCores (s : State) : Out := .next (releaseCores s)

/-! ## The test-time map (01 R12–R16) -/

/-- Sites of a furrow that failed test, as physical columns. -/
def badCols (bad : List Nat) (fur : Nat) : List Nat := (bad.filter (fun x => x / 25 == fur)).map (· % 25)

/-- The furrow of a logical row before any fuse, on the die beside: half 0 is C0 and C1, half 1 C2 and C3. -/
def rowFurrows (half r : Nat) : List Nat := [2 * half * 24 + r, (2 * half + 1) * 24 + r]

/-- Rows of a half that must be fused: a furrow with two or more failed sites (01 R13). -/
def mustFuse (bad : List Nat) (half : Nat) : List Nat :=
  (List.range 24).filter (fun r => (rowFurrows half r).any (fun f => 2 ≤ (badCols bad f).length))

/-- Further rows fused to make up a half's count of two: first rows of which a furrow has no spare, then others, lowest first (01 R14). -/
def makeUp (bad : List Nat) (half : Nat) : List Nat :=
  let must := mustFuse bad half
  let rest := (List.range 24).filter (fun r => !must.contains r)
  let noSpare (r : Nat) : Bool := (rowFurrows half r).any (fun f => !(badCols bad f).isEmpty)
  (must ++ rest.filter noSpare ++ rest.filter (fun r => !noSpare r)).take 2

/-- TEST_BAD gives one site. Where two or more of a furrow's sites failed no rule says which (01 R24): the first that the command lists (DESIGN
CHOICE, notes/assumptions/76.md). -/
def testBad (bad : List Nat) (f : Nat) : Nat := (badCols bad f).headD 31

/-- The fuses test blows for a list of failed sites (die × 600 + physical row × 25 + physical column). -/
def testFuses (bad : List Nat) (toKX2112 : Bool) : Sparse FurrowFuse :=
  let must := [mustFuse bad 0, mustFuse bad 1]
  let reject := must.any (fun l => 3 ≤ l.length)
  let fused : List Nat :=
    if reject then List.range 96
    else if must.all (·.isEmpty) && !toKX2112 then []
    else [0, 1].flatMap (fun h => (makeUp bad h).flatMap (rowFurrows h))
  (List.range 96).foldl (fun m f =>
    spSet {} m f { fused := fused.contains f, bad := testBad bad f }) []

/-- Fuses only blow: a field programmed before keeps what it holds. -/
def testMap (s : State) (bad : List Nat) (toKX2112 : Bool) : State :=
  if s.ward.lcrec.getLast?.getD 0 = 1 && s.grid.fuses.isEmpty then
    { s with grid := { s.grid with fuses := testFuses bad toKX2112 } }
  else s

def execTestMapProgram (bad : List Nat) (fuseToKX2112 : Bool) (s : State) : Out := .next (testMap s bad fuseToKX2112)

/-- In TEST or RETURNED at debug level FULL the field fences of the sealed record are cleared, and the map is as at test (01 R23). -/
def fencesClear (s : State) : State :=
  let lc := s.ward.lcrec.getLast?.getD 0
  if (lc = 1 || lc = 4) && s.ward.debug = 3 then
    { s with grid := { s.grid with fences := [], skips := [], pos := [], dead := [], proc := none } }
  else s

def execFieldFenceClear (s : State) : Out := .next (fencesClear s)

/-! ## Area 04 (01 R23–R25) -/

def gradeCode (g : Grid) : Nat := if fusedCount g = 96 then 0xFF else if fusedCount g = 0 then 0 else 1

/-- The logical row that a furrow carries. -/
def furrowRow (g : Grid) (f : Nat) : Nat :=
  let d := f / 24
  ((liveRows g d).takeWhile (fun r => r != f % 24)).length + (if d < 2 then 0 else topRows g)

def furrowWord (s : State) (f : Nat) : Nat :=
  let g := s.grid
  let x := spGet {} g.fuses f
  let sk := skipOf g f
  let row := furrowRow g f
  let holes := if x.fused then 0 else
    ((List.range 24).filter (fun lc => isHole s (coreAt row (f / 24 % 2 * 24 + lc)))).length
  boolN x.fused * 2 ^ 31 + boolN (sk.2 && !x.fused) * 2 ^ 30 + (if x.fused then 0x3F else row) * 2 ^ 24 + sk.1 * 2 ^ 19 +
    x.bad * 2 ^ 14 + holes * 2 ^ 9 + boolN (g.dead.any (fun d => d / 25 == f)) * 2 ^ 8

def CoreFence.codeN : CoreFence → Nat
  | .active => 0
  | .moved => 1
  | .fencing => 2
  | .hole => 3

/-- A byte of the core fence map. YOKE of a position that is itself in FENCING reads LINKED where its partner is in service, after the table of
codes, though its direct link is not usable; 01 R25 and R29 name the partner's field alone (DESIGN CHOICE, notes/assumptions/76.md). -/
def fenceByte (s : State) (c : Nat) : Nat :=
  if !coreExists s c || isHole s c then 2 * 16 + 3
  else boolN (fenceOf s (partner c) == .hole || fenceOf s (partner c) == .fencing) * 16 + (fenceOf s c).codeN

end Sys2Proof.Machine
end

