-- ==== Sys2Proof/Machine/HostBase.lean ====
section
/-!
DEFINITION. Machine/HostBase.lean: functions and their BAR2 window, MSI-X, queues and their completions, aborts and deletions (10 R359–R385), as
the commands of the host ports and of the queue managers use them.
-/

namespace Sys2Proof.Machine

/-! ## Ports and functions -/

def getFn (s : State) (f : Nat) : Fn := spGet {} s.host.fns f
def setFn (s : State) (f : Nat) (v : Fn) : State := { s with host := { s.host with fns := spSet {} s.host.fns f v } }
def updFn (s : State) (f : Nat) (g : Fn → Fn) : State := setFn s f (g (getFn s f))

def fnPort (f : Nat) : Nat := f / 64
def fnNo (f : Nat) : Nat := f % 64

/-- The PF, and as many VFs as the host has set (10 R359). -/
def fnExists (s : State) (f : Nat) : Bool := f < 128 && (fnNo f == 0 || fnNo f ≤ (getPort s (fnPort f)).numVfs)

/-- MSI-X vectors of a function (10 R358). -/
def vecCount (f : Nat) : Nat := if fnNo f = 0 then 2048 else 64

/-- The HG6 strap enables the port (14 R515). -/
def portFitted (s : State) (p : Nat) : Bool :=
  let v := strapVal s 6
  p < 2 && (v == 0 || (v == 1 && p == 0) || (v == 2 && p == 1))

/-- The traffic that an asleep module holds at its ports (14 R495). -/
def asleep (s : State) : Bool := s.power.st == .sleep

/-- A secure stream, by number: 0–7 selective, 8 the link stream. -/
def streamSecure (p : Port) (i : Nat) : Bool := (spGet {} p.streams i).secure && !(spGet {} p.streams i).failed

/-- Whether an inbound request in a stream (or in none) is accepted by a function's doorbells, mailbox and BAR2 (10 R367, R368). -/
def tlpOk (s : State) (f : Nat) (stream : Option Nat) : Bool :=
  let p := getPort s (fnPort f)
  let x := getFn s f
  (match stream with
    | some i => !(spGet {} p.streams i).failed
    | none => true) &&
  (odNum s 0x07 0x40 0 0 == 0 || (match stream with
    | some i => streamSecure p i
    | none => false)) &&
  (x.tdi != 2 || (stream == x.stream && (match stream with
    | some i => i < 8 && streamSecure p i
    | none => false)))

def countDropped (s : State) (p : Nat) : State := updPort s p (fun x => { x with dropped := satAdd 64 x.dropped 1 })

/-! ## MSI-X -/

/-- The function sends no messages: MSI-X off or masked as a whole, or the function in D3hot (notes/assumptions/50.md). -/
def Fn.quiet (x : Fn) : Bool := !x.msixEn || x.msixMask || x.d3hot

/-- The function takes memory requests of its host: it exists, its port's host is there, and it is not in D3hot. -/
def fnHears (s : State) (f : Nat) : Bool := fnExists s f && hostAlive s (fnPort f) && !(getFn s f).d3hot

/-- Signals a vector: the message, or a pending bit where the entry or the function is masked; from D3hot also a PME, where enabled. -/
def raiseMsix (s : State) (f vec : Nat) : State :=
  if vecCount f ≤ vec then s
  else
    let m := spGet {} (getFn s f).msix vec
    if m.mask || (getFn s f).quiet then
      updFn s f (fun x => { x with msix := spSet {} x.msix vec { m with pend := true }, pmeStatus := x.pmeStatus || (x.d3hot && x.pmeEn) })
    else if hostAlive s (fnPort f) then hostBusWrite s (fnPort f) false m.addr (toBytes 4 m.data)
    else s

/-! ## BULK as a function sees it (10 R363, R374) -/

/-- A run cut at multiples of k: (offset from the start, length) of each piece. -/
def cutAt (k : Nat) : Nat → Nat → Nat → Nat → List (Nat × Nat)
  | 0, _, _, _ => []
  | m + 1, a, n, off =>
    if n = 0 then []
    else
      let len := min n (k - a % k)
      (off, len) :: cutAt k m (a + len) (n - len) (off + len)

def pagePieces (a n : Nat) : List (Nat × Nat) := cutAt 0x10000 (n / 0x10000 + 2) a n 0

/-- Why a bulk access of a host port fails: translation or protection, or the page's key slot. -/
inductive BarErr where
  | xlate
  | key
  deriving DecidableEq, Repr

/-- The physical address of a bulk virtual address under a function's root, for pages of a key slot. The walk sets neither A nor D. -/
def barXlate (s : State) (f slot va : Nat) (write : Bool) : (BarErr ⊕ Nat) × State :=
  if 2 ^ 48 ≤ va then (.inl .xlate, s)
  else match plainWalk s (getFn s f).root 4 va with
  | (.leaf l w _, s) =>
    if bitOf w 3 || leafSH w || (write && !bitOf w 2) then (.inl .xlate, s)
    else if leafSlot w != slot || !slotHasKey s slot then (.inl .key, s)
    else (.inr (leafAddr w + va % 2 ^ lvlShift l), s)
  | (_, s) => (.inl .xlate, s)

/-- Checks every page of an extent. -/
def barCheck (s : State) (f slot va n : Nat) (write : Bool) : Option BarErr × State :=
  (pagePieces va n).foldl (fun x d =>
    match x.1 with
    | some _ => x
    | none =>
      match barXlate x.2 f slot (va + d.1) write with
      | (.inl e, s) => (some e, s)
      | (.inr _, s) => (none, s)) (none, s)

/-- Reads an extent that has been checked, from the bulk controllers. -/
def barRead (s : State) (f slot va n : Nat) : Got :=
  (pagePieces va n).foldl (fun g d =>
    match barXlate g.st f slot (va + d.1) false with
    | (.inr pa, s) => let r := bulkRead s pa d.2; ⟨g.data ++ r.data, g.pois ++ r.pois, r.st⟩
    | (.inl _, s) => ⟨g.data ++ List.replicate d.2 0, g.pois ++ List.replicate (wordSpan (va + d.1) d.2) true, s⟩) ⟨[], [], s⟩

/-- Writes an extent that has been checked; pois has one bit for each word it touches. -/
def barWrite (s : State) (f slot va : Nat) (bs : List Byte) (pois : List Bool) : State :=
  ((pagePieces va bs.length).foldl (fun (x : State × List Bool) d =>
    let n := wordSpan (va + d.1) d.2
    match barXlate x.1 f slot (va + d.1) true with
    | (.inr pa, s) => (writeRun bulkWrite pa ((bs.drop d.1).take d.2) (x.2.take n) s, x.2.drop n)
    | (.inl _, s) => (s, x.2.drop n)) (s, pois)).1

/-- The bulk virtual address of a command field: with or without the tag of the BULK space. -/
def fieldVa (a : Nat) : Nat := if a / 2 ^ 56 = 4 then a % 2 ^ 56 else a

/-! ## Queues -/

def getQueue (s : State) (g : Nat) : Option Queue := (s.host.queues.find? (fun p => p.1 == g)).map (·.2)

def setQueue (s : State) (g : Nat) (q : Queue) : State :=
  { s with host := { s.host with queues := s.host.queues.map (fun p => if p.1 == g then (g, q) else p) } }

def updQueue (s : State) (g : Nat) (f : Queue → Queue) : State :=
  match getQueue s g with
  | some q => setQueue s g (f q)
  | none => s

def addQueue (s : State) (g : Nat) (q : Queue) : State := { s with host := { s.host with queues := s.host.queues ++ [(g, q)] } }

def dropQueue (s : State) (g : Nat) : State :=
  { s with host := { s.host with queues := s.host.queues.filter (fun p => p.1 != g) } }

/-- The queue of a function at an index; an orphaned queue is at none. -/
def findQueue (s : State) (f idx : Nat) : Option Nat :=
  (s.host.queues.find? (fun p => p.2.fn == f && p.2.idx == idx && p.2.st != .orphaned)).map (·.1)

/-- The die whose queue manager runs a queue. -/
def queueDie (g : Nat) : Nat := g / 8192

/-- Every control core of a die has failed (10 R357). -/
def dieLost (s : State) (d : Nat) : Bool := (List.range 4).all (fun i => s.host.ccFailed.contains (4 * d + i))

def getCmd (q : Queue) (no : Nat) : Option Cmd := q.cmds.find? (fun c => c.no == no)

def alterCmd (q : Queue) (no : Nat) (f : Cmd → Cmd) : Queue := { q with cmds := q.cmds.map (fun c => if c.no == no then f c else c) }

def Cmd.opc (c : Cmd) : Nat := c.words.headD 0 % 256
def Cmd.word (c : Cmd) (i : Nat) : Nat := c.words.getD i 0

/-- Its status is not yet fixed in the in-flight table. -/
def Cmd.open_ (c : Cmd) : Bool :=
  match c.st with
  | .committed _ _ => false
  | .written _ => false
  | _ => true

def Queue.inFlight (q : Queue) : Nat := (q.cmds.filter Cmd.open_).length

/-- Slots of the completion ring that the host has not consumed. -/
def Queue.unread (q : Queue) : Nat := (q.cmds.filter (fun c => match c.st with
  | .written _ => true
  | _ => false)).length

/-- Some command of the module with a number is still open. -/
def cmdOpen (s : State) (no : Nat) : Bool := s.host.queues.any (fun p => p.2.cmds.any (fun c => c.no == no && c.open_))

def queueDeleting (s : State) (g : Nat) : Bool := match getQueue s g with
  | some q => q.deleting.isSome
  | none => false

/-- The completion entry of a command (10 R375). -/
def completionEntry (q : Queue) (c : Cmd) : List Byte :=
  match c.st with
  | .committed st r =>
    toBytes 8 r ++ toBytes 8 (st * 2 ^ 48 + boolN q.phase * 2 ^ 32 + q.head % 2 ^ 16 * 2 ^ 16 + c.cid)
  | _ => []

/-- A queue enters ERROR (10 R380): QERR, the admin vector, an event. Causes: 0 a doorbell beyond the ring, 1 a failed fetch, 2 a dropped
completion (notes/assumptions/46.md). -/
def queueError (s : State) (g cause : Nat) : State :=
  match getQueue s g with
  | none => s
  | some q =>
    if q.st != .active then s
    else
      let s := updFn (setQueue s g { q with st := .error }) q.fn (fun f => { f with qerr := true })
      let s := raiseMsix s q.fn (getFn s q.fn).aqVec
      sendEvent s { sev := 2, code := 0x0040, source := srcUnit 1 (queueDie g), arg0 := g, arg1 := cause }

/-- The oldest committed completion goes to the next slot of the ring, if one is free. -/
def writeNext (s : State) (g : Nat) (dropped : Bool) : State :=
  match getQueue s g with
  | none => s
  | some q =>
    match q.order with
    | [] => s
    | no :: rest =>
      let n := 2 ^ q.logcq
      if q.st = .orphaned || !hostAlive s (fnPort q.fn) || (getFn s q.fn).d3hot || n ≤ q.unread then s
      else match getCmd q no with
      | none => setQueue s g { q with order := rest }
      | some c =>
        let s := if dropped then s else hostBusWrite s (fnPort q.fn) false (q.cqb + 16 * q.cqt) (completionEntry q c)
        let q := alterCmd { q with
          order := rest
          cqt := (q.cqt + 1) % n
          phase := if q.cqt + 1 = n then !q.phase else q.phase
          unsig := q.unsig + 1 } no (fun c => { c with st := .written q.cqt })
        let s := setQueue s g q
        if dropped then queueError s g 2 else s

/-- Writes completions while the ring takes them; the first argument bounds their number. -/
def writeAll (g : Nat) : Nat → State → State
  | 0, s => s
  | k + 1, s => writeAll g k (writeNext s g false)

/-- Destroys the keys of a slot (13 R458). -/
def retireSlot (s : State) (n : Nat) : State :=
  let k := getSlot s n
  if n != 0 && (k.st == .allocated || k.st == .installed) then setSlot s n { st := .retired } else s

/-- The slot of a TDI that has left CONFIG_LOCKED or RUN is retired once the function has no queue (13 R462). -/
def settleTdi (s : State) (f : Nat) : State :=
  match (getFn s f).retireDue with
  | some n => if s.host.queues.any (fun p => p.2.fn == f) then s else retireSlot (updFn s f (fun x => { x with retireDue := none })) n
  | none => s

/-- A queue whose deletion has been asked for and which has no open command is freed; the entries that fit are written first. -/
def finishDelete (s : State) (g : Nat) : State :=
  match getQueue s g with
  | none => s
  | some q => if q.deleting.isSome && q.inFlight == 0 then settleTdi (dropQueue (writeAll g q.order.length s) g) q.fn
    else s

/-- Fixes a command's status in the in-flight table. -/
def commitCmd (s : State) (g no status result : Nat) : State :=
  finishDelete (updQueue s g (fun q => { alterCmd q no (fun c => { c with st := .committed status result }) with order := q.order ++ [no] })) g

/-- An orphaned queue holds at most 64 committed completions (10 R384). -/
def mayCommit (q : Queue) : Bool := q.st != .orphaned || q.order.length < 64

/-- A command's work is over. -/
def cmdEnds (s : State) (g no status result : Nat) : State := updQueue s g (fun q => alterCmd q no (fun c => { c with st := .ended status result }))

/-- The cores of a LAUNCH's rectangle (10 R374). -/
def rectCores (c : Cmd) : List Nat :=
  let w := c.word 4
  (List.range 2304).filter (fun k => fieldN w 29 24 ≤ rowOf k && rowOf k ≤ fieldN w 23 18 && fieldN w 17 12 ≤ colOf k && colOf k ≤ fieldN w 11 6)

/-- A thread of the job: in job mode, or in keeper mode on its behalf. -/
def jobThread (t : Thread) : Bool := t.st.state != .stopped && (!t.st.pm || t.st.xact)

/-- Deferred exception 0x0E to every thread that a LAUNCH started (10 R382). -/
def abortJob (s : State) (g sub : Nat) (c : Cmd) : State :=
  (rectCores c).foldl (fun s k => allThreads.foldl (fun s t =>
    if coreExists s k && jobThread (getThread s k t) then deliverDeferred s k t ⟨0x0E, sub, word g⟩ else s) s) s

/-- The destination of an aborted SEAL_IN is overwritten with poison, as on a tag failure. -/
def poisonDest (s : State) (q : Queue) (c : Cmd) : State :=
  let va := fieldVa (c.word 2)
  let n := c.word 3 % 2 ^ 32
  match barCheck s q.fn q.key va n true with
  | (none, s) => barWrite s q.fn q.key va (List.replicate n 0) (List.replicate (wordSpan va n) true)
  | (some _, s) => s

/-- What an abort finds (10 R381). -/
inductive AbortFinds where
  | nothing
  | done
  | latched
  deriving DecidableEq, Repr

/-- A command whose work, once done, no latch can reach (10 R382, "Others"). -/
def Cmd.past (c : Cmd) : Bool :=
  match c.st with
  | .ended _ _ => !([0x10, 0x11, 0x12, 0x13, 0x20, 0x22].contains c.opc)
  | _ => !c.open_

/-- An abort, with the sub-code for a LAUNCH's threads, is latched against a command (10 R381, R382). -/
def abortCmd (s : State) (g : Nat) (c : Cmd) (sub : Nat) : AbortFinds × State :=
  if c.open_ && c.aborted then (.nothing, s)
  else if c.past then (.done, s)
  else
    match getQueue s g with
    | none => (.nothing, s)
    | some q =>
      let mark (s : State) : State := updQueue s g (fun q => alterCmd q c.no (fun c => { c with aborted := true }))
      if c.opc = 0x20 && c.st = .running then (.latched, abortJob (mark s) g sub c)
      else
        let touched := c.st != .fetched
        let s := if c.opc = 0x12 && touched then poisonDest s q c else s
        (.latched, cmdEnds (mark s) g c.no 4 (if c.opc = 0x10 || c.opc = 0x11 || c.opc = 0x13 then c.moved else 0))

/-- Commits a command that has ended, in a deletion: what has not been aborted keeps its own status. -/
def commitEnded (s : State) (g : Nat) (c : Cmd) : State :=
  match (getQueue s g).bind (fun q => getCmd q c.no) with
  | some c => (match c.st with
    | .ended st r => updQueue s g (fun q => { alterCmd q c.no (fun c => { c with st := .committed st r }) with order := q.order ++ [c.no] })
    | _ => s)
  | none => s

/-- DELETE_QUEUE: aborts the commands in flight, discards those not fetched, and frees the queue; while a LAUNCH of it still runs, the
queue lasts until the runtime has ended the job (10 R373, R382). -/
def deleteQueue (s : State) (g sub : Nat) : State :=
  match getQueue s g with
  | none => s
  | some q =>
    let s := setQueue s g { q with deleting := some sub, sqt := q.head }
    let s := q.cmds.foldl (fun s c => commitEnded (abortCmd s g c sub).2 g c) s
    finishDelete s g

/-- Deletes every queue of a function that is not orphaned. -/
def deleteFnQueues (s : State) (f sub : Nat) : State :=
  (s.host.queues.filter (fun p => p.2.fn == f && p.2.st != .orphaned)).foldl (fun s p => deleteQueue s p.1 sub) s

/-! ## TDIs (10 R368) -/

/-- A TDI leaves CONFIG_LOCKED or RUN: its slot is due to be retired. -/
def leaveTdi (s : State) (f to_ : Nat) : State :=
  let x := getFn s f
  settleTdi (setFn s f { x with
    tdi := to_
    stream := if to_ = 0 then none else x.stream
    retireDue := if x.tdi = 1 || x.tdi = 2 then some x.fkey else x.retireDue }) f

/-- A TDI in CONFIG_LOCKED or RUN enters ERROR. -/
def tdiError (s : State) (f : Nat) : State := if (getFn s f).tdi = 1 || (getFn s f).tdi = 2 then leaveTdi s f 3 else s

/-- Configuration of the function is frozen. -/
def tdiFrozen (s : State) (f : Nat) : Bool := (getFn s f).tdi == 1 || (getFn s f).tdi == 2

end Sys2Proof.Machine
end

