-- ==== Sys2Proof/Machine/HostCmds.lean ====
section
/-!
DEFINITION. Machine/HostCmds.lean: what happens at the host ports: doorbells, admin queues, BAR2, function resets, loss of a host, IDE and
TDISP (10 R357–R371, R383, R384).
-/

namespace Sys2Proof.Machine

/-! ## Doorbells (10 R371, R380) -/

/-- The host has consumed the completion slots from its old head up to a new one. -/
def Queue.consume (q : Queue) (v : Nat) : Queue :=
  let n := 2 ^ q.logcq
  { q with
    cqh := v
    cmds := q.cmds.filter (fun c => match c.st with
      | .written k => !((k + n - q.cqh) % n < (v + n - q.cqh) % n)
      | _ => true) }

/-- A doorbell write of a function: a value that names no entry of the ring puts the queue in ERROR. -/
def doorbell (s : State) (f idx : Nat) (cq : Bool) (v : Nat) : State :=
  match findQueue s f idx with
  | none => updFn s f (fun x => { x with bellsDropped := satAdd 64 x.bellsDropped 1 })
  | some g =>
    match getQueue s g with
    | none => s
    | some q =>
      if 2 ^ (if cq then q.logcq else q.logsq) ≤ v then queueError s g 0
      else if cq then setQueue s g (q.consume v)
      else if q.deleting.isSome then s
      else setQueue s g { q with sqt := v }

/-- An inbound posted write to BAR0 that is accepted: at once, or held while the module sleeps (14 R495). -/
def inbound (s : State) (f off size v : Nat) (act : State → State) : State :=
  if !fnHears s f then s
  else if asleep s then wakeSleep { s with host := { s.host with held := s.host.held ++ [.bar0 f off size v] } }
  else act s

/-- A write in a stream that the function does not accept is dropped (10 R367). -/
def gated (s : State) (f : Nat) (stream : Option Nat) (act : State → State) : State :=
  if !fnHears s f then s
  else if tlpOk s f stream then act s
  else countDropped s (fnPort f)

/-- A doorbell as a TLP: one with EP set is discarded (10 R366). -/
def bellTlp (s : State) (f idx v : Nat) (cq : Bool) (stream : Option Nat) (ep : Bool) : State :=
  gated s f stream (fun s =>
    if ep || 2048 ≤ idx then s
    else inbound s f (0x8000 + 16 * idx + (if cq then 8 else 0)) 8 v (fun s => doorbell s f idx cq v))

def execSqDoorbell (fn idx value : Nat) (stream : Option Nat) (ep : Bool) (s : State) : Out := .next (bellTlp s fn idx value false stream ep)
def execCqDoorbell (fn idx value : Nat) (stream : Option Nat) (ep : Bool) (s : State) : Out := .next (bellTlp s fn idx value true stream ep)

/-! ## Admin queues (10 R362) -/

/-- Global queue IDs of a die that are free. -/
def freeIds (s : State) (d : Nat) : List Nat := ((List.range 8192).map (fun i => 8192 * d + i)).filter (fun g => (getQueue s g).isNone)

/-- One of some numbers: which, no rule says. -/
def pickOne (s : State) (l : List Nat) : Option (Nat × State) :=
  match l with
  | [] => none
  | a :: _ => let (n, s) := drawFree s; some (l.getD (n % l.length) a, s)

/-- The function's admin queue starts, on its port's die, where the settings are good. -/
def adminStart (s : State) (f : Nat) : State :=
  let x := getFn s f
  if x.aqLog < 2 || 12 < x.aqLog || x.asqb.toNat % 4096 != 0 || x.acqb.toNat % 4096 != 0 || vecCount f ≤ x.aqVec || (findQueue s f 0).isSome then s
  else match pickOne s (freeIds s (fnPort f)) with
  | none => s
  | some (g, s) =>
    addQueue s g { fn := f, idx := 0, sqb := x.asqb.toNat, cqb := x.acqb.toNat, logsq := x.aqLog, logcq := x.aqLog, vec := x.aqVec, key := x.fkey }

/-- Clearing EN deletes every queue of the function. -/
def adminStop (s : State) (f : Nat) : State := deleteFnQueues (updFn s f (fun x => { x with aqEn := false })) f 2

/-- AQCFG as a word (10 R362). -/
def aqcfgWord (x : Fn) : Nat := x.aqVec * 2 ^ 16 + x.aqLog * 2 ^ 12 + boolN x.aqEn

/-- A write of AQCFG. A locked TDI's queues are frozen: a write that would make or delete them is refused (10 R368). -/
def aqcfgWrite (s : State) (f : Nat) (v : Nat) : State :=
  let on := (getFn s f).aqEn
  let set (s : State) : State := updFn s f (fun x => { x with aqVec := fieldN v 27 16, aqLog := fieldN v 15 12, aqEn := v.testBit 0 })
  if on && v.testBit 0 then s
  else if (on || v.testBit 0) && tdiFrozen s f then tdiError s f
  else if on then adminStop (set s) f
  else if v.testBit 0 then adminStart (set s) f
  else set s

def execAdminQueueEnable (fn : Nat) (v : Word) (s : State) : Out :=
  .next (if fnExists s fn && bitOf v 0 && !(getFn s fn).aqEn
    then inbound s fn 0x1000 8 v.toNat (fun s => aqcfgWrite s fn v.toNat) else s)

def execAdminQueueDisable (fn : Nat) (s : State) : Out :=
  .next (if fnExists s fn && (getFn s fn).aqEn then inbound s fn 0x1000 8 (aqcfgWord (getFn s fn) - 1) (fun s => aqcfgWrite s fn (aqcfgWord (getFn s fn) - 1)) else s)

/-! ## BAR2 (10 R360, R363, R366) -/

/-- The default size exponent of BAR2 and the object's value (10 R386). -/
def barDefault (f : Nat) : Nat := if fnNo f = 0 then 34 else 0
def barObject (s : State) (f : Nat) : Nat := odNum s 0x07 0x20 (fnNo f) (barDefault f)

/-- Bytes of BAR2 in force. -/
def barSize (s : State) (f : Nat) : Nat :=
  let e := (getFn s f).bar2.getD (barDefault f)
  if e = 0 then 0 else 2 ^ e

/-- A request that fails the tests of R363 is logged as non-fatal and counted. -/
def barRefuse (s : State) (f : Nat) : State :=
  updPort (updFn s f (fun x => { x with bar2Refused := satAdd 64 x.bar2Refused 1 })) (fnPort f) (fun p => { p with aer := satAdd 64 p.aer 1 })

def answer (s : State) (f : Nat) (r : Option (List Byte)) : State := updPort s (fnPort f) (fun p => { p with rsp := r })

/-- A read: its data, poisoned words as zero in a completion with EP set, or Unsupported Request. -/
def bar2Get (s : State) (f off n : Nat) : State :=
  if barSize s f < off + n || 4096 < n then answer s f none
  else match barCheck s f (getFn s f).fkey off n false with
  | (some _, s) => answer (barRefuse s f) f none
  | (none, s) =>
    let g := barRead s f (getFn s f).fkey off n
    answer g.st f (some ((g.data.zip (List.range n)).map (fun x =>
      if g.pois.getD ((off % 8 + x.2) / 8) false then 0 else x.1)))

def bar2Put (s : State) (f off : Nat) (bs : List Byte) (ep : Bool) : State :=
  if barSize s f < off + bs.length then s
  else match barCheck s f (getFn s f).fkey off bs.length true with
  | (some _, s) => barRefuse s f
  | (none, s) => barWrite s f (getFn s f).fkey off bs (List.replicate (wordSpan off bs.length) ep)

def execBar2Read (fn off len : Nat) (stream : Option Nat) (s : State) : Out :=
  .next (gated s fn stream (fun s => if asleep s then wakeSleep s else bar2Get s fn off len))

def execBar2Write (fn off : Nat) (data : List Byte) (stream : Option Nat) (ep : Bool) (s : State) : Out :=
  .next (gated s fn stream (fun s =>
    if asleep s then wakeSleep { s with host := { s.host with held := s.host.held ++ [.bar2 fn off data ep] } }
    else bar2Put s fn off data ep))

/-! ## Function resets (10 R369, 15 R534) -/

/-- The operation of a mailbox in progress ends, its staging is discarded. -/
def dropStaging (s : State) (path : Nat) : State := { s with od := { s.od with staging := s.od.staging.filter (fun x => x.path != path) } }

/-- The size that takes effect at a function-level reset. -/
def barInForce (s : State) (f : Nat) : Option Nat := if barObject s f = barDefault f then none else some (barObject s f)

/-- Configuration space as a reset leaves it. -/
def Fn.cfgReset (x : Fn) : Fn := { x with d3hot := false, pmeEn := false, pmeStatus := false, msixEn := false, msixMask := false }

def fnReset (s : State) (f : Nat) : State :=
  let s := deleteFnQueues (tdiError s f) f 3
  dropStaging (updFn s f (fun x => { x.cfgReset with aqEn := false, msix := [], mbox := {}, bar2 := barInForce s f })) f

/-- An FLR of a function (0), the clearing of its port's VF Enable (1), D3cold of its port (2). -/
def functionReset (s : State) (f kind : Nat) : State :=
  let p := fnPort f
  let vfs := (List.range (getPort s p).numVfs).map (fun i => 64 * p + i + 1)
  match kind with
  | 0 => fnReset s f
  | 1 => updPort (vfs.foldl fnReset s) p (fun x => { x with numVfs := 0 })
  | _ => (64 * p :: vfs).foldl fnReset s

def execFunctionReset (fn kind : Nat) (s : State) : Out :=
  .next (if fnExists s fn && kind < 3 && clusterUp s then functionReset s fn kind else s)

/-! ## Loss of a host (10 R383, R384; 14 R511) -/

/-- Each queue of the lost port is orphaned or deleted. -/
def loseQueue (s : State) (g : Nat) : State :=
  match getQueue s g with
  | none => s
  | some q =>
    if q.idx != 0 && q.rhkey != 0 && q.deleting.isNone then
      setQueue s g { q with
        st := .orphaned
        wasTdi := tdiFrozen s q.fn
        unsig := 0
        cmds := (q.cmds.filter (fun c => match c.st with
          | .written _ => false
          | _ => true)).map (fun c => { c with hostLost := true }) }
    else deleteQueue s g 2

def portQueues (s : State) (p : Nat) : List Nat :=
  (s.host.queues.filter (fun x => fnPort x.2.fn == p && x.2.st != .orphaned)).map (·.1)

/-- Orphaned queues of a port. -/
def orphans (s : State) (p : Nat) : Nat := (s.host.queues.filter (fun x => fnPort x.2.fn == p && x.2.st == .orphaned)).length

def hostLost (s : State) (p : Nat) : State :=
  if !hostAlive s p then s
  else
    let s := updPort s p (fun x => { x with up := false, lost := true, width := 0, rate := 0, flit := false })
    let before := orphans s p
    let s := (portQueues s p).foldl loseQueue s
    let s := ((List.range 64).map (fun i => 64 * p + i)).foldl tdiError s
    interrupt (sendEvent s { sev := 3, code := 0x0041, source := srcUnit 4 p, arg0 := p, arg1 := orphans s p - before }) (.hostLost p)

def execHostLost (port : Nat) (s : State) : Out := .next (if port < 2 then hostLost s port else s)

/-- The hold time of an orphaned queue has passed. -/
def execOrphanTimeout (queue : Nat) (s : State) : Out :=
  .next (match getQueue s queue with
    | some q => if q.st = .orphaned then deleteQueue (setQueue s queue { q with order := [] }) queue 2 else s
    | none => s)

/-- The endpoint of a port is reset: what the host has set in it is gone, the runtime's settings stay. -/
def endpointReset (s : State) (p : Nat) : State :=
  let s := ((List.range 64).map (fun i => 64 * p + i)).foldl (fun s f =>
    dropStaging (updFn s f (fun x =>
      { x.cfgReset with aqEn := false, aqLog := 0, aqVec := 0, asqb := 0, acqb := 0, qerr := false, msix := [], mbox := {}, bar2 := barInForce s f })) f) s
  updPort s p (fun x => { x with up := false, width := 0, rate := 0, flit := false, numVfs := 0, streams := [] })

def execPerst (port : Nat) (s : State) : Out := .next (if port < 2 then endpointReset (hostLost s port) port else s)

/-! ## Links, IDE and TDISP (10 R361, R367, R368) -/

/-- The PHY of an enabled port runs: not while its link is taken down by the module's power state (14 R494). -/
def portLinks (s : State) (p : Nat) : Bool := portFitted s p && clusterUp s

def linkUp (s : State) (p width rate : Nat) (flit : Bool) : State :=
  if !(portLinks s p && [1, 2, 4, 8].contains width && 1 ≤ rate && rate ≤ 6 && (flit || rate != 6)) then s
  else updPort s p (fun x =>
    { x with up := true, lost := false, width := width, rate := rate, flit := flit
             retrains := if x.up then satAdd 64 x.retrains 1 else x.retrains })

def execPcieLinkUp (port width rate : Nat) (flit : Bool) (s : State) : Out := .next (linkUp s port width rate flit)

def execPcieL1Exit (port : Nat) (s : State) : Out := .next (if port < 2 && hostAlive s port then wakeSleep s else s)

/-- A stream fails an integrity check and becomes insecure; a TDI bound to it enters ERROR. -/
def ideFail (s : State) (p i : Nat) : State :=
  let s := updPort s p (fun x => { x with
    streams := spUpd {} x.streams i (fun y => { y with secure := false, failed := true })
    ideFails := satAdd 64 x.ideFails 1 })
  ((List.range 64).map (fun k => 64 * p + k)).foldl (fun s f => if (getFn s f).stream = some i then tdiError s f else s) s

def execIdeIntegrityFail (port stream : Nat) (s : State) : Out :=
  .next (if port < 2 && stream < 9 && streamSecure (getPort s port) stream then ideFail s port stream else s)

/-- New keys of a stream. -/
def execIdeKeyProgram (port stream : Nat) (s : State) : Out :=
  .next (if port < 2 && stream < 9 && hostAlive s port && !s.ward.entropyBad then
    (let (k, s) := drawFree s
     updPort s port (fun x => { x with streams := spSet {} x.streams stream { secure := true, failed := false, key := some k } }))
   else s)

/-- The function is a TDI: a VF. -/
def isTdi (s : State) (f : Nat) : Bool := fnExists s f && fnNo f != 0 && hostAlive s (fnPort f)

/-- CONFIG_UNLOCKED to CONFIG_LOCKED, with the selective stream that the lock binds. -/
def execLockInterfaceRequest (fn stream : Nat) (s : State) : Out :=
  .next (if isTdi s fn && (getFn s fn).tdi == 0 && stream < 8 then updFn s fn (fun x => { x with tdi := 1, stream := some stream }) else s)

def execStartInterfaceRequest (fn : Nat) (s : State) : Out :=
  .next (if isTdi s fn && (getFn s fn).tdi == 1 then updFn s fn (fun x => { x with tdi := 2 }) else s)

/-- To CONFIG_UNLOCKED from any state; the VF's queues are deleted as FLR does. -/
def execStopInterfaceRequest (fn : Nat) (s : State) : Out :=
  .next (if isTdi s fn then leaveTdi (deleteFnQueues s fn 3) fn 0 else s)

def slotCode (s : State) (n : Nat) : Nat :=
  match (getSlot s n).st with
  | .free => 0
  | .allocated => 1
  | .installed => 2
  | .retired => 3

/-- The VF's ranges (sizes of BAR0, BAR2 and the MSI-X table), FKEY, the slot's state and the digest of its N_INST (13 R462). -/
def execGetDeviceInterfaceReport (fn : Nat) (s : State) : Out :=
  .next (if isTdi s fn then
    (let x := getFn s fn
     { s with ward := { s.ward with reply := some (if s.ward.entropyBad then .error
        else .report 0x10000 (barSize s fn) 0x400 x.fkey (slotCode s x.fkey) (Config.shake256 32 (toBytes 32 (getSlot s x.fkey).ninst))) } })
   else s)

end Sys2Proof.Machine
end

