-- ==== Sys2Proof/Machine/Reset.lean ====
section
/-!
DEFINITION. Machine/Reset.lean: resets, straps and the loss of input power (14 R509–R519, 13 R471, R472).
-/

namespace Sys2Proof.Machine

/-! ## Straps (14 R513–R515) -/

/-- The value of a pin from its three samples, D × 4 + U × 2 + L; none for a combination that no resistor gives. -/
def strapOf (x : Nat) : Option Nat :=
  match x % 8 with
  | 0 => some 0
  | 2 => some 1
  | 6 => some 2
  | 7 => some 3
  | _ => none

/-- Samples every pin; one that reads wrong has value 0 and writes an entry. -/
def sampleStraps (s : State) : State :=
  (List.range 24).foldl (fun s n =>
    let x := spGet 0 s.power.pins n % 8
    let s := { s with power := { s.power with straps := spSet 0 s.power.straps n ((strapOf x).getD 0) } }
    if (strapOf x).isSome then s
    else sendEvent s { sev := 2, code := 0x0073, source := srcUnit 7 0, arg0 := n, arg1 := x }) s

def setPins (s : State) (samples : List Nat) : State :=
  { s with power := { s.power with pins := ((List.range 24).zip samples).foldl (fun m x => spSet 0 m x.1 (x.2 % 8)) [] } }

/-! ## Cold reset (14 R509, R510) -/

/-- The debug level of a cold boot (13 R472). -/
def bootDebug (lc : Nat) : Nat := if lc = 0 || lc = 1 then 3 else 0

/-- The identity indices of a block whose place the key store has lost are never used (13 R463). -/
def loseIndex (s : State) : State := { s with ward := { s.ward with nextIdx := 1024 * s.ward.xidx } }

/-- BAR2 sizes as the object dictionary holds them (10 R386). -/
def bootFns (s : State) : State :=
  (List.range 128).foldl (fun s f =>
    match barInForce s f with
    | some e => updFn s f (fun x => { x with bar2 := some e })
    | none => s) s

/-- What the object dictionary holds for the next cold reset takes effect: TotalVFs, BAR2 sizes, the checkpoint region, whose change empties
both regions of flash (13 R470). -/
def bootObjects (s : State) : State :=
  let n := odNum s 0x05 0x41 0 4608000000000
  let s := if n = s.mstats.ckptBytes then s
    else { s with flash := {}, resil := { s.resil with ckpts := [], sealedStep := 0 }, mstats := { s.mstats with ckptBytes := n } }
  bootFns { s with host := { s.host with totalVfs := odNum s 0x07 1 0 63 } }

/-- OD 0B.0000 keeps its value over resets and applies again (15 R527, R549). -/
def bootFreeze (s : State) : State :=
  if odNum s 0x0B 0 0 0 = 1 then
    ((allCores s).filter (fun c => !isHole s c)).foldl (fun s c => updCore s c (fun k => { k with stall := { k.stall with frozen := true } }))
      { s with od := { s.od with stallFrozen := true } }
  else s

/-- A cold boot, to READY: the ring goes to the black box if it still has to, and is cleared; the straps are sampled; everything else starts
again but OTP, flash and the sealed record. -/
def coldBoot (s : State) : State :=
  let s := { s with power := { s.power with st := .run, tripped := false } }
  let s := match s.recorder.copyDue with
    | some c => blackCopy s c
    | none => s
  let s := loseVolatile s
  let s := { s with
    flash := {}
    power := { ({} : Power) with pins := s.power.pins, straps := s.power.straps, brake := s.power.brake, throttled := s.power.brake }
    recorder := { ({} : Recorder) with
      black := s.recorder.black, seq := s.recorder.seq, time := s.recorder.time, acked := s.recorder.acked
      boot := (s.recorder.boot + 1) % 2 ^ 16 }
    ward := { s.ward with debug := bootDebug (lifeCycle s), lowered := none, tokenResult := 0, entropyBad := false }
    fw := { s.fw with status := 0 } }
  bootFreeze (dvfsAll (bootObjects (sampleStraps (loseIndex s))))

/-- Input power is present. -/
def coldReset (s : State) : State := if s.power.powered then coldBoot s else s

/-- A cold reset, with what the pins give at its sampling. -/
def execColdReset (samples : List Nat) (s : State) : Out := .next (if s.power.powered then coldBoot (setPins s samples) else s)

/-- MRESET_N falls and rises again. -/
def execMreset (samples : List Nat) (s : State) : Out := .next (if s.power.powered then coldReset (setPins s samples) else s)

/-! ## Power-on and loss of input power (14 R515, R519) -/

/-- Every pin is in ABSENT. -/
def allAbsent : Sparse Nat := (List.range 24).foldl (fun m n => spSet 3 m n 1) []

/-- Only OTP, flash and the sealed record outlive a loss of input power. -/
def losePower (s : State) : State :=
  let s := loseIndex (loseVolatile s)
  { s with
    power := { ({} : Power) with st := .off, powered := false, pins := s.power.pins, phases := allAbsent }
    recorder := { ({} : Recorder) with black := s.recorder.black, acked := s.recorder.acked }
    fw := { s.fw with armed := none, status := 0 } }

/-- J1 reaches 42 V with PWRGD_IN high: the module boots, or stays in OFF until WAKE where HG3 says so. -/
def powerOn (s : State) (samples : List Nat) : State :=
  let s := setPins { losePower s with power := { (losePower s).power with powered := true } } samples
  if (samples.getD 3 0) % 8 = 2 then
    { sampleStraps s with power := { (sampleStraps s).power with st := .off, phases := allAbsent } }
  else
    let s := coldBoot s
    { s with recorder := { s.recorder with boot := 0 } }

/-- Where VIN never fell, PWRGD_IN rising again starts a cold boot (14 R510). -/
def execPowerOnReset (samples : List Nat) (s : State) : Out :=
  .next (if s.power.powered then coldBoot (setPins s samples) else powerOn s samples)

/-- PWRGD_IN is negated: the ring is frozen and copied while VIN lasts. -/
def pwrgdLoss (s : State) : State :=
  if !s.power.powered || s.power.st = .off then s
  else
    let s := freezeRing s
    if flashPowered s then blackCopy s 2 else { s with recorder := { s.recorder with copyDue := some 2 } }

def execPwrgdLoss (s : State) : Out := .next (pwrgdLoss s)

/-- VIN (mV) outside 42 V to 60 V. -/
def execVinLockout (mv : Nat) (s : State) : Out := .next (if mv < 42000 || 60000 < mv then losePower s else s)

/-! ## Warm reset (14 R509) -/

/-- The freeze ends with the next reset, once the copy is complete (15 R552). -/
def unfreeze (s : State) : State :=
  let s := match s.recorder.copyDue with
    | some c => if flashPowered s then blackCopy s c else s
    | none => s
  if s.recorder.copyDue.isSome then s
  else { s with
    recorder := { s.recorder with frozen := false }
    power := { s.power with phases := s.power.phases.filter (fun p => p.2 != 5) } }

/-- Counts of areas 06 and 07 go on from the last cold reset (15 R538). -/
def FabPort.tally (p : FabPort) : FabPort := { sent := p.sent, intact := p.intact, bad := p.bad, retries := p.retries }
def Port.tally (p : Port) : Port := { mem := p.mem, aer := p.aer, retrains := p.retrains, ideFails := p.ideFails, dropped := p.dropped }
def Fn.tally (f : Fn) : Fn := { bar2Refused := f.bar2Refused, bellsDropped := f.bellsDropped }

def keepCounts (s old : State) : State :=
  let fps : Sparse FabPort := (old.fabric.ports.map (fun p => (p.1, p.2.tally))).filter (fun p => p.2 ≠ {})
  let ps : Sparse Port := (old.host.ports.map (fun p => (p.1, p.2.tally))).filter (fun p => p.2 ≠ {})
  let fs : Sparse Fn := (old.host.fns.map (fun p => (p.1, p.2.tally))).filter (fun p => p.2 ≠ {})
  { s with
    fabric := { s.fabric with ports := fps, counts := old.fabric.counts }
    host := { s.host with ports := ps, fns := fs, totalVfs := old.host.totalVfs } }

/-- Cores, networks, cluster, ports, links and bulk keys start again; the always-on domain, the recorder, the key store's index and the pin phases
stay. A debug level recorded for this reset takes effect (13 R475). -/
def warmBoot (s : State) : State :=
  let s := unfreeze { s with power := { s.power with st := .run, target := none, queued := none, wakeAfter := false } }
  let s := keepCounts (loseVolatile s) s
  let s := { s with
    flash := {}
    ward := { s.ward with debug := s.ward.lowered.getD s.ward.debug, lowered := none } }
  bootFreeze (bootFns s)

def warmReset (s : State) : State := if s.power.powered && !s.power.tripped && s.power.st != .off then warmBoot s else s

def execWarmReset (s : State) : Out := .next (warmReset s)

/-! ## WAKE (14 R495) -/

/-- WAKE held high: recorded in RUN, a cold boot from OFF, else an exit. -/
def wakePin (s : State) : State :=
  if !s.power.powered || s.power.tripped then s
  else if s.power.st = .off then coldBoot s
  else if s.power.st = .run && s.power.target.isNone then
    sendEvent s { sev := 0, code := 0x0072, source := srcUnit 7 0, arg0 := 0, arg1 := 0 }
  else wake s

def execWake (s : State) : Out := .next (wakePin s)

end Sys2Proof.Machine
end

