-- ==== Sys2Proof/Machine/Ward.lean ====
section
/-!
DEFINITION. Machine/Ward.lean: the Ward: key slots, identity and SPDM, life cycle, tokens and debug levels (13 R452–R478).
-/

namespace Sys2Proof.Machine

/-! ## What is allowed where (13 R476) -/

/-- A debug level that exists in a life-cycle state. -/
def levelAllowed (lc d : Nat) : Bool :=
  match lc with
  | 0 => d == 3
  | 1 => d ≤ 3
  | 2 => d ≤ 2
  | 3 => d ≤ 2
  | 4 => d ≤ 3
  | _ => d == 0

def awake (s : State) : Bool := s.power.st == .run || s.power.st == .idle

/-- Code J: tenant keys may be allocated and installed. -/
def jobsAnySlot (s : State) : Bool := lifeCycle s == 3 && decide (s.ward.debug < 2) && awake s && !s.power.tripped

/-- Code S: KSEAL is available. -/
def sealAvailable (s : State) : Bool := (lifeCycle s == 2 || lifeCycle s == 3) && decide (s.ward.debug < 2) && awake s && !s.power.tripped

def setReply (s : State) (r : WardReply) : State := { s with ward := { s.ward with reply := some r } }

/-- A request that the Ward answers: an error while the entropy source has failed (13 R454), nothing without power. -/
def asksWard (s : State) (f : State → State) : State :=
  if !wardUp s then s else if s.ward.entropyBad then setReply s .error else f s

def execEntropyFail (test : Nat) (s : State) : Out :=
  .next (if wardUp s then
    sendEvent { s with ward := { s.ward with entropyBad := true } } { sev := 3, code := 0x0080, source := srcUnit 5 0, arg0 := test, arg1 := 0 }
   else s)

/-! ## Key slots (13 R458) -/

/-- The Ward makes memory keys for a FREE slot and returns a 16-byte ticket. -/
def slotAllocate (s : State) (n : Nat) : State :=
  if !(1 ≤ n && n < 16384 && jobsAnySlot s && (getSlot s n).st == .free) then setReply s .error
  else
    let (t, s) := drawFree s
    let t := t % 2 ^ 128
    setReply (slotWrap (setSlot s n { st := .allocated, ticket := t }) n) (.ticket t)

def execSlotAllocate (slot : Nat) (s : State) : Out := .next (asksWard s (fun s => slotAllocate s slot))

def execSlotRetire (slot : Nat) (s : State) : Out := .next (if slot < 16384 then retireSlot s slot else s)

/-- Every crypto engine has dropped the slot. -/
def slotDrop (s : State) (n : Nat) : State :=
  (List.range 4).foldl (fun s d => setCached s d ((spGet [] s.ward.cached d).erase n)) (setSlot s n {})

def execSlotFree (slot : Nat) (s : State) : Out := .next (if (getSlot s slot).st = .retired then slotDrop s slot else s)

/-! ## Identity (13 R463, R464) -/

/-- The identity public key, 68 bytes, and DEVID. -/
def identityKey (s : State) : List Byte := toBytes 68 (Config.deriveKey 1 s.ward.idseed [])
def devId (s : State) : List Byte := Config.shake256 32 (identityKey s)

def execAliasKeyGenerate (s : State) : Out := .next (asksWard s aliasEnsure)

/-! ## SPDM (13 R465) -/

/-- How far the set-up on a transport has come. -/
def spdmStage (s : State) (t : Nat) : Nat := spGet 0 s.ward.spdm t

def setStage (s : State) (t n : Nat) : State := { s with ward := { s.ward with spdm := spSet 0 s.ward.spdm t n } }

/-- A request outside its order is answered with an error. -/
def spdmAsk (s : State) (t need : Nat) (f : State → State) : State :=
  asksWard s (fun s =>
    let s := aliasEnsure s
    if !hasIdentity s || spdmStage s t < need then setReply s .error else f s)

def spdmGetVersion (s : State) (transport : Nat) : State :=
  spdmAsk s transport 0 (fun s => setReply (setStage s transport 1) (.version 1 3))

def execGetVersion (transport : Nat) (s : State) : Out := .next (spdmGetVersion s transport)

def spdmGetCapabilities (s : State) (transport : Nat) : State :=
  spdmAsk s transport 1 (fun s => setReply (setStage s transport 2) .capabilities)

def execGetCapabilities (transport : Nat) (s : State) : Out := .next (spdmGetCapabilities s transport)

def spdmNegotiateAlgorithms (s : State) (transport : Nat) : State :=
  spdmAsk s transport 2 (fun s => setReply (setStage s transport 3) .algorithms)

def execNegotiateAlgorithms (transport : Nat) (s : State) : Out := .next (spdmNegotiateAlgorithms s transport)

/-- The digest of the image that runs. -/
def imageDigest (s : State) : List Byte := Config.shake256 32 (bytesOfWords (runSlot s).header ++ (runSlot s).table.flatten)

/-- Digest of the chain of certificate slot 0, up to the alias certificate that is in force. -/
def chainDigest (s : State) : List Byte :=
  Config.shake256 48 (identityKey s ++ imageDigest s ++ toBytes 8 ((runSlot s).isvn + 256 * lifeCycle s + 65536 * s.ward.lcrec.length + 2 ^ 24 * s.ward.debug))

def spdmGetDigests (s : State) (transport : Nat) : State :=
  spdmAsk s transport 3 (fun s => setReply s (.digests [chainDigest s]))

def execGetDigests (transport : Nat) (s : State) : Out := .next (spdmGetDigests s transport)

def spdmGetCertificate (s : State) (transport : Nat) : State :=
  spdmAsk s transport 3 (fun s =>
    if !aliasGood s then setReply s .error
    else setReply s (.certificate (imageDigest s) (runSlot s).isvn (lifeCycle s) s.ward.lcrec.length s.ward.debug))

def execGetCertificate (transport : Nat) (s : State) : Out := .next (spdmGetCertificate s transport)

/-- A response signed with the alias key. -/
def signed (s : State) (msg : List Byte) (r : List Byte → WardReply) : State :=
  match (if aliasGood s then aliasSign s msg else none) with
  | some (sig, s) => setReply s (r sig)
  | none => setReply s .error

def spdmChallenge (s : State) (transport : Nat) (nonce : List Byte) : State :=
  spdmAsk s transport 3 (fun s => signed s (nonce ++ chainDigest s) .challenge)

def execChallenge (transport : Nat) (nonce : List Byte) (s : State) : Out := .next (spdmChallenge s transport nonce)

/-- The furrow map and the fence map as bytes. -/
def furrowBytes (s : State) : List Byte := (List.range 96).flatMap (fun f => toBytes 4 (furrowWord s f))
def fenceBytes (s : State) : List Byte := (List.range 2304).flatMap (fun c => toBytes 1 (fenceByte s c))

/-- The measurements by index. -/
def measurements (s : State) : List (Nat × List Byte) :=
  [(1, imageDigest s), (2, [BitVec.ofNat 8 (runSlot s).isvn, BitVec.ofNat 8 s.ward.svn]),
   (3, [BitVec.ofNat 8 (lifeCycle s), BitVec.ofNat 8 s.ward.lcrec.length]), (4, [BitVec.ofNat 8 s.ward.debug]),
   (5, Config.shake256 32 (toBytes 1 (gradeCode s.grid) ++ furrowBytes s)), (6, Config.shake256 32 (fenceBytes s)),
   (7, Config.shake256 32 s.ward.ownerKey)]

def spdmGetMeasurements (s : State) (transport : Nat) (nonce : List Byte) : State :=
  spdmAsk s transport 3 (fun s =>
    signed s (nonce ++ (measurements s).flatMap (·.2)) (fun sig => .measurements (measurements s) sig))

def execGetMeasurements (transport : Nat) (nonce : List Byte) (s : State) : Out := .next (spdmGetMeasurements s transport nonce)

/-! ## Sessions -/

def getSession (s : State) (id : Nat) : Option Session := s.ward.sessions.find? (fun x => x.id == id)

def setSession (s : State) (x : Session) : State :=
  { s with ward := { s.ward with sessions := s.ward.sessions.map (fun y => if y.id == x.id then x else y) } }

def dropSession (s : State) (id : Nat) : State := { s with ward := { s.ward with sessions := s.ward.sessions.filter (fun x => x.id != id) } }

def spdmKeyExchange (s : State) (transport : Nat) (msg : List Byte) : State :=
  spdmAsk s transport 3 (fun s =>
    if 64 ≤ s.ward.sessions.length || !aliasGood s then setReply s .error
    else match aliasSign s msg with
    | none => setReply s .error
    | some (_, s) =>
      let (k, s) := drawFree s
      let id := s.ward.nextSession
      setReply { s with ward := { s.ward with
        nextSession := id + 1
        sessions := s.ward.sessions ++ [{ id := id, transport := transport, ready := false, key := k, lastSeq := 0, lastReq := [], lastResp := [] }] } }
        (.session id))

def execKeyExchange (transport : Nat) (msg : List Byte) (s : State) : Out := .next (spdmKeyExchange s transport msg)

/-- A request in a session of the transport, set up as far as it needs. -/
def inSession (s : State) (t id : Nat) (ready : Bool) (f : State → Session → State) : State :=
  asksWard s (fun s =>
    match getSession s id with
    | some x => if x.transport = t && x.ready = ready then f s x else setReply s .error
    | none => setReply s .error)

def spdmFinish (s : State) (transport session : Nat) : State :=
  inSession s transport session false (fun s x => setReply (setSession s { x with ready := true }) (.finished session))

def execFinish (transport session : Nat) (s : State) : Out := .next (spdmFinish s transport session)

def spdmHeartbeat (s : State) (transport session : Nat) : State :=
  inSession s transport session true (fun s _ => setReply s (.alive session))

def execHeartbeat (transport session : Nat) (s : State) : Out := .next (spdmHeartbeat s transport session)

def spdmKeyUpdate (s : State) (transport session : Nat) : State :=
  inSession s transport session true (fun s x => setReply (setSession s { x with key := Config.deriveKey 9 x.key [] }) (.updated session))

def execKeyUpdate (transport session : Nat) (s : State) : Out := .next (spdmKeyUpdate s transport session)

def spdmEndSession (s : State) (transport session : Nat) : State :=
  inSession s transport session true (fun s _ => setReply (dropSession s session) (.ended session))

def execEndSession (transport session : Nat) (s : State) : Out := .next (spdmEndSession s transport session)

/-- A tenant's transport key: SHAKE256 of the tenant key and N_INST. -/
def installKey (s : State) (n ticket key : Nat) : State :=
  let k := getSlot s n
  if k.st != .allocated || k.ticket != ticket || !jobsAnySlot s then setReply s .error
  else
    let (r, s) := drawFree s
    let r := r % 2 ^ 256
    let t := ofBytes (Config.shake256 32 (toBytes 32 key ++ toBytes 32 r))
    setReply (slotWrap (setSlot s n { k with st := .installed, transport := some t, ninst := r, egress := 0 }) n) (.installed r)

def spdmKeyInstall (s : State) (transport session slot ticket key : Nat) : State :=
  inSession s transport session true (fun s _ => installKey s slot ticket key)

def execKeyInstall (transport session slot ticket key : Nat) (s : State) : Out := .next (spdmKeyInstall s transport session slot ticket key)

def spdmSlotQuery (s : State) (transport session slot : Nat) : State :=
  inSession s transport session true (fun s _ => setReply s (if 1 ≤ slot && slot < 16384 then .slotState (slotCode s slot) else .error))

def execSlotQuery (transport session slot : Nat) (s : State) : Out := .next (spdmSlotQuery s transport session slot)

/-- The slot's keys are destroyed. -/
def spdmSlotRelease (s : State) (transport session slot : Nat) : State :=
  inSession s transport session true (fun s _ =>
    if 1 ≤ slot && slot < 16384 then (let s := retireSlot s slot; setReply s (.slotState (slotCode s slot))) else setReply s .error)

def execSlotRelease (transport session slot : Nat) (s : State) : Out := .next (spdmSlotRelease s transport session slot)

/-- An SPDM request, by what its message says, on a transport: the DOE mailbox of function f is f, its object-dictionary mailbox 128 + f,
10BASE-T1S 300, the fabric 512 + module ID. -/
def spdmServe (s : State) (t : Nat) (r : SpdmReq) : State :=
  match r with
  | .getVersion => spdmGetVersion s t
  | .getCapabilities => spdmGetCapabilities s t
  | .negotiateAlgorithms => spdmNegotiateAlgorithms s t
  | .getDigests => spdmGetDigests s t
  | .getCertificate => spdmGetCertificate s t
  | .challenge nonce => spdmChallenge s t nonce
  | .getMeasurements nonce => spdmGetMeasurements s t nonce
  | .keyExchange msg => spdmKeyExchange s t msg
  | .finish id => spdmFinish s t id
  | .heartbeat id => spdmHeartbeat s t id
  | .keyUpdate id => spdmKeyUpdate s t id
  | .endSession id => spdmEndSession s t id
  | .keyInstall id slot ticket key => spdmKeyInstall s t id slot ticket key
  | .slotQuery id slot => spdmSlotQuery s t id slot
  | .slotRelease id slot => spdmSlotRelease s t id slot

/-! ## Nonce and debug levels (13 R472–R475) -/

/-- The DEBUG principal reaches the dictionary at OBSERVE or above (15 R531). -/
def debugAccess (s : State) : Bool := decide (1 ≤ s.ward.debug)

def mgmtOrDebug (s : State) (who : Nat) : Bool := who == 1 || (who == 3 && debugAccess s)

/-- A fresh 32-byte nonce; the one before is void. -/
def freshNonce (s : State) : Nat × State :=
  let (n, s) := drawFree s
  let n := n % 2 ^ 256
  (n, { s with ward := { s.ward with nonce := some n } })

def execNonceRead (who : Nat) (s : State) : Out :=
  .next (if mgmtOrDebug s who then asksWard s (fun s => let (n, s) := freshNonce s; setReply s (.nonce n)) else s)

def execNonceExpire (s : State) : Out := .next { s with ward := { s.ward with nonce := none } }

/-- A level below the one in force, for the next warm reset. -/
def debugLower (s : State) (level : Nat) : State :=
  if level < s.ward.debug && levelAllowed (lifeCycle s) level then { s with ward := { s.ward with lowered := some level } } else s

def execDebugLower (who level : Nat) (s : State) : Out := .next (if who == 3 && debugAccess s then debugLower s level else s)

/-- The job of a core ends, as JSWITCH ends it (02 R91). -/
def endJob (s : State) (c : Nat) : State :=
  let s := (List.range 16).foldl (fun s r => jswitchRing s c r) s
  let s := jswitchEngines (jswitchDrains s c) c
  let s := clearCoreLatches (sendResets s c) c
  updCore s c (fun k =>
    { k.mapThreads (fun _ th => if jobThread th then { th with regs := {}, twCount := 0, wait := .none, walk := none,
                                                                st := { th.st with state := .stopped } } else th) with
      reqs := [], mem := { k.mem with l1 := [], tlb := [], wcache := [] } })

/-- The wipe of an unlock to HALT (13 R471, R475): jobs end, core memories are zeroed, every slot is retired, and the keys of
bulk and of the flash job region go, slot 0's with them: what they protected reads as memory that nothing has written. -/
def unlockWipe (s : State) : State :=
  let s := (s.cores.map (·.1)).foldl (fun s c => coreWipe (endJob s c) c) s
  let s := s.ward.slots.foldl (fun s p => retireSlot s p.1) s
  { s with bulk := {}, flash := {} }

def setLevel (s : State) (d : Nat) : State :=
  let s := if s.ward.debug < 2 && 2 ≤ d then unlockWipe s else s
  { s with ward := { s.ward with debug := d } }

/-! ## Life cycle (13 R468–R471) -/

/-- Who may authorise a transition: by Aqmas token, by owner token. -/
def lcAllowed (s : State) (to_ : Nat) (owner : Bool) : Bool :=
  let lc := lifeCycle s
  let keyed := !s.ward.ownerKey.isEmpty
  decide (s.ward.lcrec.length < 64) && (match lc, to_ with
    | 1, 2 => !owner
    | 2, 3 => owner && keyed
    | 3, 2 => owner
    | 2, 4 => owner || !keyed
    | 3, 4 => owner || !keyed
    | 4, 2 => !owner
    | 5, _ => false
    | 2, 5 => true
    | 3, 5 => true
    | _, 5 => !owner
    | _, _ => false)

/-- What entry to SCRAPPED destroys: the secrets, and with KREC the sealed record. The part keeps its grade and its maps (01 R15, R23). -/
def scrap (s : State) : State :=
  { s with
    ward := { s.ward with dsec := 2 ^ 256 - 1, idseed := 2 ^ 768 - 1, ownerKey := [] }
    od := { s.od with vals := [] }
    fw := { s.fw with oldStore := none } }

/-- A transition: the OTP bits, the wipe, a cold boot in the new state. -/
def transition (s : State) (to_ : Nat) : State :=
  let back := to_ = 2 && (lifeCycle s = 3 || lifeCycle s = 4)
  let s := { s with ward := { s.ward with lcrec := s.ward.lcrec ++ [to_], ownerKey := if back then [] else s.ward.ownerKey } }
  let s := if to_ = 5 then scrap s else s
  let s := coldBoot { s with resil := { s.resil with ckpts := [], sealedStep := 0 } }
  sendEvent s { sev := 1, code := 0x0082, source := srcUnit 5 0, arg0 := to_, arg1 := s.ward.lcrec.length }

/-- BLANK to TEST: the DEBUG principal at FULL, no token; the device secret and identity seed are generated. -/
def lcTest (s : State) : State :=
  if lifeCycle s != 0 || s.ward.debug != 3 || s.ward.entropyBad then s
  else
    let (a, s) := drawFree s
    let (b, s) := drawFree s
    transition { s with ward := { s.ward with dsec := a % 2 ^ 256, idseed := b % 2 ^ 768 } } 1

def execLcRequestTest (who : Nat) (s : State) : Out := .next (if who == 3 && wardUp s then lcTest s else s)

/-! ## Tokens (13 R473, R474) -/

def tkKind (t : List Byte) : Nat := bytesAt t 7 1
def tkTarget (t : List Byte) : Nat := bytesAt t 6 1
def tkSigner (t : List Byte) : Nat := bytesAt t 5 1

def tkFormat (t : List Byte) : Bool :=
  t.length == 2900 && (tkKind t == 1 || tkKind t == 2) && (tkSigner t == 2 || tkSigner t == 3 || tkSigner t == 0xFF) &&
    bytesAt t 4 1 == 0 && bytesAt t 0x48 8 == 0

def tkOwner (t : List Byte) : Bool := tkSigner t == 0xFF

/-- Who signs which debug level (13 R474). -/
def debugAllowed (s : State) (target : Nat) (owner : Bool) : Bool :=
  let lc := lifeCycle s
  levelAllowed lc target && (if target = 3 then !owner else owner == (lc == 2 || lc == 3))

/-- The checks in order: the code of the first that fails. -/
def tokenCheck (s : State) (t : List Byte) : Nat :=
  let w := s.ward
  if !tkFormat t then 1
  else if takeBytes 32 (t.drop 8) != devId s || bytesAt t 0 4 != w.lcrec.length then 2
  else if w.nonce != some (bytesAt t 0x28 32) then 3
  else if (if tkOwner t then w.ownerKey.isEmpty else w.revoke.testBit (tkSigner t)) then 4
  else if !Config.xmssVerify (if tkOwner t then w.ownerKey else toBytes 32 (spGet 0 w.roots (tkSigner t))) (t.take 0x50) (t.drop 0x50) then 5
  else if !(if tkKind t = 1 then debugAllowed s (tkTarget t) (tkOwner t) else lcAllowed s (tkTarget t) (tkOwner t)) then 6
  else if s.power.st = .sleep || s.power.st = .deepSleep then 7
  else 0

/-- A token is checked; a valid one applies its level or transition. -/
def tokenIn (s : State) (t : List Byte) : State :=
  let r := tokenCheck s t
  let s := { s with ward := { s.ward with nonce := none, tokenResult := r } }
  let s := sendEvent s { sev := 1, code := 0x0081, source := srcUnit 5 0, arg0 := r, arg1 := tkKind t * 256 + tkTarget t }
  if r != 0 then s
  else if tkKind t = 1 then setLevel s (tkTarget t)
  else transition s (tkTarget t)

def execTokenCheck (who : Nat) (token : List Byte) (s : State) : Out :=
  .next (if mgmtOrDebug s who then asksWard s (fun s => tokenIn s token) else s)

end Sys2Proof.Machine
end

