-- ==== Sys2Proof/Machine/Resil.lean ====
section
/-!
DEFINITION. Machine/Resil.lean: commits, fallow copies, checkpoints and recovery (12). The runtime's own records (where it keeps its
stubble, which regions are chaff, what the layout is) come as the commands' operands.
-/

namespace Sys2Proof.Machine

def execControlHeartbeatSend (s : State) : Out :=
  .next (if clusterUp s then sendAll s (Config.controlKind 0) [] else s)

/-! ## Digests (12 R435–R437) -/

/-- The record of a block's bytes: poison is not digested. -/
def digestBlock (kind owner shard block step : Nat) (bs : List Byte) (pois : Bool) : DigestRec :=
  let r : DigestRec :=
    { kind := kind, owner := owner, shard := shard, block := block, step := step, len := bs.length, pois := pois, digest := [] }
  if pois then r else { r with digest := Config.shake256 32 (digestHead r ++ bs) }

/-- A block serves a restore of a step. -/
def verifies (r : DigestRec) (step : Nat) (bs : List Byte) : Bool :=
  !r.pois && r.step % 2 ^ 32 == step % 2 ^ 32 && r.digest == Config.shake256 32 (digestHead r ++ bs.take r.len)

def countBadRecord (s : State) (n : Nat) : State := { s with resil := { s.resil with badDigests := satAdd 32 s.resil.badDigests n } }

/-- Reads the runs of a block. -/
def readNear (s : State) (es : List Extent) : Got :=
  es.foldl (fun g e => let r := coreRead g.st e.gran e.core e.off e.len; ⟨g.data ++ r.data, g.pois ++ r.pois, r.st⟩) ⟨[], [], s⟩

def readBulk (s : State) (es : List (Nat × Nat)) : Got :=
  es.foldl (fun g e => let r := bulkRead g.st e.1 e.2; ⟨g.data ++ r.data, g.pois ++ r.pois, r.st⟩) ⟨[], [], s⟩

/-- Writes bytes over the runs of a block. -/
def writeNear (s : State) (es : List Extent) (bs : List Byte) : State :=
  (es.foldl (fun (x : State × List Byte) e =>
    (writeRun (fun s p a b => coreWrite s e.gran e.core p a b) e.off (x.2.take e.len) [] x.1, x.2.drop e.len)) (s, bs)).1

/-! ## Commit (12 R426) -/

/-- The fallow blocks of the step, digested where they lie. -/
def digestFallow (s : State) (step : Nat) (bs : List BlockSrc) : State :=
  let (ds, s) := bs.foldl (fun (x : List (DigestRec × List (Nat × Nat)) × State) b =>
    let g := readBulk x.2 b.bulk
    (x.1 ++ [(digestBlock b.kind b.owner b.shard b.block step g.data g.poison, b.bulk)], g.st)) ([], s)
  { s with resil := { s.resil with fallow := spSet {} s.resil.fallow (step % 2) { step := step, committed := false, blocks := ds } } }

/-- What the module itself sees of R426: no UPDATE runs or waits in a Harrow, and every packet of a Drill ring on VCs 5 and 6 has been
acknowledged. -/
def stepQuiet (s : State) : Bool :=
  s.cores.all (fun c => c.2.eng.harrow.cmd.all (fun k => !(eOp k.words == 1))) &&
    s.fabric.chans.all (fun c => match c.2.user with
      | .drill _ _ => !(c.2.vc == 5 || c.2.vc == 6) || c.2.unacked.isEmpty
      | _ => true)

/-- The control cluster arrives at the commit gate of the next step, once every condition holds. -/
def commitArrive (s : State) (gate : Nat) (done : StepDone) (blocks : List BlockSrc) : State :=
  let key := 1024 + (gate - 256)
  if gate < 256 || 320 ≤ gate || !stepQuiet s || !(done.updates && done.framesSent && done.fallowIn && done.stubble) || s.resil.arrived.isSome ||
      !(getGate s key).en then s
  else match clusterArrive (digestFallow s (s.resil.step + 1) blocks) key with
  | some s => { s with resil := { s.resil with arrived := some key } }
  | none => s

def execCommitArrive (gate : Nat) (done : StepDone) (blocks : List BlockSrc) (s : State) : Out :=
  .next (if clusterUp s then commitArrive s gate done blocks else s)

/-! ## Rollback (12 R429, R450) -/

/-- The epoch word of a block: EPOCH as given, every count 0, the latch bit full. -/
def epochRestore (s : State) (e : EpochRec) : State :=
  let g := coreRead s true e.core e.off 8
  latchWrite g.st true e.core (e.off / 8) (toBytes 8 (e.epoch % 2 ^ 32 * 2 ^ 32 + boolN (g.value.testBit 31) * 2 ^ 31)) false true

def zeroExtent (s : State) (e : Extent) : State :=
  writeRun (fun s p a b => coreWrite s e.gran e.core p a b) e.off (List.replicate e.len 0) [] s

/-- One entry of the stubble goes back. -/
def stubBack (s : State) (r : StubRec) : State :=
  let g := bulkRead s r.src r.dst.len
  writeRun (fun s p a b => coreWrite s r.dst.gran r.dst.core p a b) r.dst.off g.data g.pois g.st

/-- The state returns to the last committed step: what the runtime's records name, and the module's own stubble of the step that has not
committed (12 R427, R429). -/
def rollback (s : State) (r : Rollback) : State :=
  let b := if s.resil.stubble.step = s.resil.step + 1 then s.resil.stubble else {}
  let s := r.cores.foldl endJob s
  let s := (r.epochs ++ b.epochs).foldl epochRestore s
  let s := (r.stubs ++ b.recs).foldl stubBack s
  let s := r.zero.foldl zeroExtent s
  { s with resil := { s.resil with arrived := none, stubble := {} } }

def execRollback (r : Rollback) (s : State) : Out := .next (if clusterUp s && awake s then rollback s r else s)

/-- A step fails: the job rolls back and the step runs again. -/
def execStepFailed (r : Rollback) (s : State) : Out :=
  .next (if clusterUp s && awake s then rollback s r else s)

/-! ## Fallow copies (12 R431, R432) -/

/-- Sends bytes to a module or group in packets that cross no 4,096-byte boundary of the offset (11 R400). -/
def sendBytes (s : State) (c ring vc opc dst addr : Nat) (bs : List Byte) (ps : List Bool) : State :=
  (putCuts (bs.length / 4096 + 2) addr bs.length 0).foldl (fun s x =>
    (fabSend s (dieOf s.grid c) (.drill c ring) vc none
      { opc := opc, dst := dst, src := 0, chan := 0, fin := false, ver := 0, cseq := 0, len := x.2, addr := addr + x.1, opf := 0,
        data := (bs.drop x.1).take x.2, pois := (ps.drop (x.1 / 8)).take ((x.2 + 7) / 8) }).1) s

/-- The trailer's header (12 R432). -/
def trailerHead (f : FallowFrame) (step bytes : Nat) : List Byte :=
  toBytes 8 (2 ^ 56 + f.opt * 2 ^ 52 + f.mfmt % 4 * 2 ^ 50 + boolN f.hasm * 2 ^ 49 + f.shard % 2 ^ 32) ++
    toBytes 8 (f.frame % 2 ^ 32 * 2 ^ 32 + step % 2 ^ 32) ++ toBytes 8 (f.npar % 2 ^ 32 * 2 ^ 32 + f.firstp % 2 ^ 32) ++
    toBytes 8 (bytes % 2 ^ 32 * 2 ^ 32 + (if f.opt = 3 then f.frows % 2 ^ 16 * 2 ^ 16 + f.fcols % 2 ^ 16 else 0))

/-- The sections of a trailer, each as the runs of the granary slice it is copied from (12 R432). -/
def trailerSections (f : FallowFrame) : List (List (Nat × Nat)) :=
  (if f.mfmt % 4 = 1 then [[(f.mast, 4 * f.npar)]] else if f.mfmt % 4 = 2 then [[(f.mast, 2 * f.npar)]] else []) ++
    (if f.hasm then [[(f.mst, f.npar), (f.mscale, f.npar / 32)]] else []) ++
    (if f.opt = 2 then [[(f.vst, f.npar)]] else if f.opt = 3 then [[(f.vst, 4 * f.frows), (f.cst, 4 * f.fcols)]] else [])

/-- The frame goes to the group and its trailer to the partner. The owner's acquire and release of the buffer leave its count as it was;
the epoch word must be full. -/
def fallowSend (s : State) (f : FallowFrame) : State :=
  let (s, k, v) := latchProbe s true f.core (f.epw / 8)
  if !k.full || k.poison then s
  else
    let nb := if v.testBit 31 then 3 else 2
    let g := coreRead s true f.core (f.buffers.getD (v / 2 ^ 32 % nb) 0) f.len
    let s := sendBytes g.st f.core f.ring 5 4 f.group f.addr g.data g.pois
    let (body, pois, s) := (trailerSections f).foldl (fun (x : List Byte × List Bool × State) e =>
      let g := e.foldl (fun (g : Got) r => let h := coreRead g.st true f.core r.1 r.2; ⟨g.data ++ h.data, g.pois ++ h.pois, h.st⟩) ⟨[], [], x.2.2⟩
      (x.1 ++ padTo (roundUp g.data.length 8) g.data, x.2.1 ++ g.pois, g.st)) ([], [], s)
    let n := 32 + body.length
    sendBytes s f.core f.ring 6 1 f.partner f.paddr (trailerHead f (s.resil.step + 1) n ++ body) (List.replicate 4 false ++ pois)

def execFallowSend (f : FallowFrame) (s : State) : Out :=
  .next (if coreUp s f.core && f.len ≤ 2 ^ 20 then fallowSend s f else s)

/-! ## Checkpoints (12 R438–R443) -/

/-- The step of the next checkpoint: the coordinator names it at least two steps ahead and tells the job; another module is told. -/
def checkpointName (s : State) (step : Nat) : State :=
  let named (s : State) : State := { s with resil := { s.resil with named := some step } }
  if isCoordinator s then
    (if step < s.resil.step + 2 then s else named (sendAll s (Config.controlKind 3) (toBytes 8 step)))
  else named s

def execCheckpointName (step : Nat) (s : State) : Out := .next (if clusterUp s then checkpointName s step else s)

/-- The slot of the checkpoint region that the next checkpoint overwrites: not the one that holds the latest. -/
def olderSlot (s : State) : Nat :=
  let c := spGet {} s.resil.ckpts 0
  if c.sealed_ && c.step = s.resil.sealedStep then 1 else 0

/-- A checkpoint cannot be made: the one before stays the latest (12 R441). -/
def checkpointFail (s : State) (cause : Nat) : State :=
  let step := s.resil.named.getD 0
  let slot := s.resil.writing
  let s := { s with resil := { s.resil with
    named := none, writing := none
    ckpts := match slot with
      | some n => spSet {} s.resil.ckpts n {}
      | none => s.resil.ckpts } }
  sendEvent s { sev := 3, code := 0x0062, source := srcUnit 7 0, arg0 := step % 2 ^ 32, arg1 := cause }

/-- Bytes of a block on flash: its sheaf pages. -/
def sheafBytes (bs : List Byte) : Nat :=
  ((List.range (bs.length / 65536 + 1)).map (fun i =>
    (sheafImage 0 (padTo 65536 ((bs.drop (65536 * i)).take 65536)) (List.replicate 8192 false)).2.1.length)).sum

/-- The named step has committed: the staged blocks are digested and written to the older slot. -/
def checkpointWrite (s : State) (items : List BlockSrc) : State :=
  if s.resil.named != some s.resil.step || s.resil.writing.isSome then s
  else if !sealAvailable s || !flashPowered s then checkpointFail s 1
  else
    let (bs, s) := items.foldl (fun (x : List (DigestRec × List Byte) × State) b =>
      let g := readNear x.2 b.near
      (x.1 ++ [(digestBlock 4 (moduleId s) b.shard b.block s.resil.step g.data g.poison, g.data)], g.st)) ([], s)
    let n := (bs.map (fun b => b.2.length + 64)).sum
    if s.mstats.ckptBytes < 2 * n then checkpointFail s 2
    else
      let slot := olderSlot s
      { s with resil := { s.resil with
        ckpts := spSet {} s.resil.ckpts slot { step := s.resil.step, sealed_ := false, blocks := bs }
        writing := some slot
        flashBytes := s.resil.flashBytes + (bs.map (fun b => sheafBytes b.2 + 64)).sum } }

def execCheckpointWrite (items : List BlockSrc) (s : State) : Out := .next (if clusterUp s then checkpointWrite s items else s)

/-- The effective interval after a checkpoint of n bytes (12 R440), in whole seconds. -/
def checkpointInterval (s : State) (n : Nat) : Nat :=
  let pct := odNum s 0x09 0x13 0 80
  max (odNum s 0x09 0x10 0 300) ((n * 86400 * 100 + 21600000000000 * pct - 1) / (21600000000000 * pct))

/-- The seal record is written last, and the checkpoint is the latest; a failed write (its cause not 0) ends it instead. -/
def checkpointSeal (s : State) (cause : Nat) : State :=
  match s.resil.writing with
  | none => s
  | some slot =>
    if cause != 0 || !flashPowered s then checkpointFail s cause
    else
      let c := spGet {} s.resil.ckpts slot
      let n := (c.blocks.map (fun b => sheafBytes b.2 + 64)).sum + 64 * c.blocks.length
      { s with resil := { s.resil with
        ckpts := spSet {} s.resil.ckpts slot { c with sealed_ := true }
        writing := none, named := none, sealedStep := c.step, sinceShared := s.resil.sinceShared + 1
        interval := checkpointInterval s n, flashBytes := s.resil.flashBytes + 64 * c.blocks.length } }

def execCheckpointSeal (cause : Nat) (s : State) : Out := .next (if clusterUp s then checkpointSeal s cause else s)

/-- Sends one message under the store slot to the port's host, at an offset of the outbound region. -/
def storeMessage (port slot key : Nat) (x : State × Nat) (plain : List Byte) : State × Nat :=
  match takeCounter x.1 slot with
  | none => x
  | some (ctr, s) =>
    let bs := padTo (roundUp plain.length 8) plain
    let (m, _) := sealMessage key slot ctr bs.length bs (List.replicate (bs.length / 8) false)
    let pa := port * 2 ^ 47 + odNum s 0x09 0x14 0 0 * 2 ^ 39 + x.2
    (regionPut s false false pa m, x.2 + m.length)

/-- Every Nth sealed checkpoint is copied out: a message for the seal record and one for each block, in that order from the start of the
region. -/
def sharedCopy (s : State) (port : Nat) : State :=
  let n := odNum s 0x09 0x11 0 12
  let slot := odNum s 0x09 0x12 0 0
  let r := hostRegion s (port * 2 ^ 47 + odNum s 0x09 0x14 0 0 * 2 ^ 39)
  match latestCkpt s with
  | none => s
  | some c =>
    if n = 0 || s.resil.sinceShared < n || !hostAlive s port || !r.valid || !r.writable || !sealAvailable s then s
    else match engineKey s port slot with
    | (none, s) => s
    | (some key, s) =>
      let (s, _) := (c.blocks.flatMap (fun b => digestBytes b.1) :: c.blocks.map (fun b => digestBytes b.1 ++ b.2)).foldl (storeMessage port slot key) (s, 0)
      { s with resil := { s.resil with sharedStep := c.step, sinceShared := 0 } }

def execSharedStoreCopy (port : Nat) (s : State) : Out := .next (if clusterUp s && port < 2 then sharedCopy s port else s)

/-- Blocks that come back from the shared store: refused whole where the seal record is of another step, else taken where the seal record
lists their record and they verify. -/
def sharedRestore (s : State) (step : Nat) (recs : List DigestRec) (blocks : List (DigestRec × List Byte)) : State :=
  if recs.any (fun r => r.step % 2 ^ 32 != step % 2 ^ 32) || recs.isEmpty then s
  else
    let good (b : DigestRec × List Byte) : Bool := recs.contains b.1 && verifies b.1 step b.2
    countBadRecord { s with resil := { s.resil with restored := s.resil.restored ++ blocks.filter good } }
      (blocks.filter (fun b => !good b)).length

def execSharedStoreRestore (step : Nat) (recs : List DigestRec) (blocks : List (DigestRec × List Byte)) (s : State) : Out :=
  .next (if clusterUp s then sharedRestore s step recs blocks else s)

/-! ## Failure of a module (12 R444, R445) -/

/-- A heartbeat of a module is missed: at the limit the coordinator probes it. -/
def heartbeatMissed (s : State) (m : Nat) : State :=
  let n := spGet 0 s.resil.missed m + 1
  let s := { s with resil := { s.resil with missed := spSet 0 s.resil.missed m n } }
  if n < odNum s 0x09 0x21 0 5 then s else suspect s m

def execHeartbeatMissed (module : Nat) (s : State) : Out :=
  .next (if clusterUp s && isPeer s module then heartbeatMissed s module else s)

/-- The module can serve as salvage: C3's flash and the Ward work, a port too, and a sealed checkpoint is there (12 R448). -/
def canSalvage (s : State) : Bool :=
  flashPowered s && wardUp s && (latestCkpt s).isSome && (List.range 16).any (fun p => portEnabled s p)

/-- The module leaves the job: its cores are held, its pending fallow slot is discarded. Where it can, it enters salvage. -/
def leaveJob (s : State) : State :=
  let s := holdAll s []
  { s with resil := { s.resil with state := if canSalvage s then 6 else 7, members := [], probing := [], fallow := spErase s.resil.fallow ((s.resil.step + 1) % 2) } }

/-- HOLD: the agent ends the job of every core (12 R446). -/
def holdJob (s : State) : State :=
  let s := (s.cores.map (·.1)).foldl endJob s
  { s with resil := { s.resil with state := 2, arrived := none } }

/-- A module is known to have failed. -/
def noteFailed (s : State) (m : Nat) : State :=
  { s with resil := { s.resil with failed := m :: s.resil.failed.erase m, probing := s.resil.probing.erase m, missed := spErase s.resil.missed m } }

/-- A probe has gone unanswered: the coordinator declares the module failed while it reaches more than half of the job. source: what
named it (12 R444). -/
def probeTimeout (s : State) (m reached source : Nat) : State :=
  if !(prober s m == some (moduleId s) && s.resil.probing.contains m && s.resil.members.length < 2 * reached) then s
  else
    let s := noteFailed s m
    let s := sendAll s (Config.controlKind 2) (toBytes 8 m)
    holdJob (sendEvent s { sev := 3, code := 0x0061, source := srcUnit 7 0, arg0 := m, arg1 := source })

def execProbeTimeout (module reached source : Nat) (s : State) : Out :=
  .next (if clusterUp s then probeTimeout s module reached source else s)

/-- A control core fails and is fenced. With the fourth of a die, that die's queue manager has lost its runtime, and the agent reports the module
itself as failed (10 R357, 12 R444). -/
def controlCoreFail (s : State) (core : Nat) : State :=
  let s := { s with host := { s.host with ccFailed := s.host.ccFailed ++ [core], cc := spErase s.host.cc core } }
  if dieLost s (core / 4) then
    (let s := sendEvent s { sev := 4, code := 0x00F2, source := srcUnit 6 core, arg0 := core / 4, arg1 := 0 }
     if s.resil.members.isEmpty then s
     else leaveJob (if clusterUp s then sendAll s (Config.controlKind 2) (toBytes 8 (moduleId s)) else s))
  else s

def execControlCoreFail (core : Nat) (s : State) : Out :=
  .next (if core < 16 && !s.host.ccFailed.contains core then controlCoreFail s core else s)

def failNotice (s : State) (m : Nat) : State :=
  if m = moduleId s then leaveJob s else if isPeer s m then holdJob (noteFailed s m) else s

def execFailNotice (module : Nat) (s : State) : Out := .next (if clusterUp s then failNotice s module else s)

/-- The module has reached no more than half of its job for the hold time. -/
def execMinorityHold (reached : Nat) (s : State) : Out :=
  .next (if clusterUp s && !s.resil.members.isEmpty && 2 * reached ≤ s.resil.members.length then leaveJob s else s)

/-! ## Recovery (12 R446–R448) -/

/-- The job cannot go on: every LAUNCH in flight completes with INTERNAL. -/
def endLaunches (s : State) : State :=
  s.host.queues.foldl (fun s p => p.2.cmds.foldl (fun s c =>
    if c.opc = 0x20 && c.st = .running then commitCmd s p.1 c.no 0x10 0 else s) s) s

/-- PLAN: the layout goes to every survivor, or the job ends where it does not fit. -/
def recoveryPlan (s : State) (fits : Bool) (cause : Nat) (layout : List Byte) : State :=
  if !isCoordinator s || !(s.resil.state == 2 || s.resil.state == 3 || s.resil.state == 4) then s
  else if fits then { sendAll s (Config.controlKind 4) layout with resil := { s.resil with state := 3 } }
  else endLaunches { sendAll s (Config.controlKind 11) (toBytes 8 cause) with resil := { s.resil with state := 7, cause := cause % 2 ^ 24 } }

def execRecoveryPlan (fits : Bool) (cause : Nat) (layout : List Byte) (s : State) : Out :=
  .next (if clusterUp s then recoveryPlan s fits cause layout else s)

/-- A fallow block that verifies goes to the shard's new owner. -/
def sendShard (step : Nat) (s : State) (b : DigestRec × List (Nat × Nat)) (mv : ShardMove) : State :=
  let g := readBulk s b.2
  if verifies b.1 step g.data && !g.poison then sendBytes g.st 0 0 4 1 mv.module mv.addr g.data g.pois else countBadRecord g.st 1

/-! ### Frozen shards (12 R434) -/

/-- The bytes of a frozen block where it is held. -/
def frozenRead (s : State) (b : FrozenBlock) : Got :=
  if b.flash then flashRead s b.addr b.record.len else bulkRead s b.addr b.record.len

/-- The runtime has written a block of a frozen shard: its digest is taken, once. Its record names step 0, as a frozen shard belongs to no step. -/
def frozenWrite (s : State) (owner shard block : Nat) (flash : Bool) (addr len : Nat) : State :=
  if s.resil.frozen.any (fun b => b.record.owner == owner && b.record.shard == shard && b.record.block == block) then s
  else
    let g := if flash then flashRead s addr len else bulkRead s addr len
    { g.st with resil := { g.st.resil with frozen := g.st.resil.frozen ++
      [{ record := digestBlock 3 owner shard block 0 g.data g.poison, flash := flash, addr := addr }] } }

def frozenForget (s : State) (owner shard block : Nat) : State :=
  { s with resil := { s.resil with frozen := s.resil.frozen.filter (fun b => !(b.record.owner == owner && b.record.shard == shard && b.record.block == block)) } }

/-- A frozen block that verifies goes to the shard's new owner. -/
def sendFrozen (s : State) (b : FrozenBlock) (mv : ShardMove) : State :=
  let g := frozenRead s b
  if verifies b.record 0 g.data && !g.poison then sendBytes g.st 0 0 4 1 mv.module mv.addr g.data g.pois else countBadRecord g.st 1

/-- REFILL: the commit that another survivor has seen is applied; the committed fallow slot is verified and sent to the new owners; the
state rolls back to the committed step. -/
def recoveryRefill (s : State) (committed : Nat) (moves : List ShardMove) (r : Rollback) : State :=
  let s := if committed = s.resil.step + 1 then
      { s with resil := { s.resil with step := committed, fallow := spUpd {} s.resil.fallow (committed % 2) (fun f => { f with committed := true }) } }
    else s
  -- a slot whose step has not committed is discarded, and the committed one kept (12 R433)
  let s := if (spGet ({} : FallowSlot) s.resil.fallow ((committed + 1) % 2)).committed then s
    else { s with resil := { s.resil with fallow := spErase s.resil.fallow ((committed + 1) % 2) } }
  let f := spGet ({} : FallowSlot) s.resil.fallow (committed % 2)
  let s := if f.committed && f.step = committed then
      f.blocks.foldl (fun s b => match moves.find? (fun m => m.shard == b.1.shard && m.block == b.1.block) with
        | some m => sendShard committed s b m
        | none => s) s
    else s
  let s := s.resil.frozen.foldl (fun s b => match moves.find? (fun m => m.shard == b.record.shard && m.block == b.record.block) with
    | some m => sendFrozen s b m
    | none => s) s
  let s := rollback s r
  { s with resil := { s.resil with state := 4 } }

def execRecoveryRefill (committed : Nat) (moves : List ShardMove) (r : Rollback) (s : State) : Out :=
  .next (if clusterUp s && awake s && (s.resil.state == 2 || s.resil.state == 3 || s.resil.state == 4)
    then recoveryRefill s committed moves r else s)

/-- RESUME: every survivor has reported; the coordinator's cluster arrives at the new commit gate. -/
def recoveryResume (s : State) (gate : Nat) : State :=
  if s.resil.state != 4 then s
  else
    let s := { s with resil := { s.resil with state := 5, cause := 0, recovered := satAdd 32 s.resil.recovered s.resil.failed.length, members := survivors s, failed := [] } }
    if isCoordinator s && 256 ≤ gate && gate < 320 then (clusterArrive s (1024 + (gate - 256))).getD s else s

def execRecoveryResume (gate : Nat) (s : State) : Out := .next (if clusterUp s then recoveryResume s gate else s)

/-- A restored block goes where the layout puts it. -/
def restoreBlock (step : Nat) (dsts : List BlockDst) (s : State) (b : DigestRec × List Byte) : State :=
  match dsts.find? (fun d => d.shard == b.1.shard && d.block == b.1.block) with
  | none => s
  | some d => if verifies b.1 step b.2 then writeNear s d.dst b.2 else countBadRecord s 1

/-- The whole job returns to step c: from this module's sealed checkpoint of c, and from verified blocks of the shared store or of a
salvaged module. -/
def checkpointRollback (s : State) (step : Nat) (salvaged : List (DigestRec × List Byte)) (dsts : List BlockDst) (r : Rollback) : State :=
  let own := [0, 1].flatMap (fun n =>
    let c := spGet ({} : Checkpoint) s.resil.ckpts n
    if c.sealed_ && c.step = step && sealAvailable s then c.blocks else [])
  let s := rollback { s with resil := { s.resil with stubble := {} } } { r with stubs := [], epochs := [] }
  let s := (own ++ s.resil.restored ++ salvaged).foldl (restoreBlock step dsts) s
  let s := r.epochs.foldl epochRestore s
  { s with resil := { s.resil with step := step, restored := [], rollbacks := satAdd 32 s.resil.rollbacks 1 } }

def execCheckpointRollback (step : Nat) (salvaged : List (DigestRec × List Byte)) (dsts : List BlockDst) (r : Rollback) (s : State) : Out :=
  .next (if clusterUp s && awake s then checkpointRollback s step salvaged dsts r else s)

end Sys2Proof.Machine
end

