-- ==== Sys2Proof/Machine/Firmware.lean ====
section
/-!
DEFINITION. Machine/Firmware.lean: image relay, activation, trial and confirmation, feature versions (13 R479–R487).
-/

namespace Sys2Proof.Machine

/-! ## Slots -/

def fwSlot (s : State) (i : Nat) : FwSlot := if i = 0 then s.fw.a else s.fw.b

def setFwSlot (s : State) (i : Nat) (x : FwSlot) : State :=
  { s with fw := if i = 0 then { s.fw with a := x } else { s.fw with b := x } }

/-- The slot that does not run. -/
def otherSlot (s : State) : Nat := 1 - s.fw.boot

def fwStatus (s : State) (n : Nat) : State := { s with fw := { s.fw with status := n } }

/-- The upstream source, and the downstream modules of OD 0A.0021. -/
def upstream (s : State) : Nat := odNum s 0x0A 0x20 0 0xFFFF
def downstream (s : State) : List Nat := ((List.range 4).map (fun i => odNum s 0x0A 0x21 i 0xFFFF)).filter (fun m => m < 0xF000)

def relay (s : State) (kind : Nat) (bs : List Byte) : State := (downstream s).foldl (fun s m => sendControl s 0 m (Config.controlKind kind) bs) s

/-! ## The header (13 R479, R480) -/

def hWord (h : List Nat) (i : Nat) : Nat := h.getD i 0

def hIsvn (h : List Nat) : Nat := hWord h 0 % 256
def hLen (h : List Nat) : Nat := hWord h 1 / 2 ^ 32
def hBlocks (h : List Nat) : Nat := hWord h 1 % 2 ^ 32
def hSigner (h : List Nat) : Nat := fieldN (hWord h 2) 29 24
def hGrades (h : List Nat) : Nat := fieldN (hWord h 2) 31 30

/-- The checks in order, numbered from 1: the first that fails, or 0. -/
def headerCheck (s : State) (h : List Nat) (table : List (List Byte)) (sig : List Byte) : Nat :=
  let padded := roundUp (64 + 32 * hBlocks h + 2820) 65536
  if fieldN (hWord h 0) 63 32 != 0x4B495241 || fieldN (hWord h 0) 31 16 != 1 || fieldN (hWord h 0) 15 8 != 1 ||
      hWord h 2 % 2 ^ 24 != 0 || (List.range 4).any (fun i => hWord h (4 + i) != 0) then 1
  else if hBlocks h != (hLen h + 65535) / 65536 || table.length != hBlocks h || 2 ^ 30 < hLen h + padded then 2
  else if 1 < hSigner h || s.ward.revoke.testBit (hSigner h) then 3
  else if !Config.xmssVerify (toBytes 32 (spGet 0 s.ward.roots (hSigner h))) (bytesOfWords h ++ table.flatten) sig then 4
  else if hIsvn h < s.ward.svn then 5
  else if !(hGrades h).testBit (gradeCode s.grid) then 6
  else 0

/-- A header arrives from the upstream source: a good one makes the inactive slot RECEIVING and goes downstream. -/
def headerIn (s : State) (src : Nat) (h : List Nat) (table : List (List Byte)) (sig : List Byte) : State :=
  let i := otherSlot s
  if src != upstream s || (fwSlot s i).st = 3 || (fwSlot s i).st = 4 then s
  else
    let r := headerCheck s h table sig
    if r != 0 then fwStatus s (0x10 + r)
    else
      let s := setFwSlot s i { st := 1, isvn := hIsvn h, header := h, table := table }
      relay (fwStatus s 1) 5 (bytesOfWords h ++ table.flatten ++ sig)

def execFwHeader (src : Nat) (header : List Nat) (table : List (List Byte)) (sig : List Byte) (s : State) : Out :=
  .next (if clusterUp s && header.length == 8 then headerIn s src header table sig else s)

/-! ## Blocks (13 R481) -/

/-- The next block of the image: written and forwarded where its digest matches, else asked for again, at most three times. -/
def blockIn (s : State) (src n : Nat) (bs : List Byte) : State :=
  let i := otherSlot s
  let x := fwSlot s i
  if src != upstream s || x.st != 1 || n != x.next then s
  else
    let full := padTo 65536 bs
    if Config.shake256 32 full = x.table.getD n [] then
      let x := { x with next := n + 1, retries := 0, blocks := spSet [] x.blocks n bs, st := if n + 1 = hBlocks x.header then 2 else 1 }
      let s := relay (setFwSlot s i x) 6 bs
      if x.st = 2 then fwStatus s 2 else s
    else if x.retries < 3 then
      (let s := setFwSlot s i { x with retries := x.retries + 1 }
       if src < 0xF000 then sendControl s 0 src (Config.controlKind 7) (toBytes 8 n) else s)
    else relay (fwStatus (setFwSlot s i { x with st := 5 }) 0x20) 8 []

def execFwBlock (src index : Nat) (data : List Byte) (s : State) : Out :=
  .next (if clusterUp s && data.length ≤ 65536 then blockIn s src index data else s)

/-- A downstream module asks for a block again. -/
def blockAgain (s : State) (src n : Nat) : State :=
  let x := fwSlot s (otherSlot s)
  if (downstream s).contains src && n < x.next then sendControl s 0 src (Config.controlKind 6) (spGet [] x.blocks n) else s

/-- The upstream module has given the relay up: the slot is INVALID, and so it goes on downstream. -/
def relayAbort (s : State) (src : Nat) : State :=
  let i := otherSlot s
  let x := fwSlot s i
  if src = upstream s && x.st = 1 then relay (fwStatus (setFwSlot s i { x with st := 5 }) 0x20) 8 [] else s

/-- A CONTROL packet is handed to the control cluster: message kind 0x0010 wakes a sleeping module (14 R495); a heartbeat clears its
sender's count, a probe is answered, a probe's answer ends the probe, and a report names a module (12 R444, R445); an upstream's ABORT ends a relay
and a downstream's request has a block sent again (13 R481). -/
def controlIn (s : State) : State :=
  match takeIn s 7 with
  | none => s
  | some (x, s) =>
    let s := acted s x 0
    let kind := x.pkt.opf % 2 ^ 16
    let s := { s with fabric := { s.fabric with control := s.fabric.control ++ [(kind, x.pkt.src, x.pkt.data)] } }
    let s := if kind = 0x10 then wakeSleep s else s
    let s := if kind = Config.controlKind 0 then { s with resil := { s.resil with missed := spErase s.resil.missed x.pkt.src } } else s
    let s := if kind = Config.controlKind 1 && clusterUp s then sendControl s 0 x.pkt.src (Config.controlKind 9) [] else s
    let s := if kind = Config.controlKind 10 then suspect s (bytesAt x.pkt.data 0 8) else s
    let s := if kind = Config.controlKind 7 then blockAgain s x.pkt.src (bytesAt x.pkt.data 0 8) else s
    let s := if kind = Config.controlKind 8 then relayAbort s x.pkt.src else s
    if kind = Config.controlKind 9 then { s with resil := { s.resil with probing := s.resil.probing.erase x.pkt.src } } else s

def execControlPacket (s : State) : Out := .next (controlIn s)

/-! ## Activation (13 R483) -/

/-- Arms a STAGED slot at a generation of a module gate. -/
def fwArm (s : State) (slot gate gen : Nat) : State :=
  if slot < 2 && (fwSlot s slot).st == 2 && 256 ≤ gate && gate < 320 then
    fwStatus { s with fw := { s.fw with armed := some (slot, gate, gen % 2 ^ 32) } } 3
  else s

def execFwArm (who slot gate gen : Nat) (s : State) : Out := .next (if fwOrMgmt who && clusterUp s then fwArm s slot gate gen else s)

/-- The generation has completed: the module checkpoints the committed step, and once that is sealed boots the trial image. The new
image's store starts as a copy of the old one, which stays as it is (13 R486). -/
def fwActivate (s : State) : State :=
  match s.fw.armed with
  | none => s
  | some (slot, gate, gen) =>
    let g := getGate s (1024 + (gate - 256))
    if !g.en || !genReached g.gen (BitVec.ofNat 32 gen) then s
    else if s.resil.sealedStep != s.resil.step || (latestCkpt s).isNone then
      (if s.resil.named.isSome then s else { s with resil := { s.resil with named := some s.resil.step } })
    else
      let s := setFwSlot s slot { fwSlot s slot with st := 3 }
      warmBoot { s with fw := { s.fw with boot := slot, armed := none, status := 0, oldStore := some s.od.vals } }

def execFwActivate (s : State) : Out := .next (if clusterUp s && awake s then fwActivate s else s)

/-! ## Trial (13 R484–R486) -/

def onTrial (s : State) : Bool := (fwSlot s s.fw.boot).st == 3

/-- CONFIRM: the SVN floor rises to the image's, the old store goes. -/
def fwConfirm (s : State) : State :=
  if !onTrial s then s
  else
    let x := fwSlot s s.fw.boot
    let y := fwSlot s (otherSlot s)
    let floor := max s.ward.svn x.isvn
    let s := setFwSlot s s.fw.boot { x with st := 4 }
    let s := setFwSlot s (otherSlot s) (if y.st = 0 then y else { y with st := if y.isvn < floor then 5 else 2 })
    { s with ward := { s.ward with svn := floor }, fw := { s.fw with oldStore := none } }

def execFwConfirm (who : Nat) (s : State) : Out := .next (if fwOrMgmt who && clusterUp s then fwConfirm s else s)

/-- The trial has not been confirmed in time, or three boots have failed: the old image boots, and finds its own store. -/
def fwFallBack (s : State) : State :=
  if !onTrial s then s
  else
    let old := otherSlot s
    let s := setFwSlot s s.fw.boot { fwSlot s s.fw.boot with st := 5 }
    warmBoot { s with
      fw := { s.fw with boot := old, armed := none, oldStore := none }
      od := { s.od with vals := s.fw.oldStore.getD s.od.vals } }

def execFwTrialTimeout (s : State) : Out := .next (if s.power.powered && !s.power.tripped && s.power.st != .off then fwFallBack s else s)

/-! ## Features (13 R487) -/

/-- The feature gate's generation has completed: the module behaves as version OD 0A.0030. -/
def featureSwitch (s : State) : State :=
  let n := odNum s 0x0A 0x31 0 0
  if n < 256 || 320 ≤ n then s
  else
    let g := getGate s (1024 + (n - 256))
    if g.en && genReached g.gen (BitVec.ofNat 32 (odNum s 0x0A 0x32 0 0)) then
      { s with fw := { s.fw with feature := some (odNum s 0x0A 0x30 0 (highestVersion s)) } }
    else s

def execFeatureSwitch (s : State) : Out := .next (if clusterUp s then featureSwitch s else s)

end Sys2Proof.Machine
end

