-- ==== Sys2Proof/Machine/Governor.lean ====
section
/-!
DEFINITION. Machine/Governor.lean: the format governor's commit (04 R174–R178).
-/

namespace Sys2Proof.Machine

/-- a × 2^e of a finite FP32 threshold compared with the ratio num / den: the ratio is above it, exactly. A NaN threshold is
neither above nor below (notes/assumptions/28.md). -/
def ratioAbove (num den thr : Nat) : Bool :=
  match fp32 thr with
  | .num neg m e =>
    if neg then (m != 0 || num != 0)
    else if e < 0 then decide (m * den < num * 2 ^ (-e).toNat) else decide (m * den * 2 ^ e.toNat < num)
  | .inf neg => neg
  | .nan _ _ => false

def ratioBelow (num den thr : Nat) : Bool :=
  match fp32 thr with
  | .num neg m e =>
    if neg then false
    else if e < 0 then decide (num * 2 ^ (-e).toNat < m * den) else decide (num < m * den * 2 ^ e.toNat)
  | .inf neg => !neg
  | .nan _ _ => false

/-- The rules of 04 R176: the first condition that holds. -/
def govRule (k : GovCfg) (g : GovSlot) (cts : List Nat) : GovSlot :=
  let h (i : Nat) : Nat := cts.getD i 0
  let n := (List.range 17).foldl (fun a i => a + h i) 0
  let t13 := h 13 + h 14 + h 15
  if n = 0 then g
  else if g.pin != 0 then { g with fmt := g.pin - 1, run := 0 }
  else match g.fmt with
  | 0 => if ratioAbove t13 n k.upE4 then { g with fmt := 1, run := 0 } else { g with run := 0 }
  | 1 =>
    if ratioAbove (h 15) n k.upE5 then { g with fmt := 2, run := 0 }
    else if ratioBelow t13 n k.downE4 then
      if k.hold ≤ g.run + 1 then { g with fmt := 0, run := 0 } else { g with run := g.run + 1 }
    else { g with run := 0 }
  | _ =>
    if ratioBelow (h 15) n k.downE5 then
      if k.hold ≤ g.run + 1 then { g with fmt := 1, run := 0 } else { g with run := g.run + 1 }
    else { g with run := 0 }

/-- Steps 1 and 2: every core's cache is flushed and the dies' counters are summed. -/
def govSum (s : State) : State :=
  let s := (allCores s).foldl (fun s c =>
    let es := (getCore s c).drain.stats
    if es.isEmpty then s
    else es.foldl (fun s e => flushStat s c e) (updCore s c (fun k => { k with drain := { k.drain with stats := [] } }))) s
  let sums := s.gov.dies.foldl (fun (m : Sparse (List Nat)) p => spUpd [] m (p.1 % 4096) (fun a => satCounts a p.2)) []
  { s with gov := { s.gov with dies := [], sums := sums } }

/-- Steps 4 to 6: the rules where they apply, the formats written into every core's table, the counters cleared, the generation's
threads no longer held back. -/
def govFinish (s : State) (rules : Bool) : State :=
  let slots := if rules then
      s.gov.sums.foldl (fun (m : Sparse GovSlot) p => spUpd {} m p.1 (fun g => govRule s.gov.cfg g p.2)) s.gov.slots
    else s.gov.slots
  let table := slots.foldl (fun (m : Sparse Nat) p => spSet 1 m p.1 p.2.fmt) []
  let g : Governor := { s.gov with
    slots := s.gov.later.foldl (fun m x => slotWrite m x.1 x.2) slots, table := table, last := s.gov.sums, sums := [], due := none, later := [] }
  if g.again = 0 then { s with gov := g } else { s with gov := { g with due := some 0, cfg := govCfg s, again := g.again - 1 } }

/-- The governor's reap context (04 R175). -/
def govCtxOk (s : State) (n : Nat) : Bool :=
  let r := getReap s (reapKey 0 n)
  192 ≤ n && n < 256 && r.en && r.scope == 2 && r.op == 0 && !r.one && r.npk == 15 && r.fgrp == s.gov.cfg.group &&
    members s r.rows r.cols == [0] && (findOut s 0 n).isNone

/-- The FP32 sum of a counter back as a count. -/
def countOf (x : Nat) : Nat :=
  match fp32 x with
  | .num false m e => min ((splitUnits m e 0).1) (2 ^ 32 - 1)
  | .num true _ _ => 0
  | .inf false => 2 ^ 32 - 1
  | _ => 0

/-- The lanes of round r: 19 counters of each of 16 slots; none of slots that are not active. -/
def govLanes (s : State) (r : Nat) : List Nat :=
  (List.range 512).map (fun i =>
    if i < 304 && 16 * r + i / 19 < s.gov.cfg.active then f32ofInt ((spGet [] s.gov.sums (16 * r + i / 19)).getD (i % 19) 0) else 0)

def govStore (s : State) (r : Nat) (lanes : List Nat) : State :=
  { s with gov := { s.gov with
      sums := ((List.range 16).filter (fun k => 16 * r + k < s.gov.cfg.active)).foldl (fun m k =>
        spSet [] m (16 * r + k)
          (let cs := ((lanes.drop (19 * k)).take 19).map countOf
           if cs.all (· == 0) then [] else cs)) s.gov.sums } }

/-- A commit that cannot sum over the fabric: no rule is applied and an event is recorded, whose code no rule states. -/
def govFail (s : State) : State :=
  let (a, s) := drawFree s
  let (b, s) := drawFree s
  let s := sendEvent s { sev := a % 4, code := a / 4 % 2 ^ 16, source := srcUnit 7 0, arg0 := b % 2 ^ 32, arg1 := b / 2 ^ 32 % 2 ^ 64 }
  govFinish s false

/-- One part of the commit in progress: module scope makes it whole; fabric scope contributes a round of 16 slots, or takes its
result. due counts 2 × rounds, odd while a result is awaited. -/
def govCommit (s : State) : State :=
  match s.gov.due with
  | none => s
  | some k =>
    let n := s.gov.cfg.ctx
    let rules := s.gov.cfg.enable
    let s := if k = 0 then govSum s else s
    if !s.gov.cfg.fabric then govFinish s rules
    else if k % 2 = 0 then
      if s.gov.cfg.active ≤ 16 * (k / 2) then govFinish s rules
      else if !govCtxOk s n then govFail s
      else
        let s := { s with gov := { s.gov with due := some (k + 1) } }
        (reapContribute s 0 n .governor (govLanes s (k / 2)) 0).2
    else match findOut s 0 n with
    | none => govFail s
    | some o =>
      match o.result, o.ended with
      | some (lanes, _), _ => { govStore (dropOut s 0 n) (k / 2) lanes with gov := { (govStore (dropOut s 0 n) (k / 2) lanes).gov with due := some (k + 1) } }
      | none, some _ => govFail (dropOut s 0 n)
      | none, none => s

def execGovernorCommit (s : State) : Out := .next (govCommit s)

end Sys2Proof.Machine
end

