-- ==== Sys2Proof/Machine/Harrow.lean ====
section
/-!
DEFINITION. Machine/Harrow.lean: UPDATE, NORM and VERDICT (06 R216–R236). The orders of sums and of reads that no rule states are in
notes/assumptions/29.md.
-/

namespace Sys2Proof.Machine

/-! ## UPDATE: fields and checks (06 R217, R218) -/

def uOpt (ws : List Nat) : Nat := eField ws 0 55 52
def uNest (ws : List Nat) : Bool := eBit ws 0 51
def uMfmt (ws : List Nat) : Nat := eField ws 0 50 49
def uWfmt (ws : List Nat) : Bool := eBit ws 0 48
def uZg (ws : List Nat) : Bool := eBit ws 0 47
def uNb3 (ws : List Nat) : Bool := eBit ws 0 46
def uNb (ws : List Nat) : Nat := if uNb3 ws then 3 else 2
def uBuf (ws : List Nat) (b : Nat) : Nat :=
  match b with
  | 0 => eField ws 1 22 0
  | 1 => eField ws 1 54 32
  | _ => eField ws 2 22 0
def uGrad (ws : List Nat) : Nat := eField ws 2 54 32
def uMst (ws : List Nat) : Nat := eField ws 3 22 0
def uVst (ws : List Nat) : Nat := eField ws 3 54 32
def uEpw (ws : List Nat) : Nat := eField ws 4 22 0
def uMast (ws : List Nat) : Nat := eField ws 4 54 32
def uHp (ws : List Nat) : Nat := eField ws 5 19 0
def uCst (ws : List Nat) : Nat := eField ws 5 54 32
def uFcols (ws : List Nat) : Nat := eField ws 6 15 0

/-- The hyperparameter set at HP: LR, B1, B2, EPS, WD, MU, EPS1 and a word that is ignored (06 R219). -/
def uHyper (s : State) (c : Nat) (ws : List Nat) : List Nat :=
  (List.range 8).map (fun i => ofBytes ((getCore s c).mem.localMem.getBytes (uHp ws + 4 * i) 4))

def f32pos (x : Nat) : Bool := f32lt 0 x

/-- MST is used, under a hyperparameter set (06 R217). -/
def uUsesM (hp : List Nat) (ws : List Nat) : Bool :=
  match uOpt ws with
  | 1 => true
  | 2 => true
  | 4 => true
  | 3 => f32pos (hp.getD 1 0)
  | 5 => f32pos (hp.getD 5 0)
  | _ => false

/-- The bytes of a compute copy. -/
def uWBytes (ws : List Nat) : Nat := if uWfmt ws then eCount ws + eCount ws / 32 else 2 * eCount ws

/-- The granary regions of an UPDATE: offset, size, alignment. -/
def uRegions (hp ws : List Nat) : List (Nat × Nat × Nat) :=
  let n := eCount ws
  (List.range (uNb ws)).map (fun b => (uBuf ws b, uWBytes ws, 64)) ++ [(uGrad ws, 4 * n, 64), (uEpw ws, 8, 8)] ++
    (if uMfmt ws = 1 then [(uMast ws, 4 * n, 64)] else if uMfmt ws = 2 then [(uMast ws, 2 * n, 64)] else []) ++
    (if uUsesM hp ws then [(uMst ws, n + n / 32, 64)] else []) ++
    (if uOpt ws = 2 then [(uVst ws, n, 64)]
     else if uOpt ws = 3 then [(uVst ws, 4 * (n / uFcols ws), 64), (uCst ws, 4 * uFcols ws, 64)] else [])

def fcolsBad (ws : List Nat) : Bool :=
  uOpt ws == 3 && (uFcols ws == 0 || uFcols ws % 32 != 0 || 4096 < uFcols ws || eCount ws % uFcols ws != 0)

/-- The checks of R215 on an UPDATE. -/
def updateCheck (s : State) (c : Nat) (ws : List Nat) : Option Nat :=
  let k := getCore s c
  let r := getEng s c false
  let rs := uRegions (uHyper s c ws) ws
  eFirst
    [(eReserved ws [(0, 45, 44), (1, 63, 55), (1, 31, 23), (2, 63, 55), (2, 31, 23), (3, 63, 55), (3, 31, 23), (4, 63, 55),
        (4, 31, 23), (5, 63, 55), (5, 31, 20), (6, 63, 16), (7, 63, 20)] ||
        6 ≤ uOpt ws || uMfmt ws == 3 || (uMfmt ws == 2 && !uWfmt ws) || eCount ws == 0 || eCount ws % 32 != 0 || fcolsBad ws, 0x11),
     (!rs.all (eGranOk k) || !eDisjoint rs || uHp ws % 32 != 0 || !eLocalOk k r (uHp ws) 32 || !eCplOk k r ws, 0x12),
     (k.eng.laneN ≤ eLane ws, 0x13)]

/-! ## The stubble (12 R427) -/

/-- The stubble of the step in progress; that of the step before makes place for it. -/
def stubbleNow (s : State) : Stubble :=
  if s.resil.stubble.step = s.resil.step + 1 then s.resil.stubble else { step := s.resil.step + 1 }

def setStubble (s : State) (b : Stubble) : State := { s with resil := { s.resil with stubble := b } }

/-- Copies bytes about to be overwritten to the stubble's area. -/
def stubCopy (area : Nat) (s : State) (e : Extent) : State :=
  let b := stubbleNow s
  if !bulkExtentOk (area + b.used) e.len then s
  else
  let g := coreRead s e.gran e.core e.off e.len
  setStubble (writeRun bulkWrite (area + b.used) g.data g.pois g.st)
    { b with recs := b.recs ++ [{ src := area + b.used, dst := e }], used := b.used + roundUp e.len 64 }

/-- Before an UPDATE: the block's MST, VST, CST and MAST regions, and the EPOCH of its epoch word. The UPDATE waits for the copy. -/
def stubUpdate (s : State) (c : Nat) (hp ws : List Nat) : State :=
  match s.resil.stubArea with
  | none => s
  | some area =>
    let s := ((uRegions hp ws).drop (uNb ws + 2)).foldl (fun s r => stubCopy area s { core := c, gran := true, off := r.1, len := r.2.1 }) s
    let g := coreRead s true c (uEpw ws) 8
    let b := stubbleNow g.st
    setStubble g.st { b with epochs := b.epochs ++ [{ core := c, off := uEpw ws, epoch := g.value / 2 ^ 32 }] }

/-- Before a core's first VERDICT of a step: its lane table. -/
def stubLanes (s : State) (c : Nat) : State :=
  match s.resil.stubArea with
  | none => s
  | some area =>
    if (stubbleNow s).lanes.contains c then s
    else
      let k := getCore s c
      let s := stubCopy area s { core := c, gran := true, off := laneAddr k 0, len := 32 * k.eng.laneN }
      setStubble s { stubbleNow s with lanes := (stubbleNow s).lanes ++ [c] }

/-! ## UPDATE: arithmetic (06 R220, R221) -/

/-- x^t where the power needs no rounding: no bits of the significand are lost, nor any below the least subnormal; a power of two may
leave the range. -/
def exactPow (x t : Nat) : Option Nat :=
  match fp32 x with
  | .nan _ _ => some (f32of (fp32 x))
  | .inf neg => some (f32of (.inf (neg && t % 2 == 1)))
  | .num neg m e =>
    let p := stripZeros 24 m e
    let sign := neg && t % 2 == 1
    if p.1 = 0 then some (f32of (.num sign 0 0))
    else if p.1 = 1 then some (f32of (.num sign 1 (max (-400) (min 400 (p.2 * t)))))
    else if t ≤ 15 && p.1 ^ t < 2 ^ 24 && decide (-149 ≤ p.2 * t) then some (f32of (.num sign (p.1 ^ t) (min 400 (p.2 * t))))
    else none

/-- x^t: the exact power where there is one in FP32, else a free value. -/
def f32powT (x t : Nat) : Nat := if t ≤ 1 then x else (exactPow x t).getD (Config.powFn x t % 2 ^ 32)

/-- sign(x), with sign(0) = 0; a NaN passes. -/
def f32sign (x : Nat) : Nat :=
  if f32isNan x then f32of (fp32 x) else if f32isZero x then 0 else if x.testBit 31 then 0xBF800000 else f32one

/-- What the steps of one UPDATE share. -/
structure Hyper where
  lr : Nat
  b1 : Nat
  b2 : Nat
  eps : Nat
  wd : Nat
  mu : Nat
  eps1 : Nat
  c1 : Nat
  c2 : Nat
  deriving DecidableEq, Repr

/-- w − LR × u. -/
def stepBy (h : Hyper) (w u : Nat) : Nat := f32sub w (f32mul h.lr u)

/-- a × x + (1 − a) × y. -/
def blend (a x y : Nat) : Nat := f32add (f32mul a x) (f32mul (f32sub f32one a) y)

/-- One step: the new weight, first moment and second moment. vh is the factored estimate of OPT 3. -/
def updStep (h : Hyper) (opt : Nat) (nest : Bool) (g w m v vh : Nat) : Nat × Nat × Nat :=
  let wd := f32mul h.wd w
  match opt with
  | 0 => (stepBy h w (f32add g wd), m, v)
  | 1 =>
    let d := f32add g wd
    let m' := f32add (f32mul h.mu m) d
    (stepBy h w (if nest then f32add d (f32mul h.mu m') else m'), m', v)
  | 2 =>
    let m' := blend h.b1 m g
    let v' := f32add (f32mul h.b2 v) (f32mul (f32mul (f32sub f32one h.b2) g) g)
    let q := f32div (f32mul h.c1 m') (f32add (f32sqrt (f32mul h.c2 v')) h.eps)
    (stepBy h w (f32add q wd), m', v')
  | 3 =>
    let u := f32div g (f32sqrt (f32mul h.c2 vh))
    if f32pos h.b1 then
      let m' := blend h.b1 m u
      (stepBy h w (f32add (f32mul h.c1 m') wd), m', v)
    else (stepBy h w (f32add u wd), m, v)
  | 4 =>
    let u := f32sign (blend h.b1 m g)
    (stepBy h w (f32add u wd), blend h.b2 m g, v)
  | _ =>
    if f32pos h.mu then
      let m' := f32add (f32mul h.mu m) g
      (stepBy h w (f32add (f32sign m') wd), m', v)
    else (stepBy h w (f32add (f32sign g) wd), m, v)

/-- Element i of an E4M3 array of n elements with its group scales behind it. -/
def e4At (g : Got) (n i : Nat) : Nat := f32scaled (g.elem 1 (n + i / 32)) (decodeElem 2 (g.elem 1 i))

def e4Bad (g : Got) (n i : Nat) : Bool := g.bad 1 i || g.bad 1 (n + i / 32)

/-- A group of values as E4M3 with one scale (06 R221, 04 R167); element j rounds by mode j. -/
def e4Group (mode : Nat → Rnd) (vs : List Nat) : Nat × List Nat :=
  let hasNan := vs.any f32isNan
  let x := mxScaleOf 2 (rowMax vs) hasNan
  (x, (vs.zip (List.range vs.length)).map (fun y =>
    if hasNan then 0 else (convertElem 2 (mode y.2) ((fp32 y.1).scale (127 - (x : Int)))).1))

/-- The statistics of OPT 3 after the first pass: row and column statistics with their poison, and the rows' mean. -/
structure Factored where
  rst : List (Nat × Bool)
  cst : List (Nat × Bool)
  rmean : Nat
  deriving DecidableEq, Repr

/-- factored_stats (06 R220). A gradient word or row statistic that cannot be read enters with a free value. -/
def factoredStats (h : Hyper) (kk n0 : Nat) (grad rs cs : Got) (count fcols : Nat) : Factored :=
  let rows := count / fcols
  let gk (i : Nat) : Nat := f32mul (if grad.bad 4 i then Config.draw (n0 + i) % 2 ^ 32 else grad.elem 4 i) kk
  let sq (r j : Nat) : Nat := f32add (f32mul (gk (r * fcols + j)) (gk (r * fcols + j))) h.eps1
  let stat (old sum n : Nat) : Nat := f32add (f32mul h.b2 old) (f32div (f32mul (f32sub f32one h.b2) sum) (f32ofInt n))
  let rst := (List.range rows).map (fun r => (stat (rs.elem 4 r) (f32sum ((List.range fcols).map (sq r))) fcols, rs.bad 4 r))
  let cst := (List.range fcols).map (fun j =>
    (stat (cs.elem 4 j) (f32sum ((List.range rows).map (fun r => sq r j))) rows, cs.bad 4 j))
  let known := (rst.zip (List.range rows)).map (fun x => if x.1.2 then Config.draw (n0 + count + x.2) % 2 ^ 32 else x.1.1)
  { rst := rst, cst := cst, rmean := f32div (f32sum known) (f32ofInt rows) }

/-- What one parameter of an UPDATE becomes. -/
structure UpdOut where
  w : Nat
  m : Nat
  v : Nat
  deriving DecidableEq, Repr

/-- The bodies of a UPDATE from its step 3 on (06 R220–R222): every output is written and the gradient zeroed; the number of poisoned
groups and the state. e is the epoch. The hyperparameters and the lane entry are those read at the command's start; a poisoned word among
them poisons every group (R222). -/
def updateWrite (s : State) (c : Nat) (cmd : EngCmd) (e : Nat) : Nat × State :=
  let ws := cmd.words
  let n := eCount ws
  let fc := uFcols ws
  let n0 := s.draws
  let rng := rngState s c
  let kk := cmd.laneK
  let t := max cmd.laneT 1
  let hpAt (i : Nat) : Nat := cmd.hyper.getD i 0
  let h : Hyper :=
    { lr := hpAt 0, b1 := hpAt 1, b2 := hpAt 2, eps := hpAt 3, wd := hpAt 4, mu := hpAt 5, eps1 := hpAt 6,
      c1 := f32div f32one (f32sub f32one (f32powT (hpAt 1) t)), c2 := f32div f32one (f32sub f32one (f32powT (hpAt 2) t)) }
  let src := uBuf ws (e % uNb ws)
  let dst := uBuf ws ((e + 1) % uNb ws)
  let useM := uUsesM cmd.hyper ws
  let useV := uOpt ws == 2
  let fact := uOpt ws == 3
  let grad := coreRead s true c (uGrad ws) (4 * n)
  let wsrc := if uMfmt ws = 0 then coreRead grad.st true c src (uWBytes ws)
    else coreRead grad.st true c (uMast ws) (if uMfmt ws = 1 then 4 * n else 2 * n)
  let mst := if useM then coreRead wsrc.st true c (uMst ws) (n + n / 32) else ⟨[], [], wsrc.st⟩
  let vst := if useV then coreRead mst.st true c (uVst ws) n
    else if fact then coreRead mst.st true c (uVst ws) (4 * (n / fc)) else ⟨[], [], mst.st⟩
  let cst := if fact then coreRead vst.st true c (uCst ws) (4 * fc) else ⟨[], [], vst.st⟩
  let s := cst.st
  let fs := if fact then factoredStats h kk n0 grad vst cst n fc else { rst := [], cst := [], rmean := f32one }
  let wAt (i : Nat) : Nat :=
    match uMfmt ws with
    | 1 => wsrc.elem 4 i
    | 2 => f32exact (fmtBF16.decode (wsrc.elem 2 i))
    | _ => if uWfmt ws then e4At wsrc n i else f32exact (fmtBF16.decode (wsrc.elem 2 i))
  let wBad (i : Nat) : Bool :=
    match uMfmt ws with
    | 1 => wsrc.bad 4 i
    | 2 => wsrc.bad 2 i
    | _ => if uWfmt ws then e4Bad wsrc n i else wsrc.bad 2 i
  let rAt (i : Nat) : Nat × Bool := fs.rst.getD (i / fc) (0, false)
  let cAt (i : Nat) : Nat × Bool := fs.cst.getD (i % fc) (0, false)
  let out (i : Nat) : UpdOut :=
    let vh := if fact then f32div (f32mul (rAt i).1 (cAt i).1) fs.rmean else 0
    let r := updStep h (uOpt ws) (uNest ws) (f32mul (grad.elem 4 i) kk) (wAt i) (if useM then e4At mst n i else 0)
      (if useV then f32exact (decodeU8Log (vst.elem 1 i)) else 0) vh
    { w := r.1, m := r.2.1, v := r.2.2 }
  let bad (i : Nat) : Bool :=
    cmd.inBad || grad.bad 4 i || wBad i || (useM && e4Bad mst n i) || (useV && vst.bad 1 i) ||
      (fact && ((rAt i).2 || (cAt i).2))
  let group (j : Nat) : List Nat := (List.range 32).map (fun i => 32 * j + i)
  let groups := List.range (n / 32)
  let outs := groups.map (fun j => (group j).map out)
  let gbad := groups.map (fun j => (group j).any bad)
  let rows := (outs.zip gbad).zip groups
  let sr (k j i : Nat) : Rnd := rndOf 2 rng (n0 + 2 * n + 3 * (32 * j + i) + k)
  -- the master, rounded to its format, and the value the compute copy is made from
  let newM (j i : Nat) (w : Nat) : Nat := if uMfmt ws = 2 then (convertElem 0 (sr 1 j i) (fp32 w)).1 else w
  let copyOf (j i : Nat) (w : Nat) : Nat := if uMfmt ws = 2 then f32exact (fmtBF16.decode (newM j i w)) else w
  let wMode (j i : Nat) : Rnd := if uMfmt ws = 0 then sr 0 j i else .rne
  let idx (l : List UpdOut) : List (UpdOut × Nat) := l.zip (List.range 32)
  let s := if uZg ws then putElems s c (uGrad ws) 4 (List.replicate n (0, false)) else s
  let s :=
    if uMfmt ws = 0 then s
    else putElems s c (uMast ws) (if uMfmt ws = 1 then 4 else 2)
      (rows.flatMap (fun x => (idx x.1.1).map (fun y => (newM x.2 y.2 y.1.w, x.1.2))))
  let s :=
    if uWfmt ws then
      let gs := rows.map (fun x => (e4Group (wMode x.2) ((idx x.1.1).map (fun y => copyOf x.2 y.2 y.1.w)), x.1.2))
      putElems s c dst 1 (gs.flatMap (fun g => g.1.2.map (fun r => (r, g.2))) ++ gs.map (fun g => (g.1.1, g.2)))
    else putElems s c dst 2
      (rows.flatMap (fun x => (idx x.1.1).map (fun y => ((convertElem 0 (wMode x.2 y.2) (fp32 (copyOf x.2 y.2 y.1.w))).1, x.1.2))))
  let s :=
    if useM then
      let gs := rows.map (fun x => (e4Group (sr 2 x.2) (x.1.1.map (·.m)), x.1.2))
      putElems s c (uMst ws) 1 (gs.flatMap (fun g => g.1.2.map (fun r => (r, g.2))) ++ gs.map (fun g => (g.1.1, g.2)))
    else s
  let s := if useV then
      putElems s c (uVst ws) 1 (rows.flatMap (fun x => x.1.1.map (fun y => ((convertElem 9 .rne (fp32 y.v)).1, x.1.2))))
    else s
  let s := if fact then putElems (putElems s c (uVst ws) 4 fs.rst) c (uCst ws) 4 fs.cst else s
  ((gbad.filter id).length, { s with draws := s.draws + 5 * n + n })

/-- The end of step 4: the epoch word is filled (06 R226). -/
def publishFill (s : State) (c : Nat) (ws : List Nat) (v poisoned : Nat) : State :=
  let wd := uEpw ws / 8
  let (s, k, _) := latchProbe s true c wd
  if k.full then s
  else
    let s := serve (latchWrite s true c wd (toBytes 8 v) false true) true c wd
    endCmd s c false (if poisoned = 0 then 0 else 2) (if poisoned = 0 then eCount ws else poisoned)

/-- Steps 3 and 4 (06 R226): the outputs, then LD.TAKE of EPW and its fill with e + 1 and the counts as taken. A FILL that waits at
the word is served by the take, and the Harrow's own fill then waits in turn. -/
def updateRun (s : State) (c : Nat) (cmd : EngCmd) (e : Nat) : State :=
  let ws := cmd.words
  let (bad, s) := updateWrite s c cmd e
  let wd := uEpw ws / 8
  let (s, _, v) := latchProbe s true c wd
  let v' := (e + 1) * 2 ^ 32 + v % 2 ^ 32
  let s := serve (latchSet s true c wd false) true c wd
  let s := updCmd s c false (fun k => { k with phase := .publish, epoch := v', result := bad })
  publishFill s c ws v' bad

/-- CNT[dst] of an epoch word for an epoch e (06 R224). -/
def cntOf (ws : List Nat) (e v : Nat) : Nat := (v / 2 ^ (10 * ((e + 1) % uNb ws))) % 1024

/-- What an UPDATE reads at its start: the hyperparameters, and K, T and SKIP of its lane (06 R219, R220). DESIGN CHOICE,
notes/assumptions/29.md: a poisoned SKIP counts as 0. -/
def updateInputs (s : State) (c : Nat) (cmd : EngCmd) : EngCmd × State :=
  let hp := coreRead s false c (uHp cmd.words) 32
  let ln := laneRead hp.st c (eLane cmd.words)
  let bad := hp.poison || ln.pois.getD 1 false || ln.pois.getD 2 false || ln.pois.getD 3 false
  let cmd := { cmd with
    hyper := (List.range 8).map (fun i => hp.elem 4 i)
    laneK := ln.elem 4 2
    laneT := ln.elem 4 5
    laneSkip := !ln.pois.getD 3 false && (ln.elem 4 6).testBit 31
    inBad := bad }
  (cmd, updCmd ln.st c false (fun _ => cmd))

/-- UPDATE once its inputs are read (06 R220, R226, R236). It waits for a full epoch word; an epoch word that is poison counts as
inconsistent. -/
def updateGo (s : State) (c : Nat) (cmd : EngCmd) : State :=
    let ws := cmd.words
    if cmd.laneSkip then
      let s := if uZg ws then putElems s c (uGrad ws) 4 (List.replicate (eCount ws) (0, false)) else s
      endCmd s c false 1 0
    else
      let (s, k, v) := latchProbe s true c (uEpw ws / 8)
      let e := v / 2 ^ 32
      if !k.full then s
      else if k.poison || v.testBit 31 != uNb3 ws || e == 0xFFFFFFFF then endCmd s c false 0x11 0
      else if cntOf ws e v = 0 then updateRun s c cmd e
      else updCmd s c false (fun k => { k with phase := .epochWait, epoch := e })

/-- UPDATE from its start: its checks and its reads of inputs are made once. -/
def updateStart (s : State) (c : Nat) (cmd : EngCmd) : State :=
  if !cmd.hyper.isEmpty then updateGo s c cmd
  else
    match updateCheck s c cmd.words with
    | some st => endCmd s c false st 0
    | none =>
      let (cmd, s) := updateInputs s c cmd
      updateGo (stubUpdate s c cmd.hyper cmd.words) c cmd

/-- UPDATE: the command in the Harrow runs, or its last fill is tried again. -/
def execUpdate (core : Nat) (s : State) : Out :=
  .next (match engCmd s core false 1 none .run with
    | some k => updateStart s core k
    | none =>
      match engCmd s core false 1 none .publish with
      | some k => publishFill s core k.words k.epoch k.result
      | none => s)

/-- A fill of the epoch word lets a waiting UPDATE look again (06 R226). -/
def execUpdateEpochResume (core : Nat) (s : State) : Out :=
  .next (match engCmd s core false 1 none .epochWait with
    | some k =>
      let (s, m, v) := latchProbe s true core (uEpw k.words / 8)
      if m.full && cntOf k.words k.epoch v = 0 then updateRun s core k k.epoch else s
    | none => s)

/-- The epoch wait has lasted longer than HWDOG (06 R227). -/
def execHarrowEpochTimeout (core : Nat) (s : State) : Out :=
  .next (match engCmd s core false 1 none .epochWait with
    | some _ => if (getCore s core).eng.hwdog = 0 then s else endCmd s core false 0x20 0
    | none => s)

/-! ## NORM (06 R229) -/

def normCheck (s : State) (c : Nat) (ws : List Nat) : Option Nat :=
  let k := getCore s c
  let r := getEng s c false
  eFirst
    [(eReserved ws [(0, 55, 44), (1, 63, 23), (2, 63, 0), (3, 63, 0), (4, 63, 0), (5, 63, 0), (6, 63, 0), (7, 63, 20)] ||
        eCount ws == 0 || eCount ws % 32 != 0, 0x11),
     (!eGranOk k (eField ws 1 22 0, 4 * eCount ws, 64) || !eCplOk k r ws, 0x12),
     (k.eng.laneN ≤ eLane ws, 0x13)]

def normRun (s : State) (c : Nat) (ws : List Nat) : State :=
  match normCheck s c ws with
  | some st => endCmd s c false st 0
  | none =>
    let l := eLane ws
    let g := coreRead s true c (eField ws 1 22 0) (4 * eCount ws)
    let xs := (List.range (eCount ws)).map (fun i => (g.elem 4 i, g.bad 4 i || !f32finite (g.elem 4 i)))
    let sum := f32sum ((xs.filter (fun x => !x.2)).map (fun x => f32mul x.1 x.1))
    let nbad := (xs.filter (·.2)).length
    let s := setLaneField g.st c l 0x10 (f32add (laneField g.st c l 0x10) sum)
    endCmd (if nbad = 0 then s else setNfp s c l true) c false 0 nbad

def execNorm (core : Nat) (s : State) : Out :=
  .next (match engCmd s core false 2 none .run with
    | some k => normRun s core k.words
    | none => s)

/-! ## VERDICT (06 R230, R231, R234) -/

def vClr (ws : List Nat) : Bool := eBit ws 0 44
def vLanes (ws : List Nat) : List Nat := (List.range (eField ws 0 8 0 + 1)).map (fun i => eLane ws + i)
def vCtx (ws : List Nat) : Nat := eField ws 1 7 0

def verdictCheck (s : State) (c : Nat) (ws : List Nat) : Option Nat :=
  let k := getCore s c
  eFirst
    [(eReserved ws [(0, 55, 45), (0, 40, 32), (0, 31, 9), (1, 63, 8), (2, 63, 0), (3, 63, 0), (4, 63, 0), (5, 63, 0), (6, 63, 0),
        (7, 63, 20)], 0x11),
     (!eCplOk k (getEng s c false) ws, 0x12),
     (k.eng.laneN < eLane ws + eField ws 0 8 0 + 1, 0x13)]

/-- The context takes the contribution (09 R349). -/
def verdictCtxOk (s : State) (c : Nat) (ws : List Nat) : Bool :=
  let r := getReap s (reapKey (dieOf s.grid c) (vCtx ws))
  r.en && named r.rows r.cols c && r.op == 0 && !r.one && r.lanes == eField ws 0 8 0 + 1 && (findOut s c (vCtx ws)).isNone

/-- VERDICT contributes and waits for the result. -/
def verdictRun (s : State) (c : Nat) (ws : List Nat) : State :=
  match verdictCheck s c ws with
  | some st => endCmd s c false st 0
  | none =>
    if !verdictCtxOk s c ws then endCmd s c false 0x22 0
    else
      let s := stubLanes s c
      let ls := vLanes ws
      let s := ls.foldl (fun s l => (laneRead s c l).st) s
      let lanes := ls.map (fun l => if lanePoison s c l 0x10 then 0 else laneField s c l 0x10)
      let flag (l : Nat) : Bool := lanePoison s c l 0x10 || laneNfp s c l
      let flags := (ls.zip (List.range ls.length)).foldl (fun f x => if flag x.1 then f + 2 ^ x.2 else f) 0
      let s := updCmd s c false (fun k => { k with phase := .reapWait })
      (reapContribute s c (vCtx ws) .harrow lanes flags).2

def execVerdict (core : Nat) (s : State) : Out :=
  .next (match engCmd s core false 3 none .run with
    | some k => if vClr k.words then s else verdictRun s core k.words
    | none => s)

def clearLane (s : State) (c l : Nat) : State := setNfp (setLaneField s c l 0x10 0) c l false

/-- VERDICT with CLRONLY = 1. -/
def execVerdictClronly (core : Nat) (s : State) : Out :=
  .next (match engCmd s core false 3 none .run with
    | some k =>
      if vClr k.words then
        match verdictCheck s core k.words with
        | some st => endCmd s core false st 0
        | none => endCmd ((vLanes k.words).foldl (fun s l => clearLane s core l) (stubLanes s core)) core false 0 0
      else s
    | none => s)

/-- A quiet NaN whose sign and payload no rule states. -/
def quietNan (a b : Nat) : Nat :=
  let k := Config.nanBits 10 a b
  k / 2 ^ 22 % 2 * 2 ^ 31 + 0x7FC00000 + k % 2 ^ 22

/-- The verdict of one lane (06 R231). -/
def verdictLane (s : State) (c l ss : Nat) (nf : Bool) : State :=
  let ls0 := laneField s c l 0x00
  let lscale := if !f32finite ls0 || !f32pos ls0 then f32one else ls0
  let clip := laneField s c l 0x04
  let w := laneField s c l 0x18
  let good := w % 2 ^ 16
  let grown := fieldN w 23 16
  if nf || !f32finite ss then
    let s := setLaneField s c l 0x00 (f32max (f32mul lscale 0x3F000000) (f32pow2 (-16)))
    let s := setLaneField s c l 0x08 0
    let s := setLaneField s c l 0x0C (quietNan l ss)
    let s := setLaneField s c l 0x10 0
    setLaneField s c l 0x18 (setFieldN (setFieldN w 31 30 2) 15 0 0)
  else
    let n := f32div (f32sqrt ss) lscale
    let cc := if f32pos clip && f32lt clip n then f32div clip n else f32one
    let up := grown != 0 && grown ≤ (good + 1) % 2 ^ 16
    let s := setLaneField s c l 0x00 (if up then f32min (f32mul lscale 0x40000000) (f32pow2 24) else lscale)
    let s := setLaneField s c l 0x08 (f32div cc lscale)
    let s := setLaneField s c l 0x0C n
    let s := setLaneField s c l 0x10 0
    let s := setLaneField s c l 0x14 ((laneField s c l 0x14 + 1) % 2 ^ 32)
    setLaneField s c l 0x18 (setFieldN (setFieldN w 31 30 0) 15 0 (if up then 0 else good + 1))

/-- The result of the norm reap, or its end (06 R231, R234). -/
def verdictResult (s : State) (c : Nat) (ws : List Nat) : State :=
  match findOut s c (vCtx ws) with
  | none => s
  | some o =>
    if o.who != .harrow then s
    else match o.result, o.ended with
    | some (lanes, flags), _ =>
      let s := dropOut s c (vCtx ws)
      let ls := vLanes ws
      let s := (ls.zip (List.range ls.length)).foldl (fun s x => verdictLane s c x.1 (lanes.getD x.2 0) (flags.testBit x.2)) s
      endCmd s c false 0 ((ls.filter (fun l => laneSkip s c l)).length)
    | none, some (.hole _) => endCmd (dropOut s c (vCtx ws)) c false 0x21 0
    | none, some .disabled => endCmd (dropOut s c (vCtx ws)) c false 0x22 0
    | none, some .reset => endCmd (dropOut s c (vCtx ws)) c false 0x23 0
    | none, none => s

def execVerdictReapResult (core : Nat) (s : State) : Out :=
  .next (match engCmd s core false 3 none .reapWait with
    | some k => verdictResult s core k.words
    | none => s)

end Sys2Proof.Machine
end

