-- ==== Sys2Proof/Machine/Stalls.lean ====
section
/-!
DEFINITION. Machine/Stalls.lean: the stall counters outside the cores and the module-wide freeze and clear (15 R545–R549). What a clock
charges is free, as in Machine/Control.lean.
-/

namespace Sys2Proof.Machine

/-- The engines outside the cores, with the flits over the die edges and the bytes across the middle cut: first item of area 0B, causes, how
many there are. -/
def unitBanks : List (Nat × Nat × Nat) :=
  [(0x1500, 8, 4), (0x1600, 8, 12), (0x1700, 6, 16), (0x1800, 8, 4), (0x10, 1, 12), (0x11, 1, 2)]

def unitKey (item sub : Nat) : Nat := item * 65536 + sub

/-- A counter of such an engine: item and sub-index of area 0B. -/
def unitHas (item sub : Nat) : Bool := unitBanks.any (fun b => b.1 ≤ item && item < b.1 + b.2.1 && sub < b.2.2)

def unitCharge (s : State) (item sub : Nat) : State :=
  if s.od.stallFrozen then s
  else
    let (n, s) := drawFree s
    { s with od := { s.od with stalls := spUpd (0, false) s.od.stalls (unitKey item sub) (chargeFree n) } }

def unitRead (s : State) (item sub : Nat) : Word × State :=
  let s := unitCharge s item sub
  (countWord (spGet (0, false) s.od.stalls (unitKey item sub)), s)

/-- Every counter of every such engine is charged up to now. -/
def unitsCharge (s : State) : State :=
  unitBanks.foldl (fun s b => (List.range b.2.1).foldl (fun s c => (List.range b.2.2).foldl (fun s i => unitCharge s (b.1 + c) i) s) s) s

/-- OD 0B.0000: every engine of the module freezes or goes on. -/
def moduleFreeze (s : State) (on : Bool) : State :=
  let s := if on then unitsCharge s else s
  let s := { s with od := { s.od with stallFrozen := on } }
  ((allCores s).filter (fun c => !isHole s c)).foldl (fun s c => stallFreeze s c on) s

def execModuleStallFreeze (on : Bool) (s : State) : Out := .next (moduleFreeze (odSet s 0x0B 0 0 (boolN on)) on)

/-- OD 0B.0001: every counter of area 0B. -/
def moduleClear (s : State) : State :=
  (s.cores.map (·.1)).foldl stallClear { s with od := { s.od with stalls := [], xqParity := 0, ctlDrops := 0 } }

def execModuleStallClear (s : State) : Out := .next (moduleClear s)

/-- Where a core's counter lies in its CONTROL space, by item of area 0B. -/
def coreCounterOf (item : Nat) : Option Nat :=
  if 0x1000 ≤ item && item < 0x1014 then some (item - 0x1000)
  else if 0x1020 ≤ item && item < 0x1034 then some (32 + (item - 0x1020))
  else if item = 0x1040 then some 52
  else if item = 0x1041 then some 79
  else if 0x1100 ≤ item && item < 0x1107 then some (64 + (item - 0x1100))
  else if 0x1180 ≤ item && item < 0x1185 then some (80 + (item - 0x1180))
  else if 0x1200 ≤ item && item < 0x120A then some (96 + (item - 0x1200))
  else if 0x1300 ≤ item && item < 0x1306 then some (128 + (item - 0x1300))
  else if 0x1400 ≤ item && item < 0x1406 then some (160 + (item - 0x1400))
  else if item = 0x0020 then some 192
  else none

end Sys2Proof.Machine
end

