-- ==== Sys2Proof/Machine/OD.lean ====
section
/-!
DEFINITION. Machine/OD.lean: the object dictionary: its objects, their values, and a read, a write and a description of one under a principal's
rights (15 R525–R538, and the lists of the other chapters that 15 R537 names).
-/

namespace Sys2Proof.Machine

/-! ## Types and access codes (15 R525, R526) -/

inductive ObjType where
  | u8
  | u16
  | u32
  | u64
  | f32
  | bool
  | str
  | blob
  deriving DecidableEq, Repr

def ObjType.code : ObjType → Nat
  | .u8 => 1
  | .u16 => 2
  | .u32 => 3
  | .u64 => 4
  | .f32 => 6
  | .bool => 7
  | .str => 8
  | .blob => 9

/-- Bytes of a numeric or BOOL value; none for STR and BLOB. -/
def ObjType.width : ObjType → Option Nat
  | .u8 => some 1
  | .u16 => some 2
  | .u32 => some 4
  | .u64 => some 8
  | .f32 => some 4
  | .bool => some 1
  | .str => none
  | .blob => none

inductive Access where
  | ro
  | rw
  | wo
  | rws
  deriving DecidableEq, Repr

def Access.code : Access → Nat
  | .ro => 0
  | .rw => 1
  | .wo => 2
  | .rws => 3

/-- An object: its item, its type or that of its elements, the elements of an ARRAY, its access. -/
structure Obj where
  item : Nat
  ty : ObjType
  arr : Option Nat
  acc : Access
  deriving DecidableEq, Repr

/-! ## The lists (01 R23; 04 R178; 07 R284; 10 R386; 11 R424; 12 R451; 13 R488; 14 R524; 15 R538, R549, R554) -/

def objs00 : List Obj :=
  [⟨0x00, .str, none, .ro⟩, ⟨0x01, .str, none, .ro⟩, ⟨0x02, .u32, none, .ro⟩, ⟨0x03, .u16, none, .ro⟩, ⟨0x04, .blob, none, .ro⟩,
   ⟨0x10, .blob, none, .ro⟩, ⟨0x11, .blob, none, .ro⟩, ⟨0x40, .bool, none, .wo⟩]

def objs01 : List Obj :=
  [⟨0x00, .u8, none, .ro⟩, ⟨0x01, .u8, none, .ro⟩, ⟨0x10, .u8, none, .ro⟩, ⟨0x21, .blob, none, .ro⟩, ⟨0x22, .blob, none, .wo⟩,
   ⟨0x23, .u8, none, .ro⟩, ⟨0x24, .u8, none, .wo⟩, ⟨0x25, .u8, none, .wo⟩, ⟨0x30, .blob, none, .rw⟩, ⟨0x31, .u16, none, .ro⟩,
   ⟨0x32, .u16, none, .ro⟩, ⟨0x40, .bool, none, .rws⟩, ⟨0x50, .u8, some 16384, .ro⟩]

def objs02 : List Obj :=
  [⟨0x00, .u8, none, .ro⟩, ⟨0x01, .u8, none, .wo⟩, ⟨0x02, .u8, none, .ro⟩, ⟨0x03, .bool, none, .wo⟩, ⟨0x04, .bool, none, .wo⟩,
   ⟨0x10, .u8, none, .rw⟩, ⟨0x11, .u8, none, .ro⟩, ⟨0x12, .f32, none, .ro⟩, ⟨0x13, .u32, none, .ro⟩, ⟨0x20, .u8, some 4, .rw⟩,
   ⟨0x21, .u8, some 4, .ro⟩, ⟨0x22, .u16, some 4, .wo⟩, ⟨0x23, .u8, some 4, .ro⟩]

def objs03 : List Obj :=
  [⟨0x01, .u32, some 8, .ro⟩, ⟨0x10, .f32, some 4, .ro⟩, ⟨0x11, .u8, none, .rw⟩, ⟨0x20, .f32, none, .ro⟩, ⟨0x21, .f32, none, .ro⟩]

def objs04 : List Obj :=
  [⟨0x00, .u8, none, .ro⟩, ⟨0x01, .u8, none, .ro⟩, ⟨0x02, .u8, none, .ro⟩, ⟨0x10, .u32, some 96, .ro⟩, ⟨0x20, .u8, some 2304, .ro⟩,
   ⟨0x21, .u16, none, .ro⟩, ⟨0x22, .u16, none, .ro⟩]

def objs05 : List Obj :=
  [⟨0x00, .u64, none, .ro⟩, ⟨0x01, .u32, none, .ro⟩, ⟨0x10, .u8, some 2304, .ro⟩, ⟨0x21, .u32, none, .rw⟩, ⟨0x22, .u32, none, .rw⟩,
   ⟨0x30, .u64, some 12, .ro⟩, ⟨0x31, .u64, some 12, .ro⟩, ⟨0x32, .u64, some 4, .ro⟩, ⟨0x33, .u64, some 4, .ro⟩, ⟨0x40, .u64, none, .ro⟩,
   ⟨0x41, .u64, none, .rws⟩, ⟨0x42, .u64, none, .ro⟩, ⟨0x50, .u32, some 12, .ro⟩, ⟨0x51, .blob, none, .ro⟩, ⟨0x60, .u64, none, .ro⟩]

def objs06 : List Obj :=
  [⟨0x00, .u16, none, .rw⟩, ⟨0x01, .u8, none, .ro⟩, ⟨0x02, .u8, none, .rw⟩, ⟨0x10, .u32, some 16, .ro⟩, ⟨0x11, .bool, some 16, .rw⟩,
   ⟨0x20, .u32, some 8, .rw⟩, ⟨0x21, .u8, some 8, .rw⟩, ⟨0x30, .u32, none, .rw⟩, ⟨0x31, .u8, none, .rw⟩, ⟨0x32, .u32, none, .rw⟩,
   ⟨0x33, .u32, none, .rw⟩, ⟨0x40, .u32, some 64, .rw⟩] ++
  (List.range 6).map (fun i => ⟨0x100 + i, .u64, some 16, .ro⟩) ++ (List.range 4).map (fun i => ⟨0x110 + i, .u64, none, .ro⟩)

def objs07 : List Obj :=
  [⟨0x01, .u8, none, .rws⟩, ⟨0x20, .u8, some 64, .rw⟩, ⟨0x31, .u32, none, .rw⟩, ⟨0x32, .u32, none, .rw⟩, ⟨0x33, .u32, none, .rw⟩,
   ⟨0x40, .bool, none, .rws⟩, ⟨0x100, .u64, some 64, .ro⟩, ⟨0x101, .u64, some 64, .ro⟩] ++
  (List.range 4).map (fun i => ⟨0x102 + i, .u64, some 2, .ro⟩)

def objs08 : List Obj :=
  (List.range 4).map (fun i => ⟨i, .u16, some 4, .ro⟩) ++ [⟨0x10, .u8, some 8, .rw⟩, ⟨0x11, .u8, none, .rw⟩]

def objs09 : List Obj :=
  [⟨0x00, .u64, none, .ro⟩, ⟨0x01, .u64, none, .ro⟩, ⟨0x02, .u32, none, .ro⟩, ⟨0x03, .u64, none, .ro⟩, ⟨0x10, .u32, none, .rw⟩,
   ⟨0x11, .u16, none, .rw⟩, ⟨0x12, .u16, none, .rw⟩, ⟨0x13, .u8, none, .rw⟩, ⟨0x14, .u8, none, .rw⟩, ⟨0x15, .u32, none, .ro⟩,
   ⟨0x16, .u64, none, .ro⟩, ⟨0x20, .u32, none, .rw⟩, ⟨0x21, .u8, none, .rw⟩, ⟨0x22, .u32, none, .rw⟩, ⟨0x30, .u16, some 65536, .ro⟩,
   ⟨0x40, .u32, none, .ro⟩, ⟨0x41, .u32, none, .ro⟩, ⟨0x42, .u32, none, .ro⟩]

def objs0A : List Obj :=
  [⟨0x00, .u8, some 2, .ro⟩, ⟨0x01, .u8, some 2, .ro⟩, ⟨0x02, .u8, none, .ro⟩, ⟨0x10, .blob, none, .wo⟩, ⟨0x11, .bool, none, .wo⟩,
   ⟨0x12, .u32, none, .rw⟩, ⟨0x20, .u16, none, .rw⟩, ⟨0x21, .u16, some 4, .rw⟩, ⟨0x30, .u8, none, .rw⟩, ⟨0x31, .u16, none, .rw⟩,
   ⟨0x32, .u32, none, .rw⟩, ⟨0x40, .u8, none, .ro⟩]

def objs0B : List Obj :=
  [⟨0x00, .bool, none, .rw⟩, ⟨0x01, .bool, none, .wo⟩, ⟨0x10, .u64, some 12, .ro⟩, ⟨0x11, .u64, some 2, .ro⟩, ⟨0x30, .u64, none, .ro⟩,
   ⟨0x31, .u64, none, .ro⟩]

/-- The counters of area 0B, by item. -/
def counterObj (item : Nat) : Option Obj :=
  if (coreCounterOf item).isSome then some ⟨item, .u64, some 2304, .ro⟩
  else (unitBanks.find? (fun b => b.1 ≤ item && item < b.1 + b.2.1)).map (fun b => ⟨item, .u64, some b.2.2, .ro⟩)

def objs0C : List Obj :=
  [⟨0x00, .bool, none, .ro⟩, ⟨0x01, .u16, none, .ro⟩, ⟨0x02, .u32, none, .ro⟩, ⟨0x03, .u32, none, .ro⟩, ⟨0x04, .u32, none, .rw⟩,
   ⟨0x05, .bool, none, .wo⟩, ⟨0x06, .u16, none, .ro⟩, ⟨0x10, .blob, some 2048, .ro⟩, ⟨0x11, .blob, none, .ro⟩, ⟨0x12, .blob, none, .ro⟩,
   ⟨0x20, .blob, none, .ro⟩, ⟨0x21, .blob, some 255, .ro⟩, ⟨0x31, .u32, none, .ro⟩]

def objs0D : List Obj :=
  [⟨0x00, .u8, some 24, .ro⟩, ⟨0x01, .u8, some 24, .ro⟩, ⟨0x02, .u8, none, .ro⟩, ⟨0x10, .u16, none, .rw⟩, ⟨0x11, .u16, none, .rw⟩,
   ⟨0x12, .u16, none, .ro⟩, ⟨0x13, .bool, none, .rw⟩]

def objs0E : List Obj :=
  [⟨0x00, .bool, none, .rw⟩, ⟨0x01, .u16, none, .rw⟩, ⟨0x02, .u8, none, .rw⟩, ⟨0x03, .u16, none, .rw⟩, ⟨0x04, .u16, none, .rw⟩,
   ⟨0x05, .u8, none, .rw⟩, ⟨0x10, .f32, none, .rw⟩, ⟨0x11, .f32, none, .rw⟩, ⟨0x12, .f32, none, .rw⟩, ⟨0x13, .f32, none, .rw⟩,
   ⟨0x14, .u8, none, .rw⟩, ⟨0x1000, .u32, some 4096, .rw⟩, ⟨0x2000, .blob, some 4096, .ro⟩]

def areaObjs (area : Nat) : List Obj :=
  [objs00, objs01, objs02, objs03, objs04, objs05, objs06, objs07, objs08, objs09, objs0A, objs0B, objs0C, objs0D, objs0E].getD area []

def objOf (area item : Nat) : Option Obj :=
  match (areaObjs area).find? (fun o => o.item == item) with
  | some o => some o
  | none => if area = 0x0B then counterObj item else none

/-- Objects served by the always-on domain (15 R535). -/
def isAo (area item : Nat) : Bool :=
  area == 0x00 || area == 0x0C ||
  (area == 0x01 && [0x00, 0x01, 0x10].contains item) || (area == 0x02 && [0x00, 0x01, 0x02, 0x03, 0x12].contains item) ||
  (area == 0x03 && [0x10, 0x20, 0x21].contains item) || (area == 0x09 && item == 0x02) || (area == 0x0A && [0x00, 0x40].contains item) ||
  (area == 0x0D && [0x00, 0x01, 0x02].contains item)

/-! ## Rights (15 R526): bit 0 HOST, 1 MGMT, 2 FW, 3 DEBUG -/

/-- Listings that name their writers. -/
def writerList : List (Nat × Nat × Nat) :=
  [(0x00, 0x40, 2), (0x01, 0x22, 10), (0x01, 0x24, 8), (0x01, 0x25, 8), (0x01, 0x30, 2), (0x02, 0x01, 7), (0x02, 0x03, 2), (0x0C, 0x04, 7)]

def writersOf (area : Nat) (o : Obj) : Nat :=
  if o.acc = .ro then 0
  else match writerList.find? (fun x => x.1 == area && x.2.1 == o.item) with
    | some x => x.2.2
    | none => 6

/-- The nonce is for those who may send a token (13 R474). -/
def readersOf (area : Nat) (o : Obj) : Nat :=
  if o.acc = .wo then 0 else if area = 0x01 && o.item = 0x21 then 10 else 15

/-! ## Defaults and ranges -/

def fwWeight (c : Nat) : Nat := [64, 32, 16, 8, 4, 2, 1, 1].getD c 1

/-- Default of a numeric or BOOL object. -/
def objDefault (s : State) (area item sub : Nat) : Nat :=
  match area, item with
  | 0x02, 0x10 => maxClass s
  | 0x03, 0x11 => 95
  | 0x05, 0x00 => 192000000000
  | 0x05, 0x01 => 2929687
  | 0x05, 0x21 => 10
  | 0x05, 0x22 => 24
  | 0x05, 0x40 => 7200000000000
  | 0x05, 0x41 => 4608000000000
  | 0x06, 0x00 => 0xFFFF
  | 0x06, 0x02 => imageVersion s 39 32 1 % 256
  | 0x06, 0x11 => 1
  | 0x06, 0x20 => vcBuffer sub * 65537
  | 0x06, 0x21 => [0, 0, 1, 4, 8, 4, 2, 0].getD sub 0
  | 0x06, 0x30 => 1000
  | 0x06, 0x31 => 8
  | 0x06, 0x32 => 100
  | 0x06, 0x33 => 1000
  | 0x06, 0x40 => 0xFFFF0000
  | 0x07, 0x01 => 63
  | 0x07, 0x20 => barDefault sub
  | 0x07, 0x31 => 10
  | 0x07, 0x32 => 100
  | 0x07, 0x33 => 50
  | 0x08, 0x10 => fwWeight sub
  | 0x08, 0x11 => 4
  | 0x09, 0x10 => 300
  | 0x09, 0x11 => 12
  | 0x09, 0x13 => 80
  | 0x09, 0x15 => 300
  | 0x09, 0x20 => 1000
  | 0x09, 0x21 => 5
  | 0x09, 0x22 => 500
  | 0x09, 0x30 => 0xFFFF
  | 0x01, 0x31 => 1024
  | 0x0A, 0x12 => 1800
  | 0x0A, 0x20 => 0xFFFF
  | 0x0A, 0x21 => 0xFFFF
  | 0x0A, 0x30 => highestVersion s % 256
  | 0x0E, 0x00 => 1
  | 0x0E, 0x04 => 4096
  | 0x0E, 0x05 => 255
  | 0x0E, 0x10 => f32pow2 (-10)
  | 0x0E, 0x11 => f32pow2 (-14)
  | 0x0E, 0x12 => f32pow2 (-8)
  | 0x0E, 0x13 => f32pow2 (-12)
  | 0x0E, 0x14 => 8
  | 0x0E, 0x1000 => 1
  | _, _ => 0

/-- The values an object takes, where its list restricts them. -/
def objRange (area item v : Nat) : Bool :=
  match area, item with
  | 0x01, 0x24 => v ≤ 3
  | 0x01, 0x25 => v == 1
  | 0x02, 0x10 => v ≤ 2
  | 0x03, 0x11 => 80 ≤ v && v ≤ 100
  | 0x05, 0x21 => 1 ≤ v && v ≤ 3600
  | 0x05, 0x22 => 1 ≤ v && v ≤ 168
  | 0x05, 0x41 => v % 4096 == 0 && v + 2 * 2 ^ 30 + 16 * 2 ^ 20 ≤ 7200000000000
  | 0x06, 0x21 => 1 ≤ v
  | 0x06, 0x30 => 10 ≤ v && v ≤ 100000
  | 0x06, 0x31 => 1 ≤ v && v ≤ 64
  | 0x06, 0x33 => 10 ≤ v && v ≤ 60000
  | 0x07, 0x01 => v ≤ 63
  | 0x07, 0x20 => v == 0 || (30 ≤ v && v ≤ 38)
  | 0x07, 0x31 => 1 ≤ v && v ≤ 3600
  | 0x07, 0x32 => 10 ≤ v && v ≤ 10000
  | 0x07, 0x33 => 1 ≤ v && v ≤ 1000
  | 0x08, 0x10 => 1 ≤ v
  | 0x08, 0x11 => 1 ≤ v && v ≤ 8
  | 0x09, 0x10 => 60 ≤ v && v ≤ 86400
  | 0x09, 0x11 => v ≤ 1000
  | 0x09, 0x13 => 10 ≤ v && v ≤ 95
  | 0x09, 0x20 => 100 ≤ v && v ≤ 100000
  | 0x09, 0x21 => 2 ≤ v && v ≤ 64
  | 0x09, 0x22 => 50 ≤ v && v ≤ 10000
  | 0x0A, 0x12 => 60 ≤ v && v ≤ 86400
  | 0x0E, 0x02 => v ≤ 1
  | 0x0E, 0x04 => 1 ≤ v && v ≤ 4096
  | 0x0E, 0x05 => 192 ≤ v
  | 0x0E, 0x14 => 1 ≤ v
  | 0x0E, 0x1000 => v % 4 != 3
  | _, _ => true

/-! ## Values -/

/-- The phase of a hinge pin (14 R512, R517). -/
def pinPhase (s : State) (n : Nat) : Nat :=
  let p := spGet 3 s.power.phases n
  if p != 3 then p
  else if 8 ≤ n && n ≤ 12 && 2 ≤ strapVal s 7 then 4
  else if 13 ≤ n && n ≤ 19 && 2 ≤ s.ward.debug && odNum s 0x0D 0x13 0 0 == 1 then 4
  else 3

/-- A value that only a measurement gives. -/
def measured (s : State) : Nat × State := drawFree s

def queuesOn (s : State) (d : Nat) (p : Queue → Bool) : Nat := (s.host.queues.filter (fun x => queueDie x.1 == d && p x.2)).length

/-- The frequencies of the domains in the order of 14 R504; those that differ from die to die or come from the peer are measured. -/
def domainKhz (s : State) (n : Nat) : Nat × State :=
  match n with
  | 0 => let ps := dies.map (fun d => (getDie s d).point)
         if ps.all (fun p => p == ps.headD 0) then (pointKhz (ps.headD 0), s) else measured s
  | 1 => (2000000, s)
  | 2 => (1333000, s)
  | 3 => (3000000, s)
  | 4 => (1000000, s)
  | 5 => measured s
  | 6 => (400000, s)
  | _ => (32000, s)

/-- A fabric port's status word (11 R424). -/
def portStatus (p : FabPort) : Nat :=
  let st := match p.state with
    | .off => 0
    | .laser => 1
    | .train => 2
    | .align => 3
    | .negotiate => 4
    | .secure => 5
    | .up => 6
    | .failed => 7
  if p.state = .up then st * 2 ^ 28 + (if p.laneSet = 0 then 8 else 4) * 2 ^ 24 + p.ver % 256 * 2 ^ 16 + p.peer else st * 2 ^ 28

/-- A count of events in the layout of the stall counters (15 R539, R549). -/
def eventCount (n : Nat) : Word := countWord (n % 2 ^ 48, decide (2 ^ 48 ≤ n))

/-- A counter of area 0B. -/
def counterGet (s : State) (item sub : Nat) : Nat × State :=
  match item with
  | 0x30 => ((eventCount s.od.xqParity).toNat, s)
  | 0x31 => ((eventCount s.od.ctlDrops).toNat, s)
  | _ =>
    match coreCounterOf item with
    | some i => if coreUp s sub then (let (w, s) := stallRead s sub i; (w.toNat, s)) else (0, s)
    | none => let (w, s) := unitRead s item sub; (w.toNat, s)

/-- Numeric and BOOL values of areas 00 to 04. -/
def numLow (s : State) (area item sub : Nat) : Nat × State :=
  match area, item with
  | 0x00, 0x02 => (Config.device 0, s)
  | 0x00, 0x03 => (Config.device 1, s)
  | 0x01, 0x00 => (lifeCycle s, s)
  | 0x01, 0x01 => (s.ward.lcrec.length, s)
  | 0x01, 0x10 => (s.ward.debug, s)
  | 0x01, 0x23 => (s.ward.tokenResult, s)
  | 0x01, 0x31 => (1024 - s.ward.xidx, s)
  | 0x01, 0x32 => (1024 * s.ward.xidx - s.ward.nextIdx, s)
  | 0x01, 0x50 => (slotCode s sub, s)
  | 0x02, 0x00 => (s.power.st.codeN, s)
  | 0x02, 0x02 => (s.power.status, s)
  | 0x02, 0x11 => (maxClass s, s)
  | 0x02, 0x12 => measured s
  | 0x02, 0x13 => (s.power.limiter, s)
  | 0x02, 0x21 => (pointInForce s sub, s)
  | 0x02, 0x23 => ((getDie s sub).status, s)
  | 0x03, 0x01 => domainKhz s sub
  | 0x03, 0x11 => (odNum s 0x03 0x11 0 95, s)
  | 0x03, _ => measured s
  | 0x04, 0x00 => (gradeCode s.grid, s)
  | 0x04, 0x01 => (gridRows s.grid, s)
  | 0x04, 0x02 => (topRows s.grid, s)
  | 0x04, 0x10 => (furrowWord s sub, s)
  | 0x04, 0x20 => (fenceByte s sub, s)
  | 0x04, 0x21 => (((allCores s).filter (isHole s)).length, s)
  | 0x04, 0x22 => ((s.grid.fences.filter (fun f => !f.hole)).length, s)
  | _, _ => (odNum s area item sub (objDefault s area item sub), s)

/-- Numeric values of areas 05 and 06. -/
def numMid (s : State) (area item sub : Nat) : Nat × State :=
  match area, item with
  | 0x05, 0x10 => ((getCore s sub).mem.mc.csteps, s)
  | 0x05, 0x30 => (spGet 0 s.mstats.corrBulk sub, s)
  | 0x05, 0x31 => (spGet 0 s.mstats.uncBulk sub, s)
  | 0x05, 0x32 => (spGet 0 s.mstats.corrCore sub, s)
  | 0x05, 0x33 => (spGet 0 s.mstats.uncCore sub, s)
  | 0x05, 0x42 => (7200000000000 - 2 * 2 ^ 30 - 16 * 2 ^ 20 - s.mstats.ckptBytes, s)
  | 0x05, 0x50 => ((s.mstats.retired.filter (fun f => f / 2 ^ 38 == sub)).length, s)
  | 0x05, 0x60 => (s.mstats.sheafRefused, s)
  | 0x06, 0x01 => (highestVersion s, s)
  | 0x06, 0x10 => (portStatus (getFabPort s sub), s)
  | 0x06, 0x100 => ((getFabPort s sub).sent, s)
  | 0x06, 0x101 => ((getFabPort s sub).intact, s)
  | 0x06, 0x102 => ((getFabPort s sub).bad, s)
  | 0x06, 0x103 => ((getFabPort s sub).retries, s)
  | 0x06, 0x104 => measured s
  | 0x06, 0x105 => measured s
  | 0x06, 0x110 => (spGet 0 s.fabric.counts 0 + spGet 0 s.fabric.counts 2, s)
  | 0x06, 0x111 => (spGet 0 s.fabric.counts 1, s)
  | 0x06, 0x112 => (spGet 0 s.fabric.counts 4, s)
  | 0x06, 0x113 => (spGet 0 s.fabric.counts 6, s)
  | _, _ => (odNum s area item sub (objDefault s area item sub), s)

/-- Numeric values of areas 07 to 0A. -/
def numHigh (s : State) (area item sub : Nat) : Nat × State :=
  match area, item with
  | 0x07, 0x100 => ((getFn s sub).bar2Refused + (getFn s (64 + sub)).bar2Refused, s)
  | 0x07, 0x101 => ((getFn s sub).bellsDropped + (getFn s (64 + sub)).bellsDropped, s)
  | 0x07, 0x102 => ((getPort s sub).aer, s)
  | 0x07, 0x103 => ((getPort s sub).retrains, s)
  | 0x07, 0x104 => ((getPort s sub).ideFails, s)
  | 0x07, 0x105 => ((getPort s sub).dropped, s)
  | 0x08, 0x00 => (queuesOn s sub (fun _ => true), s)
  | 0x08, 0x01 => ((s.host.queues.filter (fun x => queueDie x.1 == sub)).foldl (fun n x => n + x.2.inFlight) 0, s)
  | 0x08, 0x02 => (queuesOn s sub (fun q => q.st == .error), s)
  | 0x08, 0x03 => (queuesOn s sub (fun q => q.st == .orphaned), s)
  | 0x09, 0x00 => (s.resil.step, s)
  | 0x09, 0x01 => (s.resil.sealedStep, s)
  | 0x09, 0x02 => (s.resil.state * 2 ^ 24 + s.resil.cause, s)
  | 0x09, 0x03 => (s.resil.sharedStep, s)
  | 0x09, 0x15 => (s.resil.interval, s)
  | 0x09, 0x16 => (s.resil.flashBytes, s)
  | 0x09, 0x30 => (spGet 0xFFFF s.resil.partners sub, s)
  | 0x09, 0x40 => (s.resil.recovered, s)
  | 0x09, 0x41 => (s.resil.rollbacks, s)
  | 0x09, 0x42 => (s.resil.badDigests, s)
  | 0x0A, 0x00 => ((fwSlot s sub).st, s)
  | 0x0A, 0x01 => ((fwSlot s sub).isvn, s)
  | 0x0A, 0x02 => (s.ward.svn, s)
  | 0x0A, 0x40 => (s.fw.status, s)
  | _, _ => (odNum s area item sub (objDefault s area item sub), s)

/-- Numeric values of areas 0B to 0E. -/
def numTop (s : State) (area item sub : Nat) : Nat × State :=
  match area, item with
  | 0x0B, 0x00 => (boolN s.od.stallFrozen, s)
  | 0x0B, _ => counterGet s item sub
  | 0x0C, 0x00 => (boolN s.recorder.frozen, s)
  | 0x0C, 0x01 => (s.recorder.next, s)
  | 0x0C, 0x02 => ((s.recorder.seq + 2 ^ 32 - 1) % 2 ^ 32, s)
  | 0x0C, 0x03 => (s.recorder.discarded, s)
  | 0x0C, 0x04 => (s.recorder.acked, s)
  | 0x0C, 0x06 => (s.recorder.boot, s)
  | 0x0C, 0x31 => (s.od.frameDrops, s)
  | 0x0D, 0x00 => (strapVal s sub, s)
  | 0x0D, 0x01 => (pinPhase s sub, s)
  | 0x0D, 0x02 => (4 * strapVal s 9 + strapVal s 8, s)
  | 0x0D, 0x12 => measured s
  | 0x0E, 0x1000 => (let g := spGet {} (s.gov.later.foldl (fun m x => slotWrite m x.1 x.2) s.gov.slots) sub; (g.run % 256 * 256 + g.pin * 16 + g.fmt, s))
  | _, _ => (odNum s area item sub (objDefault s area item sub), s)

def objNum (s : State) (area item sub : Nat) : Nat × State :=
  if area < 5 then numLow s area item sub
  else if area < 7 then numMid s area item sub
  else if area < 0x0B then numHigh s area item sub
  else numTop s area item sub

def asciiBytes (t : String) : List Byte := t.toList.map (fun c => BitVec.ofNat 8 c.toNat)

def ringEntry (s : State) (k : Nat) : List Byte :=
  match (s.recorder.ring.find? (fun p => p.1 == k)) with
  | some p => p.2.bytes
  | none => List.replicate 32 0

/-- STR and BLOB values. -/
def objBytes (s : State) (area item sub : Nat) : List Byte :=
  match area, item with
  | 0x00, 0x00 => asciiBytes (if gradeCode s.grid = 0 then "Kirath KX2304" else "Kirath KX2112")
  | 0x00, 0x01 => Config.serial.take 255
  | 0x00, 0x04 => 2 :: takeBytes 5 (devId s)
  | 0x00, 0x10 => identityKey s
  | 0x00, 0x11 => takeBytes 32 (devId s)
  | 0x01, 0x21 => toBytes 32 (s.ward.nonce.getD 0)
  | 0x01, 0x30 => s.ward.ownerKey
  | 0x05, 0x51 => s.mstats.retired.flatMap (toBytes 8)
  | 0x0C, 0x10 => ringEntry s sub
  | 0x0C, 0x11 => (List.range 2048).flatMap (ringEntry s)
  | 0x0C, 0x12 => ringEntry s ((s.recorder.next + 2047) % 2048)
  | 0x0C, 0x20 => (List.range 255).flatMap (fun k => match s.recorder.black.find? (fun p => p.1 == k) with
    | some p => p.2.dirBytes
    | none => List.replicate 64 0)
  | 0x0C, 0x21 => (match s.recorder.black.find? (fun p => p.1 == sub) with
    | some p => p.2.entries.flatMap EventRec.bytes
    | none => [])
  | 0x0E, 0x2000 => (takeCounts (spGet [] s.gov.last sub)).flatMap (toBytes 4)
  | _, _ => []
where
  takeCounts (l : List Nat) : List Nat := (List.range 19).map (fun i => l.getD i 0)

/-- The value of an object as bytes; a read of the nonce makes a new one (13 R474). -/
def objGet (s : State) (area : Nat) (o : Obj) (sub : Nat) : List Byte × State :=
  match o.ty.width with
  | some w => let (n, s) := objNum s area o.item sub; (toBytes w n, s)
  | none =>
    let s := if area = 0x01 && o.item = 0x21 then (freshNonce s).2 else s
    (objBytes s area o.item sub, s)

/-! ## Requests (15 R529–R531) -/

/-- What a path's restriction lets through. -/
inductive Restrict where
  | full
  /-- A VF's mailbox or admin queue. -/
  | vf
  /-- SMBus. -/
  | smbus
  /-- A frame outside a session. -/
  | frame
  deriving DecidableEq, Repr

inductive OdOp where
  | read
  | write
  | describe
  deriving DecidableEq, Repr

/-- A request: its principal, its path (a mailbox's function, 128 + the function of an admin queue, 300 10BASE-T1S, 301 SMBus, 302 FW, 303 the
TAP) and session, what it names. -/
structure OdReq where
  who : Nat
  path : Nat
  session : Nat := 0
  limit : Restrict := .full
  area : Nat
  item : Nat
  sub : Nat
  off : Nat
  deriving DecidableEq, Repr

def Restrict.allows (r : Restrict) (op : OdOp) (area item : Nat) : Bool :=
  match r with
  | .full => true
  | .vf => op == .describe || (op == .read && area == 0)
  | .smbus => isAo area item && (op != .write || (area == 0x02 && (item == 0x01 || item == 0x03)))
  | .frame => isAo area item && op != .write

/-- Sealed: RWS objects are read-only in DEPLOYED and SCRAPPED (13 R470). -/
def rwsSealed (s : State) : Bool := lifeCycle s == 3 || lifeCycle s == 5

/-- The status a request has before its value is looked at, 0 where nothing stands in its way. Nonces and tokens are refused once the entropy
source has failed (13 R454). -/
def odCheck (s : State) (r : OdReq) (op : OdOp) : Nat :=
  match objOf r.area r.item with
  | none => 1
  | some o =>
    if o.arr.getD 1 ≤ r.sub then 2
    else if !r.limit.allows op r.area r.item then 3
    else if op = .write && o.acc = .ro then 4
    else if op = .read && o.acc = .wo then 5
    else if op = .write && !(writersOf r.area o).testBit r.who then 3
    else if op = .read && !(readersOf r.area o).testBit r.who then 3
    else if op = .write && o.acc = .rws && rwsSealed s then 6
    else if !isAo r.area r.item && !clusterUp s then 0x0A
    else if op != .describe && r.area = 0x01 && (r.item = 0x21 || r.item = 0x22) && s.ward.entropyBad then 0x0B
    else 0

/-- Reads up to n bytes from an offset: status, bytes, whether more remain. -/
def odRead (s : State) (r : OdReq) (n : Nat) : (Nat × List Byte × Bool) × State :=
  match odCheck s r .read, objOf r.area r.item with
  | 0, some o =>
    let (bs, s) := objGet s r.area o r.sub
    if bs.length < r.off then ((7, [], false), s)
    else ((0, (bs.drop r.off).take n, decide (n < bs.length - r.off)), s)
  | st, _ => ((st, [], false), s)

/-- The length DESCRIBE gives. -/
def objCount (s : State) (area : Nat) (o : Obj) : Nat :=
  match o.arr with
  | some n => n
  | none => if o.ty.width.isSome then 1 else (objBytes s area o.item 0).length

/-- The 16-byte descriptor (15 R528). -/
def odDescribe (s : State) (r : OdReq) : Nat × List Byte :=
  match odCheck s r .describe, objOf r.area r.item with
  | 0, some o =>
    let ty := if o.arr.isSome then 0x0A else o.ty.code
    let ety := if o.arr.isSome then o.ty.code else 0
    (0, toBytes 8 (ty * 2 ^ 56 + ety * 2 ^ 48 + o.acc.code * 2 ^ 40 + writersOf r.area o * 2 ^ 36 + readersOf r.area o * 2 ^ 32 +
      boolN (isAo r.area r.item) * 2 ^ 31 + objCount s r.area o % 2 ^ 31) ++
      toBytes 8 (if o.ty.width.isSome then objDefault s r.area r.item r.sub else 0))
  | st, _ => (st, [])

/-! ## Writes -/

/-- BAR2 size exponents: frozen while the function of either port is a locked TDI, and the attempt ends its RUN (10 R368). -/
def barObjectWrite (s : State) (f v : Nat) : Nat × State :=
  if tdiFrozen s f || tdiFrozen s (64 + f) then (0x0B, tdiError (tdiError s f) (64 + f))
  else (0, odSet s 0x07 0x20 f v)

/-- Restores every RW object (15 R527): RWS objects stay, and the owner key where it may not be written. -/
def restoreDefaults (s : State) : State :=
  let rws (k : Nat) : Bool := [odKey 0x01 0x40 0, odKey 0x05 0x41 0, odKey 0x07 1 0, odKey 0x07 0x40 0].contains k
  let slots : Sparse GovSlot := (s.gov.slots.map (fun p => (p.1, ({ run := p.2.run } : GovSlot)))).filter (fun p => p.2 ≠ {})
  let s := { s with
    od := { s.od with vals := s.od.vals.filter (fun p => rws p.1) }
    gov := if s.gov.due.isSome then { s.gov with later := (List.range 4096).map (fun n => (n, 1)) } else { s.gov with slots := slots }
    recorder := { s.recorder with acked := 0 }
    ward := { s.ward with ownerKey := if lifeCycle s = 2 then [] else s.ward.ownerKey } }
  dvfsAll (moduleFreeze s false)

/-- Flits that the buffers of every VC take together (11 R424). -/
def bufferSum (s : State) (sub v : Nat) : Nat :=
  (List.range 8).foldl (fun a i =>
    let x := if i = sub then v else odNum s 0x06 0x20 i (vcBuffer i * 65537)
    a + x % 65536 + x / 65536) 0

/-- A lowered debug level (13 R475). -/
def lowerWrite (s : State) (v : Nat) : Nat × State :=
  if v < s.ward.debug && levelAllowed (lifeCycle s) v then (0, debugLower s v) else (0x0B, s)

/-- A numeric or BOOL value within its range is written, or starts its action. -/
def numWrite (s : State) (who area item sub v : Nat) : Nat × State :=
  match area, item with
  | 0x00, 0x40 => (0, if v = 1 then restoreDefaults s else s)
  | 0x01, 0x24 => lowerWrite s v
  | 0x01, 0x25 => if lifeCycle s = 0 && s.ward.debug = 3 then (0, lcTest s) else (0x0B, s)
  | 0x02, 0x01 => (0, powerRequest s v who)
  | 0x02, 0x03 => (0, if v = 1 then coldReset s else s)
  | 0x02, 0x04 => (0, if v = 1 then warmReset s else s)
  | 0x02, 0x10 => (if maxClass s < v then 0x0B else 0, classRequest s v)
  | 0x02, 0x20 => (if v ≤ 4 then 0 else 7, dvfsRequest s sub v who)
  | 0x02, 0x22 => (0, directVoltage s sub v who)
  | 0x06, 0x11 => (0, if v = 0 && portAlive (getFabPort s sub) then portDown (odSet s 0x06 0x11 sub v) sub 5 else odSet s 0x06 0x11 sub v)
  | 0x06, 0x20 => if bufferSum s sub v ≤ 8192 then (0, odSet s 0x06 0x20 sub v) else (7, s)
  | 0x07, 0x20 => barObjectWrite s sub v
  | 0x0A, 0x11 => (0, if v = 1 then fwConfirm s else s)
  | 0x0B, 0x00 => (0, moduleFreeze (odSet s 0x0B 0 0 v) (v == 1))
  | 0x0B, 0x01 => (0, if v = 1 then moduleClear s else s)
  | 0x0C, 0x04 => (0, { s with recorder := { s.recorder with acked := v } })
  | 0x0C, 0x05 => (0, if v = 1 then blackBoxCopy s 3 else s)
  | 0x0E, 0x1000 =>
    (0, if s.gov.due.isSome then { s with gov := { s.gov with later := s.gov.later ++ [(sub, v)] } }
      else { s with gov := { s.gov with slots := slotWrite s.gov.slots sub v } })
  | _, _ => (0, odSet s area item sub v)

/-- A BLOB is written whole. -/
def blobWrite (s : State) (area item : Nat) (bs : List Byte) : Nat × State :=
  match area, item with
  | 0x01, 0x22 => (0, asksWard s (fun s => tokenIn s bs))
  | 0x01, 0x30 =>
    if bs.length != 68 then (8, s) else if lifeCycle s != 2 then (0x0B, s) else (0, { s with ward := { s.ward with ownerKey := bs } })
  | 0x0A, 0x10 => if bs.length != 7 then (8, s) else (0, fwArm s (bytesAt bs 0 1) (bytesAt bs 1 2) (bytesAt bs 3 4))
  | _, _ => (0, s)

/-- The staged value of a write that is complete reaches its object. -/
def objPut (s : State) (r : OdReq) (o : Obj) (bs : List Byte) : Nat × State :=
  match o.ty.width with
  | none => blobWrite s r.area r.item bs
  | some w =>
    let v := ofBytes bs
    if bs.length != w then (8, s)
    else if (o.ty = .bool && 1 < v) || !objRange r.area r.item v then (7, s)
    else numWrite s r.who r.area r.item r.sub v

def stagingOf (s : State) (r : OdReq) : Option Staging :=
  s.od.staging.find? (fun x => x.path == r.path && x.session == r.session && x.obj == odKey r.area r.item r.sub)

def unstage (s : State) (r : OdReq) : State :=
  { s with od := { s.od with staging := s.od.staging.filter (fun x => !(x.path == r.path && x.session == r.session && x.obj == odKey r.area r.item r.sub)) } }

/-- A chunk of a write: staged, and committed when no further chunk follows. -/
def odWrite (s : State) (r : OdReq) (bs : List Byte) (more : Bool) : Nat × State :=
  match odCheck s r .write, objOf r.area r.item with
  | 0, some o =>
    let old := match stagingOf s r with
      | some x => x.data
      | none => []
    let s := unstage s r
    if r.off != old.length then (7, s)
    else if more then
      (0, { s with od := { s.od with staging := s.od.staging ++
        [{ path := r.path, session := r.session, obj := odKey r.area r.item r.sub, data := old ++ bs }] } })
    else objPut s r o (old ++ bs)
  | st, _ => (st, s)

/-- The command status of a dictionary status (15 R529). -/
def odCmdStatus (st : Nat) : Nat :=
  match st with
  | 0x00 => 0
  | 0x03 => 0x0D
  | 0x06 => 0x0D
  | 0x0B => 0x0D
  | 0x0A => 0x10
  | _ => 2

/-- A write of 1 to OD 00.0040 by a principal. -/
def execRestoreDefaults (who : Nat) (s : State) : Out := .next (if who == 1 && wardUp s then restoreDefaults s else s)

end Sys2Proof.Machine
end

