-- ==== Sys2Proof/Machine/Paths.lean ====
section
/-!
DEFINITION. Machine/Paths.lean: the paths to the object dictionary: management frames, the mailboxes of the functions, SMBus (15 R531–R536).
-/

namespace Sys2Proof.Machine

/-! ## SPDM answers as messages -/

def byteNats (bs : List Byte) : List Nat := bs.length :: bs.map (fun b => b.toNat)

/-- The message that carries the Ward's answer. -/
def replyBytes (r : WardReply) : List Byte :=
  Config.spdmText (match r with
    | .error => [0]
    | .version a b => [1, a, b]
    | .capabilities => [2]
    | .algorithms => [3]
    | .digests d => 4 :: d.flatMap byteNats
    | .certificate i svn lc st d => [5, svn, lc, st, d] ++ byteNats i
    | .challenge sig => 6 :: byteNats sig
    | .measurements m sig => 7 :: (m.flatMap (fun x => x.1 :: byteNats x.2) ++ byteNats sig)
    | .session id => [8, id]
    | .finished id => [9, id]
    | .alive id => [10, id]
    | .updated id => [11, id]
    | .ended id => [12, id]
    | .installed n => [13, n]
    | .slotState c => [14, c]
    | .ticket v => [15, v]
    | .nonce v => [16, v]
    | .report a b c d e n => [17, a, b, c, d, e] ++ byteNats n)

def spdmAnswer (s : State) (t : Nat) (r : SpdmReq) : List Byte × State :=
  let s := spdmServe s t r
  ((match s.ward.reply with
    | some x => replyBytes x
    | none => []), s)

/-! ## Frames (15 R532, R533) -/

/-- The header of a frame, in the order of its fields. -/
structure FrameHead where
  ver : Nat
  kind : Nat
  status : Nat
  more : Bool
  session : Nat
  seq : Nat
  len : Nat
  area : Nat
  item : Nat
  sub : Nat
  offset : Nat
  deriving DecidableEq, Repr

def FrameHead.bytes (h : FrameHead) : List Byte :=
  toBytes 8 (h.ver * 2 ^ 56 + h.kind * 2 ^ 48 + h.status * 2 ^ 40 + boolN h.more * 2 ^ 32 + h.session) ++ toBytes 8 (h.seq * 2 ^ 32 + h.len) ++
    toBytes 8 (h.area * 2 ^ 56 + h.item * 2 ^ 40 + h.sub * 2 ^ 24) ++ toBytes 8 (h.offset * 2 ^ 32)

def frameHead (bs : List Byte) : FrameHead :=
  let a := bytesAt bs 0 8
  let b := bytesAt bs 8 8
  let c := bytesAt bs 16 8
  { ver := fieldN a 63 56, kind := fieldN a 55 48, status := fieldN a 47 40, more := a.testBit 32, session := fieldN a 31 0
    seq := fieldN b 63 32, len := fieldN b 10 0, area := fieldN c 63 56, item := fieldN c 55 40, sub := fieldN c 39 24
    offset := fieldN (bytesAt bs 24 8) 63 32 }

/-- A frame with a session's protection: the header is additional data, the data is encrypted, a tag follows. -/
def sealFrame (key iv : Nat) (h : FrameHead) (bs : List Byte) : List Byte :=
  let c := xorBytes bs (takeBytes bs.length (Config.gcmStream key iv bs.length))
  h.bytes ++ c ++ toBytes 16 (Config.gcmTag key iv h.bytes c)

/-- The data of a session's frame whose tag holds. -/
def openFrame (key iv : Nat) (f : List Byte) : Option (List Byte) :=
  let h := frameHead f
  let c := (f.drop 32).take h.len
  if bytesAt f (32 + h.len) 16 = Config.gcmTag key iv (f.take 32) c % 2 ^ 128 then
    some (xorBytes c (takeBytes c.length (Config.gcmStream key iv c.length)))
  else none

def dropFrame (s : State) : State := { s with od := { s.od with frameDrops := (s.od.frameDrops + 1) % 2 ^ 32 } }

/-- What a request in a frame does: the response's header and data. -/
def frameAct (s : State) (path transport : Nat) (h : FrameHead) (bs : List Byte) (req : SpdmReq) : (FrameHead × List Byte) × State :=
  let r : OdReq := { who := 1, path := path, session := h.session, limit := if h.session = 0 then .frame else .full
                     area := h.area, item := h.item, sub := h.sub, off := h.offset }
  let back (st : Nat) (more : Bool) (d : List Byte) : FrameHead × List Byte :=
    ({ h with kind := 4, status := st, more := more, len := d.length }, d)
  match h.kind with
  | 1 => let (x, s) := odRead s r 1024; (back x.1 x.2.2 x.2.1, s)
  | 2 =>
    if h.session = 0 then (back 3 false [], s)
    else (let (st, s) := odWrite s r bs h.more; (back st false [], s))
  | 3 => let (st, d) := odDescribe s r; (back st false d, s)
  | 5 =>
    let (d, s) := spdmAnswer s transport req
    let d := d.take 1024
    (({ h with status := 0, more := false, len := d.length }, d), s)
  | _ => (back 0 false (takeBytes 32 (devId s) ++ [BitVec.ofNat 8 (gradeCode s.grid)] ++ toBytes 2 (moduleId s)), s)

/-- A frame is one the module looks at. -/
def frameGood (h : FrameHead) (f : List Byte) : Bool :=
  h.ver == 1 && [1, 2, 3, 5, 6].contains h.kind && h.len ≤ 1024 && f.length == 32 + h.len + (if h.session = 0 then 0 else 16)

/-- A frame on a path: the response frame, none where the frame is discarded. -/
def frameServe (s : State) (path transport : Nat) (f : List Byte) (req : SpdmReq) : Option (List Byte) × State :=
  let h := frameHead f
  if !frameGood h f then (none, s)
  else if h.session = 0 then
    (let ((rh, d), s) := frameAct s path transport h (f.drop 32) req
     (some (rh.bytes ++ d), s))
  else match getSession s h.session with
  | none => (none, dropFrame s)
  | some x =>
    if x.transport != transport || !x.ready then (none, dropFrame s)
    else match openFrame x.key (2 * h.seq) f with
    | none => (none, dropFrame s)
    | some bs =>
      if h.seq = x.lastSeq && f = x.lastReq then (some x.lastResp, s)
      else if h.seq ≤ x.lastSeq then (none, dropFrame s)
      else
        let ((rh, d), s) := frameAct s path transport h bs req
        let resp := sealFrame x.key (2 * h.seq + 1) rh d
        (some resp, match getSession s h.session with
          | some y => setSession s { y with lastSeq := h.seq, lastReq := f, lastResp := resp }
          | none => s)

/-- A frame on 10BASE-T1S wakes a sleeping module (14 R495). -/
def t1sFrame (s : State) (kind : Nat) (f : List Byte) (req : SpdmReq) : State :=
  if !wardUp s || (frameHead f).kind != kind then s
  else
    let (r, s) := frameServe (wakeSleep s) 300 300 f req
    match r with
    | some bs => { s with od := { s.od with frameOut := bs } }
    | none => s

def execFrameRead (frame : List Byte) (s : State) : Out := .next (t1sFrame s 1 frame .getVersion)
def execFrameWrite (frame : List Byte) (s : State) : Out := .next (t1sFrame s 2 frame .getVersion)
def execFrameDescribe (frame : List Byte) (s : State) : Out := .next (t1sFrame s 3 frame .getVersion)
def execFrameSpdm (frame : List Byte) (req : SpdmReq) (s : State) : Out := .next (t1sFrame s 5 frame req)
def execDiscover (frame : List Byte) (s : State) : Out := .next (t1sFrame s 6 frame .getVersion)

/-! ## Mailboxes (15 R534) -/

/-- An operation ends: status, response bytes, MORE; the vector is signalled. -/
def mboxEnd (s : State) (f st : Nat) (bs : List Byte) (more : Bool) : State :=
  let s := updFn s f (fun x => { x with mbox := { x.mbox with
    busy := false, status := st, more := more, len := bs.length, data := bs ++ x.mbox.data.drop bs.length } })
  if (getFn s f).mbox.ien then raiseMsix s f (getFn s f).mbox.vec else s

/-- The object that a mailbox names, for the HOST principal; a VF's is restricted. -/
def mboxReq (f : Nat) (m : Mailbox) : OdReq :=
  { who := 0, path := f, limit := if fnNo f = 0 then .full else .vf, area := field m.addr 63 56, item := field m.addr 55 40
    sub := field m.addr 39 24, off := m.offset }

/-- An operation that GO has started. -/
def mboxRun (s : State) (f op : Nat) (act : Mailbox → State) : State :=
  if fnExists s f && (getFn s f).mbox.busy && (getFn s f).mbox.cur == op then act (getFn s f).mbox else s

def mboxRead (s : State) (f : Nat) (m : Mailbox) : State :=
  let (x, s) := odRead s (mboxReq f m) 4096
  mboxEnd s f x.1 x.2.1 x.2.2

/-- A write chunk; a write that resets the module leaves no operation behind. -/
def mboxWrite (s : State) (f : Nat) (m : Mailbox) : State :=
  if 4096 < m.len then mboxEnd s f 8 [] false
  else
    let (st, s) := odWrite s (mboxReq f m) (takeBytes m.len m.data) m.more
    if (getFn s f).mbox.busy then mboxEnd s f st [] false else s

def mboxDescribe (s : State) (f : Nat) (m : Mailbox) : State :=
  let (st, d) := odDescribe s (mboxReq f m)
  mboxEnd s f st d false

def mboxFrame (s : State) (f : Nat) (m : Mailbox) (req : SpdmReq) : State :=
  let (r, s) := frameServe s f (128 + f) (takeBytes (min m.len 4096) m.data) req
  if (getFn s f).mbox.busy then mboxEnd s f 0 (r.getD []) false else s

def mboxSpdm (s : State) (f : Nat) (req : SpdmReq) : State :=
  let (d, s) := spdmAnswer s (128 + f) req
  mboxEnd s f 0 (d.take 4096) false

def execMailboxRead (fn : Nat) (s : State) : Out := .next (mboxRun s fn 0 (mboxRead s fn))
def execMailboxWrite (fn : Nat) (s : State) : Out := .next (mboxRun s fn 1 (mboxWrite s fn))
def execMailboxDescribe (fn : Nat) (s : State) : Out := .next (mboxRun s fn 2 (mboxDescribe s fn))
def execMailboxFrame (fn : Nat) (req : SpdmReq) (s : State) : Out := .next (mboxRun s fn 3 (fun m => mboxFrame s fn m req))
def execMailboxSpdm (fn : Nat) (req : SpdmReq) (s : State) : Out := .next (mboxRun s fn 4 (fun _ => mboxSpdm s fn req))

/-! ## SMBus (15 R536) -/

def setBus (s : State) (f : SmBus → SmBus) : State := { s with od := { s.od with smbus := f s.od.smbus } }

def busReq (b : SmBus) : OdReq :=
  { who := 1, path := 301, limit := .smbus, area := b.area, item := b.item, sub := b.sub, off := b.offset }

/-- A write with its packet error code; one that fails is refused. -/
def busWrite (s : State) (pec : Bool) (act : State → State) : State :=
  if !wardUp s then s else if pec then act s else setBus s (fun b => { b with status := 0x0C })

def busSelect (s : State) (bs : List Byte) : State :=
  setBus s (fun b => if bs.length = 9 then
    { b with area := bytesAt bs 0 1, item := bytesAt bs 1 2, sub := bytesAt bs 3 2, offset := bytesAt bs 5 4, status := 0 }
   else { b with status := 8 })

def execSmbusSelect (data : List Byte) (pec : Bool) (s : State) : Out := .next (busWrite s pec (fun s => busSelect s data))

def busRead (s : State) : State :=
  let (x, s) := odRead s (busReq s.od.smbus) 32
  setBus s (fun b => { b with status := x.1, out := x.2.1, offset := b.offset + x.2.1.length })

def execSmbusRead (s : State) : Out := .next (if wardUp s then busRead s else s)

def busPut (s : State) (bs : List Byte) : State :=
  if bs.isEmpty || 32 < bs.length then setBus s (fun b => { b with status := 8 })
  else
    let (st, s) := odWrite s (busReq s.od.smbus) bs false
    setBus s (fun b => { b with status := st })

def execSmbusWrite (data : List Byte) (pec : Bool) (s : State) : Out := .next (busWrite s pec (fun s => busPut s data))

def execSmbusStatus (s : State) : Out :=
  .next (if wardUp s then setBus s (fun b => { b with out := [BitVec.ofNat 8 b.status] }) else s)

def execSmbusDescribe (s : State) : Out :=
  .next (if wardUp s then
    (let (st, d) := odDescribe s (busReq s.od.smbus)
     setBus s (fun b => { b with status := st, out := d }))
   else s)

/-- ALERT_N is low (15 R536). -/
def alertLow (s : State) : Bool := wardUp s && alertUnread s && !s.od.smbus.released

/-- The module that holds ALERT_N low answers with its address and releases it. -/
def execSmbusAlertResponse (s : State) : Out :=
  .next (if alertLow s then setBus s (fun b => { b with out := [BitVec.ofNat 8 (smbusAddr s)], released := true }) else s)

end Sys2Proof.Machine
end

