-- ==== Sys2Proof/Machine/Queues.lean ====
section
/-!
DEFINITION. Machine/Queues.lean: the queue managers: fetching, the commands of the submission rings, completions and their interrupts
(10 R370–R385).
-/

namespace Sys2Proof.Machine

/-! ## Turns (10 R377, R378) -/

/-- The queue managers run: their networks have power, and doorbells are not held. -/
def managersRun (s : State) : Bool := s.power.powered && !s.power.tripped && (s.power.st == .run || s.power.st == .idle)

/-- Commands in flight on a die. -/
def dieInFlight (s : State) (d : Nat) : Nat := (s.host.queues.filter (fun x => queueDie x.1 == d)).foldl (fun n x => n + x.2.inFlight) 0

/-- Entries that a queue still has to give. -/
def Queue.waiting (q : Queue) : Nat := (q.sqt + 2 ^ q.logsq - q.head) % 2 ^ q.logsq

/-- How many entries may be fetched from a queue now, at most n. -/
def fetchable (s : State) (g : Nat) (q : Queue) (n : Nat) : Nat :=
  if q.st != .active || q.deleting.isSome || !hostAlive s (fnPort q.fn) || (getFn s q.fn).d3hot then 0
  else min (min n q.waiting) (min (256 - q.inFlight) (4096 - dieInFlight s (queueDie g)))

/-- The queues of a die in a class (8: the admin queues) that can be fetched from, by rising ID. -/
def readyQueues (s : State) (d cls : Nat) : List Nat :=
  ((s.host.queues.filter (fun x => queueDie x.1 == d && (if cls = 8 then x.2.idx == 0 else x.2.idx != 0 && x.2.prio == cls) &&
    fetchable s x.1 x.2 1 != 0)).map (·.1)).mergeSort (fun a b => decide (a ≤ b))

/-- The next queue of a class in round-robin order. -/
def nextQueue (s : State) (d cls : Nat) : Option Nat :=
  let l := readyQueues s d cls
  match l.find? (fun g => spGet 0 s.host.lastServed (9 * d + cls) < g + 1) with
  | some g => some g
  | none => l.head?

def classTurns (s : State) (c : Nat) : Nat := odNum s 0x08 0x10 c (fwWeight c)

/-- The class whose turn it is, from class c with u turns taken; an empty class gives up its turns. -/
def pickClass (s : State) (d : Nat) : Nat → Nat → Nat → Option (Nat × Nat × Nat)
  | 0, _, _ => none
  | k + 1, c, u =>
    if u < classTurns s c then
      match nextQueue s d c with
      | some g => some (c, u, g)
      | none => pickClass s d k ((c + 1) % 8) 0
    else pickClass s d k ((c + 1) % 8) 0

/-- A queue has been served. -/
def served (s : State) (d cls g : Nat) : State :=
  { s with host := { s.host with lastServed := spSet 0 s.host.lastServed (9 * d + cls) (g + 1) } }

/-! ## Fetching (10 R372, R373, R381) -/

def adminOpcodes : List Nat := [0x01, 0x02, 0x03, 0x04, 0x05, 0x08, 0x09]
def ioOpcodes : List Nat := [0x10, 0x11, 0x12, 0x13, 0x20, 0x21, 0x22, 0x23]

/-- How a command stands once fetched: some end at once. -/
def fetchedState (s : State) (g : Nat) (q : Queue) (cid : Nat) (w0 : Nat) : CmdState :=
  if dieLost s (queueDie g) then .ended 0x10 0
  else if q.cmds.any (fun c => c.cid == cid) then .ended 3 0
  else if !(if q.idx = 0 then adminOpcodes else ioOpcodes).contains (w0 % 256) then .ended 1 0
  else if fieldN w0 63 32 != 0 || fieldN w0 15 9 != 0 then .ended 2 0
  else .fetched

/-- Fetches one entry. -/
def fetchOne (s : State) (g : Nat) : State :=
  match getQueue s g with
  | none => s
  | some q =>
    let ws := wordsOf 8 (hostBusRead s (fnPort q.fn) (q.sqb + 64 * q.head) 64)
    let w0 := ws.headD 0
    let c : Cmd := { no := s.host.nextNo, cid := fieldN w0 31 16, words := ws, st := fetchedState s g q (fieldN w0 31 16) w0 }
    let s := { s with host := { s.host with nextNo := s.host.nextNo + 1 } }
    setQueue s g { q with head := (q.head + 1) % 2 ^ q.logsq, cmds := q.cmds ++ [c] }

def fetchMany (g : Nat) : Nat → State → State
  | 0, s => s
  | k + 1, s => fetchMany g k (fetchOne s g)

/-- A turn of queue g: up to n entries, or the error of a fetch that fails. -/
def fetchTurn (s : State) (g n : Nat) (bad : Bool) : State :=
  if bad then queueError s g 1
  else match getQueue s g with
    | some q => fetchMany g (fetchable s g q n) s
    | none => s

def queueFetch (s : State) (d : Nat) (bad : Bool) : State :=
  match nextQueue s d 8 with
  | some g => fetchTurn (served s d 8 g) g 1 bad
  | none =>
    match pickClass s d 9 (spGet 0 s.host.turnClass d) (spGet 0 s.host.turnsUsed d) with
    | none => s
    | some (c, u, g) =>
      let s := { s with host := { s.host with
        turnClass := spSet 0 s.host.turnClass d c
        turnsUsed := spSet 0 s.host.turnsUsed d (u + 1) } }
      fetchTurn (served s d c g) g (odNum s 0x08 0x11 0 4) bad

def execQueueFetch (die : Nat) (bad : Bool) (s : State) : Out :=
  .next (if die < 4 && managersRun s then queueFetch s die bad else s)

/-! ## Running a command -/

/-- Every earlier command of the queue has started; with ORD, each has posted its completion. -/
def mayStart (q : Queue) (c : Cmd) : Bool :=
  (q.cmds.takeWhile (fun x => x.no != c.no)).all (fun x =>
    x.st != .fetched && (!(c.word 0).testBit 8 || (match x.st with
      | .written _ => true
      | _ => false)))

def updQCmd (s : State) (g no : Nat) (f : Cmd → Cmd) : State := updQueue s g (fun q => alterCmd q no f)

/-- Acts on command no of queue g, of an opcode, that may start or is running. -/
def onCmd (s : State) (g no opc : Nat) (act : Queue → Cmd → State) : State :=
  if !managersRun s then s
  else match getQueue s g with
  | none => s
  | some q =>
    match getCmd q no with
    | none => s
    | some c =>
      if c.opc != opc then s
      else if c.st = .running || (c.st = .fetched && mayStart q c) then act q c
      else s

/-- Words of an entry that an opcode leaves unlisted. -/
def zeroWords (c : Cmd) (l : List Nat) : Bool := l.all (fun i => c.word i == 0)

/-- A command that ends in one event. -/
def oneShot (s : State) (g no opc : Nat) (act : Queue → Cmd → (Nat × Nat) × State) : State :=
  onCmd s g no opc (fun q c =>
    let ((st, r), s) := act q c
    cmdEnds s g no st r)

/-! ## Admin commands (10 R373, R374, R381, R385) -/

/-- Ring addresses, sizes, vector and coalescing as CREATE_QUEUE and REHOME give them. -/
def ringFields (c : Cmd) (f : Nat) : Bool :=
  let w := c.word 4
  c.word 1 % 4096 == 0 && c.word 2 % 4096 == 0 && fieldN w 63 44 == 0 && fieldN w 4 3 == 0 && fieldN w 43 32 < vecCount f &&
    2 ≤ fieldN w 15 12 && 2 ≤ fieldN w 11 8 && 1 ≤ fieldN (c.word 5) 10 0

def newQueue (s : State) (c : Cmd) (f : Nat) : Queue :=
  let w := c.word 4
  { fn := f, idx := fieldN (c.word 5) 10 0, sqb := c.word 1, cqb := c.word 2, logsq := fieldN w 15 12, logcq := fieldN w 11 8
    prio := fieldN w 7 5, vec := fieldN w 43 32, cqcnt := fieldN w 23 16, cqtime := fieldN w 31 24, rhkey := c.word 3, key := (getFn s f).fkey }

/-- A locked TDI's queue bindings are frozen: the attempt is refused and ends its RUN (10 R368). -/
def frozenBinding (s : State) (f : Nat) : (Nat × Nat) × State := ((0x0D, 0), tdiError s f)

def createQueue (s : State) (q : Queue) (c : Cmd) : (Nat × Nat) × State :=
  let f := q.fn
  let d := fieldN (c.word 4) 2 0
  if !ringFields c f || 4 < d || fieldN (c.word 5) 63 11 != 0 || !zeroWords c [6, 7] || (findQueue s f (fieldN (c.word 5) 10 0)).isSome then
    ((2, 0), s)
  else if tdiFrozen s f then frozenBinding s f
  else
    let ids := if d = 4 then [0, 1, 2, 3].flatMap (freeIds s) else freeIds s d
    match pickOne s ids with
    | none => ((0x0C, 0), s)
    | some (g, s) => ((0, g), addQueue s g (newQueue s c f))

/-- DELETE_QUEUE ends when the queue is gone; index 0 is the admin queue that runs it, whose end it completes before. -/
def deleteCmd (s : State) (g : Nat) (q : Queue) (c : Cmd) : State :=
  let i := fieldN (c.word 5) 10 0
  if fieldN (c.word 5) 63 11 != 0 || !zeroWords c [1, 2, 3, 4, 6, 7] then cmdEnds s g c.no 2 0
  else match findQueue s q.fn i with
  | none => cmdEnds s g c.no 2 0
  | some k =>
    if tdiFrozen s q.fn then cmdEnds (tdiError s q.fn) g c.no 0x0D 0
    else if k = g then deleteQueue (cmdEnds s g c.no 0 0) g 2
    else updQCmd (cmdEnds (deleteQueue s k 2) g c.no 0 0) g c.no (fun c => { c with afterQueue := some k })

/-- ABORT is committed after its target. -/
def abortOp (s : State) (g : Nat) (q : Queue) (c : Cmd) : State :=
  let w := c.word 5
  if fieldN w 63 32 != 0 || fieldN w 15 11 != 0 || !zeroWords c [1, 2, 3, 4, 6, 7] then cmdEnds s g c.no 2 0
  else match findQueue s q.fn (fieldN w 10 0) with
  | none => cmdEnds s g c.no 2 0
  | some k =>
    match (getQueue s k).bind (fun t => t.cmds.find? (fun x => x.cid == fieldN w 31 16)) with
    | none => cmdEnds s g c.no 6 0
    | some x =>
      if x.no = c.no then cmdEnds s g c.no 5 0
      else match abortCmd s k x 1 with
        | (.nothing, s) => cmdEnds s g c.no 6 0
        | (.done, s) => cmdEnds s g c.no 5 0
        | (.latched, s) => updQCmd (cmdEnds s g c.no 0 0) g c.no (fun c => { c with afterCmd := some x.no })

/-- The conditions of REHOME: its status, 0 where they hold. -/
def rehomeStatus (s : State) (q : Queue) (c : Cmd) : Nat :=
  let w := c.word 5
  if !ringFields c q.fn || fieldN w 63 47 != 0 || fieldN w 31 11 != 0 || c.word 6 / 2 ^ 16 != 0 || c.word 7 != 0 ||
      2 ^ fieldN (c.word 4) 15 12 ≤ c.word 6 || (findQueue s q.fn (fieldN w 10 0)).isSome then 2
  else match getQueue s (fieldN w 46 32) with
  | none => 2
  | some t =>
    if t.st != .orphaned || t.deleting.isSome then 2
    else if t.rhkey != c.word 3 || (getFn s q.fn).fkey != t.key || t.wasTdi then 0x0D
    else 0

/-- The orphaned queue belongs to the issuing function: its held completions go to the new ring from slot 0. -/
def rehomed (t : Queue) (c : Cmd) (f : Nat) : Queue :=
  let w := c.word 4
  { t with
    fn := f, idx := fieldN (c.word 5) 10 0, st := .active, sqb := c.word 1, cqb := c.word 2, logsq := fieldN w 15 12, logcq := fieldN w 11 8
    prio := fieldN w 7 5, vec := fieldN w 43 32, cqcnt := fieldN w 23 16, cqtime := fieldN w 31 24
    sqt := c.word 6, head := c.word 6, cqh := 0, cqt := 0, phase := true, unsig := 0, wasTdi := false }

def rehome (s : State) (q : Queue) (c : Cmd) : (Nat × Nat) × State :=
  let st := rehomeStatus s q c
  if st = 2 then ((2, 0), s)
  else if tdiFrozen s q.fn then frozenBinding s q.fn
  else if st != 0 then ((st, 0), s)
  else ((0, 0), updQueue s (fieldN (c.word 5) 46 32) (fun t => rehomed t c q.fn))

def queueCode (q : Queue) : Nat :=
  match q.st with
  | .active => 1
  | .error => 2
  | .orphaned => 3

def queryQueue (s : State) (q : Queue) (c : Cmd) : (Nat × Nat) × State :=
  if fieldN (c.word 5) 63 11 != 0 || !zeroWords c [1, 2, 3, 4, 6, 7] then ((2, 0), s)
  else match (findQueue s q.fn (fieldN (c.word 5) 10 0)).bind (getQueue s) with
  | none => ((0, 0), s)
  | some t => ((0, t.inFlight * 2 ^ 24 + t.head * 2 ^ 8 + queueCode t), s)

/-- The object an OD command names, for the HOST principal of an admin queue. -/
def queueReq (q : Queue) (c : Cmd) : OdReq :=
  { who := 0, path := 128 + q.fn, limit := if fnNo q.fn = 0 then .full else .vf, area := fieldN (c.word 1) 39 32
    item := fieldN (c.word 1) 31 16, sub := fieldN (c.word 1) 15 0, off := 0 }

def odFields (c : Cmd) : Bool := c.word 1 / 2 ^ 40 == 0 && c.word 3 / 2 ^ 32 == 0 && zeroWords c [4, 5, 6, 7]

def odReadCmd (s : State) (q : Queue) (c : Cmd) : (Nat × Nat) × State :=
  if !odFields c then ((2, 0), s)
  else if !hostAlive s (fnPort q.fn) then ((0x0B, 0), s)
  else
    let (x, s) := odRead s (queueReq q c) (c.word 3)
    ((odCmdStatus x.1, 0), if x.1 = 0 then hostBusWrite s (fnPort q.fn) false (c.word 2) x.2.1 else s)

/-- OD_WRITE; a host read that fails writes nothing. -/
def odWriteCmd (s : State) (q : Queue) (c : Cmd) (fail : Bool) : (Nat × Nat) × State :=
  if !odFields c then ((2, 0), s)
  else if fail || !hostAlive s (fnPort q.fn) then ((0x0B, 0), s)
  else
    let (st, s) := odWrite s (queueReq q c) (hostBusRead s (fnPort q.fn) (c.word 2) (c.word 3)) false
    ((odCmdStatus st, 0), s)

def execCreateQueue (queue no : Nat) (s : State) : Out := .next (oneShot s queue no 0x01 (createQueue s))
def execDeleteQueue (queue no : Nat) (s : State) : Out := .next (onCmd s queue no 0x02 (deleteCmd s queue))
def execAbort (queue no : Nat) (s : State) : Out := .next (onCmd s queue no 0x03 (abortOp s queue))
def execRehome (queue no : Nat) (s : State) : Out := .next (oneShot s queue no 0x04 (rehome s))
def execQueryQueue (queue no : Nat) (s : State) : Out := .next (oneShot s queue no 0x05 (queryQueue s))
def execOdRead (queue no : Nat) (s : State) : Out := .next (oneShot s queue no 0x08 (odReadCmd s))
def execOdWrite (queue no : Nat) (fail : Bool) (s : State) : Out := .next (oneShot s queue no 0x09 (fun q c => odWriteCmd s q c fail))

/-! ## Data commands (10 R365, R374, R382) -/

/-- A valid outbound region of the port covers a run of host bus addresses; one that allows writes, for a write. -/
def regionCovers (s : State) (p a n : Nat) (write : Bool) : Bool :=
  (getPort s p).regions.any (fun r => r.2.valid && (!write || r.2.writable) && r.2.base ≤ a && a + n ≤ r.2.base + 2 ^ 39)

def dataAddr (c : Cmd) : Nat := fieldVa (c.word 2)
def dataLen (c : Cmd) : Nat := c.word 3 % 2 ^ 32

def dataFields (c : Cmd) : Bool :=
  c.word 1 % 8 == 0 && c.word 2 % 8 == 0 && c.word 3 / 2 ^ 32 == 0 && c.word 3 % 8 == 0 && zeroWords c [4, 5, 6, 7]

/-- The host side of a data phase fails. -/
def hostBad (s : State) (q : Queue) (c : Cmd) (a n : Nat) (write fail : Bool) : Bool :=
  fail || c.hostLost || q.st == .orphaned || !hostAlive s (fnPort q.fn) || (n != 0 && !regionCovers s (fnPort q.fn) a n write)

def barStatus (e : BarErr) : Nat := match e with
  | .xlate => 9
  | .key => 0x0A

/-- The checks before a data command moves anything: the status, 0 where they pass. -/
def dataStart (s : State) (q : Queue) (c : Cmd) (bulkWrite : Bool) : Nat × State :=
  if !dataFields c then (2, s)
  else match barCheck s q.fn q.key (dataAddr c) (dataLen c) bulkWrite with
  | (some e, s) => (barStatus e, s)
  | (none, s) => (0, s)

/-- Bytes of the next burst of n still to move. -/
def burst (n : Nat) : Nat := min 256 n

/-- A burst has moved; the last one ends the command. -/
def burstDone (s : State) (g : Nat) (c : Cmd) (n total : Nat) (bad : Bool) : State :=
  let m := c.moved + n
  let p := c.pois || bad
  let s := updQCmd s g c.no (fun c => { c with st := .running, moved := m, pois := p })
  if total ≤ m then cmdEnds s g c.no (if p then 7 else 0) m else s

def dataIn (s : State) (g : Nat) (q : Queue) (c : Cmd) (fail : Bool) : State :=
  match (if c.st = .fetched then dataStart s q c true else (0, s)) with
  | (0, s) =>
    let n := burst (dataLen c - c.moved)
    let a := c.word 1 + c.moved
    let va := dataAddr c + c.moved
    if hostBad s q c a n false fail then cmdEnds s g c.no 0x0B c.moved
    else match barCheck s q.fn q.key va n true with
      | (some e, s) => cmdEnds s g c.no (barStatus e) c.moved
      | (none, s) =>
        let s := barWrite s q.fn q.key va (hostBusRead s (fnPort q.fn) a n) (List.replicate (wordSpan va n) false)
        burstDone s g c n (dataLen c) false
  | (st, s) => cmdEnds s g c.no st 0

/-- Host bytes of words, poisoned ones sent as zero (10 R366). -/
def zeroPoison (bs : List Byte) (ps : List Bool) : List Byte :=
  (bs.zip (List.range bs.length)).map (fun x => if ps.getD (x.2 / 8) false then 0 else x.1)

def dataOut (s : State) (g : Nat) (q : Queue) (c : Cmd) (fail : Bool) : State :=
  match (if c.st = .fetched then dataStart s q c false else (0, s)) with
  | (0, s) =>
    let n := burst (dataLen c - c.moved)
    let a := c.word 1 + c.moved
    let va := dataAddr c + c.moved
    if hostBad s q c a n true fail then cmdEnds s g c.no 0x0B c.moved
    else match barCheck s q.fn q.key va n false with
      | (some e, s) => cmdEnds s g c.no (barStatus e) c.moved
      | (none, s) =>
        let r := barRead s q.fn q.key va n
        let s := hostBusWrite r.st (fnPort q.fn) false a (zeroPoison r.data r.pois)
        burstDone s g c n (dataLen c) (r.pois.any id)
  | (st, s) => cmdEnds s g c.no st 0

/-- Authenticated ingress: the plaintext streams into its destination, then the tag decides (08 R314). -/
def sealIn (s : State) (g : Nat) (q : Queue) (c : Cmd) (fail : Bool) : State :=
  let n := dataLen c
  if c.st = .running then
    (if c.pois then cmdEnds (poisonDest s q c) g c.no 8 0 else cmdEnds s g c.no 0 n)
  else match dataStart s q c true with
  | (0, s) =>
    (match engineKey s (fnPort q.fn) q.key with
    | (none, s) => cmdEnds s g c.no 0x0A 0
    | (some key, s) =>
      if hostBad s q c (c.word 1) (messageLen n) false fail then cmdEnds s g c.no 0x0B 0
      else
        let bs := hostBusRead s (fnPort q.fn) (c.word 1) (messageLen n)
        let (r, wrote) := openMessage key n bs (List.replicate (messageLen n / 8) false)
        if !wrote then cmdEnds s g c.no 8 0
        else
          let plain := xorBytes (takeBytes n (bs.drop 16)) (takeBytes n (Config.gcmStream key (bytesAt bs 0 12) n))
          let s := barWrite s q.fn q.key (dataAddr c) plain (List.replicate (wordSpan (dataAddr c) n) false)
          updQCmd s g c.no (fun c => { c with st := .running, pois := r.isNone }))
  | (st, s) => cmdEnds s g c.no st 0

/-- The message of an authenticated egress is made under the next counter of the slot, and sent burst by burst. -/
def sealOut (s : State) (g : Nat) (q : Queue) (c : Cmd) (fail : Bool) : State :=
  let n := dataLen c
  let send (s : State) (c : Cmd) : State :=
    let m := c.buf.length
    let k := burst (m - c.moved)
    let a := c.word 1 + c.moved
    if hostBad s q c a k true fail then cmdEnds s g c.no 0x0B c.moved
    else burstDone (hostBusWrite s (fnPort q.fn) false a ((c.buf.drop c.moved).take k)) g c k m false
  if c.st = .running then send s c
  else match dataStart s q c false with
  | (0, s) =>
    (match engineKey s (fnPort q.fn) q.key with
    | (none, s) => cmdEnds s g c.no 0x0A 0
    | (some key, s) =>
      match takeCounter s q.key with
      | none => cmdEnds s g c.no 0x0A 0
      | some (ctr, s) =>
        let r := barRead s q.fn q.key (dataAddr c) n
        let (bs, ps) := sealMessage key q.key ctr n r.data r.pois
        let c := { c with buf := zeroPoison bs ps, pois := r.pois.any id }
        send (updQCmd r.st g c.no (fun x => { x with buf := c.buf, pois := c.pois })) c)
  | (st, s) => cmdEnds s g c.no st 0

def execDataIn (queue no : Nat) (fail : Bool) (s : State) : Out := .next (onCmd s queue no 0x10 (fun q c => dataIn s queue q c fail))
def execDataOut (queue no : Nat) (fail : Bool) (s : State) : Out := .next (onCmd s queue no 0x11 (fun q c => dataOut s queue q c fail))
def execSealIn (queue no : Nat) (fail : Bool) (s : State) : Out := .next (onCmd s queue no 0x12 (fun q c => sealIn s queue q c fail))
def execSealOut (queue no : Nat) (fail : Bool) (s : State) : Out := .next (onCmd s queue no 0x13 (fun q c => sealOut s queue q c fail))

/-! ## LAUNCH, gates, NOP -/

/-- The rectangle lies in the grid. -/
def launchRect (s : State) (c : Cmd) : Bool :=
  let w := c.word 4
  fieldN w 29 24 ≤ fieldN w 23 18 && fieldN w 17 12 ≤ fieldN w 11 6 && inGrid s.grid (fieldN w 23 18) (fieldN w 11 6)

/-- LAUNCH is dispatched to the runtime, which checks the program image; it is work for cores (14 R495). -/
def launch (s : State) (g : Nat) (q : Queue) (c : Cmd) (imageOk : Bool) : State :=
  if c.st = .running then s
  else if c.word 3 / 2 ^ 32 != 0 || fieldN (c.word 4) 63 30 != 0 || fieldN (c.word 4) 5 0 != 0 || !zeroWords c [5, 6, 7] || !launchRect s c then
    cmdEnds s g c.no 2 0
  else if lifeCycle s = 5 || (q.key != 0 && !jobsAnySlot s) then cmdEnds s g c.no 0x0D 0
  else match barCheck s q.fn q.key (fieldVa (c.word 1)) 1 false with
  | (some e, s) => cmdEnds s g c.no (barStatus e) 0
  | (none, s) =>
    match barCheck s q.fn q.key (fieldVa (c.word 2)) (c.word 3) false with
    | (some e, s) => cmdEnds s g c.no (barStatus e) 0
    | (none, s) =>
      if !imageOk then cmdEnds s g c.no 2 0
      else updQCmd (wakeIdle s) g c.no (fun c => { c with st := .running })

def execLaunch (queue no : Nat) (imageOk : Bool) (s : State) : Out := .next (onCmd s queue no 0x20 (fun q c => launch s queue q c imageOk))

/-- The module gate a command names, by its key. -/
def cmdGate (c : Cmd) : Option Nat := if 256 ≤ c.word 1 && c.word 1 < 320 then some (1024 + (c.word 1 - 256)) else none

/-- The control cluster's arrival: one that finds no place waits, one at a gate that takes none from it is dropped (09 R340, R342). -/
def gateArriveCmd (s : State) (g : Nat) (c : Cmd) : State :=
  match (if zeroWords c [2, 3, 4, 5, 6, 7] then cmdGate c else none) with
  | none => cmdEnds s g c.no 2 0
  | some key =>
    if !(getGate s key).en || !(getGate s key).ctlm then
      cmdEnds (arrivalDropped s (srcUnit 6 (queueDie g * 4)) (gateNo key) 0) g c.no 0 0
    else match clusterArrive s key with
      | some s => cmdEnds s g c.no 0 0
      | none => updQCmd s g c.no (fun c => { c with st := .running })

def execGateArrive (queue no : Nat) (s : State) : Out := .next (onCmd s queue no 0x21 (fun _ c => gateArriveCmd s queue c))

/-- Ends once the gate is enabled and has completed the generation. -/
def gateWaitCmd (s : State) (g : Nat) (c : Cmd) : State :=
  match (if c.word 2 / 2 ^ 32 == 0 && zeroWords c [3, 4, 5, 6, 7] then cmdGate c else none) with
  | none => cmdEnds s g c.no 2 0
  | some key =>
    if (getGate s key).en && genReached (getGate s key).gen (BitVec.ofNat 32 (c.word 2)) then cmdEnds s g c.no 0 0
    else updQCmd s g c.no (fun c => { c with st := .running })

def execGateWait (queue no : Nat) (s : State) : Out := .next (onCmd s queue no 0x22 (fun _ c => gateWaitCmd s queue c))

def nopCmd (s : State) (c : Cmd) : (Nat × Nat) × State := ((if zeroWords c [1, 2, 3, 4, 5, 6, 7] then 0 else 2, 0), s)

def execNop (queue no : Nat) (s : State) : Out := .next (oneShot s queue no 0x23 (fun _ c => nopCmd s c))

/-! ## Completions (10 R375, R378, R379) -/

/-- No thread of the job is left on the rectangle's cores. -/
def jobOver (s : State) (c : Cmd) : Bool :=
  (rectCores c).all (fun k => !coreExists s k || allThreads.all (fun t => !jobThread (getThread s k t)))

/-- The statuses a runtime reports for a job: SUCCESS, INVALID_FIELD, PROGRAM_FAULT. -/
def reportOk (st : Nat) : Bool := [0, 2, 0x0F].contains st

/-- What a command may be committed with now: its own end, or for a LAUNCH the runtime's report or the end of its aborted job. -/
def commitDue (s : State) (c : Cmd) (report : Option (Nat × Nat)) : Option (Nat × Nat) :=
  match c.st with
  | .ended st r =>
    if (match c.afterCmd with
      | some k => cmdOpen s k
      | none => false) || (match c.afterQueue with
      | some k => queueDeleting s k
      | none => false) then none
    else some (st, r)
  | .running =>
    if c.opc != 0x20 then none
    else if c.aborted then (if jobOver s c then some (4, 0) else none)
    else report.filter (fun x => reportOk x.1)
  | _ => none

def completionCommit (s : State) (g no : Nat) (report : Option (Nat × Nat)) : State :=
  match getQueue s g with
  | none => s
  | some q =>
    match getCmd q no with
    | none => s
    | some c =>
      match (if mayCommit q then commitDue s c report else none) with
      | some (st, r) => commitCmd s g no st (r % 2 ^ 64)
      | none => s

def execCompletionCommit (queue no : Nat) (report : Option (Nat × Nat)) (s : State) : Out :=
  .next (if managersRun s then completionCommit s queue no report else s)

def execCompletionWrite (queue : Nat) (dropped : Bool) (s : State) : Out := .next (if managersRun s then writeNext s queue dropped else s)

/-- More entries than CQCNT are unsignalled, or the oldest is older than CQTIME. -/
def completionInterrupt (s : State) (g : Nat) (timed : Bool) : State :=
  match getQueue s g with
  | none => s
  | some q =>
    if q.cqcnt < q.unsig || (timed && q.cqtime != 0 && q.unsig != 0) then
      raiseMsix (setQueue s g { q with unsig := 0 }) q.fn q.vec
    else s

def execCompletionInterrupt (queue : Nat) (timed : Bool) (s : State) : Out :=
  .next (if managersRun s then completionInterrupt s queue timed else s)

end Sys2Proof.Machine
end

