-- ==== Sys2Proof/Machine/RegWrite.lean ====
section
/-!
DEFINITION. Machine/RegWrite.lean: BAR0 of the functions, the tables that the runtime writes, and writes to registers that have no row of their
own (10 R356, R359–R365; 11 R405–R416; 15 R534, R556); the end of a power transition (14 R498), which lets the writes held at the ports through.
-/

namespace Sys2Proof.Machine

/-! ## BAR0 (10 R360–R362, R371; 15 R534) -/

/-- What an offset of a function's BAR0 names: PSTAT, a function register, a word of an MSI-X entry, pending bits, a mailbox register, mailbox
data, a doorbell. -/
inductive BarReg where
  | pstat
  | fnReg (i : Nat)
  | msix (n i : Nat)
  | pending (i : Nat)
  | mbox (i : Nat)
  | mboxData (i : Nat)
  | bell (i : Nat) (cq : Bool)
  | none
  deriving DecidableEq, Repr

def barReg (f off : Nat) : BarReg :=
  let pf := fnNo f = 0
  let table := if pf then 0x10000 else 0x2000
  let pba := if pf then 0x18000 else 0x2800
  if pf && off < 8 then .pstat
  else if 0x1000 ≤ off && off < 0x1020 then .fnReg ((off - 0x1000) / 8)
  else if table ≤ off && off < table + 16 * vecCount f then .msix ((off - table) / 16) ((off - table) % 16 / 8)
  else if pba ≤ off && off < pba + vecCount f / 8 then .pending ((off - pba) / 8)
  else if 0x4000 ≤ off && off < 0x4020 then .mbox ((off - 0x4000) / 8)
  else if 0x5000 ≤ off && off < 0x6000 then .mboxData (off - 0x5000)
  else if 0x8000 ≤ off && off < 0x10000 && off % 8 = 0 then .bell ((off - 0x8000) / 16) (off % 16 == 8)
  else .none

/-- A 64-bit register with the bytes written at an offset in it. -/
def mergeWrite (old off size v : Nat) : Nat :=
  let k := 8 * (off % 8)
  let n := min (8 * size) (64 - k)
  (old >>> (k + n)) <<< (k + n) + (v % 2 ^ n) <<< k + old % 2 ^ k

/-- FSTAT; RDY is the admin queue's state. -/
def fstatWord (s : State) (f : Nat) : Nat :=
  let x := getFn s f
  x.fkey * 2 ^ 18 + x.tdi * 2 ^ 16 + boolN x.qerr * 2 + boolN (findQueue s f 0).isSome

/-- The runtime accepts commands (14 R516). -/
def ready (s : State) : Bool := clusterUp s && s.power.target.isNone

/-- PSTAT of a port (10 R361). -/
def pstatWord (s : State) (p : Nat) : Nat :=
  let x := getPort s p
  let y := getPort s (1 - p)
  min (orphans s p) 255 * 2 ^ 24 + boolN y.up * 2 ^ 23 + boolN y.lost * 2 ^ 22 + x.width * 2 ^ 12 + x.rate * 2 ^ 8 + boolN x.flit * 2 ^ 7 +
    boolN (streamSecure x 8) * 2 ^ 6 + boolN (ready s)

def mboxWord (m : Mailbox) (i : Nat) : Nat :=
  match i with
  | 0 => boolN m.busy * 2 ^ 63 + m.status * 2 ^ 40 + boolN m.more * 2 ^ 24 + m.len * 2 ^ 8 + m.op
  | 1 => m.addr.toNat
  | 2 => m.offset
  | _ => boolN m.ien * 2 ^ 12 + m.vec

def msixWord (m : Msix) (i : Nat) : Nat := if i = 0 then m.addr else boolN m.mask * 2 ^ 32 + m.data

/-- The 64-bit word that a read of BAR0 returns; a read of FSTAT clears QERR. -/
def bar0Read (s : State) (f off : Nat) : Nat × State :=
  let x := getFn s f
  match barReg f off with
  | .pstat => (pstatWord s (fnPort f), s)
  | .fnReg 0 => (aqcfgWord x, s)
  | .fnReg 1 => (x.asqb.toNat, s)
  | .fnReg 2 => (x.acqb.toNat, s)
  | .fnReg _ => (fstatWord s f, setFn s f { x with qerr := false })
  | .msix n i => (msixWord (spGet {} x.msix n) i, s)
  | .pending i => ((List.range 64).foldl (fun a k => a + boolN (spGet {} x.msix (64 * i + k)).pend * 2 ^ k) 0, s)
  | .mbox i => (mboxWord x.mbox i, s)
  | .mboxData i => (bytesAt x.mbox.data (i / 8 * 8) 8, s)
  | .bell _ _ => (0, s)
  | .none => (0, s)

/-- A write of an MSI-X entry: one that is unmasked while pending sends its message. -/
def msixWrite (s : State) (f n i v : Nat) : State :=
  let m := spGet {} (getFn s f).msix n
  let m := if i = 0 then { m with addr := v / 4 * 4 } else { m with data := v % 2 ^ 32, mask := v.testBit 32 }
  let fire := m.pend && !m.mask
  let s := updFn s f (fun x => { x with msix := spSet {} x.msix n (if fire then { m with pend := false } else m) })
  if fire then raiseMsix s f n else s

/-- A write of a mailbox register; GO starts an operation. -/
def mboxRegWrite (m : Mailbox) (i v : Nat) : Mailbox :=
  match i with
  | 0 =>
    let m := { m with more := v.testBit 24, len := fieldN v 23 8, op := v % 8 }
    if v.testBit 3 && !m.busy && m.op ≤ 4 then { m with busy := true, cur := m.op } else m
  | 1 => { m with addr := BitVec.ofNat 64 (v / 2 ^ 24 * 2 ^ 24) }
  | 2 => { m with offset := v % 2 ^ 32 }
  | _ => { m with ien := v.testBit 12, vec := v % 4096 }

/-- Bytes of the mailbox's data buffer replaced. -/
def putData (data : List Byte) (i : Nat) (bs : List Byte) : List Byte :=
  let d := padTo (i + bs.length) data
  d.take i ++ bs ++ d.drop (i + bs.length)

/-- A write to BAR0 that the port passes on. -/
def bar0Write (s : State) (f off size v : Nat) : State :=
  let x := getFn s f
  match barReg f off with
  | .fnReg 0 => aqcfgWrite s f (mergeWrite (aqcfgWord x) off size v)
  | .fnReg 1 => if x.aqEn then s else setFn s f { x with asqb := BitVec.ofNat 64 (mergeWrite x.asqb.toNat off size v) }
  | .fnReg 2 => if x.aqEn then s else setFn s f { x with acqb := BitVec.ofNat 64 (mergeWrite x.acqb.toNat off size v) }
  | .msix n i => msixWrite s f n i (mergeWrite (msixWord (spGet {} x.msix n) i) off size v)
  | .mbox i => setFn s f { x with mbox := mboxRegWrite x.mbox i (mergeWrite (mboxWord x.mbox i % 2 ^ 63) off size v) }
  | .mboxData i => setFn s f { x with mbox := { x.mbox with data := putData x.mbox.data i (toBytes (min size (4096 - i)) v) } }
  | .bell i cq => doorbell s f i cq (v % 2 ^ (8 * size))
  | _ => s

/-- Doorbells and the mailbox take part in the stream rules (10 R367, R368); the other registers do not. -/
def barGated (f off : Nat) : Bool :=
  match barReg f off with
  | .mbox _ => true
  | .mboxData _ => true
  | .bell _ _ => true
  | _ => false

/-- A write to BAR0 as a TLP. -/
def bar0Tlp (s : State) (f off size v : Nat) (stream : Option Nat) (ep : Bool) : State :=
  if ep || !(size = 4 || size = 8) || off % size != 0 then s
  else
    let go (s : State) : State := inbound s f off size v (fun s => bar0Write s f off size v)
    let failed := stream.any (fun i => (spGet {} (getPort s (fnPort f)).streams i).failed)
    if barGated f off then gated s f stream go
    else if failed && fnHears s f then countDropped s (fnPort f)
    else go s

/-- A read of BAR0 by a host: its 8 bytes, or Unsupported Request; it wakes a sleeping module and then waits (14 R495). -/
def bar0Get (s : State) (f off : Nat) (stream : Option Nat) : State :=
  let go (s : State) : State :=
    if asleep s then wakeSleep s
    else
      let (v, s) := bar0Read s f (off / 8 * 8)
      answer s f (some (toBytes 8 v))
  if !fnHears s f then answer s f none
  else if stream.any (fun i => (spGet {} (getPort s (fnPort f)).streams i).failed) then countDropped s (fnPort f)
  else if barGated f off then gated s f stream go
  else go s

/-- Vectors that are pending and may be sent now are sent. -/
def msixFire (s : State) (f : Nat) : State :=
  let due := ((getFn s f).msix.filter (fun p => p.2.pend && !p.2.mask)).map (·.1)
  if (getFn s f).quiet then s
  else due.foldl (fun s n => raiseMsix (updFn s f (fun x => { x with msix := spUpd {} x.msix n (fun m => { m with pend := false }) })) f n) s

/-- A write of configuration space (10 R358): D0 or D3hot with the PME bits, or the MSI-X control bits. -/
def configWrite (s : State) (f reg v : Nat) : State :=
  if !(fnExists s f && hostAlive s (fnPort f)) then s
  else match reg with
  | 0 =>
    msixFire (updFn s f (fun x => { x with
      d3hot := if v % 4 = 3 then true else if v % 4 = 0 then false else x.d3hot
      pmeEn := v.testBit 8
      pmeStatus := x.pmeStatus && !v.testBit 15 })) f
  | 1 => msixFire (updFn s f (fun x => { x with msixEn := v.testBit 15, msixMask := v.testBit 14 })) f
  | _ => s

/-! ## The end of a power transition (14 R498) -/

/-- The writes that waited at the ports are made in their order. -/
def releaseHeld (s : State) : State :=
  if s.power.st != .run && s.power.st != .idle then s
  else
    let l := s.host.held
    l.foldl (fun s h => match h with
      | .bar0 f off size v => if fnHears s f then bar0Write s f off size v else s
      | .bar2 f off bs ep => if fnHears s f then bar2Put s f off bs ep else s)
      { s with host := { s.host with held := [] } }

/-- A transition ends; a wake that met an entry to OFF boots the module. -/
def powerDone (s : State) : State :=
  if s.power.target = some .off && s.power.wakeAfter then coldBoot (transitionDone s)
  else releaseHeld (transitionDone s)

def execPowerTransitionDone (s : State) : Out := .next (if s.power.target.isSome then powerDone s else s)

/-! ## The control cluster's loads and stores (10 R356) -/

/-- What a physical address of the control cores names. -/
inductive ClusterPlace where
  | bulk (pa : Nat)
  | control (core off : Nat)
  | dieBlock (die off : Nat)
  | device
  | host (off : Nat)
  | hole
  deriving DecidableEq, Repr

def clusterPlace (a : Nat) : ClusterPlace :=
  if a < 2 ^ 42 then .bulk a
  else if 2 ^ 46 ≤ a && a < 0x500000000000 then
    (let x := a - 2 ^ 46
     if x / 2 ^ 30 < 48 && x % 2 ^ 30 / 2 ^ 24 < 48 then .control (coreAt (x / 2 ^ 30) (x % 2 ^ 30 / 2 ^ 24)) (x % 2 ^ 24) else .hole)
  else if 0x500000000000 ≤ a && a < 0x500000000000 + 4 * 2 ^ 32 then .dieBlock ((a - 0x500000000000) / 2 ^ 32) (a % 2 ^ 32)
  else if 0x600000000000 ≤ a && a < 0x600100000000 then .device
  else if 2 ^ 55 ≤ a && a < 2 ^ 55 + 2 ^ 48 then .host (a - 2 ^ 55)
  else .hole

/-- An access of 1, 2, 4 or 8 bytes, aligned. -/
def clusterSizeOk (a size : Nat) : Bool := [1, 2, 4, 8].contains size && a % size == 0

/-- A store to a core's CONTROL space wakes the module from IDLE (14 R495); a hole takes none. -/
def clusterControl (s : State) (c off : Nat) (v : Word) : State :=
  if clusterUp s && (s.power.st == .run || s.power.st == .idle) && coreExists s c && !isHole s c then
    controlWrite (wakeIdle s) c off v none
  else s

def frootWrite (s : State) (die : Nat) (v : Word) : State :=
  { s with fabric := { s.fabric with froot := spSet 0 s.fabric.froot die (rootWord v) } }

/-- Bytes of host memory through the outbound regions (10 R365). -/
def windowStore (s : State) (a : Nat) (bs : List Byte) : State :=
  let r := hostRegion s a
  if r.valid && r.writable then regionPut s false false a bs else s

/-- A store at a physical address of the control cores. One of fewer than 64 bits to a register is discarded (07 R556). -/
def clusterStore (s : State) (a size : Nat) (v : Word) : Out :=
  if !clusterUp s || !clusterSizeOk a size then .next s
  else match clusterPlace a with
  | .bulk pa => .next (if bulkOk pa then bulkWrite s false pa (toBytes size v.toNat) else s)
  | .control c off => .next (if size = 8 then clusterControl s c off v else s)
  | .dieBlock d off => .next (if size = 8 && off = 0x100 then frootWrite s d v else s)
  | .host x => .next (windowStore s x (toBytes size v.toNat))
  | .device => .refused .clusterDevice
  | .hole => .next s

/-- The value a load of the control cores returns: none is poison. Addresses not listed read zero. -/
def clusterValue (s : State) (a size : Nat) : Option Nat × State :=
  let got (g : Got) : Option Nat × State := (if g.poison then none else some g.value, g.st)
  match clusterPlace a with
  | .bulk pa => if bulkOk pa then got (bulkRead s pa size) else (some 0, s)
  | .control c off =>
    if (s.power.st == .run || s.power.st == .idle) && coreExists s c && !isHole s c then
      (let (v, s) := controlRead (wakeIdle s) c (off / 8 * 8)
       (some (v.toNat / 2 ^ (8 * (off % 8)) % 2 ^ (8 * size)), s))
    else (some 0, s)
  | .dieBlock d off =>
    (some (if off / 8 = 0x20 then (spGet 0 s.fabric.froot d).toNat / 2 ^ (8 * (off % 8)) % 2 ^ (8 * size) else 0), s)
  | .host x =>
    (let r := hostRegion s x
     if r.valid then got (regionRead s x size (Config.hostAnswers (x / 2 ^ 47) (hostBus s x))) else (none, s))
  | _ => (some 0, s)

/-- A load by a control core. -/
def clusterLoad (s : State) (a size : Nat) : Out :=
  if !clusterUp s || !clusterSizeOk a size then .next s
  else if clusterPlace a = .device then .refused .clusterDevice
  else
    let (v, s) := clusterValue s a size
    .next { s with host := { s.host with ccData := v } }

/-- The control cluster writes the supervisor into the keeper area of a core's local SRAM, while thread 0 waits for its release
(02 R101). -/
def supervisorWrite (s : State) (c off : Nat) (v : Word) : State :=
  let k := getCore s c
  if clusterUp s && coreUp s c && (k.thread 0).st.state = .held && off % 8 = 0 && k.ctl.klim.toNat ≤ off && off < localEnd then
    coreWrite s false c false off (toBytes 8 v.toNat)
  else s

/-! ## Tables -/

/-- A TDI's outbound regions are frozen while it is locked (10 R368): those that name it, before or after the write. -/
def regionWrite (s : State) (p i word : Nat) (v : Word) : State :=
  let r := spGet {} (getPort s p).regions i
  let r' : Region := if word = 0 then { r with w0 := v &&& 0xFFFFFFFFFFFFF000 } else { r with w1 := v &&& 0x7FFD }
  let fs := [64 * p + field r.w1 14 9, 64 * p + field r'.w1 14 9].filter (tdiFrozen s)
  if fs.isEmpty then updPort s p (fun x => { x with regions := spSet {} x.regions i r' }) else fs.foldl tdiError s

def windowEntryWrite (s : State) (e word : Nat) (v : Word) : State :=
  { s with fabric := { s.fabric with windows := spUpd {} s.fabric.windows e (fun x => match word with
    | 0 => { x with w0 := v, bytes := 0, quanta := 0 }
    | 1 => { x with w1 := v }
    | 2 => { x with w2 := v }
    | _ => { x with w3 := v }) } }

/-- A function's root or key slot, which a locked TDI freezes. -/
def fnConfig (s : State) (f : Nat) (g : Fn → Fn) : State := if tdiFrozen s f then tdiError s f else updFn s f g

/-- A module enters or leaves the job's peer list; the pair key of one that leaves is retired (11 R402). -/
def peerWrite (s : State) (m : Nat) (on : Bool) : State :=
  let ms := s.resil.members.filter (fun x => x != m)
  if on then { s with resil := { s.resil with members := ms ++ [m] } }
  else { s with
    resil := { s.resil with members := ms }
    fabric := { s.fabric with pairKeys := spErase s.fabric.pairKeys m } }

/-- A group's key is made, or taken away. Incarnations count anew under a new key. -/
def groupKeyWrite (s : State) (g : Nat) (on : Bool) : State :=
  if on then
    (let (k, s) := drawFree s
     { s with fabric := { s.fabric with 
        groupKeys := spSet none s.fabric.groupKeys g (some k)
        incs := s.fabric.incs.filter (fun x => x.1 % 65536 != 0xF000 + g)
        rxIncs := s.fabric.rxIncs.filter (fun x => x.1 % 65536 != 0xF000 + g) } })
  else { s with fabric := { s.fabric with groupKeys := spErase s.fabric.groupKeys g } }

/-- A control core sends a GET (11 R408). -/
def sendGet (s : State) (die module addr raddr len : Nat) : State :=
  (fabSend s die (.control die) 2 none
    { opc := 2, dst := module, src := 0, chan := 0, fin := false, ver := 0, cseq := 0, len := len, addr := addr, opf := raddr, data := [],
      pois := [] }).1

/-- Keeper code writes a detour (01 R34); what waited for a way goes on. -/
def detourWrite (s : State) (site dst via : Nat) : State :=
  reapsGo { s with grid := { s.grid with detours := s.grid.detours.filter (fun x => !(x.1 == site && x.2.1 == dst)) ++ [(site, dst, via)] } }

/-- NumVFs, while no VF is enabled. -/
def numVfsWrite (s : State) (p n : Nat) : State :=
  if p < 2 && hostAlive s p && (getPort s p).numVfs = 0 && n ≤ s.host.totalVfs then updPort s p (fun x => { x with numVfs := n }) else s

/-- An object written whole by a principal on its own path. -/
def objectWrite (s : State) (who area item sub : Nat) (v : Word) : State :=
  if !wardUp s || !(who == 2 || (who == 3 && debugAccess s)) then s
  else
    let w := ((objOf area item).bind (fun o => o.ty.width)).getD 8
    (odWrite s { who := who, path := 300 + who, area := area, item := item, sub := sub, off := 0 } (toBytes w v.toNat) false).2

/-- What the runtime writes, where the cluster runs. -/
def runtimeWrite (s : State) (t : RegTarget) (v : Word) : State :=
  match t with
  | .sowBase die => if die < 4 then sowbaseWrite s die v else s
  | .region p i word => if p < 2 && i < 256 && word < 2 then regionWrite s p i word v else s
  | .window e word => if e < 256 && word < 4 then windowEntryWrite s e word v else s
  | .route m => if m < 0xF000 then { s with fabric := { s.fabric with routes := spSet 0 s.fabric.routes m (field v 31 0) } } else s
  | .group g => if g < 0xFFF then { s with fabric := { s.fabric with groups := spSet 0 s.fabric.groups g (field v 31 0) } } else s
  | .reapGroup g => if g < 4096 then { s with fabric := { s.fabric with rgroups := spSet 0 s.fabric.rgroups g (field v 31 0) } } else s
  | .fnRoot f => if f < 128 then fnConfig s f (fun x => { x with root := rootWord v }) else s
  | .fnKey f => if f < 128 && fnNo f != 0 then fnConfig s f (fun x => { x with fkey := field v 13 0 }) else s
  | .groupKey g => if g < 0xFFF && !s.ward.entropyBad then groupKeyWrite s g (v != 0) else s
  | .peer m => if m < 0xF000 then peerWrite s m (v != 0) else s
  | .fabricGet die m addr raddr len =>
    if die < 4 && m < 0xF000 && addr < 2 ^ 40 && raddr < 2 ^ 40 && len < 2 ^ 32 then sendGet s die m addr raddr len else s
  | .fabricControl die m kind => if die < 4 && m < 0xF000 && kind < 2 ^ 16 then sendControl s die m kind (toBytes 8 v.toNat) else s
  | .stubArea => { s with resil := { s.resil with stubArea := if v = 0 then none else some v.toNat, stubble := {} } }
  | .frozenBlock owner shard block flash addr len =>
    if v = 0 then frozenForget s owner shard block
    else if 1 ≤ len && len ≤ 2 ^ 20 && addr % 64 = 0 && (flash || bulkExtentOk addr len) then frozenWrite s owner shard block flash addr len else s
  | .shardPartner n => if n < 65536 then { s with resil := { s.resil with partners := spSet 0xFFFF s.resil.partners n (field v 15 0) } } else s
  | _ => s

def registerWrite (s : State) (t : RegTarget) (v : Word) : State :=
  match t with
  | .control c off => if off % 8 = 0 then clusterControl s c off v else s
  | .supervisor c off => supervisorWrite s c off v
  | .bar0 f off size stream ep => bar0Tlp s f off size v.toNat stream ep
  | .bar0Load f off stream => bar0Get s f off stream
  | .config f reg => configWrite s f reg v.toNat
  | .object who area item sub => objectWrite s who area item sub v
  | .numVfs p => numVfsWrite s p v.toNat
  | .detour site dst => if site < 2400 && dst < 2400 then detourWrite s site dst (field v 15 0) else s
  | .hostMemory p a => if p < 2 then hostBusWrite s p false a (toBytes 8 v.toNat) else s
  | t => if clusterUp s then runtimeWrite s t v else s

def execRegisterWrite (target : RegTarget) (v : Word) (s : State) : Out :=
  match target with
  | .cluster a size => clusterStore s a size v
  | .clusterLoad a size => clusterLoad s a size
  | t => .next (registerWrite s t v)

end Sys2Proof.Machine
end

