-- ==== Sys2Proof/Machine/Scrub.lean ====
section
/-!
DEFINITION. Machine/Scrub.lean: the patrol scrubber (07 R273, R276) and an outbound read that times out (10 R366).
-/

namespace Sys2Proof.Machine

/-- A scrub of the words that satisfy p: the memory with corrected words written back and uncorrectable ones rewritten as poison, and
the words of each stored-code state found. -/
def Mem.scrub (m : Mem) (p : Nat → Bool) : Mem × List Nat × List Nat × List Nat :=
  let found (e : Ecc) : List Nat := (m.marks.filter (fun x => p x.1 && x.2.ecc == e)).map (·.1)
  let fix (m : Mem) (w : Nat) : Mem := m.setMark w { m.mark w with ecc := .clean }
  let m' := (found .oneBit ++ found .twoBit).foldl fix m
  ((found .unc).foldl (fun m w => (m.probe w).1) m', found .oneBit, found .twoBit, found .unc)

def scrubCoreMem (s : State) (gran : Bool) (c : Nat) : State :=
  let (m, one, two, unc) := (coreMem s gran c).scrub (fun _ => true)
  let s := countCorrCore (setCoreMem s gran c m) c (one.length + two.length)
  serveFound (reportUncorr s (boolN gran) (srcCore c) (unc.map (8 * ·))) gran c (unc.map (8 * ·))

/-- A stack's scrub: a word that needed two-bit correction on two passes retires its frame, as an uncorrectable word does. -/
def scrubStack (s : State) (i : Nat) : State :=
  let mine (w : Nat) : Bool := 8 * w / 2 ^ 38 == i
  let (m, one, two, unc) := s.bulk.scrub mine
  let again := two.filter (fun w => s.mstats.twoBit.contains (8 * w))
  let s := countCorrBulk { s with bulk := m } i (one.length + two.length)
  let s := { s with mstats := { s.mstats with
    twoBit := (s.mstats.twoBit ++ two.map (8 * ·)).dedup } }
  let s := again.foldl (fun s w => retireFrame s (8 * w)) s
  reportUncorr s 2 (srcUnit 2 i) (unc.map (8 * ·))

def execPatrolScrub (target : ScrubTarget) (s : State) : Out :=
  .next (match target with
  | .core c => if coreUp s c then scrubCoreMem (scrubCoreMem s false c) true c else s
  | .stack i => if i < 12 then scrubStack s i else s)

/-- An outbound read that is answered with UR, CA or EP, or times out, delivers poison (10 R366). -/
def hostTimeout (s : State) (c id : Nat) : State :=
  match findReq s c id with
  | none => s
  | some q =>
    if q.va / 2 ^ 56 = 6 && q.kind.isLoad && q.stage == .done then updReq s c id (fun q => { q with resp := 0, respPoison := true }) else s

def execHostReadTimeout (core req : Nat) (s : State) : Out := .next (hostTimeout s core req)

end Sys2Proof.Machine
end

