-- ==== Sys2Proof/Machine/System.lean ====
section
/-!
DEFINITION. Machine/System.lean: control registers, keeper mode, threads of the core, job switch, breakpoints and debug (02 R62–R66,
R87–R97; 13 R472).
-/

namespace Sys2Proof.Machine

/-! ## Control registers (02 R87) -/

/-- The register number. -/
def wCr (w : Word) : Nat := field w 11 0

/-- Registers that only keeper mode reads. -/
def crKeeperRead (n : Nat) : Bool := 0x10 ≤ n

/-- Registers of core scope. -/
def crCore (n : Nat) : Bool := (2 ≤ n && n ≤ 4) || (0x20 ≤ n && n ≤ 0x22) || n == 0x24

def rdcrBody (c t : Nat) (w : Word) (s : State) : Res :=
  let (v, s) := if crCore (wCr w) then coreReg s c (wCr w) else (threadReg s c t (wCr w), s)
  .done (advance (updCore s c (fun k => k.writeG t (wGd w) v)) c t)

def execRdcr (c t : Nat) (w : Word) (s : State) : Out :=
  issue .rdcr
    { uses := { gOut := [wGd w] }
      priv := if inJob s c t && crKeeperRead (wCr w) && crListed (wCr w) then some 0x02 else none
      body := rdcrBody c t w } c t w s

/-- A write of TWIN that is accepted waits until the thread's tile operations have retired (02 R64). -/
def twinBody (c t : Nat) (v : Word) (s : State) : Res :=
  if tileBusy (getCore s c) t then .wait
  else
    .done (advance (updThread s c t (fun th =>
      { th with twCount := BitVec.ofNat 6 (field v 10 5), twBase := BitVec.ofNat 5 (field v 4 0) })) c t)

/-- A write of a register by its own thread. -/
def crWrite (s : State) (c t n : Nat) (v : Word) : State :=
  if n = 0 then updThread s c t (tstatWrite (!inJob s c t) v)
  else if crCore n then coreRegWrite s c n v
  else updThread s c t (fun th => { th with k := keepRegWrite n v th.k })

def wrcrBody (c t : Nat) (w : Word) (s : State) : Res :=
  let th := getThread s c t
  let v := gVal th (wGa w)
  let xs := ({ gIn := [wGa w] } : Uses).poison th ++ when? (wCr w == 1 && !twinOk v) 0x08 0x02 w
  if !xs.isEmpty then .raise xs
  else if wCr w = 1 then twinBody c t v s
  else .done (advance (crWrite s c t (wCr w) v) c t)

/-- WRCR for every register: its rows differ in the register they name. -/
def wrcrForm (c t : Nat) (w : Word) (s : State) : Form :=
  { uses := { gIn := [wGa w] }
    priv := if inJob s c t && wCr w != 0 && crListed (wCr w) then some 0x02 else none
    body := wrcrBody c t w }

def execWrcr (c t : Nat) (w : Word) (s : State) : Out := issue .wrcr (wrcrForm c t w s) c t w s

/-- A row of one register: refused where the word spells a WRCR to another. -/
def wrcrRow (n c t : Nat) (w : Word) (s : State) : Out :=
  if coreMnemonic w == some .wrcr && wCr w != n then .refused .illFormed else issue .wrcr (wrcrForm c t w s) c t w s

def execTwinWrite (c t : Nat) (w : Word) (s : State) : Out := wrcrRow 0x001 c t w s
def execKlimWrite (c t : Nat) (w : Word) (s : State) : Out := wrcrRow 0x021 c t w s
def execKvecWrite (c t : Nat) (w : Word) (s : State) : Out := wrcrRow 0x020 c t w s

/-! ## Keeper mode (02 R94, R95) -/

/-- KCALL: XINFO is free, since no rule states it (notes/assumptions/43.md). -/
def kcallBody (c t : Nat) (w : Word) (s : State) : Res :=
  if !inJob s c t then .raise [cand 0x01 0x06 w]
  else
    let (n, s) := drawFree s
    .done (enterKeeper s c t ⟨0x00, field w 7 0, word n⟩ ((getThread s c t).pc + 8))

def execKcall (c t : Nat) (w : Word) (s : State) : Out :=
  issue .kcall { illegal := if inJob s c t then [] else [0x06], body := kcallBody c t w } c t w s

def xretBody (c t : Nat) (s : State) : Res :=
  let a := (getThread s c t).k.xpc
  match when? (a.toNat % 8 != 0) 0x03 0x02 a ++ when? (field a 63 56 != 0) 0x05 0x01 a with
  | [] => .done (returnKeeper s c t)
  | xs => .raise xs

def execXret (c t : Nat) (w : Word) (s : State) : Out := issue .xret { priv := keeperOnly s c t, body := xretBody c t } c t w s

/-! ## THR (02 R89, R90) -/

def wTarget (th : Thread) (w : Word) : Nat := field (gVal th (wGa w)) 3 0

def thrForm (c t : Nat) (w : Word) (s : State) (gb : List Nat) (f : State → Nat → State) : Form :=
  { uses := { gIn := wGa w :: gb, gOut := [wGd w] }
    priv := keeperOnly s c t
    body := fun s =>
      let th := getThread s c t
      match ({ gIn := wGa w :: gb } : Uses).poison th with
      | [] => .done (f (advance s c t) (wTarget th w))
      | xs => .raise xs }

def thrAnswer (s : State) (c t : Nat) (w : Word) (v : Nat) : State := updCore s c (fun k => k.writeG t (wGd w) (word v))

/-- START. -/
def thrStart (c t : Nat) (w : Word) (s : State) (u : Nat) : State :=
  let th := getThread s c t
  if (getThread s c u).st.state = .stopped then
    thrAnswer (updThread s c u (fun x =>
      { x with pc := gVal th (wGb w), st := { x.st with state := .running, pm := bitOf (gVal th (wGa w)) 8 } })) c t w 0
  else thrAnswer s c t w 1

def execThrStart (c t : Nat) (w : Word) (s : State) : Out := issue .thrStart (thrForm c t w s [wGb w] (thrStart c t w)) c t w s

/-- STOP: gd awaits the stop. -/
def thrStop (c t : Nat) (w : Word) (s : State) (u : Nat) : State :=
  match (getThread s c u).st.state with
  | .stopped => thrAnswer s c t w 1
  | .faulted => thrAnswer s c t w 1
  | .halted => thrAnswer s c t w 1
  | .held => thrAnswer (updThread s c u (fun x => { x with stopHeld := true })) c t w 0
  | _ => askStop (updCore s c (fun k => { k with ctl := { k.ctl with gBusy := k.ctl.gBusy ++ [(t, wGd w)] } })) c u [(t, wGd w)]

def execThrStop (c t : Nat) (w : Word) (s : State) : Out := issue .thrStop (thrForm c t w s [] (thrStop c t w)) c t w s

def execThreadStopComplete (core thread : Nat) (s : State) : Out :=
  .next (if coreUp s core && thread < 16 then stopComplete s core thread else s)

def thrState (c t : Nat) (w : Word) (s : State) (u : Nat) : State := thrAnswer s c t w (getThread s c u).st.state.codeN

def execThrState (c t : Nat) (w : Word) (s : State) : Out := issue .thrState (thrForm c t w s [] (thrState c t w)) c t w s

/-! ## JSWITCH (02 R91) -/

/-- JSWITCH begins, and goes on each time it is offered again until it is over. -/
def jswitchBody (c t : Nat) (s : State) : Res :=
  let s := match (getCore s c).sync.jsw with
    | none => switchBegin s c { thread := some t, phase := .draining, newSplit := none }
    | some _ => s
  match jswitchGo s c t with
  | (s, true) => .done (advance s c t)
  | (s, false) => .hold s

def execJswitch (c t : Nat) (w : Word) (s : State) : Out :=
  issue .jswitch { priv := keeperOnly s c t, body := jswitchBody c t } c t w s

/-! ## BRK, the thread watchdog, debug -/

/-- A debug session allows halting (13 R472). -/
def mayHalt (s : State) : Bool := decide (2 ≤ s.ward.debug)

/-- The thread is HALTED with pc at the BRK, so that a resume runs it again: 02 R92 and 13 R472 do not say where pc stands (DESIGN CHOICE,
notes/assumptions/74.md). -/
def brkBody (c t : Nat) (s : State) : Res :=
  .done (updThread s c t (fun th => { th with st := { th.st with state := .halted } }))

def execBrk (c t : Nat) (w : Word) (s : State) : Out :=
  issue .brk { illegal := if mayHalt s && (getCore s c).ctl.debugClaim then [] else [0x05], body := brkBody c t } c t w s

/-- The thread watchdog expires (02 R97); a deferred exception that is pending is taken before it (02 R99). -/
def threadWatchdog (s : State) (c t : Nat) : State :=
  let th := getThread s c t
  let limit := (getCore s c).ctl.twdog
  if th.st.state = .running && !th.st.pm && limit != 0 then
    (if th.deferred.isSome then takeDeferred s c t else takeExc s c t ⟨0x0F, 0x01, limit * 1024⟩)
  else s

def execThreadWatchdog (core thread : Nat) (s : State) : Out :=
  .next (if coreUp s core && thread < 16 then threadWatchdog s core thread else s)

/-- A debugger halts a thread; it claims the core with it (notes/assumptions/44.md). -/
def debugHalt (s : State) (c t : Nat) : State :=
  if !mayHalt s then s
  else
    let s := updCore s c (fun k => { k with ctl := { k.ctl with debugClaim := true } })
    match (getThread s c t).st.state with
    | .running => stopComplete (askStop (updThread s c t (fun th => { th with haltReq := true })) c t []) c t
    | .waiting => stopComplete (askStop (updThread s c t (fun th => { th with haltReq := true })) c t []) c t
    | _ => s

def execDebugHalt (core thread : Nat) (s : State) : Out :=
  .next (if coreUp s core && thread < 16 then debugHalt s core thread else s)

/-- A debugger resumes a HALTED thread; a single step halts it again at its next instruction boundary. -/
def debugResume (s : State) (c t : Nat) (single : Bool) : State :=
  if !mayHalt s then s
  else updThread s c t (fun th =>
    if th.st.state = .halted then { th with st := { th.st with state := wakeState s c }, fenceHeld := coreHeld s c, step := single } else th)

def execDebugResume (core thread : Nat) (single : Bool) (s : State) : Out :=
  .next (if coreUp s core && thread < 16 then debugResume s core thread single else s)

end Sys2Proof.Machine
end

