-- ==== Sys2Proof/Machine/Winnow.lean ====
section
/-!
DEFINITION. Machine/Winnow.lean: COMPRESS, EXPAND and CLEAR (06 R237–R245). What a poisoned packet word hides is in
notes/assumptions/31.md.
-/

namespace Sys2Proof.Machine

def nKsel (ws : List Nat) : Nat := eField ws 0 53 50
def nEf (ws : List Nat) : Bool := eBit ws 0 49
def nAcc (ws : List Nat) : Nat := eField ws 1 22 0
def nChaff (ws : List Nat) : Nat := eField ws 1 54 32
def nPkt (ws : List Nat) : Nat := eWord ws 2
def nPktGran (ws : List Nat) : Bool := nPkt ws / 2 ^ 56 == 1
def nPktOff (ws : List Nat) : Nat := nPkt ws % 2 ^ 56
def nPcap (ws : List Nat) : Nat := eField ws 3 31 0
def nBase (ws : List Nat) : Nat := eField ws 4 31 0

def pad8 (n : Nat) : Nat := roundUp n 8

/-- K of TOPK (06 R239). -/
def topK (ws : List Nat) : Nat := (eCount ws + 2 ^ nKsel ws - 1) / 2 ^ nKsel ws

/-- Packet length by kind: 1 TOPK with a slot count, 2 SIGN, 3 NONE (06 R242). -/
def packetBytes (kind count slots : Nat) : Nat :=
  match kind with
  | 1 => 32 + pad8 ((slots + 31) / 32) + pad8 (2 * slots)
  | 2 => 32 + pad8 (count / 128) + count / 8
  | _ => 32 + 4 * count

/-- KIND of a MODE. -/
def kindOf (mode : Nat) : Nat := if mode = 1 then 1 else if mode = 2 then 2 else 3

/-- The longest packet a COMPRESS may write (06 R242). -/
def packetBound (ws : List Nat) : Nat :=
  packetBytes (kindOf (eMode ws)) (eCount ws) (topK ws + eCount ws / 255)

def winnowReserved (ws : List Nat) : Bool :=
  eReserved ws [(0, 48, 44), (1, 63, 55), (1, 31, 23), (3, 63, 32), (4, 63, 32), (5, 63, 0), (6, 63, 0), (7, 63, 20)]

def countBad (ws : List Nat) : Bool :=
  eCount ws == 0 || eCount ws % (if eMode ws = 2 then 256 else 32) != 0

/-- The packet's region: the granary scratch part or LOCAL (06 R215, R237). -/
def packetOk (k : Core) (r : EngRing) (ws : List Nat) : Bool :=
  let tag := nPkt ws / 2 ^ 56
  nPktOff ws % 8 == 0 &&
    (if tag = 1 then nPktOff ws + nPcap ws ≤ granEnd k else if tag = 0 then eLocalOk k r (nPktOff ws) (nPcap ws) else false)

/-- The checks of R215 on COMPRESS and EXPAND. -/
def winnowCheck (s : State) (c : Nat) (ws : List Nat) (chaff : Bool) (capacity : Bool) : Option Nat :=
  let k := getCore s c
  let r := getEng s c true
  let rs := (nAcc ws, 4 * eCount ws, 64) :: (if chaff then [(nChaff ws, 2 * eCount ws, 64)] else [])
  let all := if nPktGran ws then (nPktOff ws, nPcap ws, 8) :: rs else rs
  eFirst
    [(winnowReserved ws || countBad ws || (eMode ws == 1 && !(4 ≤ nKsel ws && nKsel ws ≤ 10)), 0x11),
     (!rs.all (eGranOk k) || !packetOk k r ws || !eDisjoint all || !eCplOk k r ws, 0x12),
     (k.eng.laneN ≤ eLane ws, 0x13),
     (capacity && nPcap ws < packetBound ws, 0x14)]

/-! ## COMPRESS (06 R238–R243) -/

/-- An element as the Winnow reads it: a + chaff in FP32, non-finite, read from a poisoned word. -/
structure WElem where
  x : Nat
  nf : Bool
  bad : Bool
  deriving DecidableEq, Repr

def readElems (s : State) (c : Nat) (ws : List Nat) : List WElem × State :=
  let acc := coreRead s true c (nAcc ws) (4 * eCount ws)
  let ch := if nEf ws then coreRead acc.st true c (nChaff ws) (2 * eCount ws) else ⟨[], [], acc.st⟩
  ((List.range (eCount ws)).map (fun i =>
    let a := acc.elem 4 i
    let x := if nEf ws then f32add a (f32exact (fmtBF16.decode (ch.elem 2 i))) else a
    let bad := acc.bad 4 i || (nEf ws && ch.bad 2 i)
    { x := x, nf := bad || !f32finite a || !f32finite x, bad := bad }), ch.st)

/-- Writes the packet: bytes, with the poison of each 64-bit word. -/
def putPacket (s : State) (c : Nat) (ws : List Nat) (bs : List Byte) (pois : List Bool) : State :=
  let s := writeRun (fun s p a b => coreWrite s (nPktGran ws) c p a b) (nPktOff ws) bs pois s
  s

/-- The header (06 R242). -/
def packetHeader (ws : List Nat) (nf : Bool) (bytes slots kept tau : Nat) : List Byte :=
  let kind := kindOf (eMode ws)
  toBytes 8 (kind * 2 ^ 56 + (if kind = 1 then nKsel ws else 0) * 2 ^ 52 + boolN nf * 2 ^ 51 + eLane ws * 2 ^ 32 + eCount ws) ++
    toBytes 8 (bytes * 2 ^ 32 + nBase ws) ++ toBytes 8 (slots * 2 ^ 32 + kept) ++ toBytes 8 (tau * 2 ^ 32)

/-- The chaff after COMPRESS: rne_bf16(x − xh), 0 for a non-finite element (06 R243). -/
def putChaff (s : State) (c : Nat) (ws : List Nat) (es : List WElem) (xh : List Nat) : State :=
  if nEf ws then
    putElems s c (nChaff ws) 2 ((es.zip xh).map (fun p =>
      (if p.1.nf then 0 else (convertElem 0 .rne (fp32 (f32sub p.1.x p.2))).1, false)))
  else s

/-- How many of a list satisfy p. -/
def countP (l : List Nat) (p : Nat → Bool) : Nat := (l.filter p).length

/-- τ as a magnitude pattern, from the candidates' magnitudes (06 R239). -/
def topTau (mags : List Nat) (k : Nat) : Nat :=
  if mags.length ≤ k then 0
  else
    let eStar := ((List.range 256).filter (fun e => k < countP mags (fun m => e ≤ m / 2 ^ 23))).getLastD 0
    let hi := countP mags (fun m => eStar < m / 2 ^ 23)
    let bin (m : Nat) : Nat := m / 2 ^ 15 % 256
    match (List.range 256).find? (fun j => hi + countP mags (fun m => m / 2 ^ 23 == eStar && j ≤ bin m) ≤ k) with
    | some j => eStar * 2 ^ 23 + j * 2 ^ 15
    | none => (eStar + 1) * 2 ^ 23

/-- A slot of a TOPK stream: an escape with its VALUE, or an element (06 R240). -/
inductive Slot where
  | escape (v : Nat)
  | value (delta i : Nat)
  deriving DecidableEq, Repr

/-- The slots for one kept index; prev is one more than the last index covered. The first argument bounds the escapes. -/
def slotsFor : Nat → Nat → Nat → List Slot
  | 0, _, _ => []
  | n + 1, prev, i =>
    let d := i + 1 - prev
    if d ≤ 255 then [.value d i]
    else
      let v := min 255 ((d - 1) / 255)
      .escape v :: slotsFor n (prev + 255 * v) i

/-- The whole stream; kept indices rise. -/
def slotsOf (count : Nat) : Nat → List Nat → List Slot
  | _, [] => []
  | prev, i :: is => slotsFor (count / 255 + 2) prev i ++ slotsOf count (i + 1) is

/-- A group of 32 slots: its scale, the 16-bit slots, and the decoded value of each element it holds. -/
def slotGroup (x : Nat → Nat) (g : List Slot) : Nat × List Nat × List (Nat × Nat) :=
  let vals := g.filterMap (fun sl => match sl with
    | .value _ i => some (x i)
    | .escape _ => none)
  let sc := mxScaleOf 2 (rowMax vals) false
  let enc (i : Nat) : Nat := (convertElem 2 .rne ((fp32 (x i)).scale (127 - (sc : Int)))).1
  (sc,
    g.map (fun sl => match sl with
      | .escape v => v * 256
      | .value d i => enc i * 256 + d),
    g.filterMap (fun sl => match sl with
      | .value _ i => some (i, f32scaled sc (decodeElem 2 (enc i)))
      | .escape _ => none))

/-- A list in runs of n; the first argument bounds their number. -/
def chunks {α : Type} (n : Nat) : Nat → List α → List (List α)
  | 0, _ => []
  | k + 1, l => if l.isEmpty then [] else l.take n :: chunks n k (l.drop n)

def compressTopk (s : State) (c : Nat) (ws : List Nat) : State :=
  match winnowCheck s c ws (nEf ws) true with
  | some st => endCmd s c true st 0
  | none =>
    let (es, s) := readElems s c ws
    let n := eCount ws
    let x (i : Nat) : Nat := (es.getD i ⟨0, true, false⟩).x
    let isCand (e : WElem) : Bool := !e.nf && !f32isZero e.x
    let mags := (es.filter isCand).map (fun e => f32abs e.x)
    let tau := topTau mags (topK ws)
    let kept := (List.range n).filter (fun i =>
      let e := es.getD i ⟨0, true, false⟩
      isCand e && tau ≤ f32abs e.x)
    let slots := slotsOf n 0 kept
    let gs := (chunks 32 (slots.length + 1) slots).map (slotGroup x)
    let dec := gs.flatMap (fun g => g.2.2)
    let bytes := packetBytes 1 n slots.length
    let body := padTo (pad8 gs.length) (gs.map (fun g => BitVec.ofNat 8 g.1)) ++
      padTo (pad8 (2 * slots.length)) (gs.flatMap (fun g => g.2.1.flatMap (toBytes 2)))
    let nf := es.any (·.nf)
    let s := putPacket s c ws (packetHeader ws nf bytes slots.length kept.length tau ++ body) []
    let xh := (List.range n).map (fun i => match dec.find? (fun d => d.1 == i) with
      | some d => d.2
      | none => 0)
    endCmd (putChaff s c ws es xh) c true 0 bytes

def execCompressTopk (core : Nat) (s : State) : Out :=
  .next (match engCmd s core true 1 (some 1) .run with
    | some k => compressTopk s core k.words
    | none => s)

/-- σ of a SIGN group: the mean of the magnitudes, converted to FP16 (06 R241). -/
def signScale (g : List WElem) : Nat :=
  let xs := (g.filter (fun e => !e.nf)).map (fun e => fp32 (f32abs e.x))
  if xs.isEmpty then 0
  else min 0x7BFF (convertElem 1 .rne (FV.div (FV.sum xs) (.num false xs.length 0)).1).1

def isNeg (e : WElem) : Bool := !e.nf && f32lt e.x 0

def signByte (g : List WElem) : Byte :=
  BitVec.ofNat 8 ((g.zip (List.range 8)).foldl (fun a e => if isNeg e.1 then a + 2 ^ e.2 else a) 0)

def fp16Val (raw : Nat) : Nat := f32exact (fmtFP16.decode raw)

def compressSign (s : State) (c : Nat) (ws : List Nat) : State :=
  match winnowCheck s c ws (nEf ws) true with
  | some st => endCmd s c true st 0
  | none =>
    let (es, s) := readElems s c ws
    let n := eCount ws
    let gs := chunks 256 (n + 1) es
    let bytes := packetBytes 2 n 0
    let body := padTo (pad8 (n / 128)) (gs.flatMap (fun g => toBytes 2 (signScale g))) ++ (chunks 8 (n + 1) es).map signByte
    let s := putPacket s c ws (packetHeader ws (es.any (·.nf)) bytes 0 n 0 ++ body) []
    let xh := gs.flatMap (fun g => g.map (fun e => if isNeg e then f32neg (fp16Val (signScale g)) else fp16Val (signScale g)))
    endCmd (putChaff s c ws es xh) c true 0 bytes

def execCompressSign (core : Nat) (s : State) : Out :=
  .next (match engCmd s core true 1 (some 2) .run with
    | some k => compressSign s core k.words
    | none => s)

def compressNone (s : State) (c : Nat) (ws : List Nat) : State :=
  match winnowCheck s c ws (nEf ws) true with
  | some st => endCmd s c true st 0
  | none =>
    let (es, s) := readElems s c ws
    let n := eCount ws
    let bytes := packetBytes 3 n 0
    let s := putPacket s c ws (packetHeader ws (es.any (·.nf)) bytes 0 n 0 ++ es.flatMap (fun e => toBytes 4 e.x))
      (List.replicate 4 false ++ (chunks 2 (n + 1) es).map (fun g => g.any (·.bad)))
    endCmd (putChaff s c ws es (es.map (·.x))) c true (if es.any (·.bad) then 2 else 0) bytes

def execCompressNone (core : Nat) (s : State) : Out :=
  .next (match engCmd s core true 1 (some 0) .run with
    | some k => compressNone s core k.words
    | none => s)

/-! ## EXPAND (06 R244) -/

/-- What EXPAND has done so far: the accumulator, the elements added, the lane's NFP called for, a word that could not be used. -/
structure Expand where
  st : State
  added : Nat
  nfp : Bool
  pois : Bool

/-- Adds a value to element i of ACC. -/
def addTo (c : Nat) (ws : List Nat) (i v : Nat) (e : Expand) : Expand :=
  let a := nAcc ws + 4 * i
  let g := coreRead e.st true c a 4
  { st := coreWrite g.st true c g.poison a (toBytes 4 (f32add g.value v)), added := e.added + 1, nfp := e.nfp, pois := e.pois || g.poison }

/-- The header matches the command (06 R244); one whose checked words cannot be read does not match. -/
def headerOk (ws : List Nat) (g : Got) : Bool :=
  let h0 := bytesAt g.data 0 8
  let h1 := bytesAt g.data 8 8
  let slots := bytesAt g.data 20 4
  !(g.pois.take 3).any id && fieldN h0 63 56 == kindOf (eMode ws) && fieldN h0 31 0 == eCount ws && fieldN h0 43 32 == eLane ws &&
    h1 % 2 ^ 32 == nBase ws && h1 / 2 ^ 32 == packetBytes (kindOf (eMode ws)) (eCount ws) slots && h1 / 2 ^ 32 ≤ nPcap ws

/-- What follows the header's check: NFP is set where NF is, and the body decoded. -/
def expandWith (s : State) (c : Nat) (ws : List Nat) (body : Got → Nat → Expand → Expand × Bool) : State :=
  match winnowCheck s c ws false false with
  | some st => endCmd s c true st 0
  | none =>
    if nPcap ws < 32 then endCmd s c true 0x15 0
    else
      let gran := nPktGran ws
      let h := coreRead s gran c (nPktOff ws) 32
      if !headerOk ws h then endCmd h.st c true 0x15 0
      else
        let len := bytesAt h.data 12 4
        let slots := bytesAt h.data 20 4
        let g := coreRead h.st gran c (nPktOff ws) len
        let nf := (bytesAt h.data 0 8).testBit 51
        let (e, ok) := body g slots { st := g.st, added := 0, nfp := nf || g.poison, pois := false }
        let s := if e.nfp then setNfp e.st c (eLane ws) true else e.st
        if !ok then endCmd s c true 0x15 e.added
        else endCmd s c true (if e.pois then 2 else 0) e.added

/-- The slots from number j on. prev is one more than the last index covered. The first argument is the number of slots left. Once a
word of slots is poisoned, the indices of everything after it are unknown, and nothing further is added. A slot beyond SLOTS that is not
zero makes the count disagree (notes/assumptions/31.md). -/
def expandSlots (c : Nat) (ws : List Nat) (g : Got) (scaleAt slotAt : Nat) : Nat → Nat → Nat → Expand → Expand × Bool
  | 0, j, _, e =>
    let a := slotAt + 2 * j
    (e, g.pois.getD (a / 8) false || ofBytes (g.data.drop a) == 0)
  | n + 1, j, prev, e =>
    let a := slotAt + 2 * j
    if g.pois.getD (a / 8) false then (e, true)
    else
      let sl := bytesAt g.data a 2
      let d := sl % 256
      let v := sl / 256
      if d = 0 then
        if v = 0 || eCount ws < prev + 255 * v then (e, false)
        else expandSlots c ws g scaleAt slotAt n (j + 1) (prev + 255 * v) e
      else
        let i := prev + d - 1
        if eCount ws ≤ i then (e, false)
        else
          let b := scaleAt + j / 32
          let e := if g.pois.getD (b / 8) false then e
            else addTo c ws i (f32scaled (bytesAt g.data b 1) (decodeElem 2 v)) e
          expandSlots c ws g scaleAt slotAt n (j + 1) (i + 1) e

def execExpandTopk (core : Nat) (s : State) : Out :=
  .next (match engCmd s core true 2 (some 1) .run with
    | some k => expandWith s core k.words (fun g slots e =>
        expandSlots core k.words g 32 (32 + pad8 ((slots + 31) / 32)) slots 0 0 e)
    | none => s)

def execExpandSign (core : Nat) (s : State) : Out :=
  .next (match engCmd s core true 2 (some 2) .run with
    | some k => expandWith s core k.words (fun g _ e =>
        let n := eCount k.words
        let sb := 32 + pad8 (n / 128)
        ((List.range n).foldl (fun e i =>
          let sc := 32 + 2 * (i / 256)
          let bb := sb + i / 8
          if g.pois.getD (sc / 8) false || g.pois.getD (bb / 8) false then e
          else
            let v := fp16Val (bytesAt g.data sc 2)
            addTo core k.words i (if (bytesAt g.data bb 1).testBit (i % 8) then f32neg v else v) e) e, true))
    | none => s)

def execExpandNone (core : Nat) (s : State) : Out :=
  .next (match engCmd s core true 2 (some 0) .run with
    | some k => expandWith s core k.words (fun g _ e =>
        ((List.range (eCount k.words)).foldl (fun e i =>
          let a := 32 + 4 * i
          if g.pois.getD (a / 8) false then e else addTo core k.words i (bytesAt g.data a 4) e) e, true))
    | none => s)

/-! ## CLEAR (06 R237) -/

def clearCheck (s : State) (c : Nat) (ws : List Nat) : Option Nat :=
  let k := getCore s c
  eFirst
    [(winnowReserved ws || eCount ws == 0 || eCount ws % 32 != 0, 0x11),
     (!eGranOk k (nChaff ws, 2 * eCount ws, 64) || !eCplOk k (getEng s c true) ws, 0x12)]

def execClear (core : Nat) (s : State) : Out :=
  .next (match engCmd s core true 3 none .run with
    | some k =>
      match clearCheck s core k.words with
      | some st => endCmd s core true st 0
      | none => endCmd (putElems s core (nChaff k.words) 2 (List.replicate (eCount k.words) (0, false))) core true 0 0
    | none => s)

end Sys2Proof.Machine
end

