-- ==== Sys2Proof/Machine/Dispatch.lean ====
section
/-!
DEFINITION. Machine/Dispatch.lean: one arm per command; each calls the command's own meaning.
-/

namespace Sys2Proof.Machine

def exec (i : Instr) (s : State) : Host.Outcome State Fault Refusal :=
  match i with
  | .fenceCore core cause readable deadRtr => Sys2Proof.Machine.execFenceCore core cause readable deadRtr s
  | .fenceMapWrite => Sys2Proof.Machine.execFenceMapWrite s
  | .releaseCores => Sys2Proof.Machine.execReleaseCores s
  | .remoteAccessArrive core req bad => Sys2Proof.Machine.execRemoteAccessArrive core req bad s
  | .loadResponse core req bad => Sys2Proof.Machine.execLoadResponse core req bad s
  | .storeAck core req => Sys2Proof.Machine.execStoreAck core req s
  | .add c t w => Sys2Proof.Machine.execAdd c t w s
  | .sub c t w => Sys2Proof.Machine.execSub c t w s
  | .and c t w => Sys2Proof.Machine.execAnd c t w s
  | .or c t w => Sys2Proof.Machine.execOr c t w s
  | .xor c t w => Sys2Proof.Machine.execXor c t w s
  | .andn c t w => Sys2Proof.Machine.execAndn c t w s
  | .sll c t w => Sys2Proof.Machine.execSll c t w s
  | .srl c t w => Sys2Proof.Machine.execSrl c t w s
  | .sra c t w => Sys2Proof.Machine.execSra c t w s
  | .min c t w => Sys2Proof.Machine.execMin c t w s
  | .max c t w => Sys2Proof.Machine.execMax c t w s
  | .minu c t w => Sys2Proof.Machine.execMinu c t w s
  | .maxu c t w => Sys2Proof.Machine.execMaxu c t w s
  | .mul c t w => Sys2Proof.Machine.execMul c t w s
  | .mulh c t w => Sys2Proof.Machine.execMulh c t w s
  | .mulhu c t w => Sys2Proof.Machine.execMulhu c t w s
  | .div c t w => Sys2Proof.Machine.execDiv c t w s
  | .divu c t w => Sys2Proof.Machine.execDivu c t w s
  | .rem c t w => Sys2Proof.Machine.execRem c t w s
  | .remu c t w => Sys2Proof.Machine.execRemu c t w s
  | .clz c t w => Sys2Proof.Machine.execClz c t w s
  | .ctz c t w => Sys2Proof.Machine.execCtz c t w s
  | .popc c t w => Sys2Proof.Machine.execPopc c t w s
  | .addi c t w => Sys2Proof.Machine.execAddi c t w s
  | .andi c t w => Sys2Proof.Machine.execAndi c t w s
  | .ori c t w => Sys2Proof.Machine.execOri c t w s
  | .xori c t w => Sys2Proof.Machine.execXori c t w s
  | .slli c t w => Sys2Proof.Machine.execSlli c t w s
  | .srli c t w => Sys2Proof.Machine.execSrli c t w s
  | .srai c t w => Sys2Proof.Machine.execSrai c t w s
  | .li c t w => Sys2Proof.Machine.execLi c t w s
  | .lih c t w => Sys2Proof.Machine.execLih c t w s
  | .cmp c t w => Sys2Proof.Machine.execCmp c t w s
  | .cmpi c t w => Sys2Proof.Machine.execCmpi c t w s
  | .plog c t w => Sys2Proof.Machine.execPlog c t w s
  | .pget c t w => Sys2Proof.Machine.execPget c t w s
  | .pset c t w => Sys2Proof.Machine.execPset c t w s
  | .fadd c t w => Sys2Proof.Machine.execFadd c t w s
  | .fsub c t w => Sys2Proof.Machine.execFsub c t w s
  | .fmul c t w => Sys2Proof.Machine.execFmul c t w s
  | .fdiv c t w => Sys2Proof.Machine.execFdiv c t w s
  | .fmin c t w => Sys2Proof.Machine.execFmin c t w s
  | .fmax c t w => Sys2Proof.Machine.execFmax c t w s
  | .fsqrt c t w => Sys2Proof.Machine.execFsqrt c t w s
  | .fcvtI2f c t w => Sys2Proof.Machine.execFcvtI2f c t w s
  | .fcvtF2i c t w => Sys2Proof.Machine.execFcvtF2i c t w s
  | .fabs c t w => Sys2Proof.Machine.execFabs c t w s
  | .fneg c t w => Sys2Proof.Machine.execFneg c t w s
  | .ffma c t w => Sys2Proof.Machine.execFfma c t w s
  | .fcmp c t w => Sys2Proof.Machine.execFcmp c t w s
  | .mset c t w => Sys2Proof.Machine.execMset c t w s
  | .mget c t w => Sys2Proof.Machine.execMget c t w s
  | .mgen c t w => Sys2Proof.Machine.execMgen c t w s
  | .br c t w => Sys2Proof.Machine.execBr c t w s
  | .brl c t w => Sys2Proof.Machine.execBrl c t w s
  | .jr c t w => Sys2Proof.Machine.execJr c t w s
  | .jrl c t w => Sys2Proof.Machine.execJrl c t w s
  | .ld c t w => Sys2Proof.Machine.execLd c t w s
  | .st c t w => Sys2Proof.Machine.execSt c t w s
  | .lds c t w => Sys2Proof.Machine.execLds c t w s
  | .sts c t w => Sys2Proof.Machine.execSts c t w s
  | .fenceL c t w => Sys2Proof.Machine.execFenceL c t w s
  | .fenceG c t w => Sys2Proof.Machine.execFenceG c t w s
  | .fenceB c t w => Sys2Proof.Machine.execFenceB c t w s
  | .fenceA c t w => Sys2Proof.Machine.execFenceA c t w s
  | .ldTake c t w => Sys2Proof.Machine.execLdTake c t w s
  | .ldPeek c t w => Sys2Proof.Machine.execLdPeek c t w s
  | .stFill c t w => Sys2Proof.Machine.execStFill c t w s
  | .stPut c t w => Sys2Proof.Machine.execStPut c t w s
  | .lclr c t w => Sys2Proof.Machine.execLclr c t w s
  | .latchResend core req => Sys2Proof.Machine.execLatchResend core req s
  | .latchCancelAnswer core req => Sys2Proof.Machine.execLatchCancelAnswer core req s
  | .waitWatchdog core thread => Sys2Proof.Machine.execWaitWatchdog core thread s
  | .dpost c t w => Sys2Proof.Machine.execDpost c t w s
  | .dstat c t w => Sys2Proof.Machine.execDstat c t w s
  | .garrive c t w => Sys2Proof.Machine.execGarrive c t w s
  | .gwait c t w => Sys2Proof.Machine.execGwait c t w s
  | .gsync c t w => Sys2Proof.Machine.execGsync c t w s
  | .reap c t w => Sys2Proof.Machine.execReap c t w s
  | .rwait c t w => Sys2Proof.Machine.execRwait c t w s
  | .rdcr c t w => Sys2Proof.Machine.execRdcr c t w s
  | .wrcr c t w => Sys2Proof.Machine.execWrcr c t w s
  | .twinWrite c t w => Sys2Proof.Machine.execTwinWrite c t w s
  | .klimWrite c t w => Sys2Proof.Machine.execKlimWrite c t w s
  | .kvecWrite c t w => Sys2Proof.Machine.execKvecWrite c t w s
  | .kcall c t w => Sys2Proof.Machine.execKcall c t w s
  | .xret c t w => Sys2Proof.Machine.execXret c t w s
  | .thrStart c t w => Sys2Proof.Machine.execThrStart c t w s
  | .thrStop c t w => Sys2Proof.Machine.execThrStop c t w s
  | .threadStopComplete core thread => Sys2Proof.Machine.execThreadStopComplete core thread s
  | .thrState c t w => Sys2Proof.Machine.execThrState c t w s
  | .jswitch c t w => Sys2Proof.Machine.execJswitch c t w s
  | .gateResetArrive core reap ctx => Sys2Proof.Machine.execGateResetArrive core reap ctx s
  | .cacheInvAll c t w => Sys2Proof.Machine.execCacheInvAll c t w s
  | .cacheInvLine c t w => Sys2Proof.Machine.execCacheInvLine c t w s
  | .tlbinvAll c t w => Sys2Proof.Machine.execTlbinvAll c t w s
  | .tlbinvEntry c t w => Sys2Proof.Machine.execTlbinvEntry c t w s
  | .brk c t w => Sys2Proof.Machine.execBrk c t w s
  | .deferredException core thread => Sys2Proof.Machine.execDeferredException core thread s
  | .threadWatchdog core thread => Sys2Proof.Machine.execThreadWatchdog core thread s
  | .coreReset core => Sys2Proof.Machine.execCoreReset core s
  | .tmma c t w => Sys2Proof.Machine.execTmma c t w s
  | .tmmaSeg c t w => Sys2Proof.Machine.execTmmaSeg c t w s
  | .tmmaConv c t w => Sys2Proof.Machine.execTmmaConv c t w s
  | .arrayPassStart core => Sys2Proof.Machine.execArrayPassStart core s
  | .arrayPassLand core => Sys2Proof.Machine.execArrayPassLand core s
  | .tld c t w => Sys2Proof.Machine.execTld c t w s
  | .tst c t w => Sys2Proof.Machine.execTst c t w s
  | .tlds c t w => Sys2Proof.Machine.execTlds c t w s
  | .tsts c t w => Sys2Proof.Machine.execTsts c t w s
  | .tileMoveRetire core store => Sys2Proof.Machine.execTileMoveRetire core store s
  | .tmov c t w => Sys2Proof.Machine.execTmov c t w s
  | .tzero c t w => Sys2Proof.Machine.execTzero c t w s
  | .txfer c t w => Sys2Proof.Machine.execTxfer c t w s
  | .txferArrive core => Sys2Proof.Machine.execTxferArrive core s
  | .ttag c t w => Sys2Proof.Machine.execTtag c t w s
  | .tastat c t w => Sys2Proof.Machine.execTastat c t w s
  | .tvadd c t w => Sys2Proof.Machine.execTvadd c t w s
  | .tvsub c t w => Sys2Proof.Machine.execTvsub c t w s
  | .tvmul c t w => Sys2Proof.Machine.execTvmul c t w s
  | .tvfma c t w => Sys2Proof.Machine.execTvfma c t w s
  | .tvmin c t w => Sys2Proof.Machine.execTvmin c t w s
  | .tvmax c t w => Sys2Proof.Machine.execTvmax c t w s
  | .tvscl c t w => Sys2Proof.Machine.execTvscl c t w s
  | .tvcvt c t w => Sys2Proof.Machine.execTvcvt c t w s
  | .tvredSum c t w => Sys2Proof.Machine.execTvredSum c t w s
  | .tvredMax c t w => Sys2Proof.Machine.execTvredMax c t w s
  | .tvredMin c t w => Sys2Proof.Machine.execTvredMin c t w s
  | .tvredAbsmax c t w => Sys2Proof.Machine.execTvredAbsmax c t w s
  | .tvredSumsq c t w => Sys2Proof.Machine.execTvredSumsq c t w s
  | .tvfnExp2 c t w => Sys2Proof.Machine.execTvfnExp2 c t w s
  | .tvfnExp c t w => Sys2Proof.Machine.execTvfnExp c t w s
  | .tvfnLog2 c t w => Sys2Proof.Machine.execTvfnLog2 c t w s
  | .tvfnRcp c t w => Sys2Proof.Machine.execTvfnRcp c t w s
  | .tvfnRsqrt c t w => Sys2Proof.Machine.execTvfnRsqrt c t w s
  | .tvfnSqrt c t w => Sys2Proof.Machine.execTvfnSqrt c t w s
  | .tvbcast c t w => Sys2Proof.Machine.execTvbcast c t w s
  | .vectorOpComplete core => Sys2Proof.Machine.execVectorOpComplete core s
  | .tdrain c t w => Sys2Proof.Machine.execTdrain c t w s
  | .drainFirstPass core => Sys2Proof.Machine.execDrainFirstPass core s
  | .drainTokenResult core => Sys2Proof.Machine.execDrainTokenResult core s
  | .drainSecondPass core => Sys2Proof.Machine.execDrainSecondPass core s
  | .drainRetire core => Sys2Proof.Machine.execDrainRetire core s
  | .userTableWrite core req => Sys2Proof.Machine.execUserTableWrite core req s
  | .governorCommit => Sys2Proof.Machine.execGovernorCommit s
  | .hringEnable core winnow v => Sys2Proof.Machine.execHringEnable core winnow v s
  | .hringDisable core winnow v => Sys2Proof.Machine.execHringDisable core winnow v s
  | .engineTakeSlot core winnow => Sys2Proof.Machine.execEngineTakeSlot core winnow s
  | .update core => Sys2Proof.Machine.execUpdate core s
  | .updateEpochResume core => Sys2Proof.Machine.execUpdateEpochResume core s
  | .harrowEpochTimeout core => Sys2Proof.Machine.execHarrowEpochTimeout core s
  | .norm core => Sys2Proof.Machine.execNorm core s
  | .verdict core => Sys2Proof.Machine.execVerdict core s
  | .verdictClronly core => Sys2Proof.Machine.execVerdictClronly core s
  | .verdictReapResult core => Sys2Proof.Machine.execVerdictReapResult core s
  | .compressTopk core => Sys2Proof.Machine.execCompressTopk core s
  | .compressSign core => Sys2Proof.Machine.execCompressSign core s
  | .compressNone core => Sys2Proof.Machine.execCompressNone core s
  | .expandTopk core => Sys2Proof.Machine.execExpandTopk core s
  | .expandSign core => Sys2Proof.Machine.execExpandSign core s
  | .expandNone core => Sys2Proof.Machine.execExpandNone core s
  | .clear core => Sys2Proof.Machine.execClear core s
  | .engineCommandEnd core winnow => Sys2Proof.Machine.execEngineCommandEnd core winnow s
  | .gsplitWrite core v => Sys2Proof.Machine.execGsplitWrite core v s
  | .wball core => Sys2Proof.Machine.execWball core s
  | .wbinvall core => Sys2Proof.Machine.execWbinvall core s
  | .wbinv core => Sys2Proof.Machine.execWbinv core s
  | .gcmdComplete core => Sys2Proof.Machine.execGcmdComplete core s
  | .translationWalk core thread => Sys2Proof.Machine.execTranslationWalk core thread s
  | .patrolScrub target => Sys2Proof.Machine.execPatrolScrub target s
  | .drillRingEnable core ring v => Sys2Proof.Machine.execDrillRingEnable core ring v s
  | .drillRingDisable core ring v => Sys2Proof.Machine.execDrillRingDisable core ring v s
  | .drillDescriptorStart core ring => Sys2Proof.Machine.execDrillDescriptorStart core ring s
  | .copy core ring => Sys2Proof.Machine.execCopy core ring s
  | .copyPrefetch core ring => Sys2Proof.Machine.execCopyPrefetch core ring s
  | .gather core ring => Sys2Proof.Machine.execGather core ring s
  | .scatterAdd core ring => Sys2Proof.Machine.execScatterAdd core ring s
  | .sortGather core ring => Sys2Proof.Machine.execSortGather core ring s
  | .transpose core ring => Sys2Proof.Machine.execTranspose core ring s
  | .convert core ring => Sys2Proof.Machine.execConvert core ring s
  | .skew core ring => Sys2Proof.Machine.execSkew core ring s
  | .unskew core ring => Sys2Proof.Machine.execUnskew core ring s
  | .sheafPack core ring => Sys2Proof.Machine.execSheafPack core ring s
  | .sheafUnpack core ring => Sys2Proof.Machine.execSheafUnpack core ring s
  | .sow core ring => Sys2Proof.Machine.execSow core ring s
  | .cryptIn core ring => Sys2Proof.Machine.execCryptIn core ring s
  | .cryptOut core ring => Sys2Proof.Machine.execCryptOut core ring s
  | .drillDescriptorEnd core ring => Sys2Proof.Machine.execDrillDescriptorEnd core ring s
  | .sowctlWrite die v => Sys2Proof.Machine.execSowctlWrite die v s
  | .sowEntryWrite die entry words => Sys2Proof.Machine.execSowEntryWrite die entry words s
  | .sowEntryStart die => Sys2Proof.Machine.execSowEntryStart die s
  | .sowEntryComplete die entry => Sys2Proof.Machine.execSowEntryComplete die entry s
  | .sowEntryError die entry => Sys2Proof.Machine.execSowEntryError die entry s
  | .sowredo die entry => Sys2Proof.Machine.execSowredo die entry s
  | .gateEnable by_ gate v => Sys2Proof.Machine.execGateEnable by_ gate v s
  | .gateDisable gate v => Sys2Proof.Machine.execGateDisable gate v s
  | .gateComplete gate => Sys2Proof.Machine.execGateComplete gate s
  | .gateRelease gate core => Sys2Proof.Machine.execGateRelease gate core s
  | .reapEnable by_ ctx v => Sys2Proof.Machine.execReapEnable by_ ctx v s
  | .reapDisable ctx v => Sys2Proof.Machine.execReapDisable ctx v s
  | .reapResult ctx core => Sys2Proof.Machine.execReapResult ctx core s
  | .createQueue queue no => Sys2Proof.Machine.execCreateQueue queue no s
  | .deleteQueue queue no => Sys2Proof.Machine.execDeleteQueue queue no s
  | .abort queue no => Sys2Proof.Machine.execAbort queue no s
  | .rehome queue no => Sys2Proof.Machine.execRehome queue no s
  | .queryQueue queue no => Sys2Proof.Machine.execQueryQueue queue no s
  | .odRead queue no => Sys2Proof.Machine.execOdRead queue no s
  | .odWrite queue no fail => Sys2Proof.Machine.execOdWrite queue no fail s
  | .dataIn queue no fail => Sys2Proof.Machine.execDataIn queue no fail s
  | .dataOut queue no fail => Sys2Proof.Machine.execDataOut queue no fail s
  | .sealIn queue no fail => Sys2Proof.Machine.execSealIn queue no fail s
  | .sealOut queue no fail => Sys2Proof.Machine.execSealOut queue no fail s
  | .launch queue no imageOk => Sys2Proof.Machine.execLaunch queue no imageOk s
  | .gateArrive queue no => Sys2Proof.Machine.execGateArrive queue no s
  | .gateWait queue no => Sys2Proof.Machine.execGateWait queue no s
  | .nop queue no => Sys2Proof.Machine.execNop queue no s
  | .sqDoorbell fn idx value stream ep => Sys2Proof.Machine.execSqDoorbell fn idx value stream ep s
  | .cqDoorbell fn idx value stream ep => Sys2Proof.Machine.execCqDoorbell fn idx value stream ep s
  | .queueFetch die bad => Sys2Proof.Machine.execQueueFetch die bad s
  | .completionCommit queue no report => Sys2Proof.Machine.execCompletionCommit queue no report s
  | .completionWrite queue dropped => Sys2Proof.Machine.execCompletionWrite queue dropped s
  | .completionInterrupt queue timed => Sys2Proof.Machine.execCompletionInterrupt queue timed s
  | .adminQueueEnable fn v => Sys2Proof.Machine.execAdminQueueEnable fn v s
  | .adminQueueDisable fn => Sys2Proof.Machine.execAdminQueueDisable fn s
  | .functionReset fn kind => Sys2Proof.Machine.execFunctionReset fn kind s
  | .hostLost port => Sys2Proof.Machine.execHostLost port s
  | .orphanTimeout queue => Sys2Proof.Machine.execOrphanTimeout queue s
  | .perst port => Sys2Proof.Machine.execPerst port s
  | .bar2Read fn off len stream => Sys2Proof.Machine.execBar2Read fn off len stream s
  | .bar2Write fn off data stream ep => Sys2Proof.Machine.execBar2Write fn off data stream ep s
  | .hostReadTimeout core req => Sys2Proof.Machine.execHostReadTimeout core req s
  | .ideIntegrityFail port stream => Sys2Proof.Machine.execIdeIntegrityFail port stream s
  | .lockInterfaceRequest fn stream => Sys2Proof.Machine.execLockInterfaceRequest fn stream s
  | .startInterfaceRequest fn => Sys2Proof.Machine.execStartInterfaceRequest fn s
  | .stopInterfaceRequest fn => Sys2Proof.Machine.execStopInterfaceRequest fn s
  | .getDeviceInterfaceReport fn => Sys2Proof.Machine.execGetDeviceInterfaceReport fn s
  | .controlCoreFail core => Sys2Proof.Machine.execControlCoreFail core s
  | .flitReceive port bytes fec => Sys2Proof.Machine.execFlitReceive port bytes fec s
  | .retry port seq => Sys2Proof.Machine.execRetry port seq s
  | .retryRepeat port => Sys2Proof.Machine.execRetryRepeat port s
  | .down port reason => Sys2Proof.Machine.execDown port reason s
  | .put => Sys2Proof.Machine.execPut s
  | .get => Sys2Proof.Machine.execGet s
  | .getRsp => Sys2Proof.Machine.execGetRsp s
  | .fabricSow => Sys2Proof.Machine.execFabricSow s
  | .reduce => Sys2Proof.Machine.execReduce s
  | .fabricGateArrive => Sys2Proof.Machine.execFabricGateArrive s
  | .controlPacket => Sys2Proof.Machine.execControlPacket s
  | .fabricAck => Sys2Proof.Machine.execFabricAck s
  | .ackTimer src chan => Sys2Proof.Machine.execAckTimer src chan s
  | .channelResend chan => Sys2Proof.Machine.execChannelResend chan s
  | .creditStall port vc cls => Sys2Proof.Machine.execCreditStall port vc cls s
  | .portStateAdvance port ok lanes said => Sys2Proof.Machine.execPortStateAdvance port ok lanes said s
  | .portRetrain port => Sys2Proof.Machine.execPortRetrain port s
  | .laneFail port lane => Sys2Proof.Machine.execLaneFail port lane s
  | .portDown port reason => Sys2Proof.Machine.execPortDown port reason s
  | .pairSessionOpen module peer => Sys2Proof.Machine.execPairSessionOpen module peer s
  | .commitArrive gate done blocks => Sys2Proof.Machine.execCommitArrive gate done blocks s
  | .rollback r => Sys2Proof.Machine.execRollback r s
  | .fallowSend f => Sys2Proof.Machine.execFallowSend f s
  | .checkpointName step => Sys2Proof.Machine.execCheckpointName step s
  | .checkpointWrite items => Sys2Proof.Machine.execCheckpointWrite items s
  | .checkpointSeal cause => Sys2Proof.Machine.execCheckpointSeal cause s
  | .sharedStoreCopy port => Sys2Proof.Machine.execSharedStoreCopy port s
  | .sharedStoreRestore step recs blocks => Sys2Proof.Machine.execSharedStoreRestore step recs blocks s
  | .heartbeatMissed module => Sys2Proof.Machine.execHeartbeatMissed module s
  | .probeTimeout module reached source => Sys2Proof.Machine.execProbeTimeout module reached source s
  | .failNotice module => Sys2Proof.Machine.execFailNotice module s
  | .minorityHold reached => Sys2Proof.Machine.execMinorityHold reached s
  | .recoveryPlan fits cause layout => Sys2Proof.Machine.execRecoveryPlan fits cause layout s
  | .recoveryRefill committed moves r => Sys2Proof.Machine.execRecoveryRefill committed moves r s
  | .recoveryResume gate => Sys2Proof.Machine.execRecoveryResume gate s
  | .checkpointRollback step salvaged dsts r => Sys2Proof.Machine.execCheckpointRollback step salvaged dsts r s
  | .stepFailed r => Sys2Proof.Machine.execStepFailed r s
  | .entropyFail test => Sys2Proof.Machine.execEntropyFail test s
  | .slotAllocate slot => Sys2Proof.Machine.execSlotAllocate slot s
  | .slotRetire slot => Sys2Proof.Machine.execSlotRetire slot s
  | .slotFree slot => Sys2Proof.Machine.execSlotFree slot s
  | .coreWipe core => Sys2Proof.Machine.execCoreWipe core s
  | .aliasKeyGenerate => Sys2Proof.Machine.execAliasKeyGenerate s
  | .getVersion transport => Sys2Proof.Machine.execGetVersion transport s
  | .getCapabilities transport => Sys2Proof.Machine.execGetCapabilities transport s
  | .negotiateAlgorithms transport => Sys2Proof.Machine.execNegotiateAlgorithms transport s
  | .getDigests transport => Sys2Proof.Machine.execGetDigests transport s
  | .getCertificate transport => Sys2Proof.Machine.execGetCertificate transport s
  | .challenge transport nonce => Sys2Proof.Machine.execChallenge transport nonce s
  | .getMeasurements transport nonce => Sys2Proof.Machine.execGetMeasurements transport nonce s
  | .keyExchange transport msg => Sys2Proof.Machine.execKeyExchange transport msg s
  | .finish transport session => Sys2Proof.Machine.execFinish transport session s
  | .heartbeat transport session => Sys2Proof.Machine.execHeartbeat transport session s
  | .keyUpdate transport session => Sys2Proof.Machine.execKeyUpdate transport session s
  | .endSession transport session => Sys2Proof.Machine.execEndSession transport session s
  | .keyInstall transport session slot ticket key => Sys2Proof.Machine.execKeyInstall transport session slot ticket key s
  | .slotQuery transport session slot => Sys2Proof.Machine.execSlotQuery transport session slot s
  | .slotRelease transport session slot => Sys2Proof.Machine.execSlotRelease transport session slot s
  | .nonceRead who => Sys2Proof.Machine.execNonceRead who s
  | .nonceExpire => Sys2Proof.Machine.execNonceExpire s
  | .tokenCheck who token => Sys2Proof.Machine.execTokenCheck who token s
  | .lcRequestTest who => Sys2Proof.Machine.execLcRequestTest who s
  | .debugLower who level => Sys2Proof.Machine.execDebugLower who level s
  | .fwHeader src header table sig => Sys2Proof.Machine.execFwHeader src header table sig s
  | .fwBlock src index data => Sys2Proof.Machine.execFwBlock src index data s
  | .fwArm who slot gate gen => Sys2Proof.Machine.execFwArm who slot gate gen s
  | .fwActivate => Sys2Proof.Machine.execFwActivate s
  | .fwConfirm who => Sys2Proof.Machine.execFwConfirm who s
  | .fwTrialTimeout => Sys2Proof.Machine.execFwTrialTimeout s
  | .featureSwitch => Sys2Proof.Machine.execFeatureSwitch s
  | .powerRequestRun who => Sys2Proof.Machine.execPowerRequestRun who s
  | .powerRequestIdle who => Sys2Proof.Machine.execPowerRequestIdle who s
  | .powerRequestSleep who => Sys2Proof.Machine.execPowerRequestSleep who s
  | .powerRequestDeepSleep who => Sys2Proof.Machine.execPowerRequestDeepSleep who s
  | .powerRequestOff who => Sys2Proof.Machine.execPowerRequestOff who s
  | .powerTransitionDone => Sys2Proof.Machine.execPowerTransitionDone s
  | .wake => Sys2Proof.Machine.execWake s
  | .smbusAddressMatch addr => Sys2Proof.Machine.execSmbusAddressMatch addr s
  | .powerClassWrite cls => Sys2Proof.Machine.execPowerClassWrite cls s
  | .powerSlowLoop caps => Sys2Proof.Machine.execPowerSlowLoop caps s
  | .fastLimiter watts => Sys2Proof.Machine.execFastLimiter watts s
  | .brakeAssert => Sys2Proof.Machine.execBrakeAssert s
  | .brakeRelease => Sys2Proof.Machine.execBrakeRelease s
  | .dvfsRequest die point who => Sys2Proof.Machine.execDvfsRequest die point who s
  | .dvfsRampDone die => Sys2Proof.Machine.execDvfsRampDone die s
  | .directVoltage die mv who => Sys2Proof.Machine.execDirectVoltage die mv who s
  | .thermalWarn die temp sensor => Sys2Proof.Machine.execThermalWarn die temp sensor s
  | .thermalCapStep die temp => Sys2Proof.Machine.execThermalCapStep die temp s
  | .thermalCapP4 die temp => Sys2Proof.Machine.execThermalCapP4 die temp s
  | .thermalTrip die temp sensor => Sys2Proof.Machine.execThermalTrip die temp sensor s
  | .powerOnReset samples => Sys2Proof.Machine.execPowerOnReset samples s
  | .coldReset samples => Sys2Proof.Machine.execColdReset samples s
  | .mreset samples => Sys2Proof.Machine.execMreset samples s
  | .warmReset => Sys2Proof.Machine.execWarmReset s
  | .pwrgdLoss => Sys2Proof.Machine.execPwrgdLoss s
  | .vinLockout mv => Sys2Proof.Machine.execVinLockout mv s
  | .heartbeatToggle => Sys2Proof.Machine.execHeartbeatToggle s
  | .mailboxRead fn => Sys2Proof.Machine.execMailboxRead fn s
  | .mailboxWrite fn => Sys2Proof.Machine.execMailboxWrite fn s
  | .mailboxDescribe fn => Sys2Proof.Machine.execMailboxDescribe fn s
  | .mailboxFrame fn req => Sys2Proof.Machine.execMailboxFrame fn req s
  | .mailboxSpdm fn req => Sys2Proof.Machine.execMailboxSpdm fn req s
  | .frameRead frame => Sys2Proof.Machine.execFrameRead frame s
  | .frameWrite frame => Sys2Proof.Machine.execFrameWrite frame s
  | .frameDescribe frame => Sys2Proof.Machine.execFrameDescribe frame s
  | .frameSpdm frame req => Sys2Proof.Machine.execFrameSpdm frame req s
  | .discover frame => Sys2Proof.Machine.execDiscover frame s
  | .smbusSelect data pec => Sys2Proof.Machine.execSmbusSelect data pec s
  | .smbusRead => Sys2Proof.Machine.execSmbusRead s
  | .smbusWrite data pec => Sys2Proof.Machine.execSmbusWrite data pec s
  | .smbusStatus => Sys2Proof.Machine.execSmbusStatus s
  | .smbusDescribe => Sys2Proof.Machine.execSmbusDescribe s
  | .smbusAlertResponse => Sys2Proof.Machine.execSmbusAlertResponse s
  | .restoreDefaults who => Sys2Proof.Machine.execRestoreDefaults who s
  | .stallFreeze core on => Sys2Proof.Machine.execStallFreeze core on s
  | .stallClear core => Sys2Proof.Machine.execStallClear core s
  | .moduleStallFreeze on => Sys2Proof.Machine.execModuleStallFreeze on s
  | .moduleStallClear => Sys2Proof.Machine.execModuleStallClear s
  | .eventRecord => Sys2Proof.Machine.execEventRecord s
  | .blackBoxCopy cause => Sys2Proof.Machine.execBlackBoxCopy cause s
  | .registerWrite target v => Sys2Proof.Machine.execRegisterWrite target v s
  | .rngReseed core => Sys2Proof.Machine.execRngReseed core s
  | .threadZeroRelease core => Sys2Proof.Machine.execThreadZeroRelease core s
  | .faultedThreadRestart core thread pc keeper => Sys2Proof.Machine.execFaultedThreadRestart core thread pc keeper s
  | .debugHalt core thread => Sys2Proof.Machine.execDebugHalt core thread s
  | .debugResume core thread single => Sys2Proof.Machine.execDebugResume core thread single s
  | .fieldFenceClear => Sys2Proof.Machine.execFieldFenceClear s
  | .testMapProgram bad fuseToKX2112 => Sys2Proof.Machine.execTestMapProgram bad fuseToKX2112 s
  | .ideKeyProgram port stream => Sys2Proof.Machine.execIdeKeyProgram port stream s
  | .pcieLinkUp port width rate flit => Sys2Proof.Machine.execPcieLinkUp port width rate flit s
  | .pcieL1Exit port => Sys2Proof.Machine.execPcieL1Exit port s
  | .thermalWarnClear die temp => Sys2Proof.Machine.execThermalWarnClear die temp s
  | .railFault rail mv => Sys2Proof.Machine.execRailFault rail mv s
  | .alwaysOnFault unit => Sys2Proof.Machine.execAlwaysOnFault unit s
  | .controlHeartbeatSend => Sys2Proof.Machine.execControlHeartbeatSend s

end Sys2Proof.Machine
end

