-- ==== Sys2Proof/WellFormed.lean ====
section
/-!
DEFINITION. WellFormed.lean: the checks that make a command well formed. A command that carries an instruction word carries a word of
its own row, or a word that spells no instruction; the rows TWIN_WRITE, KLIM_WRITE and KVEC_WRITE carry a WRCR of their own register.
-/

namespace Sys2Proof

open Machine

/-- The instruction a command's row names, with the core, the thread and the word it carries. -/
def Instr.coreCall : Instr → Option (Mn × Nat × Nat × Word)
  | .add c t w => some (.add, c, t, w)
  | .sub c t w => some (.sub, c, t, w)
  | .and c t w => some (.and, c, t, w)
  | .or c t w => some (.or, c, t, w)
  | .xor c t w => some (.xor, c, t, w)
  | .andn c t w => some (.andn, c, t, w)
  | .sll c t w => some (.sll, c, t, w)
  | .srl c t w => some (.srl, c, t, w)
  | .sra c t w => some (.sra, c, t, w)
  | .min c t w => some (.min, c, t, w)
  | .max c t w => some (.max, c, t, w)
  | .minu c t w => some (.minu, c, t, w)
  | .maxu c t w => some (.maxu, c, t, w)
  | .mul c t w => some (.mul, c, t, w)
  | .mulh c t w => some (.mulh, c, t, w)
  | .mulhu c t w => some (.mulhu, c, t, w)
  | .div c t w => some (.div, c, t, w)
  | .divu c t w => some (.divu, c, t, w)
  | .rem c t w => some (.rem, c, t, w)
  | .remu c t w => some (.remu, c, t, w)
  | .clz c t w => some (.clz, c, t, w)
  | .ctz c t w => some (.ctz, c, t, w)
  | .popc c t w => some (.popc, c, t, w)
  | .addi c t w => some (.addi, c, t, w)
  | .andi c t w => some (.andi, c, t, w)
  | .ori c t w => some (.ori, c, t, w)
  | .xori c t w => some (.xori, c, t, w)
  | .slli c t w => some (.slli, c, t, w)
  | .srli c t w => some (.srli, c, t, w)
  | .srai c t w => some (.srai, c, t, w)
  | .li c t w => some (.li, c, t, w)
  | .lih c t w => some (.lih, c, t, w)
  | .cmp c t w => some (.cmp, c, t, w)
  | .cmpi c t w => some (.cmpi, c, t, w)
  | .plog c t w => some (.plog, c, t, w)
  | .pget c t w => some (.pget, c, t, w)
  | .pset c t w => some (.pset, c, t, w)
  | .fadd c t w => some (.fadd, c, t, w)
  | .fsub c t w => some (.fsub, c, t, w)
  | .fmul c t w => some (.fmul, c, t, w)
  | .fdiv c t w => some (.fdiv, c, t, w)
  | .fmin c t w => some (.fmin, c, t, w)
  | .fmax c t w => some (.fmax, c, t, w)
  | .fsqrt c t w => some (.fsqrt, c, t, w)
  | .fcvtI2f c t w => some (.i2f, c, t, w)
  | .fcvtF2i c t w => some (.f2i, c, t, w)
  | .fabs c t w => some (.fabs, c, t, w)
  | .fneg c t w => some (.fneg, c, t, w)
  | .ffma c t w => some (.ffma, c, t, w)
  | .fcmp c t w => some (.fcmp, c, t, w)
  | .mset c t w => some (.mset, c, t, w)
  | .mget c t w => some (.mget, c, t, w)
  | .mgen c t w => some (.mgen, c, t, w)
  | .br c t w => some (.br, c, t, w)
  | .brl c t w => some (.brl, c, t, w)
  | .jr c t w => some (.jr, c, t, w)
  | .jrl c t w => some (.jrl, c, t, w)
  | .ld c t w => some (.ld, c, t, w)
  | .st c t w => some (.st, c, t, w)
  | .lds c t w => some (.lds, c, t, w)
  | .sts c t w => some (.sts, c, t, w)
  | .fenceL c t w => some (.fenceL, c, t, w)
  | .fenceG c t w => some (.fenceG, c, t, w)
  | .fenceB c t w => some (.fenceB, c, t, w)
  | .fenceA c t w => some (.fenceA, c, t, w)
  | .ldTake c t w => some (.take, c, t, w)
  | .ldPeek c t w => some (.peek, c, t, w)
  | .stFill c t w => some (.fill, c, t, w)
  | .stPut c t w => some (.put, c, t, w)
  | .lclr c t w => some (.lclr, c, t, w)
  | .dpost c t w => some (.dpost, c, t, w)
  | .dstat c t w => some (.dstat, c, t, w)
  | .garrive c t w => some (.garrive, c, t, w)
  | .gwait c t w => some (.gwait, c, t, w)
  | .gsync c t w => some (.gsync, c, t, w)
  | .reap c t w => some (.reap, c, t, w)
  | .rwait c t w => some (.rwait, c, t, w)
  | .rdcr c t w => some (.rdcr, c, t, w)
  | .wrcr c t w => some (.wrcr, c, t, w)
  | .twinWrite c t w => some (.wrcr, c, t, w)
  | .klimWrite c t w => some (.wrcr, c, t, w)
  | .kvecWrite c t w => some (.wrcr, c, t, w)
  | .kcall c t w => some (.kcall, c, t, w)
  | .xret c t w => some (.xret, c, t, w)
  | .thrStart c t w => some (.thrStart, c, t, w)
  | .thrStop c t w => some (.thrStop, c, t, w)
  | .thrState c t w => some (.thrState, c, t, w)
  | .jswitch c t w => some (.jswitch, c, t, w)
  | .cacheInvAll c t w => some (.cacheAll, c, t, w)
  | .cacheInvLine c t w => some (.cacheLine, c, t, w)
  | .tlbinvAll c t w => some (.tlbAll, c, t, w)
  | .tlbinvEntry c t w => some (.tlbEntry, c, t, w)
  | .brk c t w => some (.brk, c, t, w)
  | .tmma c t w => some (.tmma, c, t, w)
  | .tmmaSeg c t w => some (.tmmaSeg, c, t, w)
  | .tmmaConv c t w => some (.tmmaConv, c, t, w)
  | .tld c t w => some (.tld, c, t, w)
  | .tst c t w => some (.tst, c, t, w)
  | .tlds c t w => some (.tlds, c, t, w)
  | .tsts c t w => some (.tsts, c, t, w)
  | .tmov c t w => some (.tmov, c, t, w)
  | .tzero c t w => some (.tzero, c, t, w)
  | .txfer c t w => some (.txfer, c, t, w)
  | .ttag c t w => some (.ttag, c, t, w)
  | .tastat c t w => some (.tastat, c, t, w)
  | .tvadd c t w => some (.tvadd, c, t, w)
  | .tvsub c t w => some (.tvsub, c, t, w)
  | .tvmul c t w => some (.tvmul, c, t, w)
  | .tvfma c t w => some (.tvfma, c, t, w)
  | .tvmin c t w => some (.tvmin, c, t, w)
  | .tvmax c t w => some (.tvmax, c, t, w)
  | .tvscl c t w => some (.tvscl, c, t, w)
  | .tvcvt c t w => some (.tvcvt, c, t, w)
  | .tvredSum c t w => some (.redSum, c, t, w)
  | .tvredMax c t w => some (.redMax, c, t, w)
  | .tvredMin c t w => some (.redMin, c, t, w)
  | .tvredAbsmax c t w => some (.redAbsmax, c, t, w)
  | .tvredSumsq c t w => some (.redSumsq, c, t, w)
  | .tvfnExp2 c t w => some (.fnExp2, c, t, w)
  | .tvfnExp c t w => some (.fnExp, c, t, w)
  | .tvfnLog2 c t w => some (.fnLog2, c, t, w)
  | .tvfnRcp c t w => some (.fnRcp, c, t, w)
  | .tvfnRsqrt c t w => some (.fnRsqrt, c, t, w)
  | .tvfnSqrt c t w => some (.fnSqrt, c, t, w)
  | .tvbcast c t w => some (.tvbcast, c, t, w)
  | .tdrain c t w => some (.tdrain, c, t, w)
  | _ => none

/-- The instruction a command's row names, with the word it carries. -/
def Instr.coreWord (i : Instr) : Option (Mn × Word) := i.coreCall.map (fun x => (x.1, x.2.2.2))

/-- The register that the row of a WRCR names (02 R87). -/
def Instr.rowRegister : Instr → Option Nat
  | .twinWrite _ _ _ => some 0x001
  | .klimWrite _ _ _ => some 0x021
  | .kvecWrite _ _ _ => some 0x020
  | _ => none

/-- A WRCR of such a row names the row's register. -/
def registerFits (r : Option Nat) (w : Word) : Bool :=
  match r with
  | some n => coreMnemonic w != some .wrcr || wCr w == n
  | none => true

/-- Whether the command is well formed. -/
def Instr.wellFormed (i : Instr) : Bool :=
  match i.coreWord with
  | some (m, w) => wordIs m w && registerFits i.rowRegister w
  | none => true

end Sys2Proof
end

