-- ==== Sys2Proof/Safety.lean ====
section
/-!
DEFINITION. Safety.lean: the terms that claims use: when an instruction issues, what it leaves, which parts of the state a command leaves
alone, and the invariants of a run.
-/

namespace Sys2Proof.Machine

/-! ## When an instruction issues -/

/-- Thread t of logical core c can issue its next instruction: the core works, the thread is RUNNING and nothing holds it, and the
word is fetched without an exception (02 R55, R56, R66, R79, R90, R91, R98; 07 R556). -/
structure Offered (c t : Nat) (s : State) : Prop where
  up : coreUp s c = true
  thread : t < 16
  running : (getThread s c t).st.state = .running
  noStop : (getThread s c t).stopReq = none
  noTwin : (getThread s c t).twPend = none
  noWalk : (getThread s c t).walk = none
  noSwitch : (getCore s c).sync.jsw = none
  noDeferred : (getThread s c t).deferred = none
  fetched : fetchCheck s c t = none

/-- Instruction m, spelled by w, issues in thread t of logical core c: the word is a legal word of m and its predicate holds (02 R70,
R72). -/
structure Issues (m : Mn) (c t : Nat) (w : Word) (s : State) : Prop extends Offered c t s where
  spells : coreMnemonic w = some m
  legal : illegalSubs w = []
  holds : (predicated w && !predHolds (getThread s c t) w) = false

/-- Nothing is still to be written to a register of the thread. -/
def allReady (c t : Nat) (s : State) : Prop := ∀ n, (getCore s c).gBusy t n = false ∧ (getCore s c).sBusy t n = false

/-- Instructions that no mode and no operand makes privileged (02 R65). -/
def neverPrivileged (m : Mn) : Bool :=
  match m with
  | .add | .sub | .and | .or | .xor | .andn | .sll | .srl | .sra | .min | .max | .minu | .maxu | .mul | .mulh
  | .mulhu | .div | .divu | .rem | .remu | .clz | .ctz | .popc | .addi | .andi | .ori | .xori | .slli | .srli | .srai | .li
  | .lih | .cmp | .cmpi | .plog | .pget | .pset | .fadd | .fsub | .fmul | .fdiv | .fmin | .fmax | .fsqrt | .i2f | .f2i
  | .fabs | .fneg | .ffma | .fcmp | .mset | .mget | .mgen | .br | .brl | .jr | .jrl | .fenceL | .fenceG | .fenceB | .fenceA
  | .garrive | .gwait | .gsync | .rwait | .cacheAll | .cacheLine => true
  | _ => false

/-- The instructions that form their address as 02 R80 says. -/
def formsAddress (m : Mn) : Bool :=
  match m with
  | .ld | .st | .lds | .sts | .take | .peek | .fill | .put | .lclr => true
  | _ => false

/-- Neither exception 0x01 nor exception 0x02 applies to a legal word in the state: what job mode may not do is not asked for, KCALL is
in job mode, BRK finds a debug session (02 R65, R92, R94). -/
def Permitted (m : Mn) (c t : Nat) (w : Word) (s : State) : Prop :=
  ((getThread s c t).st.pm = true ∨ neverPrivileged m = true ∨ m = .kcall ∨ m = .brk ∨
    (formsAddress m = true ∧ field (gVal (getThread s c t) (wGa w)) 63 56 ≠ 0x0F)) ∧
  (m = .kcall → (getThread s c t).st.pm = false) ∧ (m = .brk → 2 ≤ s.ward.debug ∧ (getCore s c).ctl.debugClaim = true)

/-- The registers an instruction uses await no earlier result, and those it must not find poisoned are not (02 R56, R61). -/
structure Ready (c t : Nat) (u : Uses) (s : State) : Prop where
  free : u.busy (getCore s c) t = false
  clean : u.poison (getThread s c t) = []

/-! ## What an instruction leaves -/

/-- The end of an instruction whose effect made s' of s: the issue is counted, and a thread that a debugger steps is HALTED. -/
def finished (c t : Nat) (s' : State) : State := stepEnd (updCore s' c (fun k => k.noteIssue t)) c t

/-- The state after an instruction whose effect made s1 of s: besides it, the pc is past the instruction and the issue is counted. -/
def completed (c t : Nat) (s1 : State) : State := finished c t (advance s1 c t)

/-- A thread that a debugger steps is HALTED when its instruction ends (13 R472). -/
def stepped (th : Thread) : Thread :=
  if th.step && th.st.state == .running then { th with st := { th.st with state := .halted }, step := false } else th

/-- A load that a keeper entry left in flight no longer writes general register n (02 R96). -/
def supersedes (t : Nat) (n : Option Nat) (q : Req) : Req :=
  if n.isSome && q.thread == t && q.orphan != 0 && q.kind.gDest == n then { q with superseded := true } else q

/-- s' is s after one instruction of thread t of core c whose whole effect is on that thread: the thread is th', the core counts the
issue, a load in flight to dest is superseded, and EVERYTHING else is as it was: every other thread and core, all of memory,
the rest of the core and of the module. -/
structure ThreadOnly (c t : Nat) (dest : Option Nat) (th' : Thread) (s s' : State) : Prop where
  thread : getThread s' c t = stepped th'
  threads : ∀ u, u ≠ t → getThread s' c u = getThread s c u
  core : getCore s' c =
    { (getCore s c).noteIssue t with
      threads := (getCore s' c).threads, reqs := (getCore s c).reqs.map (supersedes t dest) }
  cores : ∀ d, d ≠ c → getCore s' d = getCore s d
  rest : s' = { s with cores := s'.cores }

/-- The thread after an instruction that writes general register n: the pc past the instruction, every other register, flag and status
bit as before (02 R60). -/
def wroteG (th : Thread) (n : Nat) (v : Word) : Thread := { th with pc := th.pc + 8, regs := th.regs.gSet n ⟨v, false⟩ }

def wroteP (th : Thread) (n : Nat) (v : Bool) : Thread := { th with pc := th.pc + 8, regs := th.regs.pSet n v }

def wroteM (th : Thread) (n : Nat) (v : BitVec 32) : Thread := { th with pc := th.pc + 8, regs := th.regs.mSet n ⟨v, false⟩ }

/-- The thread after an FP32 instruction that raised flags, none of them trapped. -/
def raisedF (th : Thread) (raised : Nat) : Thread :=
  { th with st := { th.st with flags := th.st.flags ||| BitVec.ofNat 5 raised } }

/-- A command runs and leaves a state of which p holds. -/
def Runs (i : Instr) (s : State) (p : State → Prop) : Prop := ∃ s', exec i s = .next s' ∧ p s'

/-! ## Memory instructions -/

/-- A memory instruction of n bytes forms an address in its own core's LOCAL that passes every check, has a request slot, and follows no
earlier access of the thread to the same bytes that is not performed (02 R66, R80–R84, R86). -/
structure LocalAccess (c t : Nat) (w : Word) (store : Bool) (n : Nat) (s : State) : Prop where
  base : ((getThread s c t).regs.gGet (wGa w)).p = false
  index : ((getThread s c t).regs.gGet (wGb w)).p = false
  space : field (memAddr (getThread s c t) w) 63 56 = 0x00
  aligned : (memAddr (getThread s c t) w).toNat % n = 0
  range : field (memAddr (getThread s c t) w) 55 0 + n ≤ 0xC0000
  area : (getThread s c t).st.pm = true ∨ field (memAddr (getThread s c t) w) 55 0 + n ≤ (getCore s c).ctl.klim.toNat
  slot : slotFree (getCore s c) t = true
  order : mustFollow s c t false store (field (memAddr (getThread s c t) w) 55 0) n = false

/-- A memory instruction of n bytes forms an address in another core's LOCAL or granary, which the issuing core's checks pass (01 R10,
R21; 02 R80–R84). -/
structure FarAccess (c t : Nat) (w : Word) (n : Nat) (s : State) : Prop where
  base : ((getThread s c t).regs.gGet (wGa w)).p = false
  index : ((getThread s c t).regs.gGet (wGb w)).p = false
  space : field (memAddr (getThread s c t) w) 63 56 = 0x02
  aligned : (memAddr (getThread s c t) w).toNat % n = 0
  reserved : field (memAddr (getThread s c t) w) 55 48 = 0
  range : (memAddr (getThread s c t) w).toNat % 2 ^ 36 + n ≤ 0xC0000
  grid : inGrid s.grid (aRow (memAddr (getThread s c t) w).toNat) (aCol (memAddr (getThread s c t) w).toNat) = true
  core : isHole s (aCore (memAddr (getThread s c t) w).toNat) = false
  slot : slotFree (getCore s c) t = true

/-- No latch operation waits at an uncorrectable word of the core: the word's next read makes it full and serves those that wait there (07
R274; 09 R327). -/
def quietWords (k : Core) : Prop :=
  ∀ x ∈ k.mem.latch, ((if x.gran then k.mem.gran else k.mem.localMem).mark x.word).ecc ≠ .unc

/-- One more request of core c waits for its response: q, the thread's pc is past the instruction, and no other core and no memory but
what the command says has changed. -/
structure Requested (c t : Nat) (q : Req) (s s' : State) : Prop where
  reqs : (getCore s' c).reqs = (getCore s c).reqs ++ [q]
  thread : getThread s' c t = stepped { getThread s c t with pc := (getThread s c t).pc + 8 }
  threads : ∀ u, u ≠ t → getThread s' c u = getThread s c u
  cores : ∀ d, d ≠ c → getCore s' d = getCore s d
  gran : (getCore s' c).mem.gran = (getCore s c).mem.gran
  bulk : s'.bulk = s.bulk

/-! ## Tile, array, vector and drain instructions -/

/-- s' is s after one instruction of thread t of core c: the thread's pc is past it, with general register dest written v where one is
named; the core's tile unit, the threads' records and the scale vectors awaited (one more, sb, where one is named) are
all that may differ in the core, but for the counted issue; every other thread, core and unit, and all of memory, is as it was. -/
structure TileOnly (c t : Nat) (dest : Option (Nat × Word)) (sb : List (Nat × Nat)) (u : TileUnit) (s s' : State) : Prop where
  thread : getThread s' c t =
    stepped (match dest with
      | some (n, v) => wroteG (getThread s c t) n v
      | none => { getThread s c t with pc := (getThread s c t).pc + 8 })
  threads : ∀ x, x ≠ t → getThread s' c x = getThread s c x
  core : getCore s' c =
    { (getCore s c).noteIssue t with
      threads := (getCore s' c).threads, tile := u, reqs := (getCore s c).reqs.map (supersedes t (dest.map (·.1)))
      ctl := { ((getCore s c).noteIssue t).ctl with sBusy := sb ++ (getCore s c).ctl.sBusy } }
  cores : ∀ d, d ≠ c → getCore s' d = getCore s d
  rest : s' = { s with cores := s'.cores }

/-- The window holds each of these indices (03 R106). -/
def inWindow (th : Thread) (l : List Nat) : Prop := ∀ i ∈ l, i < th.twCount.toNat

/-- An area of n bytes at address a lies in the core's LOCAL, or in its scratch granary, where the thread may reach it (03 R119). -/
def areaFree (s : State) (c t : Nat) (a : Word) (n : Nat) : Prop :=
  (field a 63 56 = 0 ∧ field a 55 0 + n ≤ 0xC0000 ∧
    ((getThread s c t).st.pm = true ∨ field a 55 0 + n ≤ (getCore s c).ctl.klim.toNat)) ∨
  (field a 63 56 = 1 ∧ field a 55 0 + n ≤ 0x500000 - (getCore s c).mem.mc.csteps * 0x40000)

/-! ## Commands of a submission ring -/

/-- Command no of queue g, x in q, has an opcode and may start or is running, while the queue managers work (10 R373, R378). -/
structure QueueHas (g no opc : Nat) (q : Queue) (x : Cmd) (s : State) : Prop where
  works : managersRun s = true
  queue : getQueue s g = some q
  cmd : getCmd q no = some x
  opcode : x.opc = opc
  may : x.st = .running ∨ (x.st = .fetched ∧ mayStart q x = true)

/-- Command no of queue g as the state holds it. -/
def cmdOf (s : State) (g no : Nat) : Option Cmd := (getQueue s g).bind (fun q => getCmd q no)

/-- The command's work is over with a status and a RESULT; its completion is still to be committed. -/
def CmdEnded (g no : Nat) (x : Cmd) (st r : Nat) (s' : State) : Prop := cmdOf s' g no = some { x with st := .ended st r }

/-! ## Life cycle and debug level -/

/-- The life cycle and the debug level are legal (13 R453, R468, R472, R476): at most 64 transitions, each to a state but BLANK; the level in
force, and one recorded for the next warm reset, exist in the state that the life cycle is in. -/
structure LevelLegal (s : State) : Prop where
  steps : s.ward.lcrec.length ≤ 64
  codes : ∀ x ∈ s.ward.lcrec, 1 ≤ x ∧ x ≤ 5
  level : levelAllowed (lifeCycle s) s.ward.debug = true
  lowered : ∀ d, s.ward.lowered = some d → levelAllowed (lifeCycle s) d = true

/-! ## What a row of the opcode table says, over every core, thread, word and state in which its instruction issues -/

/-- The instruction writes general register gd with a value of the thread and the word; nothing else changes. -/
def RowWritesG (row : Nat → Nat → Word → Instr) (m : Mn) (uses : Word → Uses) (v : Thread → Word → Word) : Prop :=
  ∀ c t w s, Issues m c t w s → Ready c t (uses w) s →
    Runs (row c t w) s (ThreadOnly c t (some (wGd w)) (wroteG (getThread s c t) (wGd w) (v (getThread s c t) w)) s)

/-- The instruction changes its own thread; nothing else changes. -/
def RowSetsThread (row : Nat → Nat → Word → Instr) (m : Mn) (uses : Word → Uses) (f : Thread → Word → Thread) : Prop :=
  ∀ c t w s, Issues m c t w s → Ready c t (uses w) s →
    Runs (row c t w) s (ThreadOnly c t none (f (getThread s c t) w) s)

/-- The state after an instruction that takes an exception and has no other effect than to be counted. -/
def trapped (c t : Nat) (x : Exc) (s : State) : State := stepEnd (takeExc (updCore s c (fun k => k.noteIssue t)) c t x) c t

/-- The registers of the usual shapes. -/
def readsAB (w : Word) : Uses := { gIn := [wGa w, wGb w], gOut := [wGd w] }
def readsA (w : Word) : Uses := { gIn := [wGa w], gOut := [wGd w] }
def readsNone (w : Word) : Uses := { gOut := [wGd w] }

end Sys2Proof.Machine
end

