-- ==== Sys2Proof/Certificates/Slice0/Obligations.lean ====
section
/-!
DEFINITION. Certificates/Slice0/Obligations.lean: the statements about the block, for the provers. Each docstring says what it states and
from which rule.
-/

open Sys2Proof Sys2Proof.Machine

/-- For every state and every command c: a step of the state with c at the front of its queue is exec of c on the state with the rest
of the queue; on an empty queue the block idles, which is the model's choice (notes/assumptions/1.md). Rules: 02 Instruction issue, 10
Control cluster, host ports and queues. -/
def Obligations.StepRunsTheFrontCommand : Prop :=
  (∀ (c : Instr) (s : State), step { s with pending := c :: s.pending } = exec c s) ∧
  (∀ s : State, s.pending = [] → step s = .next s)

/-- Every well-formed command answers a next state from every state: no command stops the block with a fault, and no data ends a run.
A command whose word spells another instruction than its row, or a TWIN, KLIM or KVEC row whose WRCR names another register, is
refused as ill-formed. Which commands are ill-formed is the model's own (WellFormed.lean). Rules: 02 Instruction set, R72, R87. -/
def Obligations.WellFormedCommandsRun : Prop :=
  ∀ (i : Instr) (s : State),
    (i.wellFormed = true → ∃ s', exec i s = .next s') ∧ (i.wellFormed = false → exec i s = .refused .illFormed)

/-- For every core instruction m and all operand values that fit its fields, the encoded word decodes to m, gives every operand back,
and has every reserved bit clear. Conversely, every word that decodes to m and has its reserved bits clear is the encoding of its own
operands. So no two words with clear reserved bits share an instruction and its operands. Rules: R69, R71, R73, R75, R76, R77, R80,
R89, R116, R149. -/
def Obligations.EncodingLosesNoBit : Prop :=
  (∀ (m : Mn) (vals : List Nat), fieldsFit (operandFields m) vals = true →
    coreMnemonic (encodeWord m vals) = some m ∧ operandsOf m (encodeWord m vals) = vals ∧
    reservedClear m (encodeWord m vals) = true) ∧
  (∀ (m : Mn) (w : Word), coreMnemonic w = some m → reservedClear m w = true → encodeWord m (operandsOf m w) = w)

/-- Words written out bit by bit from the encodings of the spec decode to the instruction they stand for: ADDI g0, g0, 0 (the
canonical no-operation), ADD g3, g1, g2, DIV, CMPI, FADD, MGEN, BRL, LD, ST.FILL, FENCE.A, DPOST, GSYNC, REAP, WRCR, THR.STATE, TLBINV
of an entry, TMMA, TLD, TDRAIN, TVRED.SUMSQ, TVFN.SQRT; a zero word and an unassigned opcode decode to none. Rules: R68, R69, R71,
R73, R89, R116, R149. -/
def Obligations.WrittenWordsDecode : Prop :=
  coreMnemonic 0x0800000000000000 = some .addi ∧
  coreMnemonic (0b00000001_00011_00001_00010_000_0_0000000000000000000000000000000_000000 : Word) = some .add ∧
  coreMnemonic (0b00000001_00011_00001_00010_000_0_0000000000000000000000000000000_010011 : Word) = some .div ∧
  coreMnemonic (0b00011001_00001_00010_00000_000_0_000000000000000000000000000000101_0010 : Word) = some .cmpi ∧
  coreMnemonic (0b00100000_00011_00001_00010_000_0_000000000000000000000000000000000_0000 : Word) = some .fadd ∧
  coreMnemonic (0b00101010_00011_00000_00000_000_0_000000000000000000000000_00000_00_001000 : Word) = some .mgen ∧
  coreMnemonic (0b00110001_11111_00000_00000_000_0_1111111111111111111111111111111111110 : Word) = some .brl ∧
  coreMnemonic (0b01110000_00001_00010_00011_000_0_011_11_00000000000000000000000000001000 : Word) = some .ld ∧
  coreMnemonic (0b01111010_00001_00010_00000_000_0_011_00_00000000000000000000000000000000 : Word) = some .fill ∧
  coreMnemonic (0b01110110_00000_00000_00000_000_0_00000000000000000000000000000000000_11 : Word) = some .fenceA ∧
  coreMnemonic (0b10000000_00001_00010_00000_000_0_000000000000000000000000000000000_0101 : Word) = some .dpost ∧
  coreMnemonic (0b10001010_00001_00000_00000_000_0_0000000000000000000000000000_100000001 : Word) = some .gsync ∧
  coreMnemonic (0b10001100_00001_00010_00011_000_0_00000000000000000000000000000_00000111 : Word) = some .reap ∧
  coreMnemonic (0b10010001_00000_00010_00000_000_0_0000000000000000000000000_000000000001 : Word) = some .wrcr ∧
  coreMnemonic (0b10010100_00001_00010_00000_000_0_000000000000000000000000000000000_0010 : Word) = some .thrState ∧
  coreMnemonic (0b10010111_00000_00010_00000_000_0_000000000000000000000000000000000000_1 : Word) = some .tlbEntry ∧
  coreMnemonic (0b01000000_0000_00000_00001_000_00010_00011_0_1_000_000_0_0_0_00_0000000000000000 : Word) = some .tmma ∧
  coreMnemonic (0b01000100_00001_00010_00011_00000_000_0100_0_0000000000000000000000000000 : Word) = some .tld ∧
  coreMnemonic (0b01010000_00001_00010_00011_0_0_00_00_0_0000_0000_00000000000000000000000000 : Word) = some .tdrain ∧
  coreMnemonic (0b01101000_00000_00001_00000_00000_000_0000_000_00_0100_00_0_00000000000000000 : Word) = some .redSumsq ∧
  coreMnemonic (0b01101001_00001_00010_00000_00000_000_0000_000_00_0101_00_0_00000000000000000 : Word) = some .fnSqrt ∧
  coreMnemonic 0 = none ∧ coreMnemonic 0xFF00000000000000 = none

/-- g0 reads zero, p0 reads true and m0 reads all ones, whatever has been written; a write to any of them leaves every register as it
was. After a write of general register, predicate, mask or scale vector n, that register reads the value written (n not 0 but for the
scale vectors; a predicate below 8), and every other register of the thread reads as before. Rules: R59, R60. -/
def Obligations.RegistersReadWhatWasWritten : Prop :=
  (
    ∀ (r : Regs) (g : GReg) (b : Bool) (m : MReg),
      (r.gGet 0).v = 0 ∧ (r.gGet 0).p = false ∧ r.pGet 0 = true ∧ (r.mGet 0).v = BitVec.allOnes 32 ∧ (r.mGet 0).p = false ∧
      r.gSet 0 g = r ∧ r.pSet 0 b = r ∧ r.mSet 0 m = r) ∧
  (
    ∀ (r : Regs) (n j : Nat) (g : GReg) (b : Bool) (m : MReg) (v : SReg),
      (n ≠ 0 → (r.gSet n g).gGet n = g ∧ (r.mSet n m).mGet n = m) ∧ (0 < n ∧ n < 8 → (r.pSet n b).pGet n = b) ∧
      (r.sSet n v).sGet n = v ∧
      (j ≠ n → (r.gSet n g).gGet j = r.gGet j ∧ (r.mSet n m).mGet j = r.mGet j ∧ (r.sSet n v).sGet j = r.sGet j) ∧
      (j ≠ n → n < 8 → j < 8 → (r.pSet n b).pGet j = r.pGet j) ∧
      (∀ i, (r.gSet n g).pGet i = r.pGet i ∧ (r.gSet n g).mGet i = r.mGet i ∧ (r.gSet n g).sGet i = r.sGet i) ∧
      (∀ i, (r.pSet n b).gGet i = r.gGet i ∧ (r.pSet n b).mGet i = r.mGet i ∧ (r.pSet n b).sGet i = r.sGet i) ∧
      (∀ i, (r.mSet n m).gGet i = r.gGet i ∧ (r.mSet n m).pGet i = r.pGet i ∧ (r.mSet n m).sGet i = r.sGet i))

/-- For every core, thread, word and state in which the instruction issues with its registers ready and unpoisoned: ADD, SUB, AND, OR,
XOR, ANDN, SLL, SRL, SRA, MIN, MAX, MINU, MAXU, MUL, MULH, MULHU, CLZ, CTZ and POPC answer a next state in which gd holds the stated
function of ga and gb (of ga alone for the last three), the pc is past the instruction, and every other register, flag, status bit,
thread, core and byte of memory is as before. Where the instruction issues with its registers ready and unpoisoned: ADDI, ANDI, ORI
and XORI combine ga with the sign-extended 37-bit immediate; SLLI, SRLI and SRAI shift ga by imm[5:0]; LI loads the sign-extended
immediate; LIH keeps ga[36:0] under imm[26:0]; PGET reads p7…p0; MGET reads a mask, zero-extended; FABS and FNEG clear and flip bit 31
of ga[31:0] and zero bits [63:32]. gd holds that value, the pc is past the instruction, everything else is as before. Rules: R60, R71,
R73, R76, R77. -/
def Obligations.AluAndImmediateRowsWriteGd : Prop :=
  (
    RowWritesG .add .add readsAB (fun th w => gVal th (wGa w) + gVal th (wGb w)) ∧
    RowWritesG .sub .sub readsAB (fun th w => gVal th (wGa w) - gVal th (wGb w)) ∧
    RowWritesG .and .and readsAB (fun th w => gVal th (wGa w) &&& gVal th (wGb w)) ∧
    RowWritesG .or .or readsAB (fun th w => gVal th (wGa w) ||| gVal th (wGb w)) ∧
    RowWritesG .xor .xor readsAB (fun th w => gVal th (wGa w) ^^^ gVal th (wGb w)) ∧
    RowWritesG .andn .andn readsAB (fun th w => gVal th (wGa w) &&& ~~~gVal th (wGb w)) ∧
    RowWritesG .sll .sll readsAB (fun th w => gVal th (wGa w) <<< ((gVal th (wGb w)).toNat % 64)) ∧
    RowWritesG .srl .srl readsAB (fun th w => gVal th (wGa w) >>> ((gVal th (wGb w)).toNat % 64)) ∧
    RowWritesG .sra .sra readsAB (fun th w => (gVal th (wGa w)).sshiftRight ((gVal th (wGb w)).toNat % 64)) ∧
    RowWritesG .min .min readsAB (fun th w =>
      if (gVal th (wGa w)).toInt ≤ (gVal th (wGb w)).toInt then gVal th (wGa w) else gVal th (wGb w)) ∧
    RowWritesG .max .max readsAB (fun th w =>
      if (gVal th (wGb w)).toInt ≤ (gVal th (wGa w)).toInt then gVal th (wGa w) else gVal th (wGb w)) ∧
    RowWritesG .minu .minu readsAB (fun th w =>
      if (gVal th (wGa w)).toNat ≤ (gVal th (wGb w)).toNat then gVal th (wGa w) else gVal th (wGb w)) ∧
    RowWritesG .maxu .maxu readsAB (fun th w =>
      if (gVal th (wGb w)).toNat ≤ (gVal th (wGa w)).toNat then gVal th (wGa w) else gVal th (wGb w)) ∧
    RowWritesG .mul .mul readsAB (fun th w => word ((gVal th (wGa w)).toNat * (gVal th (wGb w)).toNat)) ∧
    RowWritesG .mulh .mulh readsAB (fun th w => BitVec.ofInt 64 ((gVal th (wGa w)).toInt * (gVal th (wGb w)).toInt / 2 ^ 64)) ∧
    RowWritesG .mulhu .mulhu readsAB (fun th w => word ((gVal th (wGa w)).toNat * (gVal th (wGb w)).toNat / 2 ^ 64)) ∧
    RowWritesG .clz .clz readsA (fun th w => (gVal th (wGa w)).clz) ∧
    RowWritesG .ctz .ctz readsA (fun th w => (gVal th (wGa w)).ctz) ∧
    RowWritesG .popc .popc readsA (fun th w => (gVal th (wGa w)).cpop)) ∧
  (
    RowWritesG .addi .addi readsA (fun th w => gVal th (wGa w) + ((w.truncate 37 : BitVec 37).signExtend 64)) ∧
    RowWritesG .andi .andi readsA (fun th w => gVal th (wGa w) &&& ((w.truncate 37 : BitVec 37).signExtend 64)) ∧
    RowWritesG .ori .ori readsA (fun th w => gVal th (wGa w) ||| ((w.truncate 37 : BitVec 37).signExtend 64)) ∧
    RowWritesG .xori .xori readsA (fun th w => gVal th (wGa w) ^^^ ((w.truncate 37 : BitVec 37).signExtend 64)) ∧
    RowWritesG .slli .slli readsA (fun th w => gVal th (wGa w) <<< field w 5 0) ∧
    RowWritesG .srli .srli readsA (fun th w => gVal th (wGa w) >>> field w 5 0) ∧
    RowWritesG .srai .srai readsA (fun th w => (gVal th (wGa w)).sshiftRight (field w 5 0)) ∧
    RowWritesG .li .li readsNone (fun _ w => (w.truncate 37 : BitVec 37).signExtend 64) ∧
    RowWritesG .lih .lih readsA (fun th w => w.extractLsb' 0 27 ++ (gVal th (wGa w)).extractLsb' 0 37) ∧
    RowWritesG .pget .pget readsNone (fun th _ => ((th.regs.p ||| 1#8).zeroExtend 64)) ∧
    RowWritesG .mget .mget (fun w => { mIn := [wGa w], gOut := [wGd w] })
      (fun th w => ((th.regs.mGet (wGa w)).v.zeroExtend 64)) ∧
    RowWritesG .fabs .fabs readsA (fun th w => gVal th (wGa w) &&& 0x7FFFFFFF#64) ∧
    RowWritesG .fneg .fneg readsA (fun th w => (gVal th (wGa w) &&& 0xFFFFFFFF#64) ^^^ 0x80000000#64))

/-- Where the instruction issues with its registers ready and unpoisoned, and TE_IDZ is 0 or gb is not zero: DIV, DIVU, REM and REMU
write the quotient rounded toward zero or the remainder, all ones or ga where gb is zero, and −2^63 or 0 for −2^63 by −1; no flag,
nothing else changes. With TE_IDZ set and gb zero the instruction writes nothing and the thread takes exception 0x0B with XSUB 0x05.
Rules: R74. -/
def Obligations.DivisionRowsWriteQuotientOrRemainder : Prop :=
  (∀ c t w s, Ready c t (readsAB w) s →
    (getThread s c t).st.teIdz = false ∨ gVal (getThread s c t) (wGb w) ≠ 0 →
    let th := getThread s c t
    let a := gVal th (wGa w)
    let b := gVal th (wGb w)
    let leaves (v : Word) := ThreadOnly c t (some (wGd w)) (wroteG th (wGd w) v) s
    (Issues .div c t w s → Runs (.div c t w) s (leaves (if b = 0 then BitVec.allOnes 64
      else if a = BitVec.intMin 64 ∧ b = BitVec.allOnes 64 then BitVec.intMin 64 else a.sdiv b))) ∧
    (Issues .divu c t w s → Runs (.divu c t w) s (leaves (if b = 0 then BitVec.allOnes 64 else a / b))) ∧
    (Issues .rem c t w s → Runs (.rem c t w) s (leaves (if b = 0 then a
      else if a = BitVec.intMin 64 ∧ b = BitVec.allOnes 64 then 0 else a.srem b))) ∧
    (Issues .remu c t w s → Runs (.remu c t w) s (leaves (if b = 0 then a else a % b)))) ∧
  (∀ c t w s, Ready c t (readsAB w) s → (getThread s c t).st.teIdz = true → gVal (getThread s c t) (wGb w) = 0 →
    (Issues .div c t w s → exec (.div c t w) s = .next (trapped c t ⟨0x0B, 0x05, w⟩ s)) ∧
    (Issues .divu c t w s → exec (.divu c t w) s = .next (trapped c t ⟨0x0B, 0x05, w⟩ s)) ∧
    (Issues .rem c t w s → exec (.rem c t w) s = .next (trapped c t ⟨0x0B, 0x05, w⟩ s)) ∧
    (Issues .remu c t w s → exec (.remu c t w) s = .next (trapped c t ⟨0x0B, 0x05, w⟩ s)))

/-- Where the instruction issues with its registers ready and unpoisoned: CMP and CMPI write the condition imm[3:0] (EQ, NE, LT, GE,
LTU, GEU) of ga and gb or of ga and the sign-extended 33-bit immediate; PLOG combines two predicates; PSET writes p1…p7 from ga[7:1];
MSET writes ga[31:0] to a mask; MGEN writes n ones from bit b up. The pc is past the instruction, everything else is as before. Rules:
R71, R75, R77. -/
def Obligations.PredicateAndMaskRowsSetTheirThread : Prop :=
  let cond (k : Nat) (a b : Word) : Bool :=
    if k = 0 then decide (a = b) else if k = 1 then decide (a ≠ b) else if k = 2 then decide (a.toInt < b.toInt)
    else if k = 3 then decide (b.toInt ≤ a.toInt) else if k = 4 then decide (a.toNat < b.toNat) else decide (b.toNat ≤ a.toNat)
  let logic (k : Nat) (a b : Bool) : Bool :=
    if k = 0 then a && b else if k = 1 then a || b else if k = 2 then xor a b else a && !b
  RowSetsThread .cmp .cmp (fun w => { gIn := [wGa w, wGb w] })
    (fun th w => wroteP th (wGd w) (cond (field w 3 0) (gVal th (wGa w)) (gVal th (wGb w)))) ∧
  RowSetsThread .cmpi .cmpi (fun w => { gIn := [wGa w] })
    (fun th w => wroteP th (wGd w) (cond (field w 3 0) (gVal th (wGa w)) ((w.extractLsb' 4 33).signExtend 64))) ∧
  RowSetsThread .plog .plog (fun _ => {})
    (fun th w => wroteP th (wGd w) (logic (field w 1 0) (th.regs.pGet (wGa w)) (th.regs.pGet (wGb w)))) ∧
  (∀ c t w s, Issues .pset c t w s → Ready c t { gIn := [wGa w] } s →
    Runs (.pset c t w) s (fun s' => ∃ r : Regs,
      ThreadOnly c t none { getThread s c t with pc := (getThread s c t).pc + 8, regs := r } s s' ∧
      (∀ i, 0 < i → i < 8 → r.pGet i = (gVal (getThread s c t) (wGa w)).getLsbD i) ∧
      r = { (getThread s c t).regs with p := r.p })) ∧
  RowSetsThread .mset .mset (fun w => { gIn := [wGa w] })
    (fun th w => wroteM th (wGd w) ((gVal th (wGa w)).truncate 32)) ∧
  RowSetsThread .mgen .mgen (fun _ => {})
    (fun th w => wroteM th (wGd w) ((BitVec.ofNat 32 (2 ^ field w 5 0 - 1)) <<< field w 12 8))

/-- Where the instruction issues with its registers ready and unpoisoned, FADD, FSUB, FMUL, FDIV, FMIN, FMAX, FSQRT, FCVT.I2F,
FCVT.F2I and FFMA apply the model's binary32 function to bits [31:0] of their sources (the whole register for FCVT.I2F). If no raised
flag has its trap enabled, gd holds the result and TSTAT.FLAGS has every raised flag; everything else is as before. If one has, FLAGS
is updated, gd is not written, and the thread takes 0x0B with the first enabled raised flag in the order NV, DZ, OF, UF, NX. Rules:
R76. -/
def Obligations.FpRowsWriteResultAndFlags : Prop :=
  let row (i : Nat → Nat → Word → Instr) (m : Mn) (ins : Word → List Nat) (f : Thread → Word → FRes) : Prop :=
    ∀ c t w s, Issues m c t w s → Ready c t { gIn := ins w, gOut := [wGd w] } s →
      let th := getThread s c t
      let r := f th w
      let traps (n : Nat) : Bool := r.flags.testBit n && th.st.te.getLsbD n
      (((List.range 5).all (fun n => !traps n)) = true → Runs (i c t w) s
        (ThreadOnly c t (some (wGd w)) (wroteG (raisedF th r.flags) (wGd w) (word r.bits)) s)) ∧
      (∀ n, n < 5 → traps n = true → (∀ k, n < k → k < 5 → traps k = false) →
        exec (i c t w) s = .next (finished c t
          (takeExc (updThread s c t (fun th => raisedF th r.flags)) c t ⟨0x0B, n, w⟩)))
  let lo (th : Thread) (n : Nat) : Nat := (gVal th n).toNat % 2 ^ 32
  let ab (w : Word) : List Nat := [wGa w, wGb w]
  row .fadd .fadd ab (fun th w => faddS (lo th (wGa w)) (lo th (wGb w))) ∧
  row .fsub .fsub ab (fun th w => fsubS (lo th (wGa w)) (lo th (wGb w))) ∧
  row .fmul .fmul ab (fun th w => fmulS (lo th (wGa w)) (lo th (wGb w))) ∧
  row .fdiv .fdiv ab (fun th w => fdivS (lo th (wGa w)) (lo th (wGb w))) ∧
  row .fmin .fmin ab (fun th w => fminS (lo th (wGa w)) (lo th (wGb w))) ∧
  row .fmax .fmax ab (fun th w => fmaxS (lo th (wGa w)) (lo th (wGb w))) ∧
  row .fsqrt .fsqrt (fun w => [wGa w]) (fun th w => fsqrtS (lo th (wGa w))) ∧
  row .fcvtI2f .i2f (fun w => [wGa w]) (fun th w => i2fS (gVal th (wGa w)).toInt) ∧
  row .fcvtF2i .f2i (fun w => [wGa w]) (fun th w => ⟨(f2iS (lo th (wGa w))).1.toNat, (f2iS (lo th (wGa w))).2⟩) ∧
  row .ffma .ffma (fun w => [wGa w, wGb w, wGd w]) (fun th w => ffmaS (lo th (wGa w)) (lo th (wGb w)) (lo th (wGd w)))

/-- FCMP that issues with its registers ready, unpoisoned and no raised flag enabled to trap writes the predicate and ORs the flag.
EQ, LT and LE are false and UN is true where an operand is a NaN, and NV is raised then exactly for a signalling NaN. FADD, FSUB,
FMUL, FDIV and FFMA of a NaN operand give 0x7FC00000. FCVT.F2I of a NaN gives 0 and of an infinity the end of the 64-bit range, each
with NV only. Rules: R76. -/
def Obligations.FpCompareWritesItsPredicate : Prop :=
  let isNan (a : Nat) : Bool := decide (a % 2 ^ 31 > 0x7F800000)
  let quiet (a : Nat) : Bool := a.testBit 22
  (∀ c t w s, Issues .fcmp c t w s → Ready c t { gIn := [wGa w, wGb w] } s →
    let th := getThread s c t
    let r := fcmpS (field w 1 0) ((gVal th (wGa w)).toNat % 2 ^ 32) ((gVal th (wGb w)).toNat % 2 ^ 32)
    ((List.range 5).all (fun n => !(r.2.testBit n && th.st.te.getLsbD n))) = true →
    Runs (.fcmp c t w) s (ThreadOnly c t none (wroteP (raisedF th r.2) (wGd w) r.1) s)) ∧
  (∀ a b : Nat, a < 2 ^ 32 → b < 2 ^ 32 → isNan a = true ∨ isNan b = true →
    (∀ k, k < 3 → (fcmpS k a b).1 = false) ∧ (fcmpS 3 a b).1 = true ∧
    (∀ k, k < 4 → (fcmpS k a b).2 = if (isNan a && !quiet a) || (isNan b && !quiet b) then 16 else 0) ∧
    (faddS a b).bits = 0x7FC00000 ∧ (fsubS a b).bits = 0x7FC00000 ∧ (fmulS a b).bits = 0x7FC00000 ∧
    (fdivS a b).bits = 0x7FC00000 ∧ (∀ d, d < 2 ^ 32 → (ffmaS a b d).bits = 0x7FC00000)) ∧
  (∀ a : Nat, a < 2 ^ 32 → isNan a = true → f2iS a = (0, 16)) ∧
  f2iS 0x7F800000 = (0x7FFFFFFFFFFFFFFF, 16) ∧ f2iS 0xFF800000 = (0x8000000000000000, 16)

/-- Where the branch issues (its registers ready; ga unpoisoned for JR and JRL), with the target pc + sext(imm) × 8 or ga + sext(imm):
a target in LOCAL and 8-byte aligned becomes the pc and BRL and JRL write pc + 8 to gd, nothing else changes. A target that is aligned
but has another tag takes 0x05 XSUB 0x01; a misaligned one takes 0x03 XSUB 0x02; the link is not written and the entry is at the
branch. Rules: R78. -/
def Obligations.BranchRowsSetThePc : Prop :=
  let rel (th : Thread) (w : Word) : Word := th.pc + ((w.truncate 37 : BitVec 37).signExtend 64) * 8
  let reg (th : Thread) (w : Word) : Word := gVal th (wGa w) + ((w.truncate 37 : BitVec 37).signExtend 64)
  let row (i : Nat → Nat → Word → Instr) (m : Mn) (uses : Word → Uses) (link : Bool) (target : Thread → Word → Word) : Prop :=
    ∀ c t w s, Issues m c t w s → Ready c t (uses w) s →
      let th := getThread s c t
      let a := target th w
      (a.extractLsb' 56 8 = 0 → a.toNat % 8 = 0 → Runs (i c t w) s
        (ThreadOnly c t (if link then some (wGd w) else none)
          { th with pc := a, regs := if link then th.regs.gSet (wGd w) ⟨th.pc + 8, false⟩ else th.regs } s)) ∧
      (a.toNat % 8 ≠ 0 → exec (i c t w) s = .next (trapped c t ⟨0x03, 0x02, a⟩ s)) ∧
      (a.extractLsb' 56 8 ≠ 0 → a.toNat % 8 = 0 → exec (i c t w) s = .next (trapped c t ⟨0x05, 0x01, a⟩ s))
  row .br .br (fun _ => {}) false rel ∧
  row .brl .brl readsNone true rel ∧
  row .jr .jr (fun w => { gIn := [wGa w] }) false reg ∧
  row .jrl .jrl readsA true reg

/-- For every command that carries a word of format S or M which spells its row, where the thread can issue, the registers are ready,
and neither exception 0x01 nor 0x02 applies: if the predicate does not hold, the instruction advances the pc and has no other effect
than to be counted as an issue: it takes no slot, writes nothing, sets no flag and raises no exception. For every command that carries
an instruction word, where the thread can issue and the registers are ready: if the word has an unassigned opcode (sub-code 0x01), a
reserved field that is not zero (0x02), an unassigned function, condition or size (0x03) or a register field out of range (0x04), the
thread takes exception 0x01 with the lowest of these sub-codes and XINFO the instruction word, whatever its predicate, and nothing
else happens. A zero word has sub-code 0x01. Rules: R68, R70, R71, R72, R99, R100. -/
def Obligations.IssueChecksComeFirst : Prop :=
  (
    ∀ (i : Instr) (m : Mn) (c t : Nat) (w : Word) (s : State), i.coreCall = some (m, c, t, w) → i.wellFormed = true →
      Offered c t s → allReady c t s → coreMnemonic w = some m → illegalSubs w = [] → Permitted m c t w s →
      predicated w = true → predHolds (getThread s c t) w = false →
      Runs i s (ThreadOnly c t none { getThread s c t with pc := (getThread s c t).pc + 8 } s)) ∧
  (
    (∀ (i : Instr) (m : Mn) (c t : Nat) (w : Word) (s : State) (n : Nat) (l : List Nat), i.coreCall = some (m, c, t, w) →
      i.wellFormed = true → Offered c t s → allReady c t s → illegalSubs w = n :: l →
      exec i s = .next (trapped c t ⟨0x01, n, w⟩ s)) ∧
    illegalSubs 0 = [1] ∧ (∀ w : Word, field w 63 56 = 0xFF → illegalSubs w = [1]))

/-- The word of TSTAT holds XSUB, XCODE, FLAGS, TID, STATE by its code, PM, XACT, XPEND, TE_IDZ and TE in the stated bits and zero in
the reserved ones; TWIN holds COUNT and BASE; CORE_ID holds die, logical row and column, EAST and BROKEN; THRSTATE holds each thread's
STATE in its four bits. Where RDCR issues and its register is readable in the thread's mode, gd takes the value of TSTAT, TWIN,
CORE_ID, THRSTATE, XPC, XSTAT, XINFO, KSCR0–KSCR3, WWDOG, KVEC, KLIM, TWDOG or STALLSEL, by its number, and nothing else changes. For
CYCLE gd takes the counter moved on by a number the model leaves free (no clock: notes/assumptions/3.md). Rules: R54, R62, R63, R65,
R87, R88. -/
def Obligations.RdcrReadsRegistersOfTheStatedLayout : Prop :=
  (
    (∀ (t : Nat) (th : Thread), t < 16 →
      let v := tstatWord t th
      field v 63 48 = 0 ∧ field v 47 40 = th.st.xsub.toNat ∧ field v 39 32 = th.st.xcode.toNat ∧ field v 31 29 = 0 ∧
      field v 28 24 = th.st.flags.toNat ∧ field v 23 20 = t ∧ field v 19 16 = th.st.state.codeN ∧ bitOf v 15 = th.st.pm ∧
      bitOf v 14 = th.st.xact ∧ bitOf v 13 = th.deferred.isSome ∧ field v 12 6 = 0 ∧ bitOf v 5 = th.st.teIdz ∧
      field v 4 0 = th.st.te.toNat) ∧
    (∀ th : Thread, field (twinWord th) 63 11 = 0 ∧ field (twinWord th) 10 5 = th.twCount.toNat ∧
      field (twinWord th) 4 0 = th.twBase.toNat) ∧
    (∀ (s : State) (c : Nat), rowOf c < 64 →
      let v := coreIdWord s c
      field v 63 32 = 0 ∧ field v 31 30 = dieOf s.grid c ∧ field v 29 24 = rowOf c ∧ field v 23 18 = colOf c ∧
      bitOf v 17 = (c % 2 == 1) ∧ bitOf v 16 = yokeBroken s c ∧ field v 15 0 = 0) ∧
    (∀ (k : Core) (t : Nat), t < 16 → field (thrStateWord k) (4 * t + 3) (4 * t) = (k.thread t).st.state.codeN)) ∧
  (
    ∀ c t w s, Issues .rdcr c t w s → Ready c t (readsNone w) s → ((getThread s c t).st.pm = true ∨ field w 11 0 < 0x10) →
      let th := getThread s c t
      let k := getCore s c
      let gives (v : Word) : Prop := Runs (.rdcr c t w) s (ThreadOnly c t (some (wGd w)) (wroteG th (wGd w) v) s)
      (field w 11 0 = 0x000 → gives (tstatWord t th)) ∧ (field w 11 0 = 0x001 → gives (twinWord th)) ∧
      (field w 11 0 = 0x002 → gives (coreIdWord s c)) ∧ (field w 11 0 = 0x004 → gives (thrStateWord k)) ∧
      (field w 11 0 = 0x010 → gives th.k.xpc) ∧ (field w 11 0 = 0x011 → gives th.k.xstat) ∧
      (field w 11 0 = 0x012 → gives th.k.xinfo) ∧ (field w 11 0 = 0x013 → gives th.k.kscr0) ∧
      (field w 11 0 = 0x014 → gives th.k.kscr1) ∧ (field w 11 0 = 0x015 → gives th.k.kscr2) ∧
      (field w 11 0 = 0x016 → gives th.k.kscr3) ∧ (field w 11 0 = 0x020 → gives k.ctl.kvec) ∧
      (field w 11 0 = 0x021 → gives k.ctl.klim) ∧ (field w 11 0 = 0x022 → gives k.ctl.twdog) ∧
      (field w 11 0 = 0x023 → gives th.k.wwdog) ∧ (field w 11 0 = 0x024 → gives k.ctl.stallsel) ∧
      (field w 11 0 = 0x003 → Runs (.rdcr c t w) s (fun s' =>
        ∃ n : Nat, getThread s' c t = stepped (wroteG th (wGd w) (k.ctl.cycle + word n)) ∧
          (∀ d, d ≠ c → getCore s' d = getCore s d) ∧ (getCore s' c).mem = k.mem)))

/-- Where WRCR issues with ga ready and unpoisoned: to TSTAT it writes FLAGS, TE and TE_IDZ, and in keeper mode XACT; in keeper mode
it writes these fields of XSTAT, and XPC, XINFO, KSCR0–KSCR3, TWDOG and STALLSEL, and WWDOG; a write of CORE_ID, CYCLE or THRSTATE is
discarded. TWIN takes COUNT and BASE when no tile operation of the thread is outstanding, is not issued while one is, and takes 0x08
XSUB 0x02 where BASE + COUNT is above 32. KLIM and KVEC take a legal value and ignore another. The rows TWIN_WRITE, KLIM_WRITE and
KVEC_WRITE do the same. Rules: R62, R64, R66, R87. -/
def Obligations.WrcrWritesTheNamedRegister : Prop :=
  (∀ (old v : Word) (i : Nat), i < 64 → (xstatWrite old v).getLsbD i =
    if i < 6 ∨ i = 14 ∨ (24 ≤ i ∧ i ≤ 28) then v.getLsbD i else old.getLsbD i) ∧
  (∀ c t w s, Issues .wrcr c t w s → Ready c t { gIn := [wGa w] } s → ((getThread s c t).st.pm = true ∨ field w 11 0 = 0) →
    let th := getThread s c t
    let v := gVal th (wGa w)
    let k := getCore s c
    let sets (f : Thread) : Prop := Runs (.wrcr c t w) s (ThreadOnly c t none { f with pc := th.pc + 8 } s)
    let core (i : Instr) (f : Core → Core) : Prop := exec i s = .next (completed c t (updCore s c f))
    (field w 11 0 = 0x000 → sets { th with st := { th.st with
      flags := BitVec.ofNat 5 (field v 28 24), te := BitVec.ofNat 5 (field v 4 0), teIdz := bitOf v 5,
      xact := if th.st.pm then bitOf v 14 else th.st.xact } }) ∧
    (field w 11 0 = 0x010 → sets { th with k := { th.k with xpc := v } }) ∧
    (field w 11 0 = 0x011 → sets { th with k := { th.k with xstat := xstatWrite th.k.xstat v } }) ∧
    (field w 11 0 = 0x012 → sets { th with k := { th.k with xinfo := v } }) ∧
    (field w 11 0 = 0x013 → sets { th with k := { th.k with kscr0 := v } }) ∧
    (field w 11 0 = 0x014 → sets { th with k := { th.k with kscr1 := v } }) ∧
    (field w 11 0 = 0x015 → sets { th with k := { th.k with kscr2 := v } }) ∧
    (field w 11 0 = 0x016 → sets { th with k := { th.k with kscr3 := v } }) ∧
    (field w 11 0 = 0x023 → sets { th with k := { th.k with wwdog := word (field v 31 0) } }) ∧
    (field w 11 0 = 0x022 → core (.wrcr c t w) (fun k => { k with ctl := { k.ctl with twdog := v } })) ∧
    (field w 11 0 = 0x024 → core (.wrcr c t w) (fun k => { k with ctl := { k.ctl with stallsel := v } })) ∧
    (field w 11 0 ∈ [0x002, 0x003, 0x004] → sets th) ∧
    (∀ i ∈ [Instr.wrcr c t w, .klimWrite c t w], field w 11 0 = 0x021 →
      (v.toNat % 0x10000 = 0 ∧ v.toNat ≤ 0xB0000 ∧ v.toNat ≤ k.ctl.kvec.toNat →
        core i (fun k => { k with ctl := { k.ctl with klim := v } })) ∧
      (¬ (v.toNat % 0x10000 = 0 ∧ v.toNat ≤ 0xB0000 ∧ v.toNat ≤ k.ctl.kvec.toNat) → core i id)) ∧
    (∀ i ∈ [Instr.wrcr c t w, .kvecWrite c t w], field w 11 0 = 0x020 →
      (v.toNat % 1024 = 0 ∧ k.ctl.klim.toNat ≤ v.toNat ∧ v.toNat ≤ 0xBFC00 →
        core i (fun k => { k with ctl := { k.ctl with kvec := v } })) ∧
      (¬ (v.toNat % 1024 = 0 ∧ k.ctl.klim.toNat ≤ v.toNat ∧ v.toNat ≤ 0xBFC00) → core i id)) ∧
    (∀ i ∈ [Instr.wrcr c t w, .twinWrite c t w], field w 11 0 = 0x001 →
      (field v 10 5 + field v 4 0 ≤ 32 → tileBusy k t = false → Runs i s (ThreadOnly c t none
        { th with pc := th.pc + 8, twCount := BitVec.ofNat 6 (field v 10 5), twBase := BitVec.ofNat 5 (field v 4 0) } s)) ∧
      (field v 10 5 + field v 4 0 ≤ 32 → tileBusy k t = true → exec i s = .next s) ∧
      (32 < field v 10 5 + field v 4 0 → exec i s = .next (trapped c t ⟨0x08, 0x02, w⟩ s))))

/-- In job mode, where the instruction would issue: WRCR to any register other than TSTAT and RDCR of a keeper register take exception
0x02 with XSUB 0x02; XRET, THR, JSWITCH and TLBINV take it with XSUB 0x01; a load, store or latch operation whose unpoisoned base
names the CONTROL space takes it with XSUB 0x03. XINFO is the instruction word and nothing else happens. Rules: R65, R70, R100. -/
def Obligations.KeeperOperationsTrapInJobMode : Prop :=
  ∀ (i : Instr) (m : Mn) (c t : Nat) (w : Word) (s : State), i.coreCall = some (m, c, t, w) → i.wellFormed = true →
    Offered c t s → allReady c t s → coreMnemonic w = some m → illegalSubs w = [] → (getThread s c t).st.pm = false →
    let traps (sub : Nat) : Prop := exec i s = .next (trapped c t ⟨0x02, sub, w⟩ s)
    (m = .wrcr → field w 11 0 ≠ 0 → traps 0x02) ∧ (m = .rdcr → 0x10 ≤ field w 11 0 → traps 0x02) ∧
    (m ∈ [.xret, .thrStart, .thrStop, .thrState, .jswitch, .tlbAll, .tlbEntry] → traps 0x01) ∧
    (formsAddress m = true → ((getThread s c t).regs.gGet (wGa w)).p = false →
      field (gVal (getThread s c t) (wGa w)) 63 56 = 0x0F → traps 0x03)

/-- KCALL that issues in job mode with XACT clear saves the address of the next instruction in XPC and TSTAT in XSTAT, sets XCODE to
0, XSUB to the call number, PM and XACT to 1 and the pc to KVEC; registers, other threads, memory and the event intake are as before
(XINFO is free: notes/assumptions/43.md). With XACT set the thread is FAULTED, its pc, registers and saved registers stay, and the
event 0x0001 and the interrupt of the resilience agent are made. In keeper mode KCALL takes 0x01 with XSUB 0x06. The state after an
exception of a RUNNING thread with XACT clear: XPC is the address of the instruction, XSTAT the status as it stood, XINFO the
information, XCODE and XSUB the exception, PM and XACT 1, the pc KVEC + code × 0x40; the thread's registers, every other thread and
core, and memory are as before, and loads in flight stay in their slots. With XACT set the thread is FAULTED and nothing of it but its
state changes. Rules: R93, R94, R96. -/
def Obligations.KcallAndExceptionsEnterKeeperMode : Prop :=
  (
    ∀ c t w s, Issues .kcall c t w s →
      let th := getThread s c t
      (th.st.pm = false → th.st.xact = false → Runs (.kcall c t w) s (fun s' =>
        ∃ x : Word, getThread s' c t = stepped { th with
          pc := (getCore s c).ctl.kvec
          k := { th.k with xpc := th.pc + 8, xstat := tstatWord t th, xinfo := x }
          st := { th.st with xcode := 0, xsub := BitVec.ofNat 8 (field w 7 0), pm := true, xact := true }
          wait := .none } ∧
        (∀ u, u ≠ t → getThread s' c u = getThread s c u) ∧ (∀ d, d ≠ c → getCore s' d = getCore s d) ∧
        (getCore s' c).mem = (getCore s c).mem ∧ s'.bulk = s.bulk ∧ s'.recorder = s.recorder ∧ s'.ints = s.ints)) ∧
      (th.st.pm = false → th.st.xact = true → s.recorder.intake.length < 64 → Runs (.kcall c t w) s (fun s' =>
        getThread s' c t = { th with st := { th.st with state := .faulted }, wait := .none } ∧
        (∀ u, u ≠ t → getThread s' c u = getThread s c u) ∧ (∀ d, d ≠ c → getCore s' d = getCore s d) ∧
        s'.recorder.intake = s.recorder.intake ++ [⟨3, 0x0001, rowOf c * 64 + colOf c, t * 2 ^ 16 + field w 7 0, th.k.xpc.toNat⟩] ∧
        s'.ints = s.ints ++ [.doubleFault c t])) ∧
      (th.st.pm = true → exec (.kcall c t w) s = .next (trapped c t ⟨0x01, 0x06, w⟩ s))) ∧
  (
    ∀ (s : State) (c t : Nat) (x : Exc), (getThread s c t).st.state = .running →
      let th := getThread s c t
      let s' := takeExc s c t x
      (th.st.xact = false →
        getThread s' c t = { th with
          pc := (getCore s c).ctl.kvec + word (x.code * 0x40)
          k := { th.k with xpc := th.pc, xstat := tstatWord t th, xinfo := x.info }
          st := { th.st with xcode := BitVec.ofNat 8 x.code, xsub := BitVec.ofNat 8 x.sub, pm := true, xact := true }
          wait := .none, walk := none } ∧
        (getCore s' c).reqs.map (·.id) = (getCore s c).reqs.map (·.id) ∧
        s' = { s with cores := s'.cores }) ∧
      (th.st.xact = true → getThread s' c t = { th with st := { th.st with state := .faulted }, wait := .none, walk := none }) ∧
      (∀ u, u ≠ t → getThread s' c u = getThread s c u) ∧ (∀ d, d ≠ c → getCore s' d = getCore s d) ∧
      (getCore s' c).mem = (getCore s c).mem ∧ s'.bulk = s.bulk)

/-- XRET that issues in keeper mode sets the pc to XPC and PM and XACT to bits 15 and 14 of XSTAT, gives the loads that its exception
entry left in flight back to the thread, and changes nothing else. If XPC is misaligned it takes 0x03 XSUB 0x02 at the XRET; if it is
aligned and has a tag other than 0x00, 0x05 XSUB 0x01. Rules: R95. -/
def Obligations.XretReturnsFromKeeperMode : Prop :=
  ∀ c t w s, Issues .xret c t w s → (getThread s c t).st.pm = true →
    let th := getThread s c t
    (th.k.xpc.toNat % 8 = 0 → th.k.xpc.extractLsb' 56 8 = 0 → Runs (.xret c t w) s (fun s' =>
      let k := (getCore s c).noteIssue t
      getThread s' c t = stepped { th with
        pc := th.k.xpc, st := { th.st with pm := th.k.xstat.getLsbD 15, xact := th.k.xstat.getLsbD 14 } } ∧
      (∀ u, u ≠ t → getThread s' c u = getThread s c u) ∧ (∀ d, d ≠ c → getCore s' d = getCore s d) ∧
      getCore s' c = { k with
        threads := (getCore s' c).threads
        reqs := k.reqs.map (fun q => if q.thread = t then { q with orphan := q.orphan - 1 } else q) } ∧
      s' = { s with cores := s'.cores })) ∧
    (th.k.xpc.toNat % 8 ≠ 0 → exec (.xret c t w) s = .next (trapped c t ⟨0x03, 0x02, th.k.xpc⟩ s)) ∧
    (th.k.xpc.toNat % 8 = 0 → th.k.xpc.extractLsb' 56 8 ≠ 0 →
      exec (.xret c t w) s = .next (trapped c t ⟨0x05, 0x01, th.k.xpc⟩ s))

/-- In keeper mode, where THR issues with its registers ready and unpoisoned, u being ga[3:0]: START of a STOPPED thread makes it
RUNNING at gb, in keeper mode iff ga[8], and gd = 0; of any other thread it changes nothing and gd = 1. STATE writes u's state code to
gd. STOP of a STOPPED, FAULTED or HALTED thread writes 1; of a HELD one it records the stop and writes 0; of a RUNNING one it asks for
the stop and gd awaits it. THREAD_STOP_COMPLETE of a RUNNING thread that was asked, with no walk, no load and no JSWITCH of its own
outstanding, makes it STOPPED (HALTED for a debugger), writes 0 to the gd of a single requester, and leaves the pc and every other
core. Rules: R89, R90. -/
def Obligations.ThrRowsControlAnotherThread : Prop :=
  (∀ c t w s, (getThread s c t).st.pm = true →
    let th := getThread s c t
    let u := field (gVal th (wGa w)) 3 0
    let x := getThread s c u
    let g (v : Word) : State → Prop := ThreadOnly c t (some (wGd w)) (wroteG th (wGd w) v) s
    let set (f : Thread → Thread) : State := updThread (advance s c t) c u f
    (Issues .thrStart c t w s → Ready c t (readsAB w) s →
      (x.st.state = .stopped → exec (.thrStart c t w) s = .next (finished c t (updCore
        (set (fun x => { x with pc := gVal th (wGb w), st := { x.st with state := .running, pm := bitOf (gVal th (wGa w)) 8 } })) c
        (fun k => k.writeG t (wGd w) 0)))) ∧
      (x.st.state ≠ .stopped → Runs (.thrStart c t w) s (g 1))) ∧
    (Issues .thrState c t w s → Ready c t (readsA w) s → Runs (.thrState c t w) s (g (word x.st.state.codeN))) ∧
    (Issues .thrStop c t w s → Ready c t (readsA w) s →
      (x.st.state ∈ [.stopped, .faulted, .halted] → Runs (.thrStop c t w) s (g 1)) ∧
      (x.st.state = .held → exec (.thrStop c t w) s = .next (finished c t (updCore
        (set (fun x => { x with stopHeld := true })) c (fun k => k.writeG t (wGd w) 0)))) ∧
      (x.st.state = .running → Runs (.thrStop c t w) s (fun s' =>
        (getThread s' c u).stopReq.isSome = true ∧ (t, wGd w) ∈ (getThread s' c u).stopReq.getD [] ∧
        (t, wGd w) ∈ (getCore s' c).ctl.gBusy ∧ (getThread s' c u).regs = x.regs)))) ∧
  (∀ c t s who, coreUp s c = true → t < 16 → (getThread s c t).stopReq = some who → (getThread s c t).st.state = .running →
    (getThread s c t).walk = none → loadsPending (getCore s c) t = false → inSwitch (getCore s c) t = false →
    Runs (.threadStopComplete c t) s (fun s' =>
      (getThread s' c t).st.state = (if (getThread s c t).haltReq then .halted else .stopped) ∧
      (∀ r n, who = [(r, n)] → n ≠ 0 → (getThread s' c r).regs.gGet n = ⟨0, false⟩) ∧
      (getThread s' c t).stopReq = none ∧ (getThread s' c t).pc = (getThread s c t).pc ∧
      (∀ d, d ≠ c → getCore s' d = getCore s d) ∧ (getCore s' c).mem = (getCore s c).mem ∧ s' = { s with cores := s'.cores }))

/-- Where the fence issues: while an access it covers is outstanding nothing changes. Once none is, FENCE.L only advances the pc;
FENCE.G drops the GRANARY and CGRAN lines of the L1 and no other; FENCE.B leaves no BULK line in the L1, writes the granary cache's
dirty sectors back and keeps its lines clean; FENCE.A does both. CACHE.INV_ALL empties the L1 in either mode; CACHE.INV_LINE with an
unpoisoned GRANARY or CGRAN address drops the line that holds it and no other. TLBINV.ALL, in keeper mode, drops every translation
entry; TLBINV.ENTRY drops the entries that cover ga and no other (the walker cache goes with either: notes/assumptions/42.md).
Memories and registers are as before. Rules: R85, R92. -/
def Obligations.FencesCachesAndTranslationsInvalidate : Prop :=
  (
    ∀ c t w s,
      let k := getCore s c
      let drop (n : Nat) (k : Core) : Core := { k with mem := { k.mem with l1 := k.mem.l1.filter (fun l => !(l.space == n)) } }
      (Issues .fenceL c t w s → exec (.fenceL c t w) s =
        .next (if fencePending k t .fenceL then s else completed c t s)) ∧
      (Issues .fenceG c t w s → exec (.fenceG c t w) s =
        .next (if fencePending k t .fenceG then s else completed c t (updCore s c (drop 1)))) ∧
      (Issues .fenceB c t w s → exec (.fenceB c t w) s =
        .next (if fencePending k t .fenceB then s else completed c t (gcClean (updCore s c (drop 4)) c))) ∧
      (Issues .fenceA c t w s → exec (.fenceA c t w) s =
        .next (if fencePending k t .fenceA then s
          else completed c t (gcClean (updCore (updCore s c (drop 1)) c (drop 4)) c)))) ∧
  (
    ∀ c t w s,
      let th := getThread s c t
      let a := gVal th (wGa w)
      let mem (f : CoreMem → CoreMem) : State := completed c t (updCore s c (fun k => { k with mem := f k.mem }))
      (Issues .cacheAll c t w s → exec (.cacheInvAll c t w) s = .next (mem (fun m => { m with l1 := [] }))) ∧
      (Issues .cacheLine c t w s → Ready c t { gIn := [wGa w] } s →
        (field a 63 56 = 0x01 → exec (.cacheInvLine c t w) s = .next (mem (fun m => { m with
          l1 := m.l1.filter (fun l => !(l.space == 1 && l.owner == c && l.line == field a 55 0 / 64)) }))) ∧
        (field a 63 56 = 0x03 → exec (.cacheInvLine c t w) s = .next (mem (fun m => { m with
          l1 := m.l1.filter (fun l => !(l.space == 1 && l.owner == aCore a.toNat && l.line == field a 35 0 / 64)) }))) ∧
        (field a 63 56 = 0x00 → exec (.cacheInvLine c t w) s = .next (completed c t s))) ∧
      (Issues .tlbAll c t w s → th.st.pm = true →
        exec (.tlbinvAll c t w) s = .next (mem (fun m => { m with tlb := [], wcache := [] }))) ∧
      (Issues .tlbEntry c t w s → th.st.pm = true → Ready c t { gIn := [wGa w] } s →
        exec (.tlbinvEntry c t w) s = .next (mem (fun m => { m with
          tlb := m.tlb.filter (fun e => !tlbCovers (field a 63 56) (field a 47 0) e), wcache := [] }))))

/-- BRK halts its thread iff the debug level allows halting and a session has claimed the core, and takes 0x01 XSUB 0x05 otherwise.
The thread watchdog makes a RUNNING job-mode thread take 0x0F XSUB 0x01 with the count in XINFO where TWDOG is not 0 and no deferred
exception is pending. The wait watchdog makes a thread WAITING at a gate take 0x0A XSUB 0x10, at a reap XSUB 0x30, each with the
number in XINFO (a gate that fabric gates extend first makes this module suspect the others), and cancels a latch wait. A pending
deferred exception is taken by a RUNNING thread at once, but for one in its JSWITCH. A debugger halts a RUNNING thread without
outstanding loads, and resumes a HALTED one; a FAULTED thread restarts at a given pc and mode; thread 0 is released from reset. Rules:
R92, R97, R98, R54, R101, R472. -/
def Obligations.WatchdogsAndDebugMoveThreads : Prop :=
  (∀ c t w s, Issues .brk c t w s →
    (2 ≤ s.ward.debug ∧ (getCore s c).ctl.debugClaim = true → exec (.brk c t w) s = .next (finished c t
      (updThread s c t (fun th => { th with st := { th.st with state := .halted } })))) ∧
    (¬ (2 ≤ s.ward.debug ∧ (getCore s c).ctl.debugClaim = true) →
      exec (.brk c t w) s = .next (trapped c t ⟨0x01, 0x05, w⟩ s))) ∧
  (∀ c t s, coreUp s c = true → t < 16 →
    let th := getThread s c t
    (th.st.state = .running → th.st.pm = false → (getCore s c).ctl.twdog ≠ 0 → th.deferred = none →
      exec (.threadWatchdog c t) s = .next (takeExc s c t ⟨0x0F, 0x01, (getCore s c).ctl.twdog * 1024⟩)) ∧
    (th.st.state = .waiting → th.k.wwdog ≠ 0 → th.deferred = none → th.stopReq = none →
      (∀ g gen rd sy, th.wait = .gate g gen rd sy →
        exec (.waitWatchdog c t) s = .next (takeExc
          (if (getGate s (gateKey (dieOf s.grid c) g)).fabUsed (gateKey (dieOf s.grid c) g) = 0 then s else fabricGateLost s)
          c t ⟨0x0A, 0x10, word g⟩)) ∧
      (∀ n rd, th.wait = .reap n rd → exec (.waitWatchdog c t) s = .next (takeExc s c t ⟨0x0A, 0x30, word n⟩)) ∧
      (∀ r, th.wait = .latch r → Runs (.waitWatchdog c t) s (fun s' => (getCore s' c).reqs = (getCore s c).reqs.map
        (fun q => if q.id == r && q.cancel.isNone then { q with cancel := some .watchdog } else q)))) ∧
    (∀ x, th.st.state = .running → th.deferred = some x → th.stopReq = none → inSwitch (getCore s c) t = false →
      exec (.deferredException c t) s = .next (takeExc (updThread s c t (fun th => { th with deferred := none })) c t x)) ∧
    (2 ≤ s.ward.debug → th.st.state = .running → th.stopReq = none → th.walk = none → loadsPending (getCore s c) t = false →
      inSwitch (getCore s c) t = false → Runs (.debugHalt c t) s (fun s' => (getCore s' c).ctl.debugClaim = true ∧
        getThread s' c t = { th with st := { th.st with state := .halted }, haltReq := false })) ∧
    (∀ single, 2 ≤ s.ward.debug → th.st.state = .halted → s.grid.proc = none →
      exec (.debugResume c t single) s = .next (updThread s c t (fun th =>
        { th with st := { th.st with state := .running }, fenceHeld := false, step := single }))) ∧
    (∀ pc keeper, th.st.state = .faulted → s.grid.proc = none →
      exec (.faultedThreadRestart c t pc keeper) s = .next (updThread s c t (fun th =>
        { th with pc := pc, st := { th.st with state := .running, pm := keeper }, fenceHeld := false })))) ∧
  (∀ c s, coreUp s c = true → s.grid.proc = none → (getThread s c 0).st.state = .held →
    exec (.threadZeroRelease c) s = .next (updThread s c 0 (fun th =>
      { th with st := { th.st with state := if th.stopHeld then .stopped else .running }, stopHeld := false, fenceHeld := false })))

/-- The address a memory instruction forms has the tag ga[63:56], and the offset (ga[55:0] + (gb[55:0] << SC) + sext(offset)) modulo
2^56. Rules: R80. -/
def Obligations.AddressesFormAsStated : Prop :=
  ∀ (th : Thread) (w : Word),
    let a := gVal th (wGa w)
    let b := gVal th (wGb w)
    field (memAddr th w) 63 56 = field a 63 56 ∧
    (field (memAddr th w) 55 0 : Int) =
      ((field a 55 0 : Int) + (field b 55 0 : Int) * 2 ^ field w 33 32 + (w.extractLsb' 0 32).toInt) % 2 ^ 56 ∧
    wSize w = (if field w 36 34 = 0 ∨ field w 36 34 = 4 then 1 else if field w 36 34 = 1 ∨ field w 36 34 = 5 then 2
      else if field w 36 34 = 2 ∨ field w 36 34 = 6 then 4 else 8) ∧
    (∀ v : Nat, v < 2 ^ (8 * wSize w) → extend (wSize w) (wSigned w) v =
      if 4 ≤ field w 36 34 ∧ v ≥ 2 ^ (8 * wSize w - 1) ∧ wSize w < 8 then word (v + 2 ^ 64 - 2 ^ (8 * wSize w)) else word v)

/-- Where LD or LDS issues with an address in the core's own LOCAL that passes its checks, and no latch operation waits at an
uncorrectable word of the core: one request is added, in the name of the thread, that holds the little-endian value of the bytes at
the address and is poisoned iff a word read is poisoned or uncorrectable; the pc is past the instruction; every byte of local SRAM,
the granary, bulk memory, every other thread and core is as before. Rules: R61, R80, R83, R84. -/
def Obligations.LoadsFromLocalReadTheirBytes : Prop :=
  ∀ c t w s,
    let th := getThread s c t
    let m := (getCore s c).mem.localMem
    let off := field (memAddr th w) 55 0
    quietWords (getCore s c) →
    let bad (n : Nat) : Bool := (List.range (wordSpan off n)).any (fun i =>
      (m.mark (off / 8 + i)).poison || (m.mark (off / 8 + i)).ecc == .unc)
    let reads (kind : ReqKind) (n : Nat) (s' : State) : Prop := ∃ q : Req,
      Requested c t q s s' ∧ q.thread = t ∧ q.kind = kind ∧ q.stage = .done ∧ q.resp = ofBytes (m.getBytes off n) ∧
      q.respPoison = bad n ∧ q.orphan = 0 ∧ q.cancel = none ∧
      (∀ x, (getCore s' c).mem.localMem.byte x = m.byte x) ∧
      (bad n = false → (getCore s' c).mem.localMem = m ∧ s'.recorder = s.recorder)
    (Issues .ld c t w s → Ready c t { gOut := [wGd w], gData := [wGa w, wGb w] } s → LocalAccess c t w false (wSize w) s →
      Runs (.ld c t w) s (reads (.load (wGd w) (wSize w) (wSigned w)) (wSize w))) ∧
    (Issues .lds c t w s → Ready c t { gData := [wGa w, wGb w], sOut := [wGd w % 4] } s → LocalAccess c t w false 128 s →
      Runs (.lds c t w) s (reads (.loadS (wGd w % 4)) 128))

/-- Where ST or STS issues with an address in the core's own LOCAL that passes its checks, and no latch operation waits at an
uncorrectable word of the core: a request is added, the pc is past the instruction, and in local SRAM every byte outside the n bytes
at the address is as before. An unpoisoned full word takes the data and loses its poison; an unpoisoned part of a word takes the data
if the word is clean, and a poisoned word stays as it is; poisoned data makes its word poison. The granary, bulk memory, every other
thread and core are as before. STS stores 128 bytes of the scale vector. Rules: R61, R80, R84, R261. -/
def Obligations.StoresToLocalWriteTheirBytes : Prop :=
  ∀ c t w s,
    let th := getThread s c t
    let m := (getCore s c).mem.localMem
    let off := field (memAddr th w) 55 0
    quietWords (getCore s c) →
    let stored (n : Nat) (s' : State) (p : Mem → Prop) : Prop := ∃ q : Req,
      Requested c t q s s' ∧ q.thread = t ∧ q.kind = .store ∧ q.stage = .done ∧
      (∀ x, x < off ∨ off + n ≤ x → (getCore s' c).mem.localMem.byte x = m.byte x) ∧
      (∀ x, x < off / 8 ∨ (off + n - 1) / 8 < x → (getCore s' c).mem.localMem.mark x = m.mark x) ∧ p (getCore s' c).mem.localMem
    let r := th.regs.gGet (wGd w)
    let v := th.regs.sGet (wGd w % 4)
    let old := m.mark (off / 8)
    (Issues .st c t w s → Ready c t { gData := [wGd w, wGa w, wGb w] } s → LocalAccess c t w true (wSize w) s →
      Runs (.st c t w) s (fun s' => stored (wSize w) s' (fun m' =>
        (r.p = true → (m'.mark (off / 8)).poison = true) ∧
        (r.p = false → wSize w = 8 ∨ (old.poison = false ∧ old.ecc ≠ .unc) →
          (∀ i, i < wSize w → m'.byte (off + i) = BitVec.ofNat 8 (r.v.toNat / 256 ^ i)) ∧
          (m'.mark (off / 8)).poison = false ∧ (old.ecc ≠ .unc → (m'.mark (off / 8)).full = old.full)) ∧
        (r.p = false → wSize w < 8 → old.poison = true → old.ecc ≠ .unc → m' = m)))) ∧
    (Issues .sts c t w s → Ready c t { gData := [wGa w, wGb w] } s → (getCore s c).sBusy t (wGd w % 4) = false →
      LocalAccess c t w true 128 s →
      Runs (.sts c t w) s (fun s' => stored 128 s' (fun m' =>
        (v.p = true → ∀ i, i < 16 → (m'.mark (off / 8 + i)).poison = true) ∧
        (v.p = false → (∀ i, i < 128 → m'.byte (off + i) = BitVec.ofNat 8 (v.v.toNat / 256 ^ i)) ∧
          ∀ i, i < 16 → (m'.mark (off / 8 + i)).poison = false))))

/-- Where LD or ST issues with a CORE address that passes the issuing core's checks, a request on its way to the named core is added,
with its route, the thread's mode and, for a store, the data; no memory changes. When it has a route, arrives, is not behind an
earlier one of the core to that target and finds no latch operation waiting at an uncorrectable word, a job-mode access at or above
the target's KLIM writes nothing, its load returns poison, and the thread receives a deferred 0x05 with XSUB 0x03; another load
returns the value of the target's bytes, and another store changes no byte of the target's local SRAM outside its own. A store of an
aligned word of which a 32-bit part has bad parity makes the word poison, and each such part is counted. Rules: R66, R81, R83, R84,
R507. -/
def Obligations.FarAccessesLeaveAsRequests : Prop :=
  (∀ c t w s,
    let th := getThread s c t
    let a := memAddr th w
    let leaves (kind : ReqKind) (s' : State) : Prop := ∃ q : Req,
      Requested c t q s s' ∧ q.thread = t ∧ q.kind = kind ∧ q.stage = .sent ∧ q.target = aCore a.toNat ∧ q.route = coreRoute s c q.target ∧ q.off = a.toNat % 2 ^ 36 ∧
      q.job = !th.st.pm ∧ (getCore s' c).mem = (getCore s c).mem ∧
      (kind = .store → q.data = toBytes (wSize w) (th.regs.gGet (wGd w)).v.toNat ∧ q.poison = (th.regs.gGet (wGd w)).p)
    (Issues .ld c t w s → Ready c t { gOut := [wGd w], gData := [wGa w, wGb w] } s → FarAccess c t w (wSize w) s →
      Runs (.ld c t w) s (leaves (.load (wGd w) (wSize w) (wSigned w)))) ∧
    (Issues .st c t w s → Ready c t { gData := [wGd w, wGa w, wGb w] } s → FarAccess c t w (wSize w) s →
      Runs (.st c t w) s (leaves .store))) ∧
  (∀ c id s q, findReq s c id = some q → q.stage = .sent → q.route ≠ .cut → behind (getCore s c) q = false → q.va / 2 ^ 56 = 2 →
    c ≠ q.target → quietWords (getCore s q.target) →
    let k := getCore s q.target
    let m := k.mem.localMem
    let answered (s' : State) (v : Nat) (p : Bool) : Prop :=
      findReq s' c id = some { q with stage := .done, resp := v, respPoison := p, ans := (getCore s c).nextAns }
    (∀ rd n sg, q.kind = .load rd n sg →
      (q.job = true → k.ctl.klim.toNat < q.off + n → (getThread s c q.thread).deferred = none →
        Runs (.remoteAccessArrive c id []) s (fun s' => answered s' 0 true ∧ getCore s' q.target = k ∧
          (getThread s' c q.thread).deferred = some ⟨0x05, 0x03, word q.va⟩)) ∧
      (q.job = false ∨ q.off + n ≤ k.ctl.klim.toNat →
        Runs (.remoteAccessArrive c id []) s (fun s' => ∃ p, answered s' (ofBytes (m.getBytes q.off n)) p ∧
          ∀ x, (getCore s' q.target).mem.localMem.byte x = m.byte x))) ∧
    (q.kind = .store →
      (q.job = true → k.ctl.klim.toNat < q.off + q.data.length → (getThread s c q.thread).deferred = none →
        Runs (.remoteAccessArrive c id []) s (fun s' => answered s' 0 true ∧ getCore s' q.target = k ∧
          (getThread s' c q.thread).deferred = some ⟨0x05, 0x03, word q.va⟩)) ∧
      (q.job = false ∨ q.off + q.data.length ≤ k.ctl.klim.toNat →
        Runs (.remoteAccessArrive c id []) s (fun s' => answered s' 0 false ∧
          ∀ x, x < q.off ∨ q.off + q.data.length ≤ x → (getCore s' q.target).mem.localMem.byte x = m.byte x)) ∧
      (∀ bad, q.data.length = 8 → q.off % 8 = 0 → badWords q bad ≠ [] → q.job = false ∨ q.off + 8 ≤ k.ctl.klim.toNat →
        Runs (.remoteAccessArrive c id bad) s (fun s' => ((getCore s' q.target).mem.localMem.mark (q.off / 8)).poison = true ∧
          s'.od.xqParity = (s.od.xqParity + (badWords q bad).length) % 2 ^ 64))))

/-- Where an answer comes in the order of its channel and has a way back: the response of an answered load frees its slot and writes
the register with the extended value and the poison of the data, unless a later instruction or load that overtook it over a keeper
entry has written the register; a scale-vector load does the same; no exception is taken. The response of an answered LD.TAKE or
LD.PEEK also ends its thread's wait with the pc past the operation. The acknowledgement of a store, ST.PUT or LCLR frees its slot and
changes nothing else of the thread; that of an ST.FILL ends the wait. A load response with a word of bad parity writes the register as
poison and counts the word. Rules: R61, R84, R90, R96, R507. -/
def Obligations.ResponsesWriteRegistersAndFreeSlots : Prop :=
  ∀ c id s q, findReq s c id = some q → q.stage = .done → q.cancel = none → answerHere s c q = true →
    let th := getThread s c q.thread
    let freed (s' : State) : Prop := findReq s' c id = none ∧ (∀ d, d ≠ c → getCore s' d = getCore s d) ∧
      (∀ u, u ≠ q.thread → getThread s' c u = getThread s c u) ∧ (getCore s' c).mem = (getCore s c).mem ∧ s' = { s with cores := s'.cores }
    (∀ rd n sg, q.kind = .load rd n sg → Runs (.loadResponse c id []) s (fun s' => freed s' ∧
      getThread s' c q.thread = if q.superseded then th
        else { th with regs := th.regs.gSet rd ⟨extend n sg q.resp, q.respPoison⟩ })) ∧
    (∀ sd, q.kind = .loadS sd → Runs (.loadResponse c id []) s (fun s' => freed s' ∧
      getThread s' c q.thread = if q.superseded then th
        else { th with regs := th.regs.sSet sd ⟨BitVec.ofNat 1024 q.resp, q.respPoison⟩ })) ∧
    (∀ rd, q.kind = .take rd ∨ q.kind = .peek rd → th.wait = .latch id → q.id = id → s.grid.proc = none → th.step = false →
      Runs (.loadResponse c id []) s (fun s' => freed s' ∧ (getThread s' c q.thread).pc = th.pc + 8 ∧
        (getThread s' c q.thread).st.state = .running ∧ (getThread s' c q.thread).wait = .none ∧
        (rd ≠ 0 → (getThread s' c q.thread).regs.gGet rd = ⟨word q.resp, q.respPoison⟩))) ∧
    (q.kind ∈ [.store, .put, .clear] → Runs (.storeAck c id) s (fun s' => freed s' ∧ getThread s' c q.thread = th)) ∧
    (q.kind = .fill → th.wait = .latch id → q.id = id → s.grid.proc = none → th.step = false →
      Runs (.storeAck c id) s (fun s' => freed s' ∧ getThread s' c q.thread =
        { th with pc := th.pc + 8, st := { th.st with state := .running }, wait := .none, fenceHeld := false })) ∧
    (∀ rd n sg bad, q.kind = .load rd n sg → q.superseded = false → badWords q bad ≠ [] →
      Runs (.loadResponse c id bad) s (fun s' => findReq s' c id = none ∧
        (rd ≠ 0 → (getThread s' c q.thread).regs.gGet rd = ⟨extend n sg q.resp, true⟩) ∧
        s'.od.xqParity = (s.od.xqParity + (badWords q bad).length) % 2 ^ 64))

/-- Where a latch operation issues on a word of its own LOCAL that passes its checks and is not uncorrectable, with no waiter at the
latch unit: LD.TAKE of a full word is answered with the word and empties it; LD.PEEK of a full word is answered and leaves it full;
ST.FILL of an empty word and ST.PUT of any word write the data and fill it; LCLR empties it; TAKE or PEEK of an empty word and FILL of
a full one wait at the word. TAKE, PEEK and FILL make the thread WAITING with its pc at the operation; PUT and LCLR pass it. Every
other byte and latch bit of local SRAM is as before. Rules: R325, R326, R327. -/
def Obligations.LatchOperationsMoveTheLatchBit : Prop :=
  ∀ c t w s, (getCore s c).mem.latch = [] →
    let th := getThread s c t
    let m := (getCore s c).mem.localMem
    let off := field (memAddr th w) 55 0
    let k := m.mark (off / 8)
    let r := th.regs.gGet (wGd w)
    let uses : Uses := { gData := [wGd w, wGa w, wGb w] }
    let loads : Uses := { gOut := [wGd w], gData := [wGa w, wGb w] }
    let after (kind : ReqKind) (stage : ReqStage) (full : Bool) (waits : Bool) (s' : State) : Prop :=
      (∃ q : Req, (getCore s' c).reqs.getLast? = some q ∧ (getCore s' c).reqs.length = (getCore s c).reqs.length + 1 ∧
        q.thread = t ∧ q.kind = kind ∧ q.stage = stage ∧
        (stage = .done → kind.gDest.isSome = true → q.resp = ofBytes (m.getBytes off 8) ∧ q.respPoison = k.poison) ∧
        (stage = .waiting → (getCore s' c).mem.latch.map (·.req) = [q.id]) ∧
        (waits = true → (getThread s' c t).st.state = .waiting ∧ (getThread s' c t).wait = .latch q.id ∧
          (getThread s' c t).pc = th.pc)) ∧
      (waits = false → (getThread s' c t).pc = th.pc + 8) ∧ (getThread s' c t).regs = th.regs ∧
      ((getCore s' c).mem.localMem.mark (off / 8)).full = full ∧
      (∀ x, x < off ∨ off + 8 ≤ x → (getCore s' c).mem.localMem.byte x = m.byte x) ∧
      (∀ x, x ≠ off / 8 → (getCore s' c).mem.localMem.mark x = m.mark x) ∧ (∀ d, d ≠ c → getCore s' d = getCore s d)
    let wrote (s' : State) : Prop := ((getCore s' c).mem.localMem.mark (off / 8)).poison = r.p ∧
      (r.p = false → ∀ i, i < 8 → (getCore s' c).mem.localMem.byte (off + i) = BitVec.ofNat 8 (r.v.toNat / 256 ^ i))
    let kept (s' : State) : Prop := ∀ x, (getCore s' c).mem.localMem.byte x = m.byte x
    k.ecc ≠ .unc →
    (Issues .take c t w s → Ready c t loads s → LocalAccess c t w false 8 s →
      Runs (.ldTake c t w) s (fun s' => kept s' ∧
      if k.full then after (.take (wGd w)) .done false true s' else after (.take (wGd w)) .waiting false true s')) ∧
    (Issues .peek c t w s → Ready c t loads s → LocalAccess c t w false 8 s →
      Runs (.ldPeek c t w) s (fun s' => kept s' ∧
      if k.full then after (.peek (wGd w)) .done true true s' else after (.peek (wGd w)) .waiting false true s')) ∧
    (Issues .fill c t w s → Ready c t uses s → LocalAccess c t w true 8 s →
      Runs (.stFill c t w) s (fun s' =>
      if k.full then kept s' ∧ after .fill .waiting true true s' else wrote s' ∧ after .fill .done true true s')) ∧
    (Issues .put c t w s → Ready c t uses s → LocalAccess c t w true 8 s →
      Runs (.stPut c t w) s (fun s' => wrote s' ∧ after .put .done true false s')) ∧
    (Issues .lclr c t w s → Ready c t uses s → LocalAccess c t w true 8 s →
      Runs (.lclr c t w) s (fun s' => kept s' ∧ after .clear .done false false s'))

/-- For every memory instruction that issues (in keeper mode where it names CONTROL), with its slot free: a poisoned base or index
takes 0x06 XSUB 0x01 with the register number, in place of the address checks; otherwise a misaligned access takes 0x03 XSUB 0x01; an
aligned one takes 0x05 XSUB 0x01 in FLASH, FABRIC or a space that does not exist (LDS and STS in HOST too), latch operations 0x09 in
BULK, HOST and CONTROL where the address is in range and names no hole; beyond LOCAL or the scratch part of the granary 0x05 XSUB
0x02; the keeper area in job mode 0x05 XSUB 0x03. XINFO is the address and nothing else happens. Rules: R61, R66, R81, R82, R99, R100. -/
def Obligations.BadAddressesTakeTheirExceptions : Prop :=
  ∀ (i : Instr) (m : Mn) (c t : Nat) (w : Word) (s : State), i.coreCall = some (m, c, t, w) → i.wellFormed = true →
    Issues m c t w s → allReady c t s → formsAddress m = true → slotFree (getCore s c) t = true →
    let th := getThread s c t
    let a := memAddr th w
    let n := if m = .lds ∨ m = .sts then 128 else wSize w
    let latch : Bool := m ∈ [.take, .peek, .fill, .put, .lclr]
    let tag := field a 63 56
    let off := field a 55 0
    (th.st.pm = true ∨ field (gVal th (wGa w)) 63 56 ≠ 0x0F) →
    let traps (code sub : Nat) (info : Word) : Prop := exec i s = .next (trapped c t ⟨code, sub, info⟩ s)
    ((th.regs.gGet (wGa w)).p = true → traps 0x06 0x01 (word (wGa w))) ∧
    ((th.regs.gGet (wGa w)).p = false → (th.regs.gGet (wGb w)).p = true → traps 0x06 0x01 (word (wGb w))) ∧
    ((th.regs.gGet (wGa w)).p = false → (th.regs.gGet (wGb w)).p = false →
      (a.toNat % n ≠ 0 → traps 0x03 0x01 a) ∧
      (a.toNat % n = 0 →
        (tag = 0x05 ∨ (0x06 < tag ∧ tag ≠ 0x0F) ∨ (tag = 0x06 ∧ n = 128) → traps 0x05 0x01 a) ∧
        (latch = true → tag = 0x04 ∨ tag = 0x06 ∨ tag = 0x0F → rangeChecks s c (!th.st.pm) 8 a = [] → traps 0x09 0x01 a) ∧
        (tag = 0x04 ∨ (tag = 0x06 ∧ n ≠ 128) → field a 55 48 ≠ 0 → traps 0x05 0x02 a) ∧
        (tag = 0x00 → 0xC0000 < off + n → traps 0x05 0x02 a) ∧
        (tag = 0x00 → off + n ≤ 0xC0000 → th.st.pm = false → (getCore s c).ctl.klim.toNat < off + n → traps 0x05 0x03 a) ∧
        (tag = 0x01 → 0x500000 - (getCore s c).mem.mc.csteps * 0x40000 < off + n → traps 0x05 0x02 a)))

/-- LATCH_RESEND of a returned request to a word of a core whose latch unit has room and is not clearing makes an LD.TAKE or LD.PEEK
of an empty, readable word wait there; where the target has become a hole the thread takes 0x0C XSUB 0x01 instead. The answer to a
cancel of a request that is already answered lets the operation complete; of one that still waits it frees the slot and the waiter,
and the thread takes 0x09 XSUB 0x10 with the address for the wait watchdog, is RUNNING at the operation for a stop, and runs the
operation again for a JSWITCH or reset of the target. Rules: R329, R331, R332. -/
def Obligations.LatchWaitsResendAndCancel : Prop :=
  (∀ c id s q, findReq s c id = some q → q.stage = .returned → q.cancel = none → latchHeld s q.target = false →
    isHole s q.target = false → q.va / 2 ^ 56 = 0 ∨ q.va / 2 ^ 56 = 2 → (∃ rd, q.kind = .take rd ∨ q.kind = .peek rd) →
    ((getCore s q.target).mem.localMem.mark (q.off / 8)).ecc ≠ .unc →
    ((getCore s q.target).mem.localMem.mark (q.off / 8)).full = false → (getCore s q.target).mem.latch.length < 512 →
    Runs (.latchResend c id) s (fun s' => findReq s' c id = some { q with stage := .waiting } ∧
      (getCore s' q.target).mem.latch.length = (getCore s q.target).mem.latch.length + 1)) ∧
  (∀ c id s q, findReq s c id = some q → q.stage = .returned → q.cancel = none → latchHeld s q.target = false →
    isHole s q.target = true → (getThread s c q.thread).st.xact = false →
    Runs (.latchResend c id) s (fun s' => findReq s' c id = none ∧ (getThread s' c q.thread).st.xcode = 0x0C ∧
      (getThread s' c q.thread).st.xsub = 0x01 ∧ (getThread s' c q.thread).k.xpc = (getThread s c q.thread).pc)) ∧
  (∀ c id s q why, findReq s c id = some q → q.cancel = some why →
    let th := getThread s c q.thread
    (q.stage = .done → Runs (.latchCancelAnswer c id) s (fun s' => findReq s' c id = some { q with cancel := none })) ∧
    (q.stage = .waiting ∨ q.stage = .returned →
      let gone (s' : State) : Prop := findReq s' c id = none ∧
        (∀ w ∈ (getCore s' q.target).mem.latch, ¬ (w.core = c ∧ w.req = id))
      (why = .stop → Runs (.latchCancelAnswer c id) s (fun s' => gone s' ∧ (getThread s' c q.thread).st.state = .running ∧
        (getThread s' c q.thread).pc = th.pc ∧ (getThread s' c q.thread).regs = th.regs)) ∧
      (why = .watchdog → th.st.xact = false → Runs (.latchCancelAnswer c id) s (fun s' => gone s' ∧
        (getThread s' c q.thread).st.xcode = 0x09 ∧ (getThread s' c q.thread).st.xsub = 0x10 ∧
        (getThread s' c q.thread).k.xinfo = word q.va ∧ (getThread s' c q.thread).k.xpc = th.pc)) ∧
      (why = .reset → s.grid.proc = none → th.step = false → Runs (.latchCancelAnswer c id) s (fun s' => gone s' ∧
        (getThread s' c q.thread).st.state = .running ∧ (getThread s' c q.thread).pc = th.pc))))

/-- An LD or ST of an aligned, reachable BULK address that no translation entry covers makes its thread wait for a walk and changes
nothing else. A walk that finds a leaf loads an entry for it with A set, and D where it was set or a permitted store asks, and the
thread goes on at the same instruction with its registers. A walk that fails makes the thread take exception 0x04 with the walk's
sub-code and the virtual address; with the root's EN clear the sub-code is 0x06. Rules: R83, R266, R268, R269. -/
def Obligations.TranslationWalksLoadOrTrap : Prop :=
  (∀ c t w s,
    let th := getThread s c t
    let a := memAddr th w
    (th.regs.gGet (wGa w)).p = false → (th.regs.gGet (wGb w)).p = false → field a 63 56 = 0x04 → field a 55 48 = 0 →
    a.toNat % wSize w = 0 → slotFree (getCore s c) t = true → (∀ e ∈ (getCore s c).mem.tlb, tlbCovers 4 (field a 47 0) e = false) →
    let waits (store : Bool) : State :=
      updThread s c t (fun th => { th with walk := some { va := a.toNat, write := store } })
    (Issues .ld c t w s → Ready c t { gOut := [wGd w], gData := [wGa w, wGb w] } s → exec (.ld c t w) s = .next (waits false)) ∧
    (Issues .st c t w s → Ready c t { gData := [wGd w, wGa w, wGb w] } s → exec (.st c t w) s = .next (waits true))) ∧
  (∀ c t s r, coreUp s c = true → t < 16 → (getThread s c t).walk = some r →
    let th := getThread s c t
    let space := r.va / 2 ^ 56
    let va := r.va % 2 ^ 48
    (∀ l lw pa s1, walk s c space va = (.leaf l lw pa, s1) → Runs (.translationWalk c t) s (fun s' =>
      getThread s' c t = { th with walk := none } ∧
      ∃ e, (getCore s' c).mem.tlb.head? = some e ∧ e.space = space ∧ e.level = l ∧ e.vpn = va >>> lvlShift l ∧
        bitOf e.leaf 49 = true ∧
        bitOf e.leaf 48 = (bitOf lw 48 || (r.write && (pageSubs lw r.write (!th.st.pm)).isEmpty)) ∧
        field e.leaf 47 0 = field lw 47 0 ∧ field e.leaf 63 50 = field lw 63 50)) ∧
    (∀ sub s1, walk s c space va = (.fault sub, s1) → th.st.xact = false → Runs (.translationWalk c t) s (fun s' =>
      (getThread s' c t).walk = none ∧ (getThread s' c t).st.xcode = 0x04 ∧
      (getThread s' c t).st.xsub = BitVec.ofNat 8 sub ∧ (getThread s' c t).k.xinfo = word r.va ∧
      (getThread s' c t).k.xpc = th.pc ∧ (getThread s' c t).regs = th.regs ∧ (getCore s' c).mem.tlb = (getCore s c).mem.tlb)) ∧
    (bitOf (rootOf (getCore s c) space) 0 = false → walk s c space va = (.fault 6, s)))

/-- Where a gate instruction issues with its registers ready and unpoisoned, gate n being imm[8:0]: n above 319 takes 0x0A XSUB 0x06,
a disabled context XSUB 0x04, an arrival by a core that is no member XSUB 0x03, a third arrival XSUB 0x02, each with XINFO n. A
member's GARRIVE counts toward the open generation and gd = c + 1, or, once the core's arrival is sent, is held toward the next and gd
= c + 2; the arrival that completes the count lists the core at the root. GSYNC does the same and waits. GWAIT of a generation that
the core's copy has reached writes that copy to gd; otherwise the thread is WAITING with its pc at the instruction. Rules: R339, R340,
R341, R342. -/
def Obligations.GateInstructionsArriveAndWait : Prop :=
  ∀ c t w s,
    let th := getThread s c t
    let n := field w 8 0
    let key := gateKey (dieOf s.grid c) n
    let g := getGate s key
    let l := gateLocal s c n
    let traps (i : Instr) (sub : Nat) : Prop := exec i s = .next (trapped c t ⟨0x0A, sub, word n⟩ s)
    let refused (i : Instr) (arrives : Bool) : Prop :=
      (319 < n → traps i 0x06) ∧ (n ≤ 319 → g.en = false → traps i 0x04) ∧
      (n ≤ 319 → g.en = true → arrives = true → named g.rows g.cols c = false → traps i 0x03) ∧
      (n ≤ 319 → g.en = true → arrives = true → named g.rows g.cols c = true → l.sent = true → g.lcnt < l.heldN → traps i 0x02)
    let open? : Prop := n ≤ 319 ∧ g.en = true ∧ named g.rows g.cols c = true ∧ l.sent = false
    let next? : Prop := n ≤ 319 ∧ g.en = true ∧ named g.rows g.cols c = true ∧ l.sent = true ∧ l.heldN ≤ g.lcnt
    let counted (s' : State) : Prop :=
      gateLocal s' c n = { l with openN := l.openN + 1, sent := l.openN == g.lcnt } ∧
      (l.openN = g.lcnt → c ∈ (getGate s' key).arr.cores) ∧ (l.openN ≠ g.lcnt → getGate s' key = g) ∧
      (getGate s' key).gen = g.gen
    let held (s' : State) : Prop := gateLocal s' c n = { l with heldN := l.heldN + 1 } ∧ getGate s' key = g
    let waits (gen : Nat) (sync : Bool) (s' : State) : Prop :=
      getThread s' c t = { th with st := { th.st with state := .waiting }, wait := .gate n gen (wGd w) sync }
    (Issues .garrive c t w s → Ready c t (readsNone w) s → refused (.garrive c t w) true ∧
      (open? → Runs (.garrive c t w) s (fun s' => counted s' ∧
        getThread s' c t = stepped (wroteG th (wGd w) (word (l.c + 1).toNat)))) ∧
      (next? → Runs (.garrive c t w) s (fun s' => held s' ∧
        getThread s' c t = stepped (wroteG th (wGd w) (word (l.c + 2).toNat))))) ∧
    (Issues .gsync c t w s → Ready c t (readsNone w) s → refused (.gsync c t w) true ∧
      (open? → Runs (.gsync c t w) s (fun s' => counted s' ∧ waits (l.c + 1).toNat true s')) ∧
      (next? → Runs (.gsync c t w) s (fun s' => held s' ∧ waits (l.c + 2).toNat true s'))) ∧
    (Issues .gwait c t w s → Ready c t (readsA w) s → refused (.gwait c t w) false ∧
      (n ≤ 319 → g.en = true →
        let gen := (gVal th (wGa w)).toNat % 2 ^ 32
        ((l.c - BitVec.ofNat 32 gen).toNat < 2 ^ 31 → s.grid.proc = none → th.step = false → Runs (.gwait c t w) s (fun s' =>
          getThread s' c t = { wroteG th (wGd w) (word l.c.toNat) with wait := .none, fenceHeld := false })) ∧
        (2 ^ 31 ≤ (l.c - BitVec.ofNat 32 gen).toNat → Runs (.gwait c t w) s (waits gen false))))

/-- A write that sets EN of a disabled context is refused where its members are bad (REFUSED, and 0x0A XSUB 0x01 deferred to a writing
thread), else it opens the context with c = 0 and every count clear at the root and in each core in scope. Clearing EN clears the
counts and sends a waiting thread 0x0A XSUB 0x04. A generation of which every arrival is in, its trees whole, completes: c advances by
one, held fabric arrivals become open ones, and those of sowing engines and the cluster stay held until the release reaches them. A
release that is on its way to a core advances its copy by one, its held count becomes the open count, and a waiting thread whose
generation is reached goes on past its instruction with gd written. A JSWITCH reset reaching a core clears its counts and its copy and
is gone; one that found nothing to reset only goes. Rules: R338, R339, R340, R341, R351. -/
def Obligations.GatesCompleteAndRelease : Prop :=
  ∀ (s : State) (key : Nat), key < 1088 →
    let g := getGate s key
    let n := gateNo key
    (∀ v by_, bitOf v 0 = true → g.en = false →
      let g' := g.withCtl v
      (membersBad s (gateDie key) g.rows g.cols (otherMembers key g') = true →
        Runs (.gateEnable by_ key v) s (fun s' => getGate s' key = { g with refused := true } ∧
          (∀ c t, by_ = some (c, t) → (getThread s c t).deferred = none →
            (getThread s' c t).deferred = some ⟨0x0A, 0x01, word n⟩))) ∧
      (membersBad s (gateDie key) g.rows g.cols (otherMembers key g') = false →
        Runs (.gateEnable by_ key v) s (fun s' => (getGate s' key).en = true ∧ (getGate s' key).refused = false ∧
          (getGate s' key).gen = 0 ∧ (getGate s' key).arr = {} ∧ (getGate s' key).lcnt = field v 15 8 ∧
          (getGate s' key).ctlm = bitOf v 27 ∧ (getGate s' key).rows = g.rows ∧ (getGate s' key).cols = g.cols ∧
          ∀ c ∈ inScope s (gateDie key), gateLocal s' c n = {}))) ∧
    (∀ v, bitOf v 0 = false → g.en = true → Runs (.gateDisable key v) s (fun s' =>
      (getGate s' key).en = false ∧ (getGate s' key).arr = {} ∧ (getGate s' key).gen = g.gen ∧
      (∀ c ∈ inScope s (gateDie key), gateLocal s' c n = { gateLocal s c n with openN := 0, heldN := 0, sent := false } ∧
        ∀ t gen rd sy, t < 16 → (getThread s c t).wait = .gate n gen rd sy → (getThread s c t).deferred = none →
          (getThread s' c t).deferred = some ⟨0x0A, 0x04, word n⟩))) ∧
    (g.en = true → (members s g.rows g.cols).all (fun c => g.arr.cores.contains c) = true → g.sowUsed key &&& ~~~g.arr.sow = 0 →
      (g.ctlm = true → g.arr.ctl = true) → g.fabUsed key ≤ g.arr.fab → treeClear s g.rows g.cols = true →
      Runs (.gateComplete key) s (fun s' => (getGate s' key).gen = g.gen + 1 ∧ (getGate s' key).arr.cores = [] ∧
        (getGate s' key).arr.sow = 0 ∧ (getGate s' key).arr.ctl = false ∧ (getGate s' key).arr.fab = g.arr.fabHeld ∧
        (getGate s' key).arr.sowHeld = g.arr.sowHeld ∧ (getGate s' key).arr.ctlHeld = g.arr.ctlHeld ∧ (getGate s' key).en = true)) ∧
    (∀ c, c ∈ inScope s (gateDie key) → g.en = true → genReached g.gen ((gateLocal s c n).c + 1) = true → commitPending s key = false →
      (∀ m ∈ s.resets, ¬ (m.reap = false ∧ m.ctx = key ∧ m.target = c)) →
      let l := gateLocal s c n
      Runs (.gateRelease key c) s (fun s' =>
        gateLocal s' c n =
          { c := l.c + 1, openN := l.heldN, heldN := 0, sent := named g.rows g.cols c && l.heldN == g.lcnt + 1 } ∧
        ∀ t gen rd sy, t < 16 → (getThread s c t).wait = .gate n gen rd sy →
          genReached (l.c + 1) (BitVec.ofNat 32 gen) = true → s.grid.proc = none → (getThread s c t).step = false →
          getThread s' c t = { wroteG (getThread s c t) rd (word (if sy then gen else (l.c + 1).toNat)) with
            st := { (getThread s c t).st with state := .running }, wait := .none, fenceHeld := false })) ∧
    (∀ core m, s.resets.find? (fun m => m.target == core && m.reap == false && m.ctx == key) = some m →
      (m.idle = true → exec (.gateResetArrive core false key) s = .next { s with resets := s.resets.erase m }) ∧
      (m.idle = false → Runs (.gateResetArrive core false key) s (fun s' => s'.resets = s.resets.erase m ∧ gateLocal s' core n = {} ∧
        (core ≠ m.origin → ∀ t gen rd sy, t < 16 → (getThread s core t).wait = .gate n gen rd sy →
          (getThread s core t).deferred = none → (getThread s' core t).deferred = some ⟨0x0A, 0x05, word n⟩))))

/-- Where REAP issues with its registers ready and unpoisoned, its area 128-byte aligned in LOCAL and allowed, no result area named,
on an enabled context of which the core is a member with nothing outstanding: its contribution joins the round in flight, gd is the
number of that round, and the contribution is outstanding. While another member has still to contribute, the round waits; where the
core is the only member and the scope is not the fabric, the round completes with the core's own lanes. A disabled context takes 0x0A
XSUB 0x04, a core that is no member XSUB 0x03, a second contribution XSUB 0x20. RWAIT collects a result that is there and writes the
round to gd, waits for one that is not, and takes XSUB 0x31 where nothing is outstanding. Rules: R345, R346, R348, R349. -/
def Obligations.ReapsContributeAndCollect : Prop :=
  ∀ c t w s,
    let th := getThread s c t
    let n := field w 7 0
    let key := reapKey (dieOf s.grid c) n
    let r := getReap s key
    let a := gVal th (wGa w)
    let off := field a 55 0
    let span := r.lanes * 4 + r.lanes / 8
    let m := (getCore s c).mem.localMem
    let areaOk : Prop := field a 63 56 = 0 ∧ a.toNat % 128 = 0 ∧ off + span ≤ 0xC0000 ∧
      (th.st.pm = true ∨ off + span ≤ (getCore s c).ctl.klim.toNat) ∧ wGb w = 0 ∧ mustFollow s c t false false off span = false
    (Issues .reap c t w s → Ready c t { gIn := [wGa w, wGb w], gOut := [wGd w] } s → areaOk →
      (r.en = false → exec (.reap c t w) s = .next (trapped c t ⟨0x0A, 0x04, word n⟩ s)) ∧
      (r.en = true → named r.rows r.cols c = false → exec (.reap c t w) s = .next (trapped c t ⟨0x0A, 0x03, word n⟩ s)) ∧
      (r.en = true → named r.rows r.cols c = true → (findOut s c n).isSome = true →
        exec (.reap c t w) s = .next (trapped c t ⟨0x0A, 0x20, word n⟩ s)) ∧
      (r.en = true → named r.rows r.cols c = true → findOut s c n = none → reapHole s r = none →
        (∀ i, i < wordSpan off span → m.mark (off / 8 + i) = Mark.none) →
        let lanes := (List.range r.lanes).map (fun i => ofBytes (m.getBytes (off + 4 * i) 4))
        ((∃ d ∈ members s r.rows r.cols, d ≠ c ∧ ∀ i ∈ r.ins, i.core ≠ d) → Runs (.reap c t w) s (fun s' =>
          getThread s' c t = stepped (wroteG th (wGd w) (word (r.round + 1).toNat)) ∧
          findOut s' c n = some { ctx := n, who := .thread t none, round := r.round + 1, result := none, ended := none } ∧
          (getReap s' key).round = r.round ∧
          ∃ f, (getReap s' key).ins = r.ins ++ [{ core := c, lanes := lanes, flags := f }])) ∧
        (members s r.rows r.cols = [c] → r.scope ≠ 2 → r.one = false → r.ins = [] → Runs (.reap c t w) s (fun s' =>
          getThread s' c t = stepped (wroteG th (wGd w) (word (r.round + 1).toNat)) ∧ (getReap s' key).round = r.round + 1 ∧
          ∃ f, (getReap s' key).outs = r.outs ++ [{ core := c, lanes := lanes, flags := f }])))) ∧
    (Issues .rwait c t w s → Ready c t (readsNone w) s →
      (findOut s c n = none → exec (.rwait c t w) s = .next (trapped c t ⟨0x0A, 0x31, word n⟩ s)) ∧
      (∀ o u area, findOut s c n = some o → o.who = .thread u area →
        (o.result = none → Runs (.rwait c t w) s (fun s' =>
          getThread s' c t = { th with st := { th.st with state := .waiting }, wait := .reap n (wGd w) })) ∧
        (o.result.isSome = true → Runs (.rwait c t w) s (fun s' => findOut s' c n = none ∧
          getThread s' c t = stepped (wroteG th (wGd w) (word o.round.toNat)))))
    )

/-- A write that sets EN of a disabled context is refused where its members are bad or its OP, SCOPE, ONE or root is not allowed
(REFUSED, and 0x0A XSUB 0x01 deferred to a writing thread), else it opens the context with round 0 and nothing in flight. Clearing EN
empties the round and ends a member's outstanding thread contribution with a deferred 0x0A XSUB 0x04. A result that reaches a core
with a thread in RWAIT is collected: the thread goes on past its RWAIT with the round in gd and nothing is outstanding; with none
waiting it is kept with the contribution. Rules: R345, R348, R349. -/
def Obligations.ReapContextsOpenEndAndDeliver : Prop :=
  ∀ (s : State) (key : Nat), key < 832 →
    let r := getReap s key
    let n := reapNo key
    (∀ v by_, bitOf v 0 = true → r.en = false →
      let r' := r.withCtl v
      let bad := membersBad s (reapDie key) r.rows r.cols false || reapCfgBad key r'
      (bad = true → Runs (.reapEnable by_ key v) s (fun s' => getReap s' key = { r with refused := true } ∧
        (∀ c t, by_ = some (c, t) → (getThread s c t).deferred = none →
          (getThread s' c t).deferred = some ⟨0x0A, 0x01, word n⟩))) ∧
      (bad = false → Runs (.reapEnable by_ key v) s (fun s' => getReap s' key =
        { r' with en := true, refused := false, round := 0, ins := [], outs := [], fabric := false }))) ∧
    (∀ v c u area o, bitOf v 0 = false → r.en = true → c ∈ members s r.rows r.cols → findOut s c n = some o →
      o.who = .thread u area → (getThread s c u).deferred = none → Runs (.reapDisable key v) s (fun s' =>
        (getReap s' key).en = false ∧ (getReap s' key).ins = [] ∧ (getReap s' key).outs = [] ∧ findOut s' c n = none ∧
        (getThread s' c u).deferred = some ⟨0x0A, 0x04, word n⟩)) ∧
    (∀ c o res u, r.outs.find? (fun x => x.core == c) = some res → findOut s c n = some o → o.who = .thread u none →
      ((∀ t m rd, t < 16 → (getThread s c t).wait = .reap m rd → m ≠ n) → Runs (.reapResult key c) s (fun s' =>
        findOut s' c n = some { o with result := some (res.lanes, res.flags) } ∧
        (getReap s' key).outs = r.outs.filter (fun x => x.core != c))) ∧
      (∀ t rd, t < 16 → (getThread s c t).wait = .reap n rd → (getThread s c t).step = false → s.grid.proc = none →
        Runs (.reapResult key c) s (fun s' => findOut s' c n = none ∧
          getThread s' c t = { wroteG (getThread s c t) rd (word o.round.toNat) with
            st := { (getThread s c t).st with state := .running }, wait := .none, fenceHeld := false })))

/-- Where DPOST issues with ga ready and unpoisoned, naming 64 aligned, clean bytes of LOCAL allowed in its mode, on a ring that is
on, not in error and not full, with no latch operation waiting at an uncorrectable word: the 64 bytes are copied to slot TAIL mod
2^LOGN and no other byte of local SRAM changes, TAIL is one higher, the descriptor is posted last, and gd is the old TAIL. A full ring
makes it wait with nothing changed; a ring that is off or in error takes 0x0D XSUB 0x40 with the ring number; a misaligned ga takes
0x03 XSUB 0x01, another space 0x05 XSUB 0x01. DSTAT writes TAIL and DONE to gd and changes nothing else. In job mode DPOST of a
CONTROL address takes 0x02 XSUB 0x03, and both otherwise take 0x02 XSUB 0x04 on a ring with JOB = 0. Rules: R65, R99, R286, R287,
R288. -/
def Obligations.DrillPostsAndStatus : Prop :=
  ∀ c t w s,
    let th := getThread s c t
    let n := field w 3 0
    let r := getRing s c n
    let a := gVal th (wGa w)
    let m := (getCore s c).mem.localMem
    let control : Prop := th.st.pm = false ∧ field a 63 56 = 0x0F
    let allowed : Prop := th.st.pm = true ∨ r.job = true
    let on : Prop := r.en = true ∧ ringValid (getCore s c) r = true ∧ r.error = false
    let placed : Prop := field a 63 56 = 0 ∧ a.toNat % 64 = 0 ∧ field a 55 0 < 0xC0000 ∧
      (th.st.pm = true ∨ field a 55 0 + 64 ≤ (getCore s c).ctl.klim.toNat)
    let full : Prop := 2 ^ r.logn ≤ (r.tail + 2 ^ 32 - r.done) % 2 ^ 32
    (Issues .dpost c t w s → Ready c t (readsA w) s → control → exec (.dpost c t w) s = .next (trapped c t ⟨0x02, 0x03, w⟩ s)) ∧
    (Issues .dpost c t w s → Ready c t (readsA w) s → allowed → ¬ control →
      (placed → on → full → exec (.dpost c t w) s = .next s) ∧
      (placed → on → ¬ full → mustFollow s c t false false (field a 55 0) 64 = false → quietWords (getCore s c) →
        (∀ i, i < 8 → m.mark (field a 55 0 / 8 + i) = Mark.none) → Runs (.dpost c t w) s (fun s' =>
          getThread s' c t = stepped (wroteG th (wGd w) (word r.tail)) ∧
          (getRing s' c n).tail = (r.tail + 1) % 2 ^ 32 ∧ (getRing s' c n).done = r.done ∧
          (getRing s' c n).posted.map (·.seq) = r.posted.map (·.seq) ++ [r.tail] ∧
          (∀ i, i < 64 → (getCore s' c).mem.localMem.byte (r.base * 64 + 64 * (r.tail % 2 ^ r.logn) + i) = m.byte (field a 55 0 + i)) ∧
          (∀ x, x < r.base * 64 + 64 * (r.tail % 2 ^ r.logn) ∨ r.base * 64 + 64 * (r.tail % 2 ^ r.logn) + 64 ≤ x →
            (getCore s' c).mem.localMem.byte x = m.byte x) ∧
          (∀ d, d ≠ c → getCore s' d = getCore s d))) ∧
      (placed → ¬ on → exec (.dpost c t w) s = .next (trapped c t ⟨0x0D, 0x40, word n⟩ s)) ∧
      (a.toNat % 64 ≠ 0 → exec (.dpost c t w) s = .next (trapped c t ⟨0x03, 0x01, a⟩ s)) ∧
      (a.toNat % 64 = 0 → field a 63 56 ≠ 0 → exec (.dpost c t w) s = .next (trapped c t ⟨0x05, 0x01, a⟩ s))) ∧
    (Issues .dstat c t w s → Ready c t (readsNone w) s → allowed →
      Runs (.dstat c t w) s (ThreadOnly c t (some (wGd w)) (wroteG th (wGd w) (word (r.tail % 2 ^ 32 * 2 ^ 32 + r.done % 2 ^ 32))) s)) ∧
    (¬ allowed →
      (Issues .dpost c t w s → Ready c t (readsA w) s → ¬ control →
        exec (.dpost c t w) s = .next (trapped c t ⟨0x02, 0x04, w⟩ s)) ∧
      (Issues .dstat c t w s → Ready c t (readsNone w) s → exec (.dstat c t w) s = .next (trapped c t ⟨0x02, 0x04, w⟩ s)))

/-- Setting EN takes the fields and sets TAIL and DONE to 0 with no error and nothing posted. Clearing EN discards what is posted; a
descriptor that has moved its data, with nothing unacknowledged on the fabric, or that waits for its gate, ends and counts in DONE,
and TAIL stays (how much one still moving has moved is free: notes/assumptions/22.md). The oldest posted descriptor of an idle ring
that is on starts once the poster's earlier stores are acknowledged and its gate is ready, with its words as the slot holds them, and
runs if its common fields are good. A descriptor whose movement is over and whose status is OK, without a gate arrival, ends: DONE is
one higher and the ring is free; with CW its completion word is the stated one at CPL, full. One that was aborted ends without an
error. One that failed sets ERROR, STATUS and ADDR and sends its owner a deferred 0x0D with the status, ring and sequence number.
Rules: R285, R286, R289, R290, R292, R293. -/
def Obligations.DrillRingsStartAndEndDescriptors : Prop :=
  ∀ (c n : Nat) (s : State), coreUp s c = true → n < 16 →
    let r := getRing s c n
    (∀ v, bitOf v 0 = true → r.en = false → Runs (.drillRingEnable c n v) s (fun s' =>
      (getRing s' c n).en = true ∧ (getRing s' c n).owner = field v 51 48 ∧ (getRing s' c n).logn = field v 47 44 ∧
      (getRing s' c n).base = field v 19 6 ∧ (getRing s' c n).job = bitOf v 1 ∧ (getRing s' c n).tail = 0 ∧
      (getRing s' c n).done = 0 ∧ (getRing s' c n).error = false ∧ (getRing s' c n).posted = [] ∧ (getRing s' c n).cur = none)) ∧
    (∀ v, bitOf v 0 = false → r.en = true → Runs (.drillRingDisable c n v) s (fun s' =>
      (getRing s' c n).en = false ∧ (getRing s' c n).posted = [] ∧
      ((∀ d, r.cur = some d → (d.phase = .moved ∨ d.phase = .arrival ∨ d.phase = .drainWait) ∧ (fabricWait s c n).isSome = true) →
        (getRing s' c n).cur = none ∧ (getRing s' c n).tail = r.tail ∧ (getRing s' c n).base = r.base ∧
        (getRing s' c n).done = if r.cur.isSome = true ∨ ringState s c n = 2 then (r.done + 1) % 2 ^ 32 else r.done))) ∧
    (∀ p rest, s.grid.proc = none → ringOn (getCore s c) r = true → r.error = false → r.cur = none → r.posted = p :: rest →
      let at? := slotAddr r p.seq
      let ws := wordsOf 8 ((getCore s c).mem.localMem.getBytes at? 64)
      (∀ i, i < 8 → (getCore s c).mem.localMem.mark (at? / 8 + i) = Mark.none) →
      storesAcked (getCore s c) p = true → wgReady s c ws = true → Runs (.drillDescriptorStart c n) s (fun s' =>
        (getRing s' c n).posted = rest ∧ ∃ d, (getRing s' c n).cur = some d ∧ d.seq = p.seq ∧ d.words = ws ∧ d.result = 0 ∧
          (d.status = 0 → d.phase = .run) ∧ (d.status ≠ 0 → d.phase = .moved) ∧
          (fieldN (ws.getD 0 0) 63 56 = 0 ∨ 0x0C < fieldN (ws.getD 0 0) 63 56 → d.status = 0x01))) ∧
    (∀ d, r.cur = some d → d.phase = .moved →
      (d.status = 0 → dGA d.words = false → Runs (.drillDescriptorEnd c n) s (fun s' =>
        (getRing s' c n).cur = none ∧ (getRing s' c n).done = (r.done + 1) % 2 ^ 32 ∧ (getRing s' c n).error = r.error ∧
        (dCW d.words = true → dCPL d.words % 8 = 0 → dCPL d.words < 0xC0000 →
          (r.job = false ∨ dCPL d.words < (getCore s c).ctl.klim.toNat) → (getCore s c).mem.latch = [] → latchHeld s c = false →
          ((getCore s' c).mem.localMem.mark (dCPL d.words / 8)).full = true ∧
          ofBytes ((getCore s' c).mem.localMem.getBytes (dCPL d.words) 8) =
            dOp d.words * 2 ^ 40 + n * 2 ^ 36 + d.result % 2 ^ 32))) ∧
      (d.status = 0x10 → Runs (.drillDescriptorEnd c n) s (fun s' =>
        (getRing s' c n).cur = none ∧ (getRing s' c n).done = (r.done + 1) % 2 ^ 32 ∧ (getRing s' c n).error = r.error)) ∧
      (d.status ≠ 0 → d.status ≠ 0x10 → (getThread s c r.owner).deferred = none → (getCore s c).mem.latch = [] →
        Runs (.drillDescriptorEnd c n) s (fun s' =>
          (getRing s' c n).cur = none ∧ (getRing s' c n).done = (r.done + 1) % 2 ^ 32 ∧ (getRing s' c n).error = true ∧
          (getRing s' c n).errStatus = d.status ∧ (d.addr ≠ noAddr → (getRing s' c n).errAddr = d.addr % 2 ^ 48) ∧
          (getThread s' c r.owner).deferred = some ⟨0x0D, d.status, word (n * 2 ^ 32 + d.seq % 2 ^ 32)⟩)))

/-- A COPY descriptor whose length L0 is 0 ends with BAD_FIELD, and one without a completion word whose source, source stride or
length is misaligned with ALIGN, with the state as it was. A COPY of one run (N1 = N2 = N3 = 0), with CPL right if it has CW, between
two aligned, disjoint places of the core's own LOCAL, both in range and its source words clean, ends OK with RESULT = L0: the
destination bytes are the source bytes, and every other byte of local SRAM is as before. For each of COPY, COPY_PREFETCH, GATHER,
SCATTER_ADD, SORT_GATHER, TRANSPOSE, CONVERT, SKEW, UNSKEW, SHEAF_PACK, SHEAF_UNPACK, SOW, CRYPT_IN and CRYPT_OUT: where the running
descriptor of an enabled ring of a core that is no hole has that operation, has not yet moved and has a path for its data, the command
answers the state that the operation leaves over those words, with its end recorded in the descriptor. Rules: R289, R292, R298, R299,
R303, R304, R305, R306, R308, R311, R312, R314. -/
def Obligations.DrillOperationsRunAndCopyMoves : Prop :=
  (
    ∀ (s : State) (c n : Nat) (job : Bool) (ws : List Nat), dDRN ws = false →
      let p := patOf ws 3
      let src := dWord ws 1
      let dst := dWord ws 2
      let m := (getCore s c).mem.localMem
      let fieldsOk : Prop := dField ws 0 31 0 = 0 ∧ dField ws 3 27 20 = 0 ∧ p.l0 ≠ 0
      (¬ fieldsOk → copyOp s c n job ws = { st := s, status := 0x02, addr := noAddr }) ∧
      (fieldsOk → dCW ws = false → dAligned src p.l0 p.ss = false → copyOp s c n job ws =
          { st := s, status := 0x03, addr := if dAligned src 0 [] then noAddr else src }) ∧
      (fieldsOk → (dCW ws = true → dCPL ws % 8 = 0 ∧ dCPL ws < 0xC0000 ∧ (job = true → dCPL ws < (getCore s c).ctl.klim.toNat)) →
          p.n1 = 0 → p.n2 = 0 → p.n3 = 0 → dAligned src p.l0 p.ss = true → dAligned dst p.l0 p.ds = true →
        src + p.l0 ≤ 0xC0000 → dst + p.l0 ≤ 0xC0000 → (job = true → src + p.l0 ≤ (getCore s c).ctl.klim.toNat) →
        (job = true → dst + p.l0 ≤ (getCore s c).ctl.klim.toNat) → (src + p.l0 ≤ dst ∨ dst + p.l0 ≤ src) →
        (∀ x, m.mark x = Mark.none) → (getCore s c).burst = none →
        let e := copyOp s c n job ws
        let m' := (getCore e.st c).mem.localMem
        e.status = 0 ∧ e.result = p.l0 ∧ e.phase = .moved ∧ (∀ i, i < p.l0 → m'.byte (dst + i) = m.byte (src + i)) ∧
        (∀ x, x < dst ∨ dst + p.l0 ≤ x → m'.byte x = m.byte x) ∧ (∀ x, c ≠ x → getCore e.st x = getCore s x) ∧ e.st.bulk = s.bulk)) ∧
  (
    ∀ (c n : Nat) (s : State) (d : DescRun), coreExists s c = true → isHole s c = false → s.grid.proc = none →
      let r := getRing s c n
      ringOn (getCore s c) r = true → r.cur = some d → d.phase = .run → opCut s c d.words = false →
      let ends (i : Instr) (e : DEnd) : Prop := exec i s = .next (updRing e.st c n (fun r =>
        { r with cur := some { d with phase := e.phase, status := e.status, addr := e.addr, result := e.result } }))
      let op := dOp d.words
      let unskew := (dWord d.words 0).testBit 0
      (op = 0x01 → dPF d.words = false → ends (.copy c n) (copyOp s c n r.job d.words)) ∧
      (op = 0x01 → dPF d.words = true → ends (.copyPrefetch c n) (prefetchOp s c r.job d.words)) ∧
      (op = 0x02 → ends (.gather c n) (gatherOp s c r.job d.words)) ∧
      (op = 0x03 → ends (.scatterAdd c n) (scatterOp s c r.job d.words)) ∧
      (op = 0x04 → ends (.sortGather c n) (sortGatherOp s c r.job d.words)) ∧
      (op = 0x05 → ends (.transpose c n) (convertOp true s c r.job d.words)) ∧
      (op = 0x06 → ends (.convert c n) (convertOp false s c r.job d.words)) ∧
      (op = 0x07 → unskew = false → ends (.skew c n) (skewOp s c r.job d.words)) ∧
      (op = 0x07 → unskew = true → ends (.unskew c n) (unskewOp s c r.job d.words)) ∧
      (op = 0x08 → ends (.sheafPack c n) (packOp s c r.job d.words)) ∧
      (op = 0x09 → ends (.sheafUnpack c n) (unpackOp s c r.job d.words)) ∧
      (op = 0x0A → ends (.sow c n) (sowOp s c r.job d.words)) ∧
      (op = 0x0B → ends (.cryptIn c n) (cryptInOp s c r.job d.words)) ∧
      (op = 0x0C → ends (.cryptOut c n) (cryptOutOp s c r.job d.words)))

/-- Where JSWITCH issues in keeper mode with every other thread STOPPED, FAULTED or HALTED, rings, engines and drains idle, nothing at
the latch unit, no gate or reap of the core enabled and no reset of its own under way: with no request in flight it completes: the
other threads' registers are cleared, L1 and translations are empty, every latch bit is empty, the engines' heads are at slot 0, and
no byte of local SRAM or the granary, no tile register and no other core has changed; with a request in flight it has begun and its
thread stays at it. DPOST of a ring that takes it, DSTAT of a ring the thread may use, REAP of a member while another has still to
contribute, and RWAIT (for a result that is there, or by waiting) complete with gd as stated, and change no byte of memory but DPOST's
slot and no other core. Rules: R91, R246, R287, R288, R348, R349, R351. -/
def Obligations.JswitchDpostDstatReapAndRwaitComplete : Prop :=
  ∀ c t w s,
    let th := getThread s c t
    let k := getCore s c
    let m := k.mem.localMem
    let a := gVal th (wGa w)
    let off := field a 55 0
    let quiet (n : Nat) : Prop := ∀ i, i < n → m.mark (off / 8 + i) = Mark.none
    let same (s' : State) : Prop := (∀ x, (getCore s' c).mem.localMem.byte x = m.byte x ∧ (getCore s' c).mem.gran.byte x = k.mem.gran.byte x) ∧
      s'.bulk = s.bulk ∧ ∀ d, d ≠ c → getCore s' d = getCore s d
    (Issues .jswitch c t w s → th.st.pm = true →
      (∀ u, u < 16 → u ≠ t → (getThread s c u).st.state ∈ [.stopped, .faulted, .halted]) →
      ringsIdle k = true → enginesIdle k = true → k.drain.jobs = [] → k.mem.latch = [] → k.mem.puts = [] →
      (∀ p ∈ s.gates, p.2.en = false ∨ named p.2.rows p.2.cols c = false) →
      (∀ p ∈ s.reaps, p.2.en = false ∨ named p.2.rows p.2.cols c = false) → (∀ x ∈ s.resets, x.origin ≠ c) →
      (k.reqs = [] → ∃ s', exec (.jswitch c t w) s = .next s' ∧ same s' ∧
        getThread s' c t = stepped { th with pc := th.pc + 8 } ∧
        (∀ u, u < 16 → u ≠ t → getThread s' c u = { getThread s c u with regs := {}, twCount := 0 }) ∧
        (getCore s' c).mem.l1 = [] ∧ (getCore s' c).mem.tlb = [] ∧ (getCore s' c).tile = k.tile ∧ (getCore s' c).sync.jsw = none ∧
        (getCore s' c).eng.harrow.head = 0 ∧ (getCore s' c).eng.winnow.head = 0 ∧
        (∀ x, ((getCore s' c).mem.localMem.mark x).full = false ∧ ((getCore s' c).mem.gran.mark x).full = false)) ∧
      (k.reqs ≠ [] → ∃ s', exec (.jswitch c t w) s = .next s' ∧ same s' ∧ getThread s' c t = th ∧
        (getCore s' c).sync.jsw = some { thread := some t, phase := .draining, newSplit := none })) ∧
    (let n := field w 3 0
     let r := getRing s c n
     let slot := r.base * 64 + 64 * (r.tail % 2 ^ r.logn)
     (Issues .dpost c t w s → Ready c t { gIn := [wGa w], gOut := [wGd w] } s → th.st.pm = true ∨ r.job = true →
      field a 63 56 = 0 → a.toNat % 64 = 0 → off < 0xC0000 → th.st.pm = true ∨ off + 64 ≤ k.ctl.klim.toNat →
      r.en = true → ringValid k r = true → r.error = false → (r.tail + 2 ^ 32 - r.done) % 2 ^ 32 < 2 ^ r.logn →
      mustFollow s c t false false off 64 = false → quietWords k → quiet 8 →
      ∃ s', exec (.dpost c t w) s = .next s' ∧ getThread s' c t = stepped (wroteG th (wGd w) (word r.tail)) ∧
        (getRing s' c n).tail = (r.tail + 1) % 2 ^ 32 ∧ s'.bulk = s.bulk ∧ (∀ d, d ≠ c → getCore s' d = getCore s d) ∧
        (∀ x, (getCore s' c).mem.gran.byte x = k.mem.gran.byte x) ∧
        ∀ x, (getCore s' c).mem.localMem.byte x = m.byte (if slot ≤ x ∧ x < slot + 64 then off + (x - slot) else x)) ∧
     (Issues .dstat c t w s → Ready c t { gOut := [wGd w] } s → th.st.pm = true ∨ r.job = true →
      ∃ s', exec (.dstat c t w) s = .next s' ∧ same s' ∧ getRing s' c n = r ∧
        getThread s' c t = stepped (wroteG th (wGd w) (word (r.tail % 2 ^ 32 * 2 ^ 32 + r.done % 2 ^ 32))))) ∧
    (let n := field w 7 0
     let key := reapKey (dieOf s.grid c) n
     let r := getReap s key
     let span := r.lanes * 4 + r.lanes / 8
     (Issues .reap c t w s → Ready c t { gIn := [wGa w, wGb w], gOut := [wGd w] } s → wGb w = 0 →
      field a 63 56 = 0 → a.toNat % 128 = 0 → off + span ≤ 0xC0000 → th.st.pm = true ∨ off + span ≤ k.ctl.klim.toNat →
      mustFollow s c t false false off span = false → r.en = true → named r.rows r.cols c = true → findOut s c n = none →
      reapHole s r = none → (∃ d ∈ members s r.rows r.cols, d ≠ c ∧ ∀ i ∈ r.ins, i.core ≠ d) → quiet (wordSpan off span) →
      ∃ s', exec (.reap c t w) s = .next s' ∧ same s' ∧ getThread s' c t = stepped (wroteG th (wGd w) (word (r.round + 1).toNat)) ∧
        (findOut s' c n).map (·.round) = some (r.round + 1) ∧ (getReap s' key).ins.map (·.core) = r.ins.map (·.core) ++ [c]) ∧
     (∀ o u, Issues .rwait c t w s → Ready c t { gOut := [wGd w] } s → findOut s c n = some o → o.who = .thread u none →
      ∃ s', exec (.rwait c t w) s = .next s' ∧ same s' ∧ findOut s' c n = (if o.result.isSome then none else some o) ∧
        getThread s' c t = (if o.result.isSome then stepped (wroteG th (wGd w) (word o.round.toNat))
          else { th with st := { th.st with state := .waiting }, wait := .reap n (wGd w) })))

/-- Where a tile move issues with its registers ready and unpoisoned, its index in the window, no earlier access or output of the
thread to await, fewer than four moves queued and its span aligned and inside LOCAL or scratch granary that the thread may reach (for
TST also: the register's tag is of its format and covers the rows and granules): one move with its physical register, base, pitch,
rows and granules joins the queue, the pc passes the instruction, and nothing else changes. An index outside the window takes 0x08
XSUB 0x01 with the word. When the oldest move of a path retires with no earlier move of the thread, and for a load no earlier drain's
tile output, in its way, it leaves the queue; a load from clean LOCAL writes its rows, its tag and its row poison and no memory; a
store to LOCAL changes no byte outside its runs, and one row of clean data stands at its base; a sideband move carries the 128 bytes.
Rules: R106, R110, R118, R119, R120, R121, R122, R136. -/
def Obligations.TileMovesQueueAndRetire : Prop :=
  (∀ c t w s,
    let th := getThread s c t
    let u := (getCore s c).tile
    let i := tmT w
    let p := th.twBase.toNat + i
    let a := gVal th (wGa w)
    let pitch := if wGb w = 0 then tmGrans w * 8 else field (gVal th (wGb w)) 19 0
    let n := (tmRows w - 1) * pitch + (if tmSkew w then 64 else 8 * tmGrans w)
    let aligned : Prop := if tmSkew w then a.toNat % 64 = 0 ∧ pitch % 64 = 0 ∧ tmGrans w = 8 else a.toNat % 8 = 0 ∧ pitch % 8 = 0
    let gran := field a 63 56 == 1
    let r := getTile s c p
    let queued (m : TileMove) (s' : State) : Prop :=
      TileOnly c t none [] { u with moves := u.moves ++ [m], nextId := u.nextId + 1 } s s'
    let plain (store : Bool) : TileMove :=
      { id := u.nextId, thread := t, store := store, side := false, reg := p, gran := gran, base := field a 55 0, pitch := pitch
        rows := tmRows w, grans := tmGrans w, fmt := tmFmt w, skew := tmSkew w }
    let side (store : Bool) : TileMove :=
      { id := u.nextId, thread := t, store := store, side := true, reg := p, gran := gran, base := field a 55 0, pitch := 0
        rows := 1, grans := 8, fmt := 15, skew := false }
    let traps (j : Instr) : Prop := exec j s = .next (trapped c t ⟨0x08, 0x01, w⟩ s)
    queueLen (getCore s c) < 4 →
    (Issues .tld c t w s → Ready c t { gIn := [wGa w, wGb w] } s →
      (inWindow th [i] → tileWait s c [] [p] = false → moveFollows s c (plain false) = false → aligned → areaFree s c t a n →
        Runs (.tld c t w) s (queued (plain false))) ∧
      (¬ inWindow th [i] → th.st.pm = true → traps (.tld c t w))) ∧
    (Issues .tst c t w s → Ready c t { gIn := [wGa w, wGb w] } s →
      (inWindow th [i] → tileWait s c [p] [] = false → moveFollows s c (plain true) = false → aligned → areaFree s c t a n → r.fmt ≠ fmtNone → r.fmt = tmFmt w →
        tmRows w ≤ r.nrows + 1 → tmGrans w ≤ r.gran + 1 → Runs (.tst c t w) s (queued (plain true))) ∧
      (¬ inWindow th [i] → th.st.pm = true → traps (.tst c t w))) ∧
    (Issues .tlds c t w s → Ready c t { gIn := [wGa w] } s →
      (inWindow th [i] → tileWait s c [] [p] = false → moveFollows s c (side false) = false → a.toNat % 128 = 0 → areaFree s c t a 128 →
        Runs (.tlds c t w) s (queued (side false))) ∧
      (¬ inWindow th [i] → th.st.pm = true → traps (.tlds c t w))) ∧
    (Issues .tsts c t w s → Ready c t { gIn := [wGa w] } s →
      (inWindow th [i] → tileWait s c [p] [] = false → moveFollows s c (side true) = false → a.toNat % 128 = 0 → areaFree s c t a 128 →
        Runs (.tsts c t w) s (queued (side true))) ∧
      (¬ inWindow th [i] → th.st.pm = true → traps (.tsts c t w)))) ∧
  (∀ c store s m,
    let u := (getCore s c).tile
    u.moves.find? (fun x => x.store == store) = some m → moveBlocked (u.moves.takeWhile (fun b => b.id != m.id)) m = false →
    afterDrains (getCore s c) m = false → m.gran = false → (∀ x, (getCore s c).mem.localMem.mark x = Mark.none) → m.base % 8 = 0 → m.pitch % 8 = 0 →
    let mem := (getCore s c).mem.localMem
    let r := getTile s c m.reg
    Runs (.tileMoveRetire c store) s (fun s' =>
      (getCore s' c).tile.moves = u.moves.filter (fun b => b.id != m.id) ∧
      (∀ x, x ≠ m.reg → getTile s' c x = getTile s c x) ∧ (∀ d, d ≠ c → getCore s' d = getCore s d) ∧
      (∀ x, (∀ run ∈ moveRuns m, x < run.1 ∨ run.1 + run.2 ≤ x) ∨ store = false →
        (getCore s' c).mem.localMem.byte x = mem.byte x) ∧
      (store = false → m.side = false → m.skew = false → getTile s' c m.reg = r.write m.fmt m.rows m.grans
        ((List.range m.rows).map (fun i => some (ofBytes (mem.getBytes (m.base + i * m.pitch) (8 * m.grans)), false)))) ∧
      (store = false → m.side = true →
        getTile s' c m.reg = { r with side := BitVec.ofNat 1024 (ofBytes (mem.getBytes m.base 128)), spois := false }) ∧
      (store = true → getTile s' c m.reg = r) ∧
      (store = true → m.side = false → m.skew = false → m.rows = 1 → r.prow.getLsbD 0 = false → ∀ j, j < 8 * m.grans →
        (getCore s' c).mem.localMem.byte (m.base + j) = BitVec.ofNat 8 ((r.row 0).toNat / 256 ^ j)) ∧
      (store = true → m.side = true → r.spois = false → ∀ j, j < 128 →
        (getCore s' c).mem.localMem.byte (m.base + j) = BitVec.ofNat 8 (r.side.toNat / 256 ^ j))))

/-- Where each issues with its indices in the window and nothing earlier to await: TMOV makes td a copy of ta, with tag, sideband and
poison; TZERO writes zeros to the named rows and granules, the tag it names, no poison, and a sideband of 0x7F; TXFER, its yoke
unbroken and the link free, puts one transfer on the link; TTAG writes to gd the tag word: poison of the rows in [63:32], of the
sideband in 16, format in [15:12], last row in [11:7], last granule in [6:4]; TASTAT writes a bank's poison, mode and sticky flags, or
the vector unit's flags, and with its clear bit clears the flags. Nothing else changes. An arrival writes the sender's register over
the partner's destination and takes the transfer off the link. An index outside the window takes 0x08 XSUB 0x01; TXFER over a broken
yoke takes 0x0C XSUB 0x02 with the partner's coordinates. Rules: R106, R108, R111, R123, R124, R125, R132, R136. -/
def Obligations.TileCopiesAndReads : Prop :=
  (∀ c t w s,
    let th := getThread s c t
    let k := getCore s c
    let u := k.tile
    let i := field w 55 51
    let j := field w 50 46
    let p := th.twBase.toNat + i
    let q := th.twBase.toNat + j
    let put (x : Nat) (r : TileReg) : TileUnit := { u with regs := spSet {} u.regs x r, opCache := u.opCache.filter (· != x) }
    let r := getTile s c q
    let zero := (getTile s c p).write (tmFmt w) (tmRows w) (tmGrans w) (List.replicate (tmRows w) (some (0, false)))
    let bank := field w 29 28
    let b := if bank = 0 then u.acc0 else u.acc1
    let clears := bitOf w 27
    let fine (b : AccBank) : AccBank := { b with nan := false, inf := false, iov := false }
    let outside (x : Instr) : Prop := exec x s = .next (trapped c t ⟨0x08, 0x01, w⟩ s)
    (Issues .tmov c t w s →
      (inWindow th [i, j] → tileWait s c [q] [p] = false → Runs (.tmov c t w) s (TileOnly c t none [] (put p r) s)) ∧
      (¬ inWindow th [i, j] → outside (.tmov c t w))) ∧
    (Issues .tzero c t w s →
      (inWindow th [i] → tileWait s c [] [p] = false →
        Runs (.tzero c t w) s (TileOnly c t none [] (put p { zero with side := sideOnes, spois := false }) s)) ∧
      (¬ inWindow th [i] → outside (.tzero c t w))) ∧
    (Issues .txfer c t w s →
      (inWindow th [i, j] → yokeBroken s c = false → tileWait s c [q] [] = false → tileWait s (partner c) [] [p] = false →
        u.xfers = [] → (∀ x ∈ (getCore s (partner c)).tile.passes, x.yk = true → x.started = false) →
        Runs (.txfer c t w) s (TileOnly c t none []
          { u with xfers := [{ id := u.nextId, thread := t, src := q, dst := p }], nextId := u.nextId + 1 } s)) ∧
      (¬ inWindow th [i, j] → outside (.txfer c t w)) ∧
      (inWindow th [i, j] → yokeBroken s c = true →
        exec (.txfer c t w) s = .next (trapped c t ⟨0x0C, 0x02, holeInfo (partner c)⟩ s))) ∧
    (Issues .ttag c t w s → Ready c t { gOut := [wGd w] } s →
      (inWindow th [j] → tileWait s c [q] [] = false → Runs (.ttag c t w) s (TileOnly c t
        (some (wGd w, word (r.prow.toNat * 2 ^ 32 + boolN r.spois * 2 ^ 16 + r.fmt * 2 ^ 12 + r.nrows * 2 ^ 7 + r.gran * 2 ^ 4)))
        [] u s)) ∧
      (¬ inWindow th [j] → outside (.ttag c t w))) ∧
    (Issues .tastat c t w s → Ready c t { gOut := [wGd w] } s →
      (bank ≠ 2 → bankBusy k bank = false → Runs (.tastat c t w) s (TileOnly c t
        (some (wGd w, word (b.prow.toNat * 2 ^ 32 + b.mode.codeN * 2 ^ 6 + boolN b.iov * 4 + boolN b.inf * 2 + boolN b.nan))) []
        (if clears then (if bank = 0 then { u with acc0 := fine b } else { u with acc1 := fine b }) else u) s)) ∧
      (bank = 2 → u.vecs = [] → Runs (.tastat c t w) s (TileOnly c t
        (some (wGd w, word (boolN u.viov * 4 + boolN u.vinf * 2 + boolN u.vnan))) []
        (if clears then { u with vnan := false, vinf := false, viov := false } else u) s)))) ∧
  (∀ c s x rest, (getCore s c).tile.xfers = x :: rest → Runs (.txferArrive c) s (fun s' =>
    (getCore s' c).tile.xfers = rest ∧ getTile s' (partner c) x.dst = getTile s c x.src ∧
    (∀ y, y ≠ x.dst → getTile s' (partner c) y = getTile s (partner c) y) ∧
    (∀ d, d ≠ c → d ≠ partner c → getCore s' d = getCore s d) ∧ (∀ y, getTile s' c y = getTile s c y)))

/-- Where a multiply issues, its registers ready and unpoisoned, its indices in the window, the array able to take a pass, its scale
selection allowed, its bank, once the passes before have landed, empty, cleared or of the same mode, the yoke unbroken under YK, and
its operands of the pair's formats, covered (or ZPAD) and unpoisoned where fed: one pass joins, with the shapes, registers, masks and
scales that issue read; TMMA.SEG takes its segments from a valid descriptor in two registers, TMMA.CONV its convolution from a valid,
readable block in LOCAL. An A that does not cover its extent takes 0x07 XSUB 0x01. The waiting pass starts while fewer than two have
started and not landed. A started pass lands in its own bank: the other bank, every tile register, memory and every cell outside the
fed rows and columns of an unchanged mode stay as they were. Each cell of an INT8 pass becomes its old value plus the sum of its
products, modulo 2^32. Rules: R126, R127, R128, R129, R131, R132, R134, R137, R141, R143, R144, R145. -/
def Obligations.ArrayPassesQueueStartAndLand : Prop :=
  (∀ c t w s,
    let th := getThread s c t
    let u := (getCore s c).tile
    let pair := mmPair w
    let ta := th.twBase.toNat + mmA w
    let tb := th.twBase.toNat + mmB w
    let mr := (th.regs.mGet (mmMR w)).v
    let mode := bankModeAt (getCore s c) (mmAcc w)
    let bc := if mmYK w then partner c else c
    let common : Prop := sclRefused pair (mmScl w) false = false ∧
      (mmClr w = true ∨ mode = .empty ∨ mode = pairMode pair) ∧ (mmYK w = true → yokeBroken s c = false)
    let covers (r : TileReg) (fmt rows grans : Nat) : Prop := r.fmt ≠ fmtNone ∧ r.fmt = fmt ∧
      (mmZpad w = true ∨ (rows ≤ r.nrows + 1 ∧ grans ≤ r.gran + 1)) ∧ (2 ≤ mmScl w → fmtMX fmt = true → r.spois = false)
    let goodA (kg : Nat) : Prop := covers (getTile s c ta) (pairA pair) (mmRows w) kg ∧
      ∀ m, m < mmRows w → mr.getLsbD m = true → (getTile s c ta).prow.getLsbD m = false
    let goodB (x kg : Nat) : Prop :=
      let e := extentB pair (mmCols w) kg (mmBT w)
      covers (getTile s bc x) (pairB pair) e.1 e.2 ∧ ∀ i, i < e.1 → (getTile s bc x).prow.getLsbD i = false
    let queued (ta tb kg : Nat) (segs : List Seg) (conv : Option ConvArg) (s' : State) : Prop :=
      TileOnly c t none [] { u with nextId := u.nextId + 1, passes := u.passes ++ [
        { id := u.nextId, thread := t, fpair := pair, rows := mmRows w, cols := mmCols w, kg := kg, ta := ta, tb := tb
          acc := mmAcc w, clr := mmClr w, zpad := mmZpad w, bt := mmBT w, yk := mmYK w, scl := mmScl w, mr := mr
          mc := (th.regs.mGet (mmMC w)).v, srow := (th.regs.sGet (mmAcc w)).v, segs := segs, conv := conv, started := false }] } s s'
    (Issues .tmma c t w s → Ready c t (mmUses w []) s → inWindow th [mmA w, mmB w] → arrayWait s c w [ta] [tb] = false →
      (common → goodA (mmKg w) → goodB tb (mmKg w) → Runs (.tmma c t w) s (queued ta tb (mmKg w) [] none)) ∧
      ((getTile s c ta).fmt ≠ fmtNone → mmZpad w = false →
        (getTile s c ta).nrows + 1 < mmRows w ∨ (getTile s c ta).gran + 1 < mmKg w →
        exec (.tmma c t w) s = .next (trapped c t ⟨0x07, 0x01, w⟩ s))) ∧
    (Issues .tmmaSeg c t w s → Ready c t (mmUses w [mmB w, mmB w + 1]) s →
      let es := segEntries (gVal th (mmB w)) (gVal th (mmB w + 1))
      let segs := segsOf th es
      segValid es = true → inWindow th (mmA w :: (es.takeWhile (fun e => e.testBit 15)).map (fun e => fieldN e 14 10)) →
      arrayWait s c w [ta] (segs.map (·.tb)) = false → common → (∀ g ∈ segs, goodA g.kg ∧ goodB g.tb g.kg) →
      Runs (.tmmaSeg c t w) s (queued ta 0 0 segs none)) ∧
    (Issues .tmmaConv c t w s → Ready c t (mmUses w [mmA w, mmA w + 1]) s →
      let d := gVal th (mmA w)
      let off := field d 55 0
      let pk := gVal th (mmA w + 1)
      let ws := wordsOf 8 ((getCore s c).mem.localMem.getBytes off 64)
      let arg : ConvArg := ⟨word (ws.getD 0 0), word (ws.getD 1 0), word (ws.getD 2 0), word (ws.getD 3 0), field pk 31 0, field pk 63 32⟩
      let g := convGeom arg
      inWindow th [mmB w] → arrayWait s c w [] [tb] = false → mustFollow s c t false false off 64 = false →
      field d 63 56 = 0 → d.toNat % 64 = 0 → off + 64 ≤ 0xC0000 → (th.st.pm = true ∨ off + 64 ≤ (getCore s c).ctl.klim.toNat) →
      (∀ i, i < 8 → (getCore s c).mem.localMem.mark (off / 8 + i) = Mark.none) → convValid g arg (ws.drop 4) false pair = true →
      g.endN ≤ 0xC0000 → (th.st.pm = true ∨ g.endN ≤ (getCore s c).ctl.klim.toNat) → common → mmScl w < 2 →
      goodB tb (mmKg w) → Runs (.tmmaConv c t w) s (queued 0 tb (mmKg w) [] (some arg)))) ∧
  (∀ c s p,
    let u := (getCore s c).tile
    (u.passes.find? (fun q => !q.started) = some p → (u.passes.filter (·.started)).length < 2 →
      Runs (.arrayPassStart c) s (fun s' =>
        (getCore s' c).tile.passes = u.passes.map (fun q => if q.id = p.id then { q with started := true } else q) ∧
        (getCore s' c).tile.regs = u.regs ∧ (getCore s' c).tile.acc0 = u.acc0 ∧ (getCore s' c).tile.acc1 = u.acc1 ∧
        (p.conv = none → p.yk = false → p.segs = [] → p.ta ≠ p.tb → (getCore s' c).tile.opCache.take 2 = [p.tb, p.ta]) ∧
        (∀ d, d ≠ c → getCore s' d = getCore s d))) ∧
    (∀ rest, u.passes = p :: rest → p.started = true → p.conv = none → Runs (.arrayPassLand c) s (fun s' =>
      let u' := (getCore s' c).tile
      let b := if p.acc = 0 then u.acc0 else u.acc1
      let b' := if p.acc = 0 then u'.acc0 else u'.acc1
      u' = { u with passes := rest, acc0 := u'.acc0, acc1 := u'.acc1 } ∧
      (if p.acc = 0 then u'.acc1 = u.acc1 else u'.acc0 = u.acc0) ∧ (getCore s' c).mem = (getCore s c).mem ∧
      (∀ d, d ≠ c → getCore s' d = getCore s d) ∧
      (b.mode = .empty ∨ b.mode = pairMode p.fpair ∨ p.clr = false → ∀ m n, n < 32 →
        (p.rows ≤ m ∨ p.cols ≤ n ∨ p.mr.getLsbD m = false ∨ p.mc.getLsbD n = false) →
        spGet 0 b'.cells (32 * m + n) = spGet 0 b.cells (32 * m + n))))) ∧
  (∀ (p : Pass) (kg m : Nat) (a b : List FV) (x : CellAcc), p.fpair = 10 → 0 < kg →
    (cellRun p kg m a b x).bits = wrapInt 32 (signedN 32 x.bits +
      ((List.range (kg * 8)).map (fun k => (FV.mul (a.getD k zeroFV) (b.getD k zeroFV)).1.scaled 0)).sum))

/-- For each of the 20 vector-on-tile rows: where it issues with its mask and scale vector ready and unpoisoned, its sources and
destination in the window with nothing earlier to await, each source register with a format, covering the rows and elements (or ZPAD)
and unpoisoned in the masked rows, a destination that matches under a partial mask, and no more than 32 elements with a broadcast
vector: one operation joins the unit with its word, physical registers, mask and lanes, and a reduction awaits its scale vector;
nothing else changes. The oldest operation's completion takes it off and writes only td: each masked row its results in the format of
the word, rows left out as they were, and the tag; a reduction writes the lane of each masked row with the row's reduction left to
right, the other lanes as they were, and no tile. Rules: R107, R148, R149, R150, R151. -/
def Obligations.VectorOperationsQueueAndComplete : Prop :=
  (∀ (row : Nat → Nat → Word → Instr) (m : Mn), (row, m) ∈ [
      (Instr.tvadd, Mn.tvadd), (Instr.tvsub, Mn.tvsub), (Instr.tvmul, Mn.tvmul), (Instr.tvfma, Mn.tvfma), (Instr.tvmin, Mn.tvmin),
      (Instr.tvmax, Mn.tvmax), (Instr.tvscl, Mn.tvscl), (Instr.tvcvt, Mn.tvcvt), (Instr.tvredSum, Mn.redSum),
      (Instr.tvredMax, Mn.redMax), (Instr.tvredMin, Mn.redMin), (Instr.tvredAbsmax, Mn.redAbsmax), (Instr.tvredSumsq, Mn.redSumsq),
      (Instr.tvfnExp2, Mn.fnExp2), (Instr.tvfnExp, Mn.fnExp), (Instr.tvfnLog2, Mn.fnLog2), (Instr.tvfnRcp, Mn.fnRcp),
      (Instr.tvfnRsqrt, Mn.fnRsqrt), (Instr.tvfnSqrt, Mn.fnSqrt), (Instr.tvbcast, Mn.tvbcast)] →
    ∀ c t w s, Issues m c t w s → Ready c t (vUses w) s →
    let th := getThread s c t
    let u := (getCore s c).tile
    let tile (i : Nat) : TileReg := getTile s c (th.twBase.toNat + i)
    let mr := (th.regs.mGet (vMR w)).v
    let d := tile (vTd w)
    (inWindow th (vSources w ++ vDests w) → tileWait s c ((vSources w).map (phys th)) ((vDests w).map (phys th)) = false →
      (∀ i ∈ vSources w, (tile i).fmt ≠ fmtNone ∧
        (vZpad w = true ∨ (vRows w ≤ (tile i).nrows + 1 ∧ fmtGrans (tile i).fmt (vElems w) ≤ (tile i).gran + 1)) ∧
        ∀ r, r < vRows w → mr.getLsbD r = true → (tile i).prow.getLsbD r = false) →
      (vIsRed w = true ∨ (∀ r, r < vRows w → mr.getLsbD r = true) ∨
        (d.fmt = vFmt w ∧ vRows w ≤ d.nrows + 1 ∧ vGrans w ≤ d.gran + 1)) →
      (vReadsSV w = true → vBC w = true → vElems w ≤ 32) →
      Runs (row c t w) s (TileOnly c t none (if vIsRed w then [(t, vSV w)] else [])
        { u with nextId := u.nextId + 1, vecs := u.vecs ++ [
          { id := u.nextId, thread := t, word := w, td := th.twBase.toNat + vTd w, ta := th.twBase.toNat + vTa w
            tb := th.twBase.toNat + vTb w, mr := mr, lanes := (th.regs.sGet (vSV w)).v }] } s)) ∧
    (¬ inWindow th (vSources w ++ vDests w) → exec (row c t w) s = .next (trapped c t ⟨0x08, 0x01, w⟩ s))) ∧
  (∀ c s v rest, (getCore s c).tile.vecs = v :: rest → v.thread < 16 →
    let w := v.word
    let a := getTile s c v.ta
    let d := getTile s c v.td
    let th := getThread s c v.thread
    Runs (.vectorOpComplete c) s (fun s' =>
      (getCore s' c).tile.vecs = rest ∧ (∀ x, x ≠ v.td → getTile s' c x = getTile s c x) ∧
      (∀ e, e ≠ c → getCore s' e = getCore s e) ∧ (getCore s' c).mem = (getCore s c).mem ∧
      (vIsRed w = true → getTile s' c v.td = d ∧ (getCore s' c).ctl.sBusy = (getCore s c).ctl.sBusy.erase (v.thread, vSV w) ∧
        ((getThread s' c v.thread).regs.sGet (vSV w)).p = false ∧
        ∀ r, r < 32 → laneGet ((getThread s' c v.thread).regs.sGet (vSV w)).v r =
          (if r < vRows w ∧ v.mr.getLsbD r = true then
            vReduce (vFN w) ((List.range (vElems w)).map (vSrc a r)) % 2 ^ 32
          else laneGet (th.regs.sGet (vSV w)).v r)) ∧
      (vIsRed w = false → (getThread s' c v.thread) = th ∧
        ((∃ r, r < vRows w ∧ v.mr.getLsbD r = true) → (getTile s' c v.td).fmt = vFmt w ∧
          (getTile s' c v.td).nrows = vRows w - 1 ∧ (getTile s' c v.td).gran = vGrans w - 1 ∧
          (getTile s' c v.td).prow = 0) ∧
        ∀ r, (getTile s' c v.td).row r = (if r < vRows w ∧ v.mr.getLsbD r = true then
          setField (d.row r) (64 * vGrans w - 1) 0 (vRow (rngState s c) v a (getTile s c v.tb) d r (s.draws + vElems w * r)).1
          else d.row r))))

/-- Where TDRAIN issues with its pair ready and unpoisoned, the drain able to take it, its window, a readable valid descriptor in
LOCAL and operands that fit it: one job joins with the descriptor, the registers and the format, an OSV it will write is awaited, and
the pc passes. The first pass, where it is the datapath's next, computes each element, each row's largest finite magnitude and, unless
it reduces over cores, its scales: 2^k per row under ROW, 1 otherwise; OSC = ROW writes them to s[OSV]. The result of its token reap
gives the scales under TOKEN. The second pass to a tile writes td alone, to memory only its rows, to nothing nothing, and the job is
written; it then retires: the job is gone, STW leaves the 192-byte record at its address and no other byte changes. A table store is
made once no held job names the slot and no earlier one waits, its reserved bits zero. A commit within the module, under the objects
as it began, applies the rules to each slot with counts, writes every format to the table and clears the counters. Rules: R160, R161,
R162, R163, R165, R166, R169, R171, R173, R175, R176, R178. -/
def Obligations.DrainsIssuePassAndRetire : Prop :=
  (∀ c t w s, Issues .tdrain c t w s → Ready c t { gIn := tdPair w } s →
    let th := getThread s c t
    let k := getCore s c
    let gc := field w 50 46
    let d := gVal th gc
    let off := field d 55 0
    let dest := if tdDst w = 1 ∨ tdDst w = 2 then gVal th (gc + 1) else 0
    let ws := wordsOf 8 (k.mem.localMem.getBytes off 64)
    let d0 := word (ws.getD 0 0)
    let d1 := word (ws.getD 1 0)
    let d2 := word (ws.getD 2 0)
    let fmt := drainFmt s w d0
    let gb := tdGated w && tdBwd w
    let td := th.twBase.toNat + field w 55 51
    let tz := th.twBase.toNat + field w 45 41
    let tiles := (tdIdx w).map (phys th)
    let scaled : Bool := ddOsc d0 = 1 ∨ ddOsc d0 = 2
    let inLocal (a n : Nat) : Prop := a + n ≤ 0xC0000 ∧ (th.st.pm = true ∨ a + n ≤ k.ctl.klim.toNat)
    let shape : Prop := field d0 23 20 = 0 ∧ field d1 63 52 = 0 ∧ field d1 31 20 = 0 ∧ field d2 63 8 = 0 ∧
      (∀ x ∈ ws.drop 3, x = 0) ∧ (tdBwd w = true → ddZmode d0 = 3 → tdFn w = 1) ∧ ddPbase d0 % 128 = 0 ∧
      field d1 19 0 % 64 = 0 ∧ field d1 51 32 % 8 = 0 ∧ (tdDst w = 2 → field dest 63 4 = 0)
    let output : Prop := fmt ≠ 9 ∧ (tdDst w = 0 → ddG0 d0 + drainGrans d0 fmt ≤ 8 ∧
      g0Bad (getTile s c td) d0 fmt = false ∧ (gb = true → g0Bad (getTile s c (td + 1)) d0 fmt = false)) ∧
      (ddOsc d0 = 3 → tdDst w = 0 ∧ ddG0 d0 * 64 % (32 * fmtBits fmt) = 0) ∧ (gb = true → tdDst w = 0) ∧
      (tdDst w = 1 → areaFree s c t dest ((ddRows d0 - 1) * field d1 51 32 + fmtBytes fmt (ddCols d0)))
    let inputs : Prop := (tdBwd w = true → zTagBad (getTile s c tz) d0 = false ∧
      (tdGated w = true → zTagBad (getTile s c (tz + 1)) d0 = false)) ∧
      (∀ u, userSlot (tdFn w) = some u → tableValid k u = true) ∧
      (paramEnd w d0 ≠ 0 → inLocal (ddPbase d0) (paramEnd w d0)) ∧ (ddStw d0 = true → inLocal (field d1 19 0) 192) ∧
      ∀ v ∈ tdVecs w d0, (th.regs.sGet v).p = false
    inWindow th (tdIdx w) → field d 63 56 = 0 → d.toNat % 64 = 0 → inLocal off 64 → drainBusy s c w = false →
    mustFollow s c t false false off 64 = false → (∀ i, i < 8 → k.mem.localMem.mark (off / 8 + i) = Mark.none) →
    tileWait s c tiles (if tdDst w = 0 then tiles.take (if gb then 2 else 1) else []) = false →
    (∀ v ∈ tdVecs w d0 ++ (if scaled then [ddOsv d0] else []), k.sBusy t v = false) → shape → output → inputs →
    Runs (.tdrain c t w) s (fun s' =>
      getThread s' c t = stepped { th with pc := th.pc + 8 } ∧ (∀ x, x ≠ t → getThread s' c x = getThread s c x) ∧
      (getCore s' c).ctl.sBusy = (if scaled then [(t, ddOsv d0)] else []) ++ k.ctl.sBusy ∧
      (getCore s' c).tile = { k.tile with nextId := k.tile.nextId + 1 } ∧ (getCore s' c).mem = k.mem ∧ (∀ x, x ≠ c → getCore s' x = getCore s x) ∧
      ∃ j, (getCore s' c).drain = { k.drain with jobs := k.drain.jobs ++ [j], nextId := k.drain.nextId + 1 } ∧
        j.id = k.drain.nextId ∧ j.seq = k.tile.nextId ∧ j.thread = t ∧ j.word = w ∧ j.d0 = d0 ∧ j.d1 = d1 ∧ j.d2 = d2 ∧ j.dest = dest ∧ j.td = td ∧
        j.tz = tz ∧ j.fmt = fmt ∧ j.rs = (th.regs.sGet (ddRsv d0)).v ∧ j.zs = (th.regs.sGet (ddZsv d0)).v ∧
        j.job = !th.st.pm ∧ j.phase = .issued ∧ j.rowsOut = 0)) ∧
  (∀ c s j, nextPass s c = some j → j.phase = .issued →
    let k := getCore s c
    let n := paramEnd j.word j.d0
    let p := k.mem.localMem.getBytes (ddPbase j.d0) n
    let two := tdGated j.word && tdBwd j.word
    let row (r : Nat) : List (Nat × Nat) := (List.range (ddCols j.d0)).map (fun x => drainValue s c j p r x)
    let bad (r : Nat) : Bool := (tdBanks j.word).any (fun b => (getBank k b).prow.getLsbD r) ||
      (drainReads j).any (fun z => (getTile s c z).prow.getLsbD r)
    let big (r : Nat) : Nat := if bad r then 0 else rowMax ((row r).map (·.1) ++ (if two then (row r).map (·.2) else []))
    (∀ x, k.mem.localMem.mark x = Mark.none) → ddOsc j.d0 ≠ 2 → Runs (.drainFirstPass c) s (fun s' =>
      (∃ j', (getCore s' c).drain.jobs = k.drain.jobs.map (fun x => if x.id = j.id then j' else x) ∧ j'.phase = .scaled ∧
        j'.vals = (List.range (ddRows j.d0)).map (fun r => (row r).map (·.1)) ∧
        j'.rmax = (List.range (ddRows j.d0)).map big ∧
        j'.qexp = (List.range (ddRows j.d0)).map (fun r =>
          if bad r then 0 else qExp j.fmt (if ddOsc j.d0 = 1 then big r else 0)) ∧
        (ddOsc j.d0 = 1 → j.thread < 16 →
          (getThread s' c j.thread).regs.sGet (ddOsv j.d0) = ⟨qLanes j j'.qexp, false⟩ ∧
          (getCore s' c).ctl.sBusy = k.ctl.sBusy.erase (j.thread, ddOsv j.d0))) ∧
      (getCore s' c).tile = k.tile ∧ (∀ x, x ≠ c → getCore s' x = getCore s x))) ∧
  (∀ c s j o lanes f, let n := field j.d2 7 0
    (getCore s c).drain.jobs = [j] → j.phase = .contributed → findOut s c n = some o → o.who = .drain j.id → ddOsc j.d0 = 2 →
    o.result = some (lanes, f) → j.thread < 16 →
    Runs (.drainTokenResult c) s (fun s' => findOut s' c n = none ∧
      ∃ q, (getCore s' c).drain.jobs = [{ j with phase := .scaled, qexp := q }] ∧
        q = (List.range (ddRows j.d0)).map (fun r => if j.prow.getLsbD r then 0 else qExp j.fmt (lanes.getD r 0)) ∧
        (getThread s' c j.thread).regs.sGet (ddOsv j.d0) = ⟨qLanes j q, false⟩)) ∧
  (∀ c s j, coreUp s c = true → nextPass s c = some j → j.phase ≠ .issued → tdDst j.word ≠ 2 → quietWords (getCore s c) →
    Runs (.drainSecondPass c) s (fun s' =>
      (getCore s' c).drain.jobs =
        (getCore s c).drain.jobs.map (fun x => if x.id = j.id then { x with phase := .written } else x) ∧
      (∀ x, x ≠ c → getCore s' x = getCore s x) ∧
      (∀ x, x ≠ j.td → x ≠ j.td + 1 ∨ tdDst j.word ≠ 0 → getTile s' c x = getTile s c x) ∧
      (tdDst j.word ≠ 1 → (getCore s' c).mem = (getCore s c).mem) ∧
      (tdDst j.word = 3 → (getCore s' c).tile = (getCore s c).tile) ∧
      (tdDst j.word = 1 → field j.dest 63 56 = 0 → (∀ x, (getCore s c).mem.localMem.mark x = Mark.none) →
        ∀ x, (∀ r, r < ddRows j.d0 → x < field j.dest 55 0 + r * field j.d1 51 32 ∨
          field j.dest 55 0 + r * field j.d1 51 32 + fmtBytes j.fmt (ddCols j.d0) ≤ x) →
        (getCore s' c).mem.localMem.byte x = (getCore s c).mem.localMem.byte x))) ∧
  (∀ c s j, (getCore s c).drain.jobs.find? (fun j => j.phase = .written) = some j →
    quietWords (getCore s c) →
    let m := (getCore s c).mem.localMem
    let a := field j.d1 19 0
    Runs (.drainRetire c) s (fun s' =>
      (getCore s' c).drain.jobs = (getCore s c).drain.jobs.filter (fun x => x.id != j.id) ∧
      (getCore s' c).tile = (getCore s c).tile ∧
      (∀ x, (ddStw j.d0 = false ∨ x < a ∨ a + 192 ≤ x) → (getCore s' c).mem.localMem.byte x = m.byte x) ∧
      (ddStw j.d0 = true → a % 8 = 0 → (∀ x, m.mark x = Mark.none) → ∀ i, i < 192 →
        (getCore s' c).mem.localMem.byte (a + i) = (drainRecord j).getD i 0) ∧
      (ddStaten j.d0 = false → (getCore s' c).drain.stats = (getCore s c).drain.stats))) ∧
  (∀ c id s q, findReq s c id = some q → q.stage = .tableHeld → q.off < 0x4000 → q.off % 4 = 0 → q.data.length = 4 →
    (∀ j ∈ (getCore s q.target).drain.jobs, userSlot (tdFn j.word) ≠ some (q.off / 0x1000)) →
    (∀ x ∈ (getCore s c).reqs.takeWhile (fun x => x.id != id), x.stage = .tableHeld → x.target ≠ q.target) →
    Runs (.userTableWrite c id) s (fun s' => findReq s' c id = some
        { q with stage := .done, resp := 0, respPoison := false, ans := (getCore s c).nextAns } ∧
      ∀ i, spGet 0 (getCore s' q.target).drain.tables i =
        if i = q.off / 4 then tableMask i (BitVec.ofNat 32 (ofBytes q.data)) else spGet 0 (getCore s q.target).drain.tables i)) ∧
  (∀ s, s.gov.due = some 0 → s.gov.cfg.fabric = false → s.gov.again = 0 → s.gov.later = [] → spWf (fun _ => ({} : GovSlot)) s.gov.slots →
    let sums := (govSum s).gov.sums
    Runs .governorCommit s (fun s' => s'.gov.due = none ∧ s'.gov.sums = [] ∧ s'.gov.dies = [] ∧ s'.gov.last = sums ∧
      (∀ n, spGet {} s'.gov.slots n = if s.gov.cfg.enable = true ∧ spHas sums n = true
        then govRule s.gov.cfg (spGet {} s.gov.slots n) (spGet [] sums n) else spGet {} s.gov.slots n) ∧
      (∀ n, spGet 1 s'.gov.table n = (spGet {} s'.gov.slots n).fmt) ∧
      (∀ c, (getCore s' c).tile = (getCore s c).tile ∧ (getCore s' c).mem = (getCore s c).mem)))

/-- Setting EN of a stopped engine takes LOGN and BASE and sets HEAD to 0; clearing EN of a running one clears EN alone. An idle
engine that takes commands takes the clean, full slot at HEAD: HEAD moves on modulo 2^LOGN, the latch bit empties, the eight words are
the command, which runs if OP and MODE are assigned and ends with 0x10 otherwise; the slot's bytes stay. A command that has ended
leaves the engine idle with DONE one higher, and its completion word, status in [55:48], OP in [47:40] and RESULT in [31:0], is put
full at CPL where CPL is in range. The other engine stays as it is. A command in EPOCH_WAIT with HWDOG set ends with 0x20 at its
timeout. Rules: R207, R208, R210, R211, R213, R214, R227. -/
def Obligations.EngineRingsTakeAndEndCommands : Prop :=
  ∀ (c : Nat) (b : Bool) (s : State),
    let r := getEng s c b
    let k := getCore s c
    let other (s' : State) : Prop := getEng s' c (!b) = getEng s c (!b) ∧ ∀ d, d ≠ c → getCore s' d = getCore s d
    (∀ v, bitOf v 0 = true → r.en = false → Runs (.hringEnable c b v) s (fun s' => other s' ∧
      getEng s' c b = { r with logn := field v 43 40, base := field v 19 6, en := true, head := 0 })) ∧
    (∀ v, bitOf v 0 = false → r.en = true → Runs (.hringDisable c b v) s (fun s' => other s' ∧
      getEng s' c b = { r with en := false })) ∧
    (let a := r.base * 64 + 64 * r.head
     let ws := wordsOf 8 (k.mem.localMem.getBytes a 64)
     coreExists s c = true → isHole s c = false → r.en = true → 2 ≤ r.logn → r.logn ≤ 8 →
      r.base * 64 + 64 * 2 ^ r.logn ≤ 0xC0000 → r.cmd = none → k.mem.latch = [] →
      k.mem.localMem.mark (a / 8) = { full := true } → (∀ i, 0 < i → i < 8 → k.mem.localMem.mark (a / 8 + i) = Mark.none) →
      Runs (.engineTakeSlot c b) s (fun s' => other s' ∧
        (getEng s' c b).head = (r.head + 1) % 2 ^ r.logn ∧ (getEng s' c b).done = r.done ∧ (getEng s' c b).en = true ∧
        (∃ m, (getEng s' c b).cmd = some m ∧ m.words = ws ∧ m.bad = false ∧
          (eOpOk b ws = true → m.phase = .run) ∧ (eOpOk b ws = false → m.phase = .ended ∧ m.status = 0x10)) ∧
        (getCore s' c).mem.localMem.mark (a / 8) = Mark.none ∧
        (∀ x, (getCore s' c).mem.localMem.byte x = k.mem.localMem.byte x))) ∧
    (∀ m, r.cmd = some m → m.phase = .ended → k.mem.latch = [] → latchHeld s c = false → Runs (.engineCommandEnd c b) s (fun s' => other s' ∧
      getEng s' c b = { r with cmd := none, done := (r.done + 1) % 2 ^ 32 } ∧
      (eCplOk k r m.words = true →
        ((getCore s' c).mem.localMem.mark (eCpl m.words / 8)).full = true ∧
        ofBytes ((getCore s' c).mem.localMem.getBytes (eCpl m.words) 8) =
          (m.status * 2 ^ 48 + eOp m.words * 2 ^ 40 + m.result % 2 ^ 32) % 2 ^ 64) ∧
      (eCplOk k r m.words = false → (getCore s' c).mem = k.mem))) ∧
    (∀ m, b = false → r.cmd = some m → m.phase = .epochWait → eOp m.words = 1 → k.eng.hwdog ≠ 0 →
      Runs (.harrowEpochTimeout c) s (fun s' => other s' ∧
        getEng s' c false = { r with cmd := some { m with phase := .ended, status := 0x20, result := 0 } }))

/-- A Harrow command whose first failing check has code n ends with status n and changes no memory. UPDATE reads its hyperparameters
and the K, T and SKIP of its lane once, at its start, and holds them. With SKIP set and ZG clear it ends with 1; with its epoch word
empty it waits with nothing changed; with an inconsistent word it ends with 0x11; with readers left in the buffer it would overwrite
it waits in EPOCH_WAIT with the epoch; otherwise it writes and publishes, at once or when the last reader leaves. NORM adds to the
lane's sum of squares the squares of its finite elements, sets NFP if one is not finite, and ends with their count. VERDICT
contributes the lanes' sums and waits; a context that does not fit ends it with 0x22. CLRONLY clears the sums and NFP. The result sets
each lane's norm, factor, loss scale, T and GOOD, or, flagged or not finite, halves its loss scale and sets SKIP; RESULT counts the
lanes skipped. The statement of a VERDICT whose lane table still has to be copied to the stubble is that it is marked copied. Rules:
R214, R215, R218, R219, R220, R226, R229, R230, R231, R234, R427. -/
def Obligations.HarrowCommandsRun : Prop :=
  ∀ (c : Nat) (s : State) (m : EngCmd), (getEng s c false).cmd = some m →
    let k := getCore s c
    let ws := m.words
    let l := eLane ws
    let ends (st res : Nat) (s' : State) : Prop := (getEng s' c false).cmd = some { m with phase := .ended, status := st, result := res }
    let quiet (s' : State) : Prop := (getCore s' c).mem = k.mem ∧ ∀ d, d ≠ c → getCore s' d = getCore s d
    let clean : Prop := ∀ x, k.mem.gran.mark x = Mark.none
    let kept : Prop := s.resil.stubArea = none ∨ (stubbleNow s).lanes.contains c = true
    (m.phase = .run → eOp ws = 1 →
      (∀ st, m.hyper = [] → updateCheck s c ws = some st → Runs (.update c) s (fun s' => ends st 0 s' ∧ quiet s')) ∧
      (m.hyper = [] → updateCheck s c ws = none → s.resil.stubArea = none → clean → (∀ x, k.mem.localMem.mark x = Mark.none) →
        exec (.update c) s = exec (.update c) (updCmd s c false (fun m => { m with
          hyper := (List.range 8).map (fun i => ofBytes (k.mem.localMem.getBytes (uHp ws + 4 * i) 4))
          laneK := laneField s c l 0x08, laneT := laneField s c l 0x14, laneSkip := laneSkip s c l, inBad := false }))) ∧
      (m.hyper ≠ [] → m.laneSkip = true → uZg ws = false → Runs (.update c) s (fun s' => ends 1 0 s' ∧ quiet s')) ∧
      (m.hyper ≠ [] → m.laneSkip = false → (k.mem.gran.mark (uEpw ws / 8)).ecc = .clean →
        let v := ofBytes (k.mem.gran.getBytes (8 * (uEpw ws / 8)) 8)
        let mk := k.mem.gran.mark (uEpw ws / 8)
        let odd : Prop := mk.poison = true ∨ v.testBit 31 ≠ uNb3 ws ∨ v / 2 ^ 32 = 0xFFFFFFFF
        (mk.full = false → Runs (.update c) s (fun s' => (getEng s' c false).cmd = some m ∧ quiet s')) ∧
        (mk.full = true → odd → Runs (.update c) s (fun s' => ends 0x11 0 s' ∧ quiet s')) ∧
        (mk.full = true → ¬ odd → cntOf ws (v / 2 ^ 32) v ≠ 0 → Runs (.update c) s (fun s' => quiet s' ∧
          (getEng s' c false).cmd = some { m with phase := .epochWait, epoch := v / 2 ^ 32 })) ∧
        (mk.full = true → ¬ odd → cntOf ws (v / 2 ^ 32) v = 0 →
          exec (.update c) s = .next (updateRun (latchProbe s true c (uEpw ws / 8)).1 c m (v / 2 ^ 32))))) ∧
    (m.phase = .epochWait → eOp ws = 1 → (k.mem.gran.mark (uEpw ws / 8)).full = true →
      (k.mem.gran.mark (uEpw ws / 8)).ecc = .clean →
      cntOf ws m.epoch (ofBytes (k.mem.gran.getBytes (8 * (uEpw ws / 8)) 8)) = 0 →
      exec (.updateEpochResume c) s = .next (updateRun (latchProbe s true c (uEpw ws / 8)).1 c m m.epoch)) ∧
    (m.phase = .run → eOp ws = 2 →
      (∀ st, normCheck s c ws = some st → Runs (.norm c) s (fun s' => ends st 0 s' ∧ quiet s')) ∧
      (normCheck s c ws = none → clean →
        let at? (i : Nat) : Nat := ofBytes (k.mem.gran.getBytes (eField ws 1 22 0 + 4 * i) 4)
        let fin := (List.range (eCount ws)).filter (fun i => f32finite (at? i))
        Runs (.norm c) s (fun s' => ends 0 (eCount ws - fin.length) s' ∧
          laneField s' c l 0x10 = f32add (laneField s c l 0x10) (f32sum (fin.map (fun i => f32mul (at? i) (at? i)))) % 2 ^ 32 ∧
          (laneNfp s' c l = true ↔ laneNfp s c l = true ∨ fin.length < eCount ws)))) ∧
    (m.phase = .run → eOp ws = 3 → vClr ws = false →
      (∀ st, verdictCheck s c ws = some st → Runs (.verdict c) s (fun s' => ends st 0 s' ∧ quiet s')) ∧
      (verdictCheck s c ws = none → verdictCtxOk s c ws = false → Runs (.verdict c) s (fun s' => ends 0x22 0 s' ∧ quiet s')) ∧
      (let key := reapKey (dieOf s.grid c) (vCtx ws)
       let r := getReap s key
       verdictCheck s c ws = none → verdictCtxOk s c ws = true → reapHole s r = none → clean → kept →
        (∃ d ∈ members s r.rows r.cols, d ≠ c ∧ ∀ i ∈ r.ins, i.core ≠ d) → Runs (.verdict c) s (fun s' =>
          (getEng s' c false).cmd = some { m with phase := .reapWait } ∧
          (getReap s' key).ins.map (fun i => (i.core, i.lanes)) =
            r.ins.map (fun i => (i.core, i.lanes)) ++ [(c, (vLanes ws).map (fun l => laneField s c l 0x10))]))) ∧
    (m.phase = .run → eOp ws = 3 → vClr ws = true →
      (∀ st, verdictCheck s c ws = some st → Runs (.verdictClronly c) s (fun s' => ends st 0 s' ∧ quiet s')) ∧
      (verdictCheck s c ws = none → ¬ kept → Runs (.verdictClronly c) s (fun s' => s'.resil.stubble.lanes.contains c = true)) ∧
      (verdictCheck s c ws = none → clean → kept → Runs (.verdictClronly c) s (fun s' => ends 0 0 s' ∧
        ∀ x ∈ vLanes ws, laneField s' c x 0x10 = 0 ∧ laneNfp s' c x = false ∧ laneField s' c x 0x00 = laneField s c x 0x00))) ∧
    (∀ o sums f, m.phase = .reapWait → eOp ws = 3 → findOut s c (vCtx ws) = some o → o.who = .harrow → o.result = some (sums, f) →
      clean →
      let n := (vLanes ws).length
      let bad (i : Nat) : Bool := f.testBit i || !f32finite (sums.getD i 0)
      Runs (.verdictReapResult c) s (fun s' => findOut s' c (vCtx ws) = none ∧ ends 0 ((List.range n).filter bad).length s' ∧
        ∀ i, i < n →
        let l := eLane ws + i
        let ls := if f32finite (laneField s c l 0x00) && f32pos (laneField s c l 0x00) then laneField s c l 0x00 else f32one
        let norm := f32div (f32sqrt (sums.getD i 0)) ls
        let good := laneField s c l 0x18 % 2 ^ 16
        let grown := fieldN (laneField s c l 0x18) 23 16
        let clip := laneField s c l 0x04
        let up : Bool := grown ≠ 0 ∧ grown ≤ (good + 1) % 2 ^ 16
        laneField s' c l 0x10 = 0 ∧ laneNfp s' c l = false ∧ laneSkip s' c l = bad i ∧
        (bad i = true → laneField s' c l 0x08 = 0 ∧ laneField s' c l 0x18 % 2 ^ 16 = 0 ∧
          laneField s' c l 0x14 = laneField s c l 0x14 ∧
          laneField s' c l 0x00 = f32max (f32mul ls 0x3F000000) (f32pow2 (-16)) % 2 ^ 32) ∧
        (bad i = false → laneField s' c l 0x0C = norm % 2 ^ 32 ∧
          laneField s' c l 0x14 = (laneField s c l 0x14 + 1) % 2 ^ 32 ∧
          laneField s' c l 0x08 = f32div (if f32pos clip && f32lt clip norm then f32div clip norm else f32one) ls % 2 ^ 32 ∧
          laneField s' c l 0x00 = (if up then f32min (f32mul ls 0x40000000) (f32pow2 24) else ls) % 2 ^ 32 ∧
          laneField s' c l 0x18 % 2 ^ 16 = (if up then 0 else good + 1) % 2 ^ 16)))

/-- A Winnow command whose first failing check has code n ends with status n and changes no memory. COMPRESS without chaff of clean
data ends with 0 and its packet's length as RESULT; under NONE the packet is the header followed by the elements, under SIGN its
length is 32 + pad8(COUNT / 128) + COUNT / 8, under TOPK it is that of the slots written. EXPAND of a header that does not match ends
with 0x15 and changes nothing else; of a clean packet that matches it adds to each element of ACC the packet's value, under SIGN the
group's scale with the element's sign, and ends with 0 and the count added; a TOPK packet with no slot adds nothing. CLEAR writes zero
to the whole chaff array and ends with 0. Rules: R215, R237, R241, R242, R244. -/
def Obligations.WinnowCommandsRun : Prop :=
  ∀ (c : Nat) (s : State) (m : EngCmd), (getEng s c true).cmd = some m → m.phase = .run →
    let k := getCore s c
    let ws := m.words
    let n := eCount ws
    let ends (st res : Nat) (s' : State) : Prop := (getEng s' c true).cmd = some { m with phase := .ended, status := st, result := res }
    let quiet (s' : State) : Prop := (getCore s' c).mem = k.mem ∧ ∀ d, d ≠ c → getCore s' d = getCore s d
    let clean : Prop := ∀ x, k.mem.gran.mark x = Mark.none ∧ k.mem.localMem.mark x = Mark.none
    let acc (s : State) (i : Nat) : Nat := ofBytes ((getCore s c).mem.gran.getBytes (nAcc ws + 4 * i) 4)
    let pkt (s : State) (off len : Nat) : Nat := ofBytes ((coreMem s (nPktGran ws) c).getBytes (nPktOff ws + off) len)
    let stops (i : Instr) (check : Option Nat) : Prop := ∀ st, check = some st → Runs i s (fun s' => ends st 0 s' ∧ quiet s')
    let fits (kind : Nat) : Prop := 32 ≤ nPcap ws ∧ fieldN (pkt s 0 8) 63 56 = kind ∧ fieldN (pkt s 0 8) 31 0 = n ∧
      fieldN (pkt s 0 8) 43 32 = eLane ws ∧ pkt s 8 4 = nBase ws ∧
      pkt s 12 4 = packetBytes kind n (pkt s 20 4) ∧ packetBytes kind n (pkt s 20 4) ≤ nPcap ws
    let expands (i : Instr) (kind : Nat) (v : Nat → Nat) : Prop :=
      stops i (winnowCheck s c ws false false) ∧
      (winnowCheck s c ws false false = none → clean → ¬ fits kind → Runs i s (fun s' => ends 0x15 0 s' ∧
        ∀ x, (getCore s' c).mem.gran.byte x = k.mem.gran.byte x)) ∧
      (winnowCheck s c ws false false = none → clean → fits kind → (pkt s 0 8).testBit 51 = false → kind ≠ 1 →
        Runs i s (fun s' => ends 0 n s' ∧ ∀ j, j < n → acc s' j = f32add (acc s j) (v j) % 2 ^ 32))
    (eOp ws = 1 → nEf ws = false →
      (eMode ws = 0 → stops (.compressNone c) (winnowCheck s c ws false true) ∧
        (winnowCheck s c ws false true = none → clean → Runs (.compressNone c) s (fun s' => ends 0 (32 + 4 * n) s' ∧
          pkt s' 12 4 = (32 + 4 * n) % 2 ^ 32 ∧ fieldN (pkt s' 0 8) 63 56 = 3 ∧ fieldN (pkt s' 0 8) 31 0 = n ∧
          pkt s' 8 4 = nBase ws ∧ ∀ j, j < n → pkt s' (32 + 4 * j) 4 = acc s j))) ∧
      (eMode ws = 2 → stops (.compressSign c) (winnowCheck s c ws false true) ∧
        (winnowCheck s c ws false true = none → clean →
          Runs (.compressSign c) s (ends 0 (32 + pad8 (n / 128) + n / 8)))) ∧
      (eMode ws = 1 → stops (.compressTopk c) (winnowCheck s c ws false true) ∧
        (winnowCheck s c ws false true = none → clean → Runs (.compressTopk c) s (fun s' =>
          ∃ slots, ends 0 (32 + pad8 ((slots + 31) / 32) + pad8 (2 * slots)) s')))) ∧
    (eOp ws = 2 →
      (eMode ws = 0 → expands (.expandNone c) 3 (fun j => pkt s (32 + 4 * j) 4)) ∧
      (eMode ws = 2 → expands (.expandSign c) 2 (fun j =>
        let v := fp16Val (pkt s (32 + 2 * (j / 256)) 2)
        if (pkt s (32 + pad8 (n / 128) + j / 8) 1).testBit (j % 8) then f32neg v else v)) ∧
      (eMode ws = 1 → expands (.expandTopk c) 1 (fun _ => 0) ∧
        (winnowCheck s c ws false false = none → clean → fits 1 → pkt s 20 4 = 0 → (pkt s 0 8).testBit 51 = false →
          Runs (.expandTopk c) s (fun s' => ends 0 0 s' ∧ ∀ x, (getCore s' c).mem.gran.byte x = k.mem.gran.byte x)))) ∧
    (eOp ws = 3 → stops (.clear c) (clearCheck s c ws) ∧
      (clearCheck s c ws = none → clean → Runs (.clear c) s (fun s' => ends 0 0 s' ∧
        (∀ i, i < 2 * n → (getCore s' c).mem.gran.byte (nChaff ws + i) = 0) ∧
        (∀ x, x < nChaff ws ∨ nChaff ws + 2 * n ≤ x → (getCore s' c).mem.gran.byte x = k.mem.gran.byte x))))

/-- FENCE_CORE of a working position marks it FENCING and, where its furrow has a spare, holds the running threads of every core that
no gate names and changes no other. The map write, once every core holds and the networks are drained, gives the position the furrow's
spare, whose skip site becomes its column, keeping every core's registers, with its memories empty if they could not be read; or, with
no spare, makes it a hole with its core as at reset; the fence joins the sealed record. The release ends FENCING where a spare took
over and lets every held thread run, or stop where a stop was recorded. CORE_RESET leaves threads, memories, tile file, engines and
rings at their reset values; CORE_WIPE empties memories, L1, granary cache, translation entries, tile file, banks and user tables
alone. A scrub corrects one- and two-bit words and makes an uncorrectable word full poison, and changes no byte. The test map is blown
once, in TEST, and leaves 0, 8 or 96 furrows fused; field fences clear in TEST or RETURNED at FULL. Rules: R14, R17, R18, R19, R20,
R23, R24, R101, R158, R273, R276, R461. -/
def Obligations.CoresFenceMoveAndReset : Prop :=
  ∀ (s : State) (c : Nat), coreExists s c = true →
    let k := getCore s c
    let g := s.grid
    let fur := furrowOf g c
    let drawn : Option (BitVec 256) := some (BitVec.ofNat 256 (Config.draw s.draws))
    (∀ cause rd dr, isHole s c = false → g.proc = none →
      Runs (.fenceCore c cause rd dr) s (fun s' => fenceOf s' c = .fencing ∧
        s'.grid.proc = some { pos := c, readable := rd, deadRtr := dr, cause := cause, hole := !(skipOf g fur).2, mapWritten := false, running := gateCores s c } ∧
        (∀ d, d ≠ c → fenceOf s' d = fenceOf s d) ∧
        ((skipOf g fur).2 = true → ∀ d t, coreExists s d = true → t < 16 →
          getThread s' d t = (let th := getThread s d t
            if th.st.state = .running ∧ d ∉ gateCores s c then { th with st := { th.st with state := .held }, fenceHeld := true } else th)))) ∧
    (∀ p, g.proc = some p → p.pos = c → p.mapWritten = false → coresHold s = true → netsDrained s = true → isHole s c = false →
      Runs .fenceMapWrite s (fun s' => s'.grid.proc = some { p with mapWritten := true, running := [] } ∧
        s'.grid.fences = g.fences ++ [{ furrow := fur, col := siteCol g c, deadRtr := p.deadRtr, hole := p.hole }] ∧
        (p.hole = false → fenceOf s' c = fenceOf s c ∧ skipOf s'.grid fur = (siteCol g c, false) ∧
          (getCore s' c).threads = k.threads ∧ (getCore s' c).tile = k.tile ∧ (∀ d, d ≠ c → getCore s' d = getCore s d) ∧
          (if p.readable then (getCore s' c).mem = k.mem else
            (getCore s' c).mem.localMem = {} ∧ (getCore s' c).mem.gran = {} ∧ (getCore s' c).mem.gcache = [])) ∧
        (p.hole = true → fenceOf s' c = .hole ∧ getCore s' c = coreReset))) ∧
    (∀ p, g.proc = some p → p.mapWritten = true → Runs .releaseCores s (fun s' => s'.grid.proc = none ∧ (p.hole = false → fenceOf s' p.pos = .moved) ∧
      ∀ t, t < 16 → getThread s' c t = (let th := getThread s c t
        if th.fenceHeld = true ∧ th.st.state = .held then
          { th with st := { th.st with state := if th.stopHeld then .stopped else .running }, stopHeld := false, fenceHeld := false }
        else th))) ∧
    Runs (.coreReset c) s (fun s' =>
      getCore s' c = { coreReset with nextReq := k.nextReq, seed := if s.ward.entropyBad then none else drawn } ∧ (∀ t, getThread s' c t = threadReset t) ∧
      ∀ d, d ≠ c → (getCore s' d).threads = (getCore s d).threads ∧ (getCore s' d).mem.localMem = (getCore s d).mem.localMem) ∧
    (k.mem.latch = [] → Runs (.coreWipe c) s (fun s' => (∀ d, d ≠ c → getCore s' d = getCore s d) ∧
      getCore s' c = { k with
        mem := { k.mem with localMem := {}, gran := {}, gcache := [], l1 := [], tlb := [] }
        tile := { k.tile with regs := [], acc0 := {}, acc1 := {}, opCache := [] }
        drain := { k.drain with tables := [], held := [] }
        seed := if s.ward.entropyBad then k.seed else drawn })) ∧
    (coreUp s c = true → s.ward.entropyBad = false → Runs (.rngReseed c) s (fun s' => s'.draws = s.draws + 1 ∧
      getCore s' c = { k with seed := drawn } ∧ ∀ d, d ≠ c → getCore s' d = getCore s d)) ∧
    (let scrubbed (m : Mark) : Mark := if m.ecc = .unc then { poison := true, full := true, ecc := .clean } else { m with ecc := .clean }
     (coreUp s c = true → quietWords k → k.mem.localMem.Wf → k.mem.gran.Wf → Runs (.patrolScrub (.core c)) s (fun s' =>
        (getCore s' c).mem.localMem.bytes = k.mem.localMem.bytes ∧ (getCore s' c).mem.gran.bytes = k.mem.gran.bytes ∧
        (∀ w, (getCore s' c).mem.localMem.mark w = scrubbed (k.mem.localMem.mark w) ∧
          (getCore s' c).mem.gran.mark w = scrubbed (k.mem.gran.mark w)))) ∧
     (∀ i, i < 12 → s.bulk.Wf → Runs (.patrolScrub (.stack i)) s (fun s' => s'.bulk.bytes = s.bulk.bytes ∧
        ∀ w, s'.bulk.mark w = if 8 * w / 2 ^ 38 = i then scrubbed (s.bulk.mark w) else s.bulk.mark w))) ∧
    (let lc := s.ward.lcrec.getLast?.getD 0
     (lc = 1 ∨ lc = 4 → s.ward.debug = 3 → Runs .fieldFenceClear s (fun s' =>
        s'.grid = { g with fences := [], skips := [], pos := [], dead := [], proc := none } ∧ s'.cores = s.cores)) ∧
     (¬ (lc = 1 ∨ lc = 4) ∨ s.ward.debug ≠ 3 → exec .fieldFenceClear s = .next s) ∧
     (∀ bad b, lc = 1 → g.fuses = [] → Runs (.testMapProgram bad b) s (fun s' =>
        s'.grid = { g with fuses := s'.grid.fuses } ∧
        (fusedCount s'.grid = 0 ∨ fusedCount s'.grid = 8 ∨ fusedCount s'.grid = 96) ∧
        (bad = [] → b = false → s'.grid.fuses = [] ∧ gridRows s'.grid = 48))) ∧
     (∀ bad b, lc ≠ 1 ∨ g.fuses ≠ [] → exec (.testMapProgram bad b) s = .next s))

/-- A write of GSPLIT between 0 and 20 that changes the split of a core at rest sets the steps, empties the granary cache, zeroes the
bytes that change role and keeps the rest. WBALL cleans every line, WBINVALL drops every line, WBINV those of its range; each writes
the dirty sectors of a sole line back to bulk and marks the operation made; GCMD_COMPLETE then clears BUSY. STALLFREEZE stops or
restarts a core's counters, clear zeroes them, and the module rows do so for every working core and the engines outside the cores. An
outbound read that times out delivers poison. A register write through the cluster changes the CONTROL register, route, group, reap
group, peer list, partner, function key or host byte it names, and nothing of the cores where it names no core. Rules: R251, R253,
R255, R256, R363, R365, R366, R402, R410, R412, R540, R547. -/
def Obligations.SplitsCachesCountersAndRegisters : Prop :=
  ∀ (s : State) (c : Nat),
    let k := getCore s c
    let m := k.mem.mc
    (∀ v, coreUp s c = true → field v 4 0 ≤ 20 → field v 4 0 ≠ m.csteps → k.sync.jsw = none → k.reqs = [] → ringsIdle k = true → k.mem.latch = [] →
      enginesIdle k = true → k.drain.jobs = [] →
      (∀ t, t < 16 → (k.thread t).st.state = .stopped ∧ (k.thread t).stopReq = none) →
      let n := field v 4 0
      let lo := 0x500000 - max n m.csteps * 0x40000
      let hi := 0x500000 - min n m.csteps * 0x40000
      Runs (.gsplitWrite c v) s (fun s' => (getCore s' c).mem.mc = { m with csteps := n } ∧ (getCore s' c).mem.gcache = [] ∧
        (getCore s' c).sync.jsw = none ∧ (getCore s' c).mem.localMem = k.mem.localMem ∧
        (∀ x, (getCore s' c).mem.gran.byte x = if lo ≤ x ∧ x < hi then 0 else k.mem.gran.byte x) ∧
        ∀ d, d ≠ c → getCore s' d = getCore s d)) ∧
    (let runs (i : Instr) (op : Nat) (keep : GLine → Option GLine) : Prop :=
      coreUp s c = true → m.gcbusy = true → m.gcdone = false → m.gcop = op → Runs i s (fun s' =>
        (getCore s' c).mem.mc = { m with gcdone := true } ∧ (getCore s' c).mem.gcache = k.mem.gcache.filterMap keep ∧
        (getCore s' c).mem.gran = k.mem.gran ∧ (getCore s' c).mem.localMem = k.mem.localMem ∧
        (∀ g, k.mem.gcache = [g] → keep g ≠ some g → g.data.length = 256 → g.pois = [] → ∀ i j, i < 4 → j < 64 →
          s'.bulk.byte (g.line * 256 + 64 * i + j) =
            if g.dirty.getLsbD i then g.data.getD (64 * i + j) 0 else s.bulk.byte (g.line * 256 + 64 * i + j)) ∧
        ∀ d, d ≠ c → getCore s' d = getCore s d)
     runs (.wball c) 0 (fun g => some { g with dirty := 0 }) ∧ runs (.wbinvall c) 1 (fun _ => none) ∧
     runs (.wbinv c) 2 (fun g => if inRange k g then none else some g)) ∧
    (m.gcbusy = true → m.gcdone = true → Runs (.gcmdComplete c) s (fun s' =>
      getCore s' c = { k with mem := { k.mem with mc := { m with gcbusy := false } } } ∧ ∀ d, d ≠ c → getCore s' d = getCore s d)) ∧
    (coreUp s c = true →
      (∀ on, Runs (.stallFreeze c on) s (fun s' => (getCore s' c).stall.frozen = on ∧
        (k.stall.frozen = true ∨ on = false → (getCore s' c).stall.counts = k.stall.counts) ∧
        ∀ i, i ∉ timedCounters → spGet (0, false) (getCore s' c).stall.counts i = spGet (0, false) k.stall.counts i)) ∧
      Runs (.stallClear c) s (fun s' => getCore s' c = { k with stall := { k.stall with counts := [] } } ∧
        ∀ d, d ≠ c → getCore s' d = getCore s d)) ∧
    (∀ on, Runs (.moduleStallFreeze on) s (fun s' => s'.od.stallFrozen = on ∧ odNum s' 0x0B 0 0 0 = boolN on ∧
      ∀ d, coreExists s d = true → isHole s d = false → (getCore s' d).stall.frozen = on)) ∧
    Runs .moduleStallClear s (fun s' => s'.od.stalls = [] ∧
      ∀ d, getCore s' d = { getCore s d with stall := { (getCore s d).stall with counts := [] } }) ∧
    (∀ id q, findReq s c id = some q → q.va / 2 ^ 56 = 6 → q.kind.isLoad = true → q.stage = .done →
      Runs (.hostReadTimeout c id) s (fun s' => findReq s' c id = some { q with resp := 0, respPoison := true })) ∧
    (clusterUp s = true → ∀ v : Word,
      let sets (t : RegTarget) (s1 : State) : Prop := exec (.registerWrite t v) s = .next s1
      (∀ off, s.power.st = .run → coreExists s c = true → isHole s c = false → off % 8 = 0 →
        sets (.control c off) (controlWrite s c off v none)) ∧
      (∀ x, x < 0xF000 → sets (.route x) { s with fabric := { s.fabric with routes := spSet 0 s.fabric.routes x (field v 31 0) } }) ∧
      (∀ x, x < 0xFFF → sets (.group x) { s with fabric := { s.fabric with groups := spSet 0 s.fabric.groups x (field v 31 0) } }) ∧
      (∀ x, x < 4096 →
        sets (.reapGroup x) { s with fabric := { s.fabric with rgroups := spSet 0 s.fabric.rgroups x (field v 31 0) } }) ∧
      (∀ x, x < 0xF000 → v ≠ 0 →
        sets (.peer x) { s with resil := { s.resil with members := s.resil.members.filter (fun y => y != x) ++ [x] } }) ∧
      (∀ x, x < 65536 →
        sets (.shardPartner x) { s with resil := { s.resil with partners := spSet 0xFFFF s.resil.partners x (field v 15 0) } }) ∧
      (∀ f, f < 128 → fnNo f ≠ 0 → tdiFrozen s f = false → Runs (.registerWrite (.fnKey f) v) s (fun s' =>
        getFn s' f = { getFn s f with fkey := field v 13 0 } ∧ s'.cores = s.cores)) ∧
      (∀ p a, p < 2 → Runs (.registerWrite (.hostMemory p a) v) s (fun s' => s'.cores = s.cores ∧
        (∀ i, i < 8 → (getPort s' p).mem.byte (a + i) = BitVec.ofNat 8 (v.toNat / 256 ^ i)) ∧
        ∀ x, x < a ∨ a + 8 ≤ x → (getPort s' p).mem.byte x = (getPort s p).mem.byte x)))

/-- A SOWCTL write to a stopped engine takes its fields, and with EN sets NEXT to FIRST; to a running one it can only clear EN. An
entry with V = 0 is stored invalid; one with V = 1 is stored valid with its pages where each is found and fits, else invalid with the
entry and status in SOWSTAT. An enabled engine starts the valid entry at NEXT once the schedule gate has come within AHEAD of its
trigger, fewer than eight run and none shares a target: it joins with NEXT moved on. SOWREDO starts a valid entry at once, or, with
eight running, leaves it to start next. A delivered entry without a gate arrival ends. An entry reached whose fetch is good delivers
its bytes at DST of its target and fills the latch word with its trigger, and ends. An entry whose fields failed ends with its number
and status in SOWSTAT, an event and an interrupt. Rules: R316, R317, R318, R319, R320, R321. -/
def Obligations.SowingEntriesRun : Prop :=
  ∀ (s : State) (die : Nat), die < 4 →
    let e := getSow s die
    (∀ v, (e.en = false → Runs (.sowctlWrite die v) s (fun s' => getSow s' die = { e with
        gate := field v 63 55, ahead := if 1 ≤ field v 54 51 ∧ field v 54 51 ≤ 8 then field v 54 51 else e.ahead
        first := field v 47 36, last := field v 35 24, period := field v 23 8, en := bitOf v 0
        next := if bitOf v 0 then field v 47 36 else e.next })) ∧
      (e.en = true → bitOf v 0 = false → Runs (.sowctlWrite die v) s (fun s' => getSow s' die = { e with en := false })) ∧
      (e.en = true → bitOf v 0 = true → exec (.sowctlWrite die v) s = .next s)) ∧
    (∀ n ws, n < 4096 → ws.length = 8 → (∀ r ∈ e.running, r.entry ≠ n) →
      let w := ws.map (·.toNat)
      let stored (v : Bool) (ps : List SowPage) (s' : State) : Prop := getEntry (getSow s' die) n = { words := w, valid := v, pages := ps }
      (enV w = false → Runs (.sowEntryWrite die n ws) s (stored false [])) ∧
      (∀ ps s1, enV w = true → sowWalks s die w = (.inr ps, s1) → heldPages e n + ps.length ≤ 32768 →
        Runs (.sowEntryWrite die n ws) s (stored true ps)) ∧
      (∀ st s1, enV w = true → sowWalks s die w = (.inl st, s1) → Runs (.sowEntryWrite die n ws) s (fun s' =>
        stored false [] s' ∧ (getSow s' die).errEnt = n ∧ (getSow s' die).errSt = st))) ∧
    (let x := getEntry e e.next
     let t := (e.base + dField x.words 0 15 0) % 2 ^ 32
     e.en = true → e.redos = [] → coresHold s = false → x.valid = true → e.gate < 320 → (getGate s (gateKey die e.gate)).en = true →
      genReached (sowCopy s die (gateKey die e.gate)) (BitVec.ofNat 32 (t + 2 ^ 32 - e.ahead)) = true → e.running.length < 8 →
      (∀ r ∈ e.running, r.entry ≠ e.next ∧ sowShares s (getEntry e r.entry).words x.words = false) →
      Runs (.sowEntryStart die) s (fun s' => getSow s' die = { e with
        running := e.running ++ [{ entry := e.next, trigger := t, redo := false, status := entryStatus s x.words, delivered := false }]
        next := if e.next = e.last then e.first else (e.next + 1) % 4096
        base := if e.next = e.last then (e.base + e.period) % 2 ^ 32 else e.base })) ∧
    (∀ n, n < 4096 → (getEntry e n).valid = true → (∀ r ∈ e.running, r.entry ≠ n) → e.redos = [] → coresHold s = false →
      (8 ≤ e.running.length → Runs (.sowredo die n) s (fun s' => getSow s' die = { e with redos := [n] })) ∧
      (e.running.length < 8 → Runs (.sowredo die n) s (fun s' => getSow s' die = { e with running := e.running ++ [
        { entry := n, trigger := (e.base + dField (getEntry e n).words 0 15 0) % 2 ^ 32, redo := true
          status := entryStatus s (getEntry e n).words, delivered := false }] }))) ∧
    (∀ n r, e.running.find? (fun r => r.entry == n) = some r → coresHold s = false →
      let x := getEntry e n
      let ws := x.words
      let gone (s' : State) : Prop := (getSow s' die).running = e.running.filter (fun r => r.entry != n)
      (r.status = 0 → r.delivered = true → enGA ws = false → Runs (.sowEntryComplete die n) s gone) ∧
      (r.status = 0 → r.delivered = false → enGA ws = false → (r.redo = true ∨ sowReached s die e r.trigger = true) →
        ∀ f c, sowDemand s die x r.redo = f → f.status = 0 → treeCut s x = false → sowCores s (enTarget ws) = [c] → enTile ws = false → enSkew ws = false →
          enGran ws = false → (getCore f.st c).mem.latch = [] → latchHeld f.st c = false → enLword ws % 8 = 0 →
          f.data.length % 8 = 0 → enDst ws % 8 = 0 → (∀ b ∈ f.pois, b = false) →
          (enLword ws + 8 ≤ enDst ws ∨ enDst ws + f.data.length ≤ enLword ws) →
          Runs (.sowEntryComplete die n) s (fun s' => gone s' ∧
            (∀ i, i < f.data.length → (getCore s' c).mem.localMem.byte (enDst ws + i) = f.data.getD i 0) ∧
            ((getCore s' c).mem.localMem.mark (enLword ws / 8)).full = true ∧
            ofBytes ((getCore s' c).mem.localMem.getBytes (enLword ws) 8) = r.trigger % 2 ^ 64)) ∧
      (r.status ≠ 0 → Runs (.sowEntryError die n) s (fun s' => gone s' ∧ (getSow s' die).errEnt = n ∧
        (getSow s' die).errSt = r.status ∧ s'.ints = s.ints ++ [.sowError die n] ∧ s'.cores = s.cores)))

/-- Where a command of the opcode may start: bad fields end it with 2 and the queues as they were. CREATE_QUEUE of a free index by an
unlocked function makes the queue its fields describe, empty and active, on the die asked for, and RESULT is its ID. DELETE_QUEUE of
an idle queue frees it; of the admin queue itself, it takes no more entries. ABORT of a command not found ends with 6; of one only
fetched it ends that command with 4 and itself with 0 after it. REHOME of an orphaned queue with the owner's keys makes it the
function's at the new rings; with others it ends with 0x0D. QUERY_QUEUE gives state, head and commands in flight. OD_READ and OD_WRITE
answer what the object dictionary answers. LAUNCH of a good image runs; a bad one ends with 2. GATE_ARRIVE counts once at an enabled
gate whose completions have reached the cluster, else is held, waits for a place, and is dropped elsewhere; GATE_WAIT ends at its
generation, else runs. NOP ends with 0. Rules: R373, R374, R377, R378, R380, R381, R382, R385. -/
def Obligations.RingCommandsEndWithTheirStatus : Prop :=
  ∀ (s : State) (g no : Nat) (q : Queue) (x : Cmd),
    let f := q.fn
    let w4 := x.word 4
    let w5 := x.word 5
    let ends := CmdEnded g no x
    (QueueHas g no 0x01 q x s →
      let d := fieldN w4 2 0
      let i := fieldN w5 10 0
      let fits : Prop := ringFields x f = true ∧ d ≤ 4 ∧ fieldN w5 63 11 = 0 ∧ zeroWords x [6, 7] = true ∧ findQueue s f i = none
      (¬ fits → Runs (.createQueue g no) s (ends 2 0)) ∧
      (fits → tdiFrozen s f = false → d < 4 → freeIds s d ≠ [] → Runs (.createQueue g no) s (fun s' => ∃ n,
        ends 0 n s' ∧ findQueue s' f i = some n ∧ queueDie n = d ∧ getQueue s n = none ∧ getQueue s' n = some (newQueue s x f)))) ∧
    (QueueHas g no 0x02 q x s →
      let i := fieldN w5 10 0
      let fits : Prop := fieldN w5 63 11 = 0 ∧ zeroWords x [1, 2, 3, 4, 6, 7] = true
      (¬ fits ∨ findQueue s f i = none → Runs (.deleteQueue g no) s (ends 2 0)) ∧
      (∀ k t, fits → findQueue s f i = some k → k ≠ g → tdiFrozen s f = false → getQueue s k = some t → t.cmds = [] → t.order = [] →
        Runs (.deleteQueue g no) s (fun s' => getQueue s' k = none ∧
          cmdOf s' g no = some { x with st := .ended 0 0, afterQueue := some k })) ∧
      (fits → findQueue s f i = some g → tdiFrozen s f = false → Runs (.deleteQueue g no) s (fun s' =>
        ∀ t, getQueue s' g = some t → t.deleting = some 2 ∧ t.sqt = q.head))) ∧
    (QueueHas g no 0x03 q x s →
      let fits : Prop := fieldN w5 63 32 = 0 ∧ fieldN w5 15 11 = 0 ∧ zeroWords x [1, 2, 3, 4, 6, 7] = true
      (¬ fits ∨ findQueue s f (fieldN w5 10 0) = none → Runs (.abort g no) s (ends 2 0)) ∧
      (∀ k t, fits → findQueue s f (fieldN w5 10 0) = some k → getQueue s k = some t →
        (t.cmds.find? (fun y => y.cid == fieldN w5 31 16) = none → Runs (.abort g no) s (ends 6 0)) ∧
        (∀ y, t.cmds.find? (fun y => y.cid == fieldN w5 31 16) = some y → k ≠ g → getCmd t y.no = some y → y.no ≠ no →
          y.st = .fetched → y.aborted = false → y.opc ∉ [0x10, 0x11, 0x13] → Runs (.abort g no) s (fun s' =>
            cmdOf s' k y.no = some { y with aborted := true, st := .ended 4 0 } ∧
            cmdOf s' g no = some { x with st := .ended 0 0, afterCmd := some y.no })))) ∧
    (QueueHas g no 0x04 q x s →
      let k := fieldN w5 46 32
      (rehomeStatus s q x = 2 → Runs (.rehome g no) s (ends 2 0)) ∧
      (rehomeStatus s q x = 0x0D → tdiFrozen s f = false → Runs (.rehome g no) s (ends 0x0D 0)) ∧
      (∀ t, rehomeStatus s q x = 0 → tdiFrozen s f = false → getQueue s k = some t → k ≠ g →
        t.st = .orphaned ∧ t.rhkey = x.word 3 ∧ t.key = (getFn s f).fkey ∧ Runs (.rehome g no) s (fun s' => ends 0 0 s' ∧
          ∃ t', getQueue s' k = some t' ∧ t'.st = .active ∧ t'.fn = f ∧ t'.idx = fieldN w5 10 0 ∧ t'.sqb = x.word 1 ∧
            t'.cqb = x.word 2 ∧ t'.head = x.word 6 ∧ t'.sqt = x.word 6 ∧ t'.cqt = 0 ∧ t'.phase = true ∧ t'.order = t.order ∧
            t'.cmds = t.cmds))) ∧
    (QueueHas g no 0x05 q x s →
      let fits : Prop := fieldN w5 63 11 = 0 ∧ zeroWords x [1, 2, 3, 4, 6, 7] = true
      let t := (findQueue s f (fieldN w5 10 0)).bind (getQueue s)
      (¬ fits → Runs (.queryQueue g no) s (ends 2 0)) ∧ (fits → t = none → Runs (.queryQueue g no) s (ends 0 0)) ∧
      (∀ y, fits → t = some y → Runs (.queryQueue g no) s (ends 0 (y.inFlight * 2 ^ 24 + y.head * 2 ^ 8 +
        (if y.st = .active then 1 else if y.st = .error then 2 else 3))))) ∧
    (QueueHas g no 0x08 q x s →
      (odFields x = false → Runs (.odRead g no) s (ends 2 0)) ∧
      (odFields x = true → hostAlive s (fnPort f) = false → Runs (.odRead g no) s (ends 0x0B 0)) ∧
      (∀ st bs b s1, odFields x = true → hostAlive s (fnPort f) = true → odRead s (queueReq q x) (x.word 3) = ((st, bs, b), s1) →
        exec (.odRead g no) s = .next
          (cmdEnds (if st = 0 then hostBusWrite s1 (fnPort f) false (x.word 2) bs else s1) g no (odCmdStatus st) 0))) ∧
    (QueueHas g no 0x09 q x s → ∀ fail,
      (odFields x = false → Runs (.odWrite g no fail) s (ends 2 0)) ∧
      (odFields x = true → fail = true ∨ hostAlive s (fnPort f) = false → Runs (.odWrite g no fail) s (ends 0x0B 0)) ∧
      (∀ st s1, odFields x = true → fail = false → hostAlive s (fnPort f) = true →
        odWrite s (queueReq q x) ((getPort s (fnPort f)).mem.getBytes (x.word 2) (x.word 3)) false = (st, s1) →
        exec (.odWrite g no fail) s = .next (cmdEnds s1 g no (odCmdStatus st) 0))) ∧
    (QueueHas g no 0x20 q x s → x.st = .fetched →
      let fits : Prop := x.word 3 / 2 ^ 32 = 0 ∧ fieldN w4 63 30 = 0 ∧ fieldN w4 5 0 = 0 ∧ zeroWords x [5, 6, 7] = true ∧
        launchRect s x = true
      let allowed : Prop := lifeCycle s ≠ 5 ∧ (q.key = 0 ∨ jobsAnySlot s = true)
      (¬ fits → ∀ ok, Runs (.launch g no ok) s (ends 2 0)) ∧ (fits → ¬ allowed → ∀ ok, Runs (.launch g no ok) s (ends 0x0D 0)) ∧
      (fits → allowed → barCheck s f q.key (fieldVa (x.word 1)) 1 false = (none, s) →
        barCheck s f q.key (fieldVa (x.word 2)) (x.word 3) false = (none, s) →
        Runs (.launch g no false) s (ends 2 0) ∧
        Runs (.launch g no true) s (fun s' => cmdOf s' g no = some { x with st := .running } ∧ s'.cores = s.cores))) ∧
    (QueueHas g no 0x21 q x s →
      let key := 1024 + (x.word 1 - 256)
      let fits : Prop := zeroWords x [2, 3, 4, 5, 6, 7] = true ∧ 256 ≤ x.word 1 ∧ x.word 1 < 320
      let gt := getGate s key
      (¬ fits → Runs (.gateArrive g no) s (ends 2 0)) ∧
      (fits → gt.en = false ∨ gt.ctlm = false → Runs (.gateArrive g no) s (fun s' => ends 0 0 s' ∧ getGate s' key = gt)) ∧
      (fits → gt.en = true → gt.ctlm = true →
        (clusterCopy s key = gt.gen → gt.arr.ctl = false → Runs (.gateArrive g no) s (fun s' => ends 0 0 s' ∧
          getGate s' key = { gt with arr := { gt.arr with ctl := true } })) ∧
        (¬ (clusterCopy s key = gt.gen ∧ gt.arr.ctl = false) → gt.arr.ctlHeld = false → Runs (.gateArrive g no) s (fun s' => ends 0 0 s' ∧
          getGate s' key = { gt with arr := { gt.arr with ctlHeld := true } })) ∧
        (¬ (clusterCopy s key = gt.gen ∧ gt.arr.ctl = false) → gt.arr.ctlHeld = true → Runs (.gateArrive g no) s (fun s' => getGate s' key = gt ∧
          cmdOf s' g no = some { x with st := .running })))) ∧
    (QueueHas g no 0x22 q x s →
      let key := 1024 + (x.word 1 - 256)
      let fits : Prop := x.word 2 / 2 ^ 32 = 0 ∧ zeroWords x [3, 4, 5, 6, 7] = true ∧ 256 ≤ x.word 1 ∧ x.word 1 < 320
      let there : Prop := (getGate s key).en = true ∧ genReached (getGate s key).gen (BitVec.ofNat 32 (x.word 2)) = true
      (¬ fits → Runs (.gateWait g no) s (ends 2 0)) ∧ (fits → there → Runs (.gateWait g no) s (ends 0 0)) ∧
      (fits → ¬ there → Runs (.gateWait g no) s (fun s' => cmdOf s' g no = some { x with st := .running }))) ∧
    (QueueHas g no 0x23 q x s → Runs (.nop g no) s (ends (if zeroWords x [1, 2, 3, 4, 5, 6, 7] then 0 else 2) 0))

/-- A doorbell of an existing queue stores a tail or head within its ring, puts the queue in ERROR for one beyond it, and is counted
where there is no queue. A turn fetches the entry at HEAD of the ready admin queue into a new command and moves HEAD; a failed fetch
puts the queue in ERROR. DATA_IN and DATA_OUT of one page and at most 256 bytes move exactly those bytes between host and bulk memory
and end with their count; bad fields end with 2, a failed walk with 9 or 0x0A, a dead host with 0x0B. SEAL_IN without a transport key
ends with 0x0A, of a message with a bad header with 8; one written ends with 0 if its tag held, else with 8; SEAL_OUT sends its
message in bursts. A command over, with nothing to wait for, is committed last in order; the first committed is written at the
completion tail with the phase, or dropped with the queue in ERROR; more entries than CQCNT raise the vector: its message, or its
pending bit where the entry or the function sends none. Rules: R366, R371, R372, R374, R375, R376, R378, R379, R380. -/
def Obligations.QueuesFetchMoveAndComplete : Prop :=
  (∀ (s : State) (fn i v : Nat) (st : Option Nat), fnHears s fn = true → tlpOk s fn st = true →
    i < 2048 → asleep s = false →
    let bell (cq : Bool) : Instr := if cq then .cqDoorbell fn i v st false else .sqDoorbell fn i v st false
    (∀ cq, findQueue s fn i = none → Runs (bell cq) s (fun s' =>
      (getFn s' fn).bellsDropped = satAdd 64 (getFn s fn).bellsDropped 1 ∧ s'.host.queues = s.host.queues)) ∧
    (∀ g q, findQueue s fn i = some g → getQueue s g = some q →
      (v < 2 ^ q.logsq → q.deleting = none → Runs (bell false) s (fun s' => getQueue s' g = some { q with sqt := v })) ∧
      (v < 2 ^ q.logcq → Runs (bell true) s (fun s' => ∃ l, getQueue s' g = some { q with cqh := v, cmds := l } ∧ ∀ c ∈ l, c ∈ q.cmds)) ∧
      (∀ cq, (if cq then 2 ^ q.logcq else 2 ^ q.logsq) ≤ v → q.st = .active → Runs (bell cq) s (fun s' =>
        getQueue s' g = some { q with st := .error } ∧ (getFn s' q.fn).qerr = true)))) ∧
  (∀ s d g q, d < 4 → managersRun s = true → nextQueue s d 8 = some g → getQueue s g = some q → fetchable s g q 1 = 1 →
    Runs (.queueFetch d false) s (fun s' => s'.host.nextNo = s.host.nextNo + 1 ∧ ∃ c,
      getQueue s' g = some { q with head := (q.head + 1) % 2 ^ q.logsq, cmds := q.cmds ++ [c] } ∧ c.no = s.host.nextNo ∧
      c.words = wordsOf 8 ((getPort s (fnPort q.fn)).mem.getBytes (q.sqb + 64 * q.head) 64) ∧
      c.cid = fieldN (c.words.headD 0) 31 16 ∧
      (dieLost s (queueDie g) = false → c.cid ∈ q.cmds.map (·.cid) → c.st = .ended 3 0)) ∧
    (q.st = .active → Runs (.queueFetch d true) s (fun s' => getQueue s' g = some { q with st := .error }))) ∧
  (∀ (s : State) (g no : Nat) (q : Queue) (x : Cmd),
    let p := fnPort q.fn
    let n := dataLen x
    let a := x.word 1
    let ends := CmdEnded g no x
    let moves (pa : Nat) (write : Bool) : Prop := x.st = .fetched ∧ x.moved = 0 ∧ x.pois = false ∧ dataFields x = true ∧ 0 < n ∧
      n ≤ 256 ∧ dataAddr x % 65536 + n ≤ 65536 ∧ pa % 8 = 0 ∧ barXlate s q.fn q.key (dataAddr x) write = (.inr pa, s) ∧
      hostBad s q x a n (!write) false = false
    let refused (i : Bool → Instr) (write : Bool) : Prop := x.st = .fetched →
      (dataFields x = false → Runs (i false) s (ends 2 0)) ∧
      (∀ e, dataFields x = true → barCheck s q.fn q.key (dataAddr x) n write = (some e, s) →
        Runs (i false) s (ends (match e with | .xlate => 9 | .key => 0x0A) 0))
    (QueueHas g no 0x10 q x s → refused (.dataIn g no) true ∧
      (∀ pa, moves pa true →
        Runs (.dataIn g no true) s (ends 0x0B 0) ∧
        Runs (.dataIn g no false) s (fun s' => cmdOf s' g no = some { x with st := .ended 0 n, moved := n } ∧
          (∀ i, i < n → s'.bulk.byte (pa + i) = (getPort s p).mem.byte (a + i)) ∧
          (∀ y, y < pa ∨ pa + n ≤ y → s'.bulk.byte y = s.bulk.byte y) ∧ s'.cores = s.cores))) ∧
    (QueueHas g no 0x11 q x s → refused (.dataOut g no) false ∧
      (∀ pa, moves pa false → (∀ i, i < n → s.bulk.mark (pa / 8 + i) = Mark.none) →
        Runs (.dataOut g no true) s (ends 0x0B 0) ∧
        Runs (.dataOut g no false) s (fun s' => cmdOf s' g no = some { x with st := .ended 0 n, moved := n } ∧
          (∀ i, i < n → (getPort s' p).mem.byte (a + i) = s.bulk.byte (pa + i)) ∧
          (∀ y, y < a ∨ a + n ≤ y → (getPort s' p).mem.byte y = (getPort s p).mem.byte y) ∧ s'.bulk = s.bulk))) ∧
    (QueueHas g no 0x12 q x s → refused (.sealIn g no) true ∧
      (x.st = .fetched → dataFields x = true → barCheck s q.fn q.key (dataAddr x) n true = (none, s) →
        (∀ s1, engineKey s p q.key = (none, s1) → Runs (.sealIn g no false) s (ends 0x0A 0)) ∧
        (∀ key s1, engineKey s p q.key = (some key, s1) → hostBad s1 q x a (messageLen n) false false = false →
          let bs := (getPort s1 p).mem.getBytes a (messageLen n)
          let r := openMessage key n bs (List.replicate (messageLen n / 8) false)
          (r.2 = false → Runs (.sealIn g no false) s (ends 8 0)) ∧
          (r.2 = true → Runs (.sealIn g no false) s (fun s' =>
            cmdOf s' g no = some { x with st := .running, pois := r.1.isNone } ∧ s'.cores = s1.cores)))) ∧
      (x.st = .running → ∀ fail, Runs (.sealIn g no fail) s (if x.pois then ends 8 0 else ends 0 n))) ∧
    (QueueHas g no 0x13 q x s → refused (.sealOut g no) false ∧
      (x.st = .fetched → dataFields x = true → barCheck s q.fn q.key (dataAddr x) n false = (none, s) →
        ∀ s1, engineKey s p q.key = (none, s1) → Runs (.sealOut g no false) s (ends 0x0A 0)) ∧
      (let k := min 256 (x.buf.length - x.moved)
       x.st = .running → hostBad s q x (a + x.moved) k true false = false → Runs (.sealOut g no false) s (fun s' =>
        cmdOf s' g no = some { x with moved := x.moved + k
                                      st := if x.buf.length ≤ x.moved + k then .ended (if x.pois then 7 else 0) (x.moved + k) else .running } ∧
        ∀ i, i < k → (getPort s' p).mem.byte (a + x.moved + i) = x.buf.getD (x.moved + i) 0)))) ∧
  (∀ (s : State) (g no : Nat) (q : Queue) (x : Cmd) (st r : Nat), managersRun s = true → getQueue s g = some q → getCmd q no = some x →
    x.st = .ended st r → x.afterCmd = none → x.afterQueue = none → mayCommit q = true → q.deleting = none →
    ∀ report, Runs (.completionCommit g no report) s (fun s' =>
      cmdOf s' g no = some { x with st := .committed st (r % 2 ^ 64) } ∧
      (getQueue s' g).map (·.order) = some (q.order ++ [no]))) ∧
  (∀ (s : State) (g no : Nat) (q : Queue) (x : Cmd) (rest : List Nat) (st r : Nat), managersRun s = true → getQueue s g = some q →
    q.order = no :: rest → getCmd q no = some x → x.st = .committed st r → q.st ≠ .orphaned → hostAlive s (fnPort q.fn) = true →
    (getFn s q.fn).d3hot = false → q.unread < 2 ^ q.logcq →
    let e := toBytes 8 r ++ toBytes 8 (st * 2 ^ 48 + boolN q.phase * 2 ^ 32 + q.head % 2 ^ 16 * 2 ^ 16 + x.cid)
    let a := q.cqb + 16 * q.cqt
    let wrote (s' : State) : Prop := cmdOf s' g no = some { x with st := .written q.cqt } ∧
      (getQueue s' g).map (fun y => (y.order, y.cqt, y.phase, y.unsig)) =
        some (rest, (q.cqt + 1) % 2 ^ q.logcq, (if q.cqt + 1 = 2 ^ q.logcq then !q.phase else q.phase), q.unsig + 1)
    Runs (.completionWrite g false) s (fun s' => wrote s' ∧ (getQueue s' g).map (·.st) = some q.st ∧
      (∀ i, i < 16 → (getPort s' (fnPort q.fn)).mem.byte (a + i) = e.getD i 0) ∧
      ∀ y, y < a ∨ a + 16 ≤ y → (getPort s' (fnPort q.fn)).mem.byte y = (getPort s (fnPort q.fn)).mem.byte y) ∧
    Runs (.completionWrite g true) s (fun s' => wrote s' ∧ (getQueue s' g).map (·.st) = some .error)) ∧
  (∀ (s : State) (g : Nat) (q : Queue) (timed : Bool), managersRun s = true → getQueue s g = some q → q.vec < vecCount q.fn →
    let m := spGet {} (getFn s q.fn).msix q.vec
    (q.cqcnt < q.unsig ∨ (timed = true ∧ q.cqtime ≠ 0 ∧ q.unsig ≠ 0) → Runs (.completionInterrupt g timed) s (fun s' =>
      getQueue s' g = some { q with unsig := 0 } ∧
      (m.mask = true ∨ (getFn s q.fn).quiet = true → spGet {} (getFn s' q.fn).msix q.vec = { m with pend := true }) ∧
      (m.mask = false → (getFn s q.fn).quiet = false → hostAlive s (fnPort q.fn) = true →
        (getPort s' (fnPort q.fn)).mem.getBytes m.addr 4 = toBytes 4 m.data))))

/-- Where a port's host is reached, the function is in D0 (DESIGN CHOICE, log entry 50) and the module is awake: an AQCFG write that
sets EN with good settings makes the admin queue on its port's die; clearing EN deletes every queue of the function, and so do a
reset, which also clears its mailbox and MSI-X, and STOP. BAR2 reads and writes exactly the bytes of a page of its key slot; one that
fails the tests answers Unsupported Request, is counted and changes no memory. HOST_LOST takes the port down and orphans each queue
with a reclaim key, and an orphan whose time has passed is deleted; PERST also clears what the host has set. A good link comes up;
traffic wakes a sleeping module. A failed integrity check makes the stream insecure and its locked TDIs enter ERROR; new keys make it
secure. LOCK, START and STOP move a VF between its states; the report gives its ranges, key slot and digest. A failed control core is
fenced; with the last of its die comes an event, and a module in a job leaves it. Rules: R357, R360, R361, R362, R363, R367, R368,
R369, R383, R384. -/
def Obligations.PortsFunctionsAndTdisRun : Prop :=
  ∀ (s : State) (f : Nat), fnExists s f = true → hostAlive s (fnPort f) = true →
    let p := fnPort f
    let x := getFn s f
    let noQueues (s' : State) : Prop := ∀ y ∈ s'.host.queues, y.2.fn = f → y.2.st = .orphaned
    let atRest : Prop := ∀ y ∈ s.host.queues, y.2.fn = f → y.2.cmds = [] ∧ y.2.order = []
    let distinct : Prop := (s.host.queues.map (·.1)).Nodup
    (∀ v : Word, asleep s = false → x.d3hot = false → tdiFrozen s f = false → x.aqEn = false → bitOf v 0 = true →
      2 ≤ field v 15 12 → field v 15 12 ≤ 12 → x.asqb.toNat % 4096 = 0 → x.acqb.toNat % 4096 = 0 → field v 27 16 < vecCount f →
      findQueue s f 0 = none → freeIds s p ≠ [] → Runs (.adminQueueEnable f v) s (fun s' => (getFn s' f).aqEn = true ∧
        ∃ g q, findQueue s' f 0 = some g ∧ getQueue s' g = some q ∧ queueDie g = p ∧ q.sqb = x.asqb.toNat ∧ q.cqb = x.acqb.toNat ∧
          q.logsq = field v 15 12 ∧ q.logcq = field v 15 12 ∧ q.vec = field v 27 16 ∧ q.cmds = [] ∧ q.st = .active)) ∧
    (asleep s = false → x.d3hot = false → tdiFrozen s f = false → x.aqEn = true → atRest → distinct → Runs (.adminQueueDisable f) s (fun s' =>
      (getFn s' f).aqEn = false ∧ noQueues s')) ∧
    (clusterUp s = true → atRest → distinct → Runs (.functionReset f 0) s (fun s' => noQueues s' ∧ (getFn s' f).aqEn = false ∧
      (getFn s' f).msix = [] ∧ (getFn s' f).mbox = {} ∧ (x.tdi = 1 ∨ x.tdi = 2 → (getFn s' f).tdi = 3))) ∧
    (∀ off n st, x.d3hot = false → tlpOk s f st = true → asleep s = false →
      (barSize s f < off + n → Runs (.bar2Read f off n st) s (fun s' => (getPort s' p).rsp = none ∧ s'.bulk = s.bulk)) ∧
      (∀ e, off + n ≤ barSize s f → n ≤ 4096 → barCheck s f x.fkey off n false = (some e, s) →
        Runs (.bar2Read f off n st) s (fun s' => (getPort s' p).rsp = none ∧ s'.bulk = s.bulk ∧
          (getFn s' f).bar2Refused = satAdd 64 x.bar2Refused 1 ∧ (getPort s' p).aer = satAdd 64 (getPort s p).aer 1)) ∧
      (∀ pa, off + n ≤ barSize s f → 0 < n → n ≤ 4096 → off % 65536 + n ≤ 65536 → off % 8 = pa % 8 →
        barXlate s f x.fkey off false = (.inr pa, s) → (∀ w, pa / 8 ≤ w → w ≤ (pa + n - 1) / 8 → s.bulk.mark w = Mark.none) →
        Runs (.bar2Read f off n st) s (fun s' => (getPort s' p).rsp = some (s.bulk.getBytes pa n) ∧ s'.bulk = s.bulk))) ∧
    (∀ off bs st, x.d3hot = false → tlpOk s f st = true → asleep s = false →
      (barSize s f < off + bs.length → exec (.bar2Write f off bs st false) s = .next s) ∧
      (∀ e, off + bs.length ≤ barSize s f → barCheck s f x.fkey off bs.length true = (some e, s) →
        Runs (.bar2Write f off bs st false) s (fun s' => s'.bulk = s.bulk ∧
          (getFn s' f).bar2Refused = satAdd 64 x.bar2Refused 1)) ∧
      (∀ pa, off + bs.length ≤ barSize s f → bs ≠ [] → off % 65536 + bs.length ≤ 65536 → off % 8 = pa % 8 →
        barXlate s f x.fkey off true = (.inr pa, s) → (∀ w, s.bulk.mark w = Mark.none) →
        Runs (.bar2Write f off bs st false) s (fun s' => (∀ i, i < bs.length → s'.bulk.byte (pa + i) = bs.getD i 0) ∧
          ∀ y, y < pa ∨ pa + bs.length ≤ y → s'.bulk.byte y = s.bulk.byte y))) ∧
    (p < 2 → distinct → (∀ y ∈ s.host.queues, y.2.cmds = [] ∧ y.2.order = [] ∧ y.2.deleting = none) → Runs (.hostLost p) s (fun s' =>
      (getPort s' p).up = false ∧ (getPort s' p).lost = true ∧ (getPort s' p).width = 0 ∧
      (∀ y ∈ s'.host.queues, fnPort y.2.fn = p → y.2.st = .orphaned) ∧
      (∀ g q, (g, q) ∈ s.host.queues → fnPort q.fn = p → q.idx ≠ 0 → q.rhkey ≠ 0 → q.st ≠ .orphaned →
        (getQueue s' g).map (fun y => (y.st, y.rhkey, y.key)) = some (.orphaned, q.rhkey, q.key)) ∧
      s'.ints.getLast? = some (.hostLost p))) ∧
    (p < 2 → (∀ y ∈ s.host.queues, y.2.cmds = []) → Runs (.perst p) s (fun s' => (getPort s' p).up = false ∧ (getPort s' p).numVfs = 0 ∧ (getPort s' p).streams = [] ∧
      (getPort s' p).regions = (getPort s p).regions ∧ (getFn s' f).aqEn = false ∧ (getFn s' f).msix = [] ∧ (getFn s' f).asqb = 0 ∧
      (getFn s' f).fkey = x.fkey ∧ (getFn s' f).root = x.root)) ∧
    (∀ g q, getQueue s g = some q → q.st = .orphaned → q.cmds = [] → Runs (.orphanTimeout g) s (fun s' => getQueue s' g = none)) ∧
    (p < 2 → portLinks s p = true → ∀ w r fl, w ∈ [1, 2, 4, 8] → 1 ≤ r → r ≤ 6 → (fl = true ∨ r ≠ 6) →
      Runs (.pcieLinkUp p w r fl) s (fun s' => (getPort s' p).up = true ∧ (getPort s' p).lost = false ∧ (getPort s' p).width = w ∧
        (getPort s' p).rate = r ∧ (getPort s' p).flit = fl ∧ (getPort s' p).retrains = satAdd 64 (getPort s p).retrains 1)) ∧
    (p < 2 → exec (.pcieL1Exit p) s = .next (wakeSleep s) ∧
      (s.power.st = .sleep → s.power.tripped = false → s.power.target = none → (wakeSleep s).power.target = some .run)) ∧
    (∀ i, p < 2 → i < 9 → streamSecure (getPort s p) i = true → Runs (.ideIntegrityFail p i) s (fun s' =>
      streamSecure (getPort s' p) i = false ∧ (getPort s' p).ideFails = satAdd 64 (getPort s p).ideFails 1 ∧
      (x.stream = some i → x.tdi = 1 ∨ x.tdi = 2 → (getFn s' f).tdi = 3))) ∧
    (∀ i, p < 2 → i < 9 → s.ward.entropyBad = false → Runs (.ideKeyProgram p i) s (fun s' =>
      streamSecure (getPort s' p) i = true ∧ s'.draws = s.draws + 1)) ∧
    (fnNo f ≠ 0 →
      (∀ st, x.tdi = 0 → st < 8 → Runs (.lockInterfaceRequest f st) s (fun s' => getFn s' f = { x with tdi := 1, stream := some st })) ∧
      (x.tdi = 1 → Runs (.startInterfaceRequest f) s (fun s' => getFn s' f = { x with tdi := 2 })) ∧
      (atRest → distinct → Runs (.stopInterfaceRequest f) s (fun s' => (getFn s' f).tdi = 0 ∧ (getFn s' f).stream = none ∧ noQueues s')) ∧
      (s.ward.entropyBad = false → Runs (.getDeviceInterfaceReport f) s (fun s' => s'.ward.reply = some (.report 0x10000 (barSize s f)
        0x400 x.fkey (slotCode s x.fkey) (Config.shake256 32 (toBytes 32 (getSlot s x.fkey).ninst))) ∧ s'.host = s.host))) ∧
    (∀ c, c < 16 → c ∉ s.host.ccFailed → Runs (.controlCoreFail c) s (fun s' => s'.host.ccFailed = s.host.ccFailed ++ [c] ∧
      (dieLost s' (c / 4) = true →
        (s.resil.members = [] → s.recorder.intake.length < 64 → (s'.recorder.intake.getLast?).map (·.code) = some 0x00F2) ∧
        (s.resil.members ≠ [] → s'.resil.members = [] ∧ 6 ≤ s'.resil.state ∧ s'.resil.state ≤ 7))))

/-- A port that is not up ignores flits, but for the HELLO in NEGOTIATE. A DATA flit in error (its CRC or FEC fails), or beyond a gap,
makes the port ask once for the SEQ it expects; one in order is taken and the next SEQ expected. A RETRY naming an unacknowledged SEQ
sends the flits from it on again; when one has been resent 16 times the link goes down with reason RETRY. RETRY_REPEAT asks again.
DOWN leaves the port FAILED, PORT_DOWN FAILED or (for ADMIN) OFF, with the reason, nothing on its way, an interrupt, and a DOWN sent
by a link that was up. The states of bring-up follow each other, a HELLO goes out with the module's ID, each failure leaves FAILED,
and PORT_RETRAIN returns to LASER. A lost lane in use retrains the port onto a half that works. An output without credits is reported
and nothing else changes. A link comes UP with a fresh pair key where the two Wards accept each other, and so do two Wards that share
no link. Rules: R390, R393, R395, R402, R411, R421, R422, R423. -/
def Obligations.FabricLinksReceiveAndMoveThroughTheirStates : Prop :=
  ∀ (p : Nat) (s : State), p < 16 →
    let x := getFabPort s p
    let told (s' : State) : Option (Nat × Nat × Nat) :=
      (getFabPort s' p).wire.head?.map (fun f => (f.kind, bytesAt f.payload 0 1, bytesAt f.payload 8 2))
    let others (s' : State) : Prop := ∀ q, q ≠ p → (getFabPort s' q).state = (getFabPort s q).state
    (∀ bs fec,
      let f := flitOf bs
      let good := !fec && flitIntact bs
      (x.state ≠ .up → x.state ≠ .negotiate ∨ good = false ∨ f.kind ≠ 2 ∨ bytesAt f.payload 0 1 ≠ 1 → exec (.flitReceive p bs fec) s = .next s) ∧
      (x.state = .negotiate → good = true → f.kind = 2 → bytesAt f.payload 0 1 = 1 →
        exec (.flitReceive p bs fec) s = exec (.portStateAdvance p true 0 (some (.hello (helloOf f.payload)))) s) ∧
      (x.state = .up → good = false → f.kind = 1 → x.retrying = false → Runs (.flitReceive p bs fec) s (fun s' =>
        (getFabPort s' p).bad = satAdd 64 x.bad 1 ∧ (getFabPort s' p).retrying = true ∧ (getFabPort s' p).rxSeq = x.rxSeq ∧
        (getFabPort s' p).retries = satAdd 64 x.retries 1 ∧ told s' = some (2, 2, x.rxSeq % 2 ^ 16) ∧ s'.fabric.inbox = s.fabric.inbox)) ∧
      (x.state = .up → good = true → f.kind = 1 → x.retrying = false → f.seq ≠ x.rxSeq → (f.seq + 2 ^ 16 - x.rxSeq) % 2 ^ 16 < 2 ^ 15 →
        Runs (.flitReceive p bs fec) s (fun s' => (getFabPort s' p).retrying = true ∧ (getFabPort s' p).rxSeq = x.rxSeq ∧
          (x.txq = [] → told s' = some (2, 2, x.rxSeq % 2 ^ 16)) ∧ (getFabPort s' p).part = x.part ∧ s'.fabric.inbox = s.fabric.inbox)) ∧
      (x.state = .up → good = true → f.kind = 1 → f.seq = x.rxSeq → f.sop = true → f.eop = false →
        Runs (.flitReceive p bs fec) s (fun s' => (getFabPort s' p).rxSeq = (x.rxSeq + 1) % 2 ^ 16 ∧
          (getFabPort s' p).retrying = false ∧ (getFabPort s' p).intact = satAdd 64 x.intact 1 ∧
          spGet [] (getFabPort s' p).part (vcKey f.vc f.cls) = f.payload ∧ s'.fabric.inbox = s.fabric.inbox))) ∧
    (∀ seq, x.state = .up → x.unacked.any (fun y => y.1.seq == seq) = true →
      let again := x.unacked.dropWhile (fun y => y.1.seq != seq)
      ((∀ y ∈ again, y.2 + 1 < 16) → Runs (.retry p seq) s (fun s' =>
        (getFabPort s' p).unacked = x.unacked.takeWhile (fun y => y.1.seq != seq) ++ again.map (fun y => (y.1, y.2 + 1)) ∧
        (getFabPort s' p).wire.map (·.seq) = ((again.map (·.1.seq)).reverse ++ x.wire.map (·.seq)).take 256 ∧
        (getFabPort s' p).state = .up ∧ ∀ q, q ≠ p → getFabPort s' q = getFabPort s q)) ∧
      ((∃ y ∈ again, 16 ≤ y.2 + 1) → Runs (.retry p seq) s (fun s' => (getFabPort s' p).state = .failed ∧
        (getFabPort s' p).reason = 2 ∧ s'.ints = s.ints ++ [.linkDown p]))) ∧
    (x.state = .up → x.retrying = true → Runs (.retryRepeat p) s (fun s' =>
      told s' = some (2, 2, x.rxSeq % 2 ^ 16) ∧ (getFabPort s' p).retries = satAdd 64 x.retries 1)) ∧
    (∀ r i, (i = .down p r ∧ x.state = .up) ∨ (i = .portDown p r ∧ portAlive x = true) → Runs i s (fun s' =>
      (getFabPort s' p).state = (if i = .portDown p 5 then .off else .failed) ∧ (getFabPort s' p).reason = r ∧
      (getFabPort s' p).unacked = [] ∧ (getFabPort s' p).txq = [] ∧ (x.state = .up → told s' = some (2, 3, r % 2 ^ 16)) ∧
      s'.ints = s.ints ++ [.linkDown p] ∧ others s' ∧ s'.cores = s.cores)) ∧
    (∀ ok lanes h,
      let goes (st : PortState) : Prop := Runs (.portStateAdvance p ok lanes h) s (fun s' => (getFabPort s' p).state = st ∧ others s')
      (x.state = .off → portEnabled s p = true → goes .laser) ∧ (x.state = .laser → goes (if ok then .train else .failed)) ∧
      (x.state = .train → goes (if ok = true ∧ 4 ≤ popN 8 (BitVec.ofNat 8 lanes).toNat then .align else .failed)) ∧
      (x.state = .align → goes (if ok = true ∧ (laneChoice x.lanes).isSome = true then .negotiate else .failed)) ∧
      (x.state = .align → ok = true → (laneChoice x.lanes).isSome = true → Runs (.portStateAdvance p ok lanes h) s (fun s' =>
        told s' = some (2, 1, moduleId s % 2 ^ 16) ∧ (getFabPort s' p).selfId = moduleId s)) ∧
      (∀ y, x.state = .negotiate → h = some (.hello y) →
        (ok = true ∧ x.selfId ≠ 0xFFFF ∧ y.id ≠ 0xFFFF ∧ y.minver ≤ min y.maxver (highestVersion s) ∧
            lowestVersion s ≤ min y.maxver (highestVersion s) →
          Runs (.portStateAdvance p ok lanes h) s (fun s' => (getFabPort s' p).state = .secure ∧ (getFabPort s' p).peer = y.id ∧
            (getFabPort s' p).ver = min y.maxver (highestVersion s))) ∧
        (ok = false ∨ x.selfId = 0xFFFF ∨ y.id = 0xFFFF ∨ min y.maxver (highestVersion s) < y.minver ∨
          min y.maxver (highestVersion s) < lowestVersion s → goes .failed)) ∧
      (x.state = .secure →
        (∀ y s1, ok = true → h = some (.ident y) → peerSession s y = (s1, true) → Runs (.portStateAdvance p ok lanes h) s (fun s' =>
          (getFabPort s' p).state = .up ∧ spGet none s'.fabric.pairKeys x.peer = some (Config.draw s1.draws))) ∧
        ((ok = false ∨ ∀ y, h = some (.ident y) → (peerSession s y).2 = false) → Runs (.portStateAdvance p ok lanes h) s (fun s' =>
          (getFabPort s' p).state = .failed ∧ (getFabPort s' p).reason = 4)))) ∧
    (∀ y, (wardUp s = false ∨ s.ward.entropyBad = true ∨ accepts s y = false → (peerSession s y).2 = false) ∧
      (wardUp s = true → s.ward.entropyBad = false → accepts s y = true → aliasGood s = true → (peerSession s y).2 = true)) ∧
    (x.state = .failed → portEnabled s p = true → Runs (.portRetrain p) s (fun s' => getFabPort s' p = { x with state := .laser })) ∧
    (∀ l, l < 8 →
      let left := x.lanes &&& ~~~BitVec.ofNat 8 (2 ^ l)
      (x.state ≠ .up ∨ x.uses l = false → Runs (.laneFail p l) s (fun s' => getFabPort s' p = { x with lanes := left })) ∧
      (x.state = .up → x.uses l = true → Runs (.laneFail p l) s (fun s' => (getFabPort s' p).lanes = left ∧
        (getFabPort s' p).state = (if (laneChoice left).isSome then .train else .failed) ∧ (getFabPort s' p).unacked = []))) ∧
    (∀ vc cls, x.state = .up → x.txq.any (fun f => f.flit.vc == vc && f.flit.cls == cls) = true → x.credits (vcKey vc cls) = 0 →
      Runs (.creditStall p vc cls) s (fun s' => s'.ints = s.ints ++ [.creditStall p] ∧ s'.fabric = s.fabric ∧ s'.cores = s.cores)) ∧
    (∀ m y,
      let s0 := if moduleId s < m then sendSession s m (Config.spdmText [2, m]) else s
      exec (.pairSessionOpen m none) s = .next s ∧
      (∀ s1, m < 0xF000 → m ≠ moduleId s → peerSession s0 y = (s1, true) → Runs (.pairSessionOpen m (some y)) s (fun s' =>
        spGet none s'.fabric.pairKeys m = some (Config.draw s1.draws))))

/-- A packet joins its channel only in CSEQ order. PUT, GET_RSP and SOW into a LOCAL window of a core that admits the source write
exactly their bytes and no other byte of it; with V clear, or in salvage, they write nothing and no acknowledgement stays owed; with
NTF a full quantum is subtracted from the count and counted. GET returns the bytes of its window as a packet to the requester. REDUCE
is combined with the packets of its round in order of arrival; one of an earlier round changes no round. GATE_ARRIVE for generation c
+ 1 counts, for c + 2 is held, and otherwise changes no gate and is counted. A CONTROL packet is handed on; a heartbeat clears its
sender's count. An ACK ends the packets up to its CSEQ; a refusal gives the user's descriptor the status FABRIC. ACK_TIMER sends what
is owed. A channel resends until its limit, then fails with an interrupt. Rules: R397, R399, R403, R405, R406, R407, R408, R416, R419,
R444. -/
def Obligations.FabricPacketsActAndAreAcknowledged : Prop :=
  (∀ (s : State) (p : Packet) (o : FlitSrc) (n : Nat), opcOk p.opc = true → outside p.opc p.opf = false →
    let e := (getRx s (rxKey p.src p.chan)).expect
    (p.cseq = e → (takePacket s o n p).fabric.inbox =
        s.fabric.inbox ++ [{ port := o.port, flits := n, vc := o.vc, cls := o.cls, seq := o.seq, pkt := p }] ∧
      (getRx (takePacket s o n p) (rxKey p.src p.chan)).expect = e + 1) ∧
    (p.cseq ≠ e → (takePacket s o n p).fabric.inbox = s.fabric.inbox ∧ (getRx (takePacket s o n p) (rxKey p.src p.chan)).expect = e)) ∧
  (∀ (s : State) (i : Instr) (opc : Nat) (x : InPacket),
    s.fabric.inbox.find? (fun y => y.pkt.opc == opc) = some x →
    let p := x.pkt
    let w := getWindow s (p.addr / 2 ^ 32)
    let c := aCore w.w1.toNat
    let off := w.w1.toNat % 2 ^ 36 + p.addr % 2 ^ 32
    let k := rxKey p.src p.chan
    let puts : Prop := (i, opc) ∈ [(Instr.put, 1), (.getRsp, 3), (.fabricSow, 4)]
    let near (n : Nat) : Prop := bitOf w.w0 63 = true ∧ field w.w0 62 61 = 1 ∧
      p.addr % 2 ^ 32 + n ≤ (field w.w0 31 12 + 1) * 4096 ∧ inGrid s.grid (aRow w.w1.toNat) (aCol w.w1.toNat) = true ∧
      isHole s c = false ∧ off + n ≤ localEnd ∧ (∀ a, (getCore s c).mem.localMem.mark a = Mark.none)
    ((puts ∨ (i, opc) = (.get, 2) ∧ s.resil.state ≠ 6) → bitOf w.w0 63 = false ∨ s.resil.state = 6 → Runs i s (fun s' =>
      (getRx s' k).acted = p.cseq + 1 ∧ (getRx s' k).pend = 0 ∧ s'.cores = s.cores ∧ s'.bulk = s.bulk ∧
      s'.fabric.windows = s.fabric.windows)) ∧
    (puts → s.resil.state ≠ 6 → near p.data.length → bitOf w.w0 60 = true → w.admits p = true →
      (∀ b ∈ p.pois, b = false) →
      (bitOf w.w0 58 = false → Runs i s (fun s' =>
        (∀ j, j < p.data.length → (getCore s' c).mem.localMem.byte (off + j) = p.data.getD j 0) ∧
        (∀ a, a < off ∨ off + p.data.length ≤ a → (getCore s' c).mem.localMem.byte a = (getCore s c).mem.localMem.byte a) ∧
        (∀ d, d ≠ c → getCore s' d = getCore s d) ∧ s'.bulk = s.bulk)) ∧
      (bitOf w.w0 58 = true → w.bytes < field w.w2 31 0 → field w.w2 31 0 ≤ w.bytes + p.data.length →
        w.bytes + p.data.length < 2 * field w.w2 31 0 → Runs i s (fun s' =>
          (getWindow s' (p.addr / 2 ^ 32)).bytes = w.bytes + p.data.length - field w.w2 31 0 ∧
          (getWindow s' (p.addr / 2 ^ 32)).quanta = (w.quanta + 1) % 2 ^ 64))) ∧
    (opc = 2 → s.resil.state ≠ 6 → near p.len → bitOf w.w0 59 = true → 0 < p.len → p.len ≤ 4096 → s.fabric.chans = [] → isGroup p.src = false →
      p.src ≠ moduleId s → (fabKey s p.src).isSome = true → (pickRoute s p.src 3 0).isSome = true → Runs .get s (fun s' =>
        (∀ d, getCore s' d = getCore s d) ∧ ∃ n ch q, getChan s' n = some ch ∧ ch.dst = p.src ∧ q ∈ ch.unacked ∧ q.opc = 3 ∧ q.fin = true ∧
          q.addr = p.opf % 2 ^ 40 ∧ q.data = (getCore s c).mem.localMem.getBytes off p.len)) ∧
    (opc = 5 → (∀ b ∈ p.pois, b = false) → p.opf.testBit 7 = false → fieldN p.opf 6 4 ≠ 7 →
      let g := fieldN p.opf 63 52
      let round := fieldN p.opf 39 8
      let held := getRed s (g * 16 + fieldN p.opf 51 48)
      let fresh := held.lanes.isEmpty && !held.sent
      let late : Prop := (fresh = false ∧ roundBefore round held.round = true) ∨ (redRound s g).any (roundBefore round) = true
      let r : RedState := if fresh = true ∨ roundBefore held.round round = true then { round := round } else held
      let l := (List.range 32).map (fun j => bytesAt p.data (4 * j) 4)
      (redEntry s g).testBit 31 = true →
      (late → Runs .reduce s (fun s' => s'.fabric.red = s.fabric.red ∧ s'.reaps = s.reaps)) ∧
      (¬ late → (∃ q ∈ redKids (redEntry s g), q ≠ x.port ∧ q ∉ r.ports) → Runs .reduce s (fun s' =>
        let t := getRed s' (g * 16 + fieldN p.opf 51 48)
        t.round = r.round ∧ t.lanes = (if r.lanes.isEmpty then l else reapLanes (fieldN p.opf 6 4) r.lanes l) ∧
        t.ports = r.ports ++ [x.port]))) ∧
    (opc = 6 → let t := p.opf % 512
      let key := 1024 + (t - 256)
      let g := getGate s key
      let gen := fieldN p.opf 63 32
      let counts : Prop := gen = (g.gen.toNat + 1) % 2 ^ 32 ∧ g.arr.fab < g.fabn
      let held : Prop := gen = (g.gen.toNat + 2) % 2 ^ 32 ∧ g.arr.fabHeld < g.fabn
      (256 ≤ t → t < 320 → g.en = true →
        (counts → Runs .fabricGateArrive s (fun s' => getGate s' key = { g with arr := { g.arr with fab := g.arr.fab + 1 } })) ∧
        (held → Runs .fabricGateArrive s (fun s' => getGate s' key = { g with arr := { g.arr with fabHeld := g.arr.fabHeld + 1 } }))) ∧
      (t < 256 ∨ 320 ≤ t ∨ g.en = false ∨ (¬ counts ∧ ¬ held) → Runs .fabricGateArrive s (fun s' => s'.gates = s.gates ∧
        spGet 0 s'.fabric.counts 4 = satAdd 64 (spGet 0 s.fabric.counts 4) 1))) ∧
    (opc = 7 → Runs .controlPacket s (fun s' =>
      s'.fabric.control = s.fabric.control ++ [(p.opf % 2 ^ 16, p.src, p.data)] ∧
      (p.opf % 2 ^ 16 = Config.controlKind 0 → spGet 0 s'.resil.missed p.src = 0))) ∧
    (opc = 8 → ∀ ch, getChan s (p.addr % 4096) = some ch → isGroup ch.dst = false → ch.acks = [] →
      let cseq := fieldN p.opf 63 32
      (p.opf % 256 = 0 → Runs .fabricAck s (fun s' => (getChan s' (p.addr % 4096)).map (fun z => (z.unacked, z.next)) =
        some (ch.unacked.filter (fun q => decide (cseq < q.cseq)), ch.next))) ∧
      (∀ d n r rest, p.opf % 256 ≠ 0 → ch.unacked = r :: rest → r.cseq = cseq → ch.user = .drill d n →
        ∀ y, (getRing s d n).cur = some y → y.status = 0 → Runs .fabricAck s (fun s' =>
          (getRing s' d n).cur = some { y with status := 0x0F, addr := packetAddr r })))) ∧
  (∀ (s : State) (src chan : Nat), 0 < (getRx s (rxKey src chan)).pend → Runs (.ackTimer src chan) s (fun s' =>
    getRx s' (rxKey src chan) = { getRx s (rxKey src chan) with pend := 0 })) ∧
  (∀ (s : State) (n : Nat) (ch : Chan), getChan s n = some ch → ch.failed = false → ch.unacked ≠ [] →
    (ch.resends < odNum s 0x06 0x31 0 8 → Runs (.channelResend n) s (fun s' =>
      (getChan s' n).map (fun z => (z.resends, z.unacked, z.failed)) = some (ch.resends + 1, ch.unacked, false))) ∧
    (odNum s 0x06 0x31 0 8 ≤ ch.resends → Runs (.channelResend n) s (fun s' =>
      s'.ints.getLast? = some (.channelFailed ch.dst) ∧
      ((∃ c r, ch.user = .drill c r) ∨ (isPeer s ch.dst = false ∧ ∀ g q, ch.user ≠ .reduce g q) →
        (getChan s' n).map (·.failed) = some true))))

/-- While the control cluster works: it arrives at the commit gate only when every condition holds, with no UPDATE under way, with the
step's fallow digests filed. A rollback puts the stubble's bytes back, the module's own and those named, zeroes what it names and
leaves nothing arrived. A fallow frame of a published block leaves as SOW packets to its group; an unpublished one sends nothing. A
checkpoint is named two steps ahead, written to the slot that is not the latest, and becomes the latest only when sealed; a failed one
leaves the latest as it was, with an event. The shared copy is made when due; a restore takes only blocks that verify, of the step
asked. Missed heartbeats lead to a probe, an unanswered one to HOLD while a majority is reached; a notice of itself or a minority
makes a module leave, to serve as salvage where it can. Recovery goes PLAN, REFILL, RESUME, or ENDED with the cause. A checkpoint
rollback sets the step. A heartbeat goes to every survivor. Rules: R426, R429, R431, R435, R437, R438, R439, R441, R442, R443, R445,
R446. -/
def Obligations.CommitsCheckpointsAndRecoveryRun : Prop :=
  ∀ (s : State), clusterUp s = true →
    let r := s.resil
    (∀ gate done bs, 256 ≤ gate → gate < 320 →
      let key := 1024 + (gate - 256)
      let all : Prop := done.updates = true ∧ done.framesSent = true ∧ done.fallowIn = true ∧ done.stubble = true
      (¬ all ∨ stepQuiet s = false → exec (.commitArrive gate done bs) s = .next s) ∧
      (all → stepQuiet s = true → r.arrived = none → (getGate s key).en = true → clusterCopy s key = (getGate s key).gen → (getGate s key).arr.ctl = false →
        Runs (.commitArrive gate done bs) s (fun s' => s'.resil.arrived = some key ∧ (getGate s' key).arr.ctl = true ∧
          s'.resil.step = r.step ∧ (spGet {} s'.resil.fallow ((r.step + 1) % 2)).step = r.step + 1 ∧
          (spGet {} s'.resil.fallow ((r.step + 1) % 2)).committed = false ∧
          (spGet {} s'.resil.fallow ((r.step + 1) % 2)).blocks.length = bs.length))) ∧
    (∀ f i, i ∈ [Instr.rollback f, .stepFailed f] → awake s = true → f.cores = [] →
      let own : Stubble := if r.stubble.step = r.step + 1 then r.stubble else {}
      f.epochs ++ own.epochs = [] →
      (∀ x, f.stubs ++ own.recs = [x] → f.zero = [] → x.dst.gran = false → x.src % 8 = x.dst.off % 8 →
        (∀ w, s.bulk.mark w = Mark.none ∧ (getCore s x.dst.core).mem.localMem.mark w = Mark.none) → Runs i s (fun s' =>
          s'.resil.arrived = none ∧ s'.resil.stubble = {} ∧
          (∀ j, j < x.dst.len → (getCore s' x.dst.core).mem.localMem.byte (x.dst.off + j) = s.bulk.byte (x.src + j)) ∧
          (∀ a, a < x.dst.off ∨ x.dst.off + x.dst.len ≤ a →
            (getCore s' x.dst.core).mem.localMem.byte a = (getCore s x.dst.core).mem.localMem.byte a) ∧
          (∀ d, d ≠ x.dst.core → getCore s' d = getCore s d))) ∧
      (∀ e, f.stubs ++ own.recs = [] → f.zero = [e] → e.gran = false → (∀ w, (getCore s e.core).mem.localMem.mark w = Mark.none) →
        Runs i s (fun s' => ∀ j, j < e.len → (getCore s' e.core).mem.localMem.byte (e.off + j) = 0))) ∧
    (∀ f, coreUp s f.core = true → f.len ≤ 2 ^ 20 →
      let k := (getCore s f.core).mem.gran.mark (f.epw / 8)
      k.poison = false → k.ecc = .clean →
      (k.full = false → Runs (.fallowSend f) s (fun s' => s'.fabric = s.fabric ∧ s'.bulk = s.bulk)) ∧
      (k.full = true → isGroup f.group = true → (groupEntry s f.group).testBit 31 = true → (fabKey s f.group).isSome = true →
        f.group ≠ moduleId s → s.fabric.chans = [] → 0 < f.len → f.addr % 4096 + f.len ≤ 4096 → f.addr % 8 = 0 →
        (∀ w, ((getCore s f.core).mem.gran.mark w).ecc = .clean) →
        Runs (.fallowSend f) s (fun s' => ∃ n c q b, getChan s' n = some c ∧ c.dst = f.group ∧ q ∈ c.unacked ∧ q.opc = 4 ∧
          q.addr = f.addr ∧ b ∈ [0, 1, 2] ∧ q.data = (getCore s f.core).mem.gran.getBytes (f.buffers.getD b 0) f.len))) ∧
    (∀ n, (isCoordinator s = true → n < r.step + 2 → exec (.checkpointName n) s = .next s) ∧
      (isCoordinator s = false ∨ r.step + 2 ≤ n → Runs (.checkpointName n) s (fun s' => s'.resil.named = some n))) ∧
    (∀ items, r.named = some r.step → r.writing = none →
      (sealAvailable s = false ∨ flashPowered s = false → Runs (.checkpointWrite items) s (fun s' =>
        s'.resil.named = none ∧ s'.resil.sealedStep = r.sealedStep ∧ s'.resil.ckpts = r.ckpts)) ∧
      (∀ b e, items = [b] → b.near = [e] → sealAvailable s = true → flashPowered s = true → 2 * (e.len + 64) ≤ s.mstats.ckptBytes →
        e.gran = false → (∀ w, (getCore s e.core).mem.localMem.mark w = Mark.none) →
        let d := (getCore s e.core).mem.localMem.getBytes e.off e.len
        Runs (.checkpointWrite items) s (fun s' => s'.resil.writing = some (olderSlot s) ∧ s'.resil.sealedStep = r.sealedStep ∧
          (spGet {} s'.resil.ckpts (olderSlot s)).step = r.step ∧ (spGet {} s'.resil.ckpts (olderSlot s)).sealed_ = false ∧
          (spGet {} s'.resil.ckpts (olderSlot s)).blocks = [(digestBlock 4 (moduleId s) b.shard b.block r.step d false, d)] ∧
          (∀ n, n ≠ olderSlot s → spGet {} s'.resil.ckpts n = spGet {} r.ckpts n)))) ∧
    (∀ n cause, r.writing = some n →
      (cause = 0 → flashPowered s = true → Runs (.checkpointSeal cause) s (fun s' =>
        (spGet {} s'.resil.ckpts n).sealed_ = true ∧ s'.resil.sealedStep = (spGet {} r.ckpts n).step ∧
        s'.resil.sinceShared = r.sinceShared + 1 ∧ s'.resil.writing = none ∧ s'.resil.named = none)) ∧
      (cause ≠ 0 → s.recorder.intake.length < 64 → Runs (.checkpointSeal cause) s (fun s' => s'.resil.sealedStep = r.sealedStep ∧
        s'.resil.writing = none ∧ s'.resil.named = none ∧ (spGet {} s'.resil.ckpts n).sealed_ = false ∧
        (s'.recorder.intake.getLast?).map (·.code) = some 0x0062))) ∧
    (∀ p, p < 2 →
      let due := odNum s 0x09 0x11 0 12
      (due = 0 ∨ r.sinceShared < due → exec (.sharedStoreCopy p) s = .next s) ∧
      (∀ key s1 c, due ≠ 0 → due ≤ r.sinceShared → hostAlive s p = true → sealAvailable s = true →
        (hostRegion s (p * 2 ^ 47 + odNum s 0x09 0x14 0 0 * 2 ^ 39)).valid = true →
        (hostRegion s (p * 2 ^ 47 + odNum s 0x09 0x14 0 0 * 2 ^ 39)).writable = true →
        engineKey s p (odNum s 0x09 0x12 0 0) = (some key, s1) → latestCkpt s = some c → Runs (.sharedStoreCopy p) s (fun s' =>
          s'.resil.sharedStep = c.step ∧ s'.resil.sinceShared = 0))) ∧
    (∀ n recs bs,
      ((∃ d ∈ recs, d.step % 2 ^ 32 ≠ n % 2 ^ 32) → exec (.sharedStoreRestore n recs bs) s = .next s) ∧
      (recs ≠ [] → (∀ d ∈ recs, d.step % 2 ^ 32 = n % 2 ^ 32) → Runs (.sharedStoreRestore n recs bs) s (fun s' =>
        (∀ b, b ∈ s'.resil.restored ↔ b ∈ r.restored ∨ (b ∈ bs ∧ b.1 ∈ recs ∧ verifies b.1 n b.2 = true)) ∧ s'.cores = s.cores))) ∧
    (∀ m, isPeer s m = true → m ∉ r.probing →
      (spGet 0 r.missed m + 1 < odNum s 0x09 0x21 0 5 → Runs (.heartbeatMissed m) s (fun s' =>
        spGet 0 s'.resil.missed m = spGet 0 r.missed m + 1 ∧ s'.resil.probing = r.probing)) ∧
      (odNum s 0x09 0x21 0 5 ≤ spGet 0 r.missed m + 1 → Runs (.heartbeatMissed m) s (fun s' => s'.resil.probing = r.probing ++ [m]))) ∧
    (∀ m n src, prober s m = some (moduleId s) → m ∈ r.probing →
      (2 * n ≤ r.members.length → exec (.probeTimeout m n src) s = .next s) ∧
      (r.members.length < 2 * n → Runs (.probeTimeout m n src) s (fun s' => m ∈ s'.resil.failed ∧ s'.resil.state = 2 ∧ s'.resil.arrived = none))) ∧
    (Runs (.failNotice (moduleId s)) s (fun s' => s'.resil.state = (if canSalvage s then 6 else 7) ∧ s'.resil.members = [])) ∧
    (∀ m, isPeer s m = true → Runs (.failNotice m) s (fun s' => m ∈ s'.resil.failed ∧ s'.resil.state = 2)) ∧
    (∀ n, r.members ≠ [] →
      (2 * n ≤ r.members.length → Runs (.minorityHold n) s (fun s' => s'.resil.state = (if canSalvage s then 6 else 7) ∧ s'.resil.members = [] ∧
        spGet {} s'.resil.fallow ((r.step + 1) % 2) = {} ∧ ∀ c t, (getThread s' c t).st.state = .running → coreExists s c = false ∨ 16 ≤ t)) ∧
      (r.members.length < 2 * n → exec (.minorityHold n) s = .next s)) ∧
    (∀ cause lay, isCoordinator s = true → r.state = 2 → Runs (.recoveryPlan true cause lay) s (fun s' => s'.resil.state = 3) ∧
      Runs (.recoveryPlan false cause lay) s (fun s' => s'.resil.state = 7 ∧ s'.resil.cause = cause % 2 ^ 24)) ∧
    (∀ n mv f, awake s = true → r.state = 3 → Runs (.recoveryRefill n mv f) s (fun s' => s'.resil.state = 4 ∧
      s'.resil.step = (if n = r.step + 1 then n else r.step) ∧ s'.resil.arrived = none)) ∧
    (∀ g, r.state = 4 → Runs (.recoveryResume g) s (fun s' => s'.resil.state = 5 ∧ s'.resil.members = survivors s ∧ s'.resil.failed = [] ∧
      s'.resil.cause = 0)) ∧
    (∀ n sv ds f, awake s = true → Runs (.checkpointRollback n sv ds f) s (fun s' => s'.resil.step = n ∧ s'.resil.restored = [] ∧
      s'.resil.rollbacks = satAdd 32 r.rollbacks 1)) ∧
    (∀ m, r.members = [m] → r.failed = [] → m ≠ moduleId s → isGroup m = false → (fabKey s m).isSome = true →
      (pickRoute s m 7 0).isSome = true → s.fabric.chans = [] → Runs .controlHeartbeatSend s (fun s' => ∃ n c q, getChan s' n = some c ∧
        c.dst = m ∧ q ∈ c.unacked ∧ q.opc = 7 ∧ q.opf = Config.controlKind 0 ∧ s'.cores = s.cores))

/-- While the Ward has power and its entropy source is good: a FREE tenant slot is allocated with a ticket where tenant keys may be, a
retired one returns to FREE, a used one is RETIRED with no keys. An alias key is made from the next identity index. SPDM requests are
answered in their order on a transport (PRESUMED SPDM 1.3) with what they ask; KEY_EXCHANGE opens a session, FINISH makes it ready,
KEY_UPDATE changes its key, END_SESSION ends it; KEY_INSTALL with the right ticket installs a slot's transport key. After a failed
health test each of these answers an error and changes nothing else. A nonce is fresh and single. A token voids the nonce and records
its code; a failing one changes no level and no state, a good one applies its level or its transition. A level is lowered at the next
warm reset. BLANK goes to TEST at FULL. Rules: R454, R458, R463, R464, R465, R468, R472, R473, R474, R475. -/
def Obligations.WardKeysIdentityTokensAndLevelsFollowTheirRules : Prop :=
  (∀ (s : State) (n : Nat), 1 ≤ n → n < 16384 →
    ((getSlot s n).st = .allocated ∨ (getSlot s n).st = .installed → Runs (.slotRetire n) s (fun s' =>
      getSlot s' n = { st := .retired } ∧ ∀ m, m ≠ n → getSlot s' m = getSlot s m)) ∧
    ((getSlot s n).st = .retired → Runs (.slotFree n) s (fun s' => getSlot s' n = {} ∧ ∀ m, m ≠ n → getSlot s' m = getSlot s m))) ∧
  (∀ s : State, Runs .nonceExpire s (fun s' => s' = { s with ward := { s.ward with nonce := none } })) ∧
  (∀ (s : State) (k : Nat), wardUp s = true → s.recorder.intake.length < 64 → Runs (.entropyFail k) s (fun s' => s'.ward.entropyBad = true ∧
    (s'.recorder.intake.getLast?).map (·.code) = some 0x0080)) ∧
  (∀ (s : State) (t n x y z : Nat) (b : List Byte), wardUp s = true →
    let asks : List Instr := [.slotAllocate n, .aliasKeyGenerate, .getVersion t, .getCapabilities t, .negotiateAlgorithms t, .getDigests t,
      .getCertificate t, .challenge t b, .getMeasurements t b, .keyExchange t b, .finish t x, .heartbeat t x, .keyUpdate t x,
      .endSession t x, .keyInstall t x n y z, .slotQuery t x n, .slotRelease t x n, .nonceRead 1, .tokenCheck 1 b]
    s.ward.entropyBad = true → ∀ i ∈ asks, exec i s = .next { s with ward := { s.ward with reply := some .error } }) ∧
  (∀ (s : State), wardUp s = true → s.ward.entropyBad = false →
    let w := s.ward
    let tells (i : Instr) (r : WardReply) (p : State → Prop) : Prop := Runs i s (fun s' => s'.ward.reply = some r ∧ p s')
    (∀ n,
      (1 ≤ n ∧ n < 16384 ∧ jobsAnySlot s = true ∧ (getSlot s n).st = .free → ∃ t, t < 2 ^ 128 ∧
        tells (.slotAllocate n) (.ticket t) (fun s' => getSlot s' n = { st := .allocated, ticket := t })) ∧
      (n = 0 ∨ 16384 ≤ n ∨ jobsAnySlot s = false ∨ (getSlot s n).st ≠ .free →
        tells (.slotAllocate n) .error (fun s' => s'.ward.slots = w.slots))) ∧
    (aliasGood s = false → hasIdentity s = true → w.nextIdx < 1024 * w.xidx → Runs .aliasKeyGenerate s (fun s' =>
      s'.ward.nextIdx = w.nextIdx + 1 ∧ s'.ward.xidx = w.xidx ∧ (s'.ward.aliasKey).map (fun k => (k.left, k.debug)) = some (65536, w.debug))) ∧
    (aliasGood s = true → exec .aliasKeyGenerate s = .next s) ∧
    (∀ t, hasIdentity s = true → aliasGood s = true →
      let stage := spdmStage s t
      tells (.getVersion t) (.version 1 3) (fun s' => spdmStage s' t = 1) ∧
      (1 ≤ stage → tells (.getCapabilities t) .capabilities (fun s' => spdmStage s' t = 2)) ∧
      (2 ≤ stage → tells (.negotiateAlgorithms t) .algorithms (fun s' => spdmStage s' t = 3)) ∧
      (stage = 0 → tells (.getCapabilities t) .error (fun s' => spdmStage s' t = 0)) ∧
      (stage < 3 → tells (.getCertificate t) .error (fun _ => True)) ∧
      (3 ≤ stage → tells (.getDigests t) (.digests [chainDigest s]) (fun s' => s'.ward.aliasKey = w.aliasKey) ∧
        tells (.getCertificate t) (.certificate (imageDigest s) (runSlot s).isvn (lifeCycle s) w.lcrec.length w.debug) (fun _ => True) ∧
        (∀ k b, w.aliasKey = some k →
          tells (.challenge t b) (.challenge (Config.xmssSign k.seed (65536 - k.left) (b ++ chainDigest s)))
            (fun s' => s'.ward.aliasKey = some { k with left := k.left - 1 }) ∧
          tells (.getMeasurements t b) (.measurements (measurements s)
            (Config.xmssSign k.seed (65536 - k.left) (b ++ (measurements s).flatMap (·.2))))
            (fun s' => s'.ward.aliasKey = some { k with left := k.left - 1 }) ∧
          (w.sessions.length < 64 → tells (.keyExchange t b) (.session w.nextSession) (fun s' => ∃ x, s'.ward.sessions = w.sessions ++ [x] ∧
            x.id = w.nextSession ∧ x.transport = t ∧ x.ready = false ∧ s'.ward.aliasKey = some { k with left := k.left - 1 }))))) ∧
    (∀ t x, getSession s x.id = some x → x.transport = t →
      (x.ready = false → tells (.finish t x.id) (.finished x.id) (fun s' => getSession s' x.id = some { x with ready := true }) ∧
        tells (.heartbeat t x.id) .error (fun s' => s'.ward.sessions = w.sessions)) ∧
      (x.ready = true →
        tells (.heartbeat t x.id) (.alive x.id) (fun s' => s'.ward.sessions = w.sessions) ∧
        tells (.keyUpdate t x.id) (.updated x.id) (fun s' => getSession s' x.id = some { x with key := Config.deriveKey 9 x.key [] }) ∧
        tells (.endSession t x.id) (.ended x.id) (fun s' => getSession s' x.id = none) ∧
        (∀ n tk key, (getSlot s n).st = .allocated → (getSlot s n).ticket = tk → jobsAnySlot s = true → ∃ r, r < 2 ^ 256 ∧
          tells (.keyInstall t x.id n tk key) (.installed r) (fun s' => (getSlot s' n).st = .installed ∧ (getSlot s' n).egress = 0 ∧
            (getSlot s' n).ninst = r ∧
            (getSlot s' n).transport = some (ofBytes (Config.shake256 32 (toBytes 32 key ++ toBytes 32 r))))) ∧
        (∀ n tk key, (getSlot s n).ticket ≠ tk → tells (.keyInstall t x.id n tk key) .error (fun s' => s'.ward.slots = w.slots)) ∧
        (∀ n, 1 ≤ n → n < 16384 → tells (.slotQuery t x.id n) (.slotState (slotCode s n)) (fun s' => s'.ward.slots = w.slots) ∧
          ((getSlot s n).st = .allocated ∨ (getSlot s n).st = .installed →
            tells (.slotRelease t x.id n) (.slotState 3) (fun s' => getSlot s' n = { st := .retired }))))) ∧
    (∃ n, n < 2 ^ 256 ∧ tells (.nonceRead 1) (.nonce n) (fun s' => s'.ward.nonce = some n)) ∧
    (∀ who t, who = 1 ∨ (who = 3 ∧ 1 ≤ w.debug) →
      let r := tokenCheck s t
      (r ≠ 0 → Runs (.tokenCheck who t) s (fun s' => s'.ward = { w with nonce := none, tokenResult := r } ∧ s'.cores = s.cores ∧
        s'.power = s.power)) ∧
      (r = 0 → tkKind t = 1 → Runs (.tokenCheck who t) s (fun s' => s'.ward.debug = tkTarget t ∧ s'.ward.nonce = none ∧
        s'.ward.tokenResult = 0 ∧ s'.ward.lcrec = w.lcrec)) ∧
      (r = 0 → tkKind t ≠ 1 → Runs (.tokenCheck who t) s (fun s' => lifeCycle s' = tkTarget t ∧
        s'.ward.lcrec = w.lcrec ++ [tkTarget t] ∧ s'.ward.debug = bootDebug (tkTarget t) ∧ s'.ward.slots = [] ∧
        (odNum s 0x0B 0 0 0 ≠ 1 → s'.cores = [])))) ∧
    (lifeCycle s = 0 → w.debug = 3 → Runs (.lcRequestTest 3) s (fun s' => s'.ward.lcrec = w.lcrec ++ [1] ∧ lifeCycle s' = 1 ∧
      s'.ward.debug = 3))) ∧
  (∀ (s : State) (d : Nat), 1 ≤ s.ward.debug →
    (d < s.ward.debug ∧ levelAllowed (lifeCycle s) d = true → Runs (.debugLower 3 d) s (fun s' =>
      s' = { s with ward := { s.ward with lowered := some d } })) ∧
    (s.ward.debug ≤ d → exec (.debugLower 3 d) s = .next s))

/-- A good header makes the slot that does not run RECEIVING; a bad one sets the status to its check. The next block whose digest
matches is written, the last makes the slot STAGED; a fourth bad one makes it INVALID. A STAGED slot is armed; once its generation is
reached and the committed step is sealed, the module boots it on trial with the old store kept. CONFIRM raises the SVN floor and never
lowers it; a trial that times out boots the old image with its old store. A warm reset keeps the always-on state, applies a lowered
level and clears cores (where OD 0B.0000 is 1 their stall counters stay frozen), memories, queues and keys; a cold reset also sets the
level by the life cycle and counts the boot; OTP and the sealed fences survive both. Losing VIN leaves the module OFF; power-on boots
it. The heartbeat pin toggles. Rules: R454, R471, R479, R480, R482, R483, R485, R486, R487, R509, R510, R519. -/
def Obligations.FirmwareImagesActivateAndResetsKeepWhatTheyMust : Prop :=
  ∀ (s : State),
    let o := otherSlot s
    let x := fwSlot s o
    let gone (s' : State) : Prop := (odNum s' 0x0B 0 0 0 ≠ 1 → s'.cores = []) ∧
      (∀ c, ∃ on, getCore s' c = { stall := { frozen := on } }) ∧ s'.gates = [] ∧ s'.reaps = [] ∧ s'.bulk = {} ∧ s'.flash = {} ∧ s'.host.queues = [] ∧
      s'.ward.slots = [] ∧ s'.ward.sessions = [] ∧ s'.ward.nonce = none
    let otp (s' : State) : Prop := s'.ward.lcrec = s.ward.lcrec ∧ s'.ward.svn = s.ward.svn ∧ s'.ward.dsec = s.ward.dsec ∧
      s'.ward.idseed = s.ward.idseed ∧ s'.ward.revoke = s.ward.revoke ∧ s'.grid.fuses = s.grid.fuses ∧ s'.grid.fences = s.grid.fences ∧
      s'.ward.ownerKey = s.ward.ownerKey
    (s.fw.boot < 2 → clusterUp s = true →
      (∀ src h tb sg, h.length = 8 → src = upstream s → x.st ∉ [3, 4] →
        (headerCheck s h tb sg ≠ 0 → Runs (.fwHeader src h tb sg) s (fun s' => s'.fw = { s.fw with status := 0x10 + headerCheck s h tb sg })) ∧
        (headerCheck s h tb sg = 0 → Runs (.fwHeader src h tb sg) s (fun s' =>
          fwSlot s' o = { st := 1, isvn := hIsvn h, header := h, table := tb } ∧ s'.fw.status = 1 ∧ fwSlot s' s.fw.boot = fwSlot s s.fw.boot))) ∧
      (∀ src bs, bs.length ≤ 65536 → src = upstream s → x.st = 1 →
        let good : Prop := Config.shake256 32 (padTo 65536 bs) = x.table.getD x.next []
        (good → Runs (.fwBlock src x.next bs) s (fun s' => (fwSlot s' o).next = x.next + 1 ∧
          spGet [] (fwSlot s' o).blocks x.next = bs ∧ (fwSlot s' o).st = (if x.next + 1 = hBlocks x.header then 2 else 1))) ∧
        (¬ good → x.retries < 3 → Runs (.fwBlock src x.next bs) s (fun s' => fwSlot s' o = { x with retries := x.retries + 1 })) ∧
        (¬ good → 3 ≤ x.retries → Runs (.fwBlock src x.next bs) s (fun s' => fwSlot s' o = { x with st := 5 } ∧ s'.fw.status = 0x20))) ∧
      (∀ n g gen, n < 2 → (fwSlot s n).st = 2 → 256 ≤ g → g < 320 → Runs (.fwArm 1 n g gen) s (fun s' =>
        s' = { s with fw := { s.fw with armed := some (n, g, gen % 2 ^ 32), status := 3 } })) ∧
      (∀ n g gen, s.fw.armed = some (n, g, gen) → awake s = true → n < 2 → (getGate s (1024 + (g - 256))).en = true →
        (genReached (getGate s (1024 + (g - 256))).gen (BitVec.ofNat 32 gen) = false → exec .fwActivate s = .next s) ∧
        (genReached (getGate s (1024 + (g - 256))).gen (BitVec.ofNat 32 gen) = true → s.resil.sealedStep ≠ s.resil.step →
          s.resil.named = none → Runs .fwActivate s (fun s' => s'.resil.named = some s.resil.step ∧ s'.fw = s.fw)) ∧
        (genReached (getGate s (1024 + (g - 256))).gen (BitVec.ofNat 32 gen) = true → s.resil.sealedStep = s.resil.step →
          (latestCkpt s).isSome = true → Runs .fwActivate s (fun s' => s'.fw.boot = n ∧ (fwSlot s' n).st = 3 ∧ s'.fw.armed = none ∧
            s'.fw.oldStore = some s.od.vals ∧ s'.od.vals = s.od.vals ∧ gone s' ∧ otp s'))) ∧
      (onTrial s = true → Runs (.fwConfirm 1) s (fun s' => (fwSlot s' s.fw.boot).st = 4 ∧ s'.fw.oldStore = none ∧
        s'.ward.svn = max s.ward.svn (fwSlot s s.fw.boot).isvn ∧
        (x.st ≠ 0 → (fwSlot s' o).st = (if x.isvn < max s.ward.svn (fwSlot s s.fw.boot).isvn then 5 else 2)))) ∧
      (onTrial s = true → Runs .fwTrialTimeout s (fun s' => s'.fw.boot = o ∧ (fwSlot s' s.fw.boot).st = 5 ∧ s'.fw.armed = none ∧
        s'.od.vals = s.fw.oldStore.getD s.od.vals ∧ otp s'))) ∧
    (∀ g, clusterUp s = true → odNum s 0x0A 0x31 0 0 = g → 256 ≤ g → g < 320 → (getGate s (1024 + (g - 256))).en = true →
      genReached (getGate s (1024 + (g - 256))).gen (BitVec.ofNat 32 (odNum s 0x0A 0x32 0 0)) = true →
      Runs .featureSwitch s (fun s' => s'.fw.feature = some (odNum s 0x0A 0x30 0 (highestVersion s)))) ∧
    (s.power.powered = true → s.power.tripped = false → s.power.st ≠ .off → Runs .warmReset s (fun s' => gone s' ∧ otp s' ∧
      s'.ward.debug = s.ward.lowered.getD s.ward.debug ∧ s'.ward.lowered = none ∧ s'.od.vals = s.od.vals ∧ s'.power.st = .run ∧
      s'.recorder.boot = s.recorder.boot ∧ s'.fw.boot = s.fw.boot)) ∧
    (∀ p i, i ∈ [Instr.coldReset p, .mreset p] → s.power.powered = true → Runs i s (fun s' => gone s' ∧ otp s' ∧
      s'.ward.debug = bootDebug (lifeCycle s) ∧ s'.ward.lowered = none ∧ s'.ward.entropyBad = false ∧ s'.power.st = .run ∧
      s'.power.tripped = false ∧ s'.recorder.boot = (s.recorder.boot + 1) % 2 ^ 16 ∧ s'.od.vals = s.od.vals)) ∧
    (∀ p, s.power.powered = false → p.getD 3 0 % 8 ≠ 2 → Runs (.powerOnReset p) s (fun s' => gone s' ∧ otp s' ∧
      s'.power.powered = true ∧ s'.power.st = .run ∧ s'.recorder.boot = 0 ∧ s'.ward.debug = bootDebug (lifeCycle s))) ∧
    (∀ p, s.power.powered = false → p.getD 3 0 % 8 = 2 → Runs (.powerOnReset p) s (fun s' => s'.power.powered = true ∧ s'.power.st = .off)) ∧
    (s.power.powered = true → s.power.st ≠ .off → Runs .pwrgdLoss s (fun s' => s'.recorder.frozen = true ∧ s'.cores = s.cores)) ∧
    (∀ mv, mv < 42000 ∨ 60000 < mv → Runs (.vinLockout mv) s (fun s' => s'.power.powered = false ∧ s'.power.st = .off ∧ otp s' ∧
      s'.cores = [] ∧ s'.bulk = {} ∧ s'.recorder.black = s.recorder.black)) ∧
    (∀ mv, 42000 ≤ mv → mv ≤ 60000 → exec (.vinLockout mv) s = .next s) ∧
    (s.power.st = .run → spGet 3 s.power.phases 20 = 3 → Runs .heartbeatToggle s (fun s' =>
      s' = { s with power := { s.power with heartbeat := !s.power.heartbeat } }))

/-- A request for a state that nothing refuses sets it as the target and status 0; a refused one only sets its status; one during a
transition waits for its end. The end of a transition reaches the target. A wake sets RUN as the target; an address match does so from
SLEEP and DEEP_SLEEP only for the module's own address. A DVFS request for a lower frequency changes the clock at once and the voltage
after; a higher one waits for the rail. A direct voltage is checked against its range, its step and the point's voltage. A class above
its strap is refused with NOT_ALLOWED. The slow loop sets each die's cap; the fast limiter acts above 105 % of the class, counts and
reports; the brake puts every die at P4. A warning is recorded above the threshold and cleared below; the cap steps one point at a
time; at 105 °C it is P4; at 112 °C the module trips and loses all but the always-on domain. Rules: R491, R492, R494, R495, R497,
R498, R499, R500, R501, R503. -/
def Obligations.PowerStatesClocksAndTemperatureFollowTheirRules : Prop :=
  ∀ (s : State),
    let w := s.power
    (∀ i n who p, (i, n, p) ∈ [(Instr.powerRequestRun who, 0, PowerState.run), (.powerRequestIdle who, 1, .idle),
        (.powerRequestSleep who, 2, .sleep), (.powerRequestDeepSleep who, 3, .deepSleep), (.powerRequestOff who, 4, .off)] →
      w.st ≠ .off →
      (w.target = none → powerStatus s n who = 0 → Runs i s (fun s' =>
        s' = { s with power := { w with status := 0, target := if p = w.st then none else some p } })) ∧
      (w.target = none → powerStatus s n who ≠ 0 → Runs i s (fun s' => s' = { s with power := { w with status := powerStatus s n who } })) ∧
      (w.target.isSome = true → w.wakeAfter = false → Runs i s (fun s' => s' = { s with power := { w with queued := some (n, who) } }))) ∧
    (w.target = some .idle ∨ w.target = some .run ∨ w.target = some .sleep → w.wakeAfter = false → w.queued = none →
      Runs .powerTransitionDone s (fun s' => some s'.power.st = w.target ∧ s'.power.target = none ∧ s'.cores = s.cores)) ∧
    (w.target = some .idle → w.wakeAfter = true → w.tripped = false → Runs .powerTransitionDone s (fun s' =>
      s'.power.st = .idle ∧ s'.power.target = some .run ∧ s'.power.wakeAfter = false)) ∧
    (w.powered = true → w.tripped = false → w.target = none →
      (w.st ∈ [.idle, .sleep, .deepSleep] → Runs .wake s (fun s' => s' = { s with power := { w with target := some .run } })) ∧
      (w.st ∈ [.sleep, .deepSleep] → ∀ a,
        (a = smbusAddr s → Runs (.smbusAddressMatch a) s (fun s' => s' = { s with power := { w with target := some .run } })) ∧
        (a ≠ smbusAddr s → exec (.smbusAddressMatch a) s = .next s))) ∧
    (∀ c, (maxClass s < c → exec (.powerClassWrite c) s = .next { s with power := { w with status := 1 } }) ∧
      (c ≤ maxClass s → Runs (.powerClassWrite c) s (fun s' => classInForce s' = c ∧ s'.power = { w with status := 0 }))) ∧
    (∀ d, d < 4 →
      let x := getDie s d
      let others (s' : State) : Prop := ∀ e, e ≠ d → getDie s' e = getDie s e
      (∀ p who, who ∈ [1, 2] → p ≤ 4 → x.powerCap = 0 → x.thermCap = 0 → w.brake = false → Runs (.dvfsRequest d p who) s (fun s' =>
        pointAsked s' d = p ∧ (getDie s' d).status = 0 ∧ others s' ∧
        (x.point < p → (getDie s' d).point = p ∧ (getDie s' d).ramp = some (pointMv p)) ∧
        (p < x.point → (getDie s' d).point = x.point ∧ (getDie s' d).ramp = some (max (pointMv p) (x.direct.getD 0))))) ∧
      (∀ p who, who ∈ [0, 3] → Runs (.dvfsRequest d p who) s (fun s' => getDie s' d = { x with status := 1 } ∧ s'.od = s.od)) ∧
      (∀ p who, who ∈ [1, 2] → 4 < p → Runs (.dvfsRequest d p who) s (fun s' => getDie s' d = { x with status := 6 } ∧ s'.od = s.od)) ∧
      (∀ v, x.ramp = some v → pointInForce s d = x.point → Runs (.dvfsRampDone d) s (fun s' =>
        getDie s' d = { x with mv := v, ramp := none } ∧ others s')) ∧
      (∀ v, x.ramp = some v → pointInForce s d < x.point → pointMv (pointInForce s d) ≤ v → Runs (.dvfsRampDone d) s (fun s' =>
        getDie s' d = { x with mv := v, point := pointInForce s d, direct := none
                               ramp := if v = pointMv (pointInForce s d) then none else some (pointMv (pointInForce s d)) })) ∧
      (∀ mv who, who ∈ [1, 2] →
        (560 ≤ mv → mv ≤ 850 → mv % 5 = 0 → pointMv x.point ≤ mv → Runs (.directVoltage d mv who) s (fun s' =>
          getDie s' d = { x with status := 0, direct := some mv, ramp := some mv } ∧ others s')) ∧
        (560 ≤ mv → mv ≤ 850 → mv % 5 = 0 → mv < pointMv x.point → Runs (.directVoltage d mv who) s (fun s' =>
          getDie s' d = { x with status := 5 } ∧ others s')) ∧
        (mv < 560 ∨ 850 < mv ∨ mv % 5 ≠ 0 → Runs (.directVoltage d mv who) s (fun s' => getDie s' d = { x with status := 6 } ∧ others s'))) ∧
      (∀ caps, caps.length = 4 → Runs (.powerSlowLoop caps) s (fun s' => (getDie s' d).powerCap = min 4 (caps.getD d 0) ∧
        s'.power.throttled = caps.any (fun c => c != 0))) ∧
      (∀ n,
        (n * 100 ≤ classWatts (classInForce s) * 105 → exec (.fastLimiter n) s = .next s) ∧
        (classWatts (classInForce s) * 105 < n * 100 → s.recorder.intake.length < 64 → Runs (.fastLimiter n) s (fun s' =>
          (getDie s' d).powerCap = min 4 (pointInForce s d + 1) ∧ s'.power.limiter = (w.limiter + 1) % 2 ^ 32 ∧
          (s'.recorder.intake.getLast?).map (·.code) = some 0x0071))) ∧
      (Runs .brakeAssert s (fun s' => s'.power.brake = true ∧ s'.power.throttled = true ∧ pointInForce s' d ≥ 4 ∧
        (x.point < 4 → pointAsked s d ≤ 4 → x.thermCap ≤ 4 → (getDie s' d).point = 4))) ∧
      (Runs .brakeRelease s (fun s' => s'.power.brake = false ∧ (getDie s' d).powerCap = x.powerCap)) ∧
      (∀ t sn, s.recorder.intake.length < 64 →
        (warnAt s ≤ t → Runs (.thermalWarn d t sn) s (fun s' => getDie s' d = { x with temp := t, warn := true } ∧
          s'.recorder.intake = s.recorder.intake ++ [⟨2, 0x0070, srcUnit 1 d, t, sn⟩])) ∧
        (t < warnAt s → Runs (.thermalWarn d t sn) s (fun s' => getDie s' d = { x with temp := t } ∧ s'.recorder = s.recorder))) ∧
      (∀ t, t < warnAt s → Runs (.thermalWarnClear d t) s (fun s' => getDie s' d = { x with temp := t, warn := false })) ∧
      (∀ t,
        (warnAt s ≤ t → Runs (.thermalCapStep d t) s (fun s' => (getDie s' d).thermCap = min 4 (x.thermCap + 1) ∧ others s')) ∧
        (t + 5000 ≤ warnAt s → Runs (.thermalCapStep d t) s (fun s' => (getDie s' d).thermCap = x.thermCap - 1 ∧ others s')) ∧
        (t < warnAt s → warnAt s < t + 5000 → Runs (.thermalCapStep d t) s (fun s' => getDie s' d = { x with temp := t }))) ∧
      (∀ t, 105000 ≤ t → Runs (.thermalCapP4 d t) s (fun s' => (getDie s' d).thermCap = 4 ∧ others s')) ∧
      (∀ t sn, 112000 ≤ t → Runs (.thermalTrip d t sn) s (fun s' => s'.power.tripped = true ∧ s'.cores = [] ∧ s'.bulk = {} ∧
        s'.ward.lcrec = s.ward.lcrec ∧ s'.recorder.black = s.recorder.black ∧ clusterUp s' = false)))

/-- A request for no object, a sub-index beyond the object, a write of an RO object, a read of a WO one, a principal without the
right, a sealed RWS object and an unavailable server each end with their status and change nothing. A value written in range is read
back; one out of range or of the wrong length is refused. A mailbox operation ends with BUSY 0, its status and its bytes, a write with
the dictionary's answer to it. A frame outside a session is answered as stated, its WRITE with DENIED; in a session WRITE writes and
answers under the session's key, a bad tag or an old SEQ is discarded and counted, and a repeated request gets the stored response.
SMBus SELECT, READ, WRITE, STATUS, DESCRIBE and the alert response act as stated; a wrong PEC only sets the status. Restoring defaults
clears every RW value and keeps RWS ones. The recorder takes entries in order, counts them as discarded while frozen, freezes and
copies on FATAL; a copy goes to the oldest black-box record. Faults are sent as FATAL events. Rules: R526, R527, R529, R531, R532,
R533, R534, R536, R550, R551, R552, R553. -/
def Obligations.DictionaryPathsAndRecorderServeTheirRequests : Prop :=
  (∀ (s : State) (r : OdReq) (o : Obj), objOf r.area r.item = some o →
    (o.arr.getD 1 ≤ r.sub → odCheck s r .read = 2 ∧ odCheck s r .write = 2) ∧
    (r.sub < o.arr.getD 1 → r.limit = .full →
      (o.acc = .ro → odCheck s r .write = 4) ∧ (o.acc = .wo → odCheck s r .read = 5) ∧
      (o.acc ≠ .ro → (writersOf r.area o).testBit r.who = false → odCheck s r .write = 3) ∧
      (o.acc = .rws → (writersOf r.area o).testBit r.who = true → rwsSealed s = true → odCheck s r .write = 6) ∧
      (o.acc = .rw → r.who < 4 → isAo r.area r.item = false → clusterUp s = false → r.area ≠ 1 → odCheck s r .read = 0x0A)) ∧
    (∀ bs m, odCheck s r .write ≠ 0 → odWrite s r bs m = (odCheck s r .write, s)) ∧
    (∀ n, odCheck s r .read ≠ 0 → odRead s r n = ((odCheck s r .read, [], false), s))) ∧
  (∀ (s : State) (r : OdReq), objOf r.area r.item = none → odCheck s r .read = 1 ∧ odCheck s r .write = 1 ∧ odCheck s r .describe = 1) ∧
  (∀ (s : State) (v : Nat), clusterUp s = true →
    let r : OdReq := { who := 1, path := 300, area := 0x09, item := 0x10, sub := 0, off := 0 }
    stagingOf s r = none →
    (60 ≤ v → v ≤ 86400 → ∃ s', odWrite s r (toBytes 4 v) false = (0, s') ∧ (odRead s' r 8).1 = (0, toBytes 4 v, false)) ∧
    ((v < 60 ∨ 86400 < v) → v < 2 ^ 32 → (odWrite s r (toBytes 4 v) false).1 = 7 ∧ (odWrite s r (toBytes 4 v) false).2.od.vals = s.od.vals) ∧
    (odWrite s r (toBytes 8 v) false).1 = 8) ∧
  (∀ (s : State) (f : Nat), fnExists s f = true → (getFn s f).mbox.busy = true →
    let m := (getFn s f).mbox
    let q := mboxReq f m
    let ends (i : Instr) (st : Nat) (d : List Byte) : Prop := Runs i s (fun s' => (getFn s' f).mbox.busy = false ∧
      (getFn s' f).mbox.status = st ∧ (getFn s' f).mbox.len = d.length ∧ (getFn s' f).mbox.data.take d.length = d)
    (m.cur = 0 → ends (.mailboxRead f) (odRead s q 4096).1.1 (odRead s q 4096).1.2.1) ∧
    (m.cur = 1 → m.len ≤ 4096 → odCheck s q .write ≠ 0 → ends (.mailboxWrite f) (odCheck s q .write) []) ∧
    (m.cur = 1 → m.len ≤ 4096 → (getFn (odWrite s q (takeBytes m.len m.data) m.more).2 f).mbox.busy = true →
      exec (.mailboxWrite f) s = .next (mboxEnd (odWrite s q (takeBytes m.len m.data) m.more).2 f (odWrite s q (takeBytes m.len m.data) m.more).1 [] false)) ∧
    (m.cur = 1 → 4096 < m.len → ends (.mailboxWrite f) 8 []) ∧
    (m.cur = 2 → ends (.mailboxDescribe f) (odDescribe s q).1 (odDescribe s q).2) ∧
    (∀ r, m.cur = 4 → ends (.mailboxSpdm f r) 0 ((spdmAnswer s (128 + f) r).1.take 4096)) ∧
    (∀ r, m.cur = 3 → frameGood (frameHead (takeBytes (min m.len 4096) m.data)) (takeBytes (min m.len 4096) m.data) = false →
      ends (.mailboxFrame f r) 0 []) ∧
    (∀ r, m.cur = 3 → let fr := takeBytes (min m.len 4096) m.data
      let h := frameHead fr
      let rd := odRead s { who := 1, path := f, limit := .frame, area := h.area, item := h.item, sub := h.sub, off := h.offset } 1024
      frameGood h fr = true → h.session = 0 → h.kind = 1 → ends (.mailboxFrame f r) 0
        (({ h with kind := 4, status := rd.1.1, more := rd.1.2.2, len := rd.1.2.1.length } : FrameHead).bytes ++ rd.1.2.1)) ∧
    (∀ r, m.cur = 3 → let fr := takeBytes (min m.len 4096) m.data
      frameGood (frameHead fr) fr = true → (frameHead fr).session = 0 → (frameHead fr).kind = 2 →
      ends (.mailboxFrame f r) 0 (({ frameHead fr with kind := 4, status := 3, more := false, len := 0 } : FrameHead).bytes))) ∧
  (∀ (s : State) (f : List Byte), wardUp s = true → s.power.st ≠ .sleep →
    let h := frameHead f
    let r : OdReq := { who := 1, path := 300, limit := .frame, area := h.area, item := h.item, sub := h.sub, off := h.offset }
    let out (i : Instr) (st : Nat) (more : Bool) (d : List Byte) : Prop := Runs i s (fun s' =>
      s'.od.frameOut = ({ h with kind := 4, status := st, more := more, len := d.length } : FrameHead).bytes ++ d ∧ s'.od.vals = s.od.vals)
    (frameGood h f = true → h.session = 0 →
      (h.kind = 1 → out (.frameRead f) (odRead s r 1024).1.1 (odRead s r 1024).1.2.2 (odRead s r 1024).1.2.1) ∧
      (h.kind = 2 → out (.frameWrite f) 3 false []) ∧
      (h.kind = 3 → out (.frameDescribe f) (odDescribe s r).1 false (odDescribe s r).2) ∧
      (h.kind = 6 → out (.discover f) 0 false (takeBytes 32 (devId s) ++ [BitVec.ofNat 8 (gradeCode s.grid)] ++ toBytes 2 (moduleId s))) ∧
      (∀ q, h.kind = 5 → Runs (.frameSpdm f q) s (fun s' => ∃ g : FrameHead, g.status = 0 ∧ g.session = 0 ∧
        s'.od.frameOut = g.bytes ++ (spdmAnswer s 300 q).1.take 1024))) ∧
    (∀ x y bs, h.kind = 2 → frameGood h f = true → h.session ≠ 0 → getSession s h.session = some x → x.transport = 300 → x.ready = true →
      openFrame x.key (2 * h.seq) f = some bs → x.lastSeq < h.seq →
      let w := odWrite s { r with session := h.session, limit := .full } bs h.more
      let resp := sealFrame x.key (2 * h.seq + 1) { h with kind := 4, status := w.1, more := false, len := 0 } []
      getSession w.2 h.session = some y → Runs (.frameWrite f) s (fun s' => s'.od.frameOut = resp ∧ s'.od.vals = w.2.od.vals ∧
        s'.ward = (setSession w.2 { y with lastSeq := h.seq, lastReq := f, lastResp := resp }).ward)) ∧
    (∀ x i, (i, h.kind) ∈ [(Instr.frameRead f, 1), (.frameWrite f, 2), (.frameDescribe f, 3), (.frameSpdm f .getVersion, 5), (.discover f, 6)] →
      frameGood h f = true → h.session ≠ 0 → getSession s h.session = some x → x.transport = 300 → x.ready = true →
      let dropped : Prop := Runs i s (fun s' => s' = { s with od := { s.od with frameDrops := (s.od.frameDrops + 1) % 2 ^ 32 } })
      (openFrame x.key (2 * h.seq) f = none → dropped) ∧
      ((openFrame x.key (2 * h.seq) f).isSome = true → h.seq < x.lastSeq → dropped) ∧
      ((openFrame x.key (2 * h.seq) f).isSome = true → h.seq = x.lastSeq → f = x.lastReq → Runs i s (fun s' =>
        s' = { s with od := { s.od with frameOut := x.lastResp } })))) ∧
  (∀ (s : State), wardUp s = true →
    let b := s.od.smbus
    let bus (x : SmBus) : State := { s with od := { s.od with smbus := x } }
    (∀ d, (Runs (.smbusSelect d false) s (fun s' => s' = bus { b with status := 0x0C })) ∧
      (Runs (.smbusWrite d false) s (fun s' => s' = bus { b with status := 0x0C })) ∧
      (d.length = 9 → Runs (.smbusSelect d true) s (fun s' => s' = bus { b with
        area := bytesAt d 0 1, item := bytesAt d 1 2, sub := bytesAt d 3 2, offset := bytesAt d 5 4, status := 0 })) ∧
      (d ≠ [] → d.length ≤ 32 → Runs (.smbusWrite d true) s (fun s' => let w := odWrite s (busReq b) d false
        s' = { w.2 with od := { w.2.od with smbus := { w.2.od.smbus with status := w.1 } } })) ∧
      (d ≠ [] → d.length ≤ 32 → odCheck s (busReq b) .write ≠ 0 → Runs (.smbusWrite d true) s (fun s' =>
        s' = bus { b with status := odCheck s (busReq b) .write })) ∧
      (32 < d.length → Runs (.smbusWrite d true) s (fun s' => s' = bus { b with status := 8 }))) ∧
    (Runs .smbusRead s (fun s' => s'.od.smbus.out = (odRead s (busReq b) 32).1.2.1 ∧ s'.od.smbus.status = (odRead s (busReq b) 32).1.1 ∧
      s'.od.smbus.offset = b.offset + (odRead s (busReq b) 32).1.2.1.length ∧ s'.od.vals = s.od.vals)) ∧
    (Runs .smbusStatus s (fun s' => s' = bus { b with out := [BitVec.ofNat 8 b.status] })) ∧
    (Runs .smbusDescribe s (fun s' => s' = bus { b with status := (odDescribe s (busReq b)).1, out := (odDescribe s (busReq b)).2 })) ∧
    (alertUnread s = true → b.released = false → Runs .smbusAlertResponse s (fun s' =>
      s' = bus { b with out := [BitVec.ofNat 8 (smbusAddr s)], released := true })) ∧
    (Runs (.restoreDefaults 1) s (fun s' => (∀ k, spGet none s'.od.vals k =
      if k ∈ [odKey 0x01 0x40 0, odKey 0x05 0x41 0, odKey 0x07 1 0, odKey 0x07 0x40 0] then spGet none s.od.vals k else none) ∧
      s'.recorder.acked = 0))) ∧
  (∀ (s : State) (e : Event) (rest : List Event), s.recorder.intake = e :: rest →
    let r := s.recorder
    (r.frozen = true → Runs .eventRecord s (fun s' => s'.recorder.intake = rest ∧ s'.recorder.ring = r.ring ∧
      s'.recorder.discarded = (r.discarded + 1) % 2 ^ 32)) ∧
    (r.frozen = false → Runs .eventRecord s (fun s' => s'.recorder.intake = rest ∧ s'.recorder.next = (r.next + 1) % 2048 ∧
      s'.recorder.seq = (r.seq + 1) % 2 ^ 32 ∧ (∃ x, (r.next, x) ∈ s'.recorder.ring ∧ x.seq = r.seq ∧ x.boot = r.boot ∧ x.ev = e) ∧
      s'.recorder.frozen = (e.sev == 4) ∧ (e.sev = 4 → flashPowered s = true → s'.recorder.copyDue = none ∧
        ∃ k y, (k, y) ∈ s'.recorder.black ∧ y.cause = 0 ∧ (∃ x ∈ y.entries, x.ev = e))))) ∧
  (∀ (s : State) (c : Nat), c ∈ [1, 2, 3] → flashPowered s = true → s.recorder.entries ≠ [] → Runs (.blackBoxCopy c) s (fun s' =>
    (∃ y, (s.recorder.oldest, y) ∈ s'.recorder.black ∧ y.cause = c ∧ y.entries = s.recorder.entries) ∧ s'.recorder.ring = s.recorder.ring)) ∧
  (∀ (s : State) (n mv : Nat), s.recorder.intake.length < 64 →
    (Runs (.railFault n mv) s (fun s' => s'.recorder.intake = s.recorder.intake ++ [⟨4, 0x00F1, srcUnit 7 0, n, mv⟩])) ∧
    (Runs (.alwaysOnFault n) s (fun s' => s'.recorder.intake = s.recorder.intake ++ [⟨4, 0x00F3, srcUnit 5 n, n, 0⟩])))

/-- After reset every core's thread 0 is HELD in keeper mode at 0x000B_0400 and the others are STOPPED in job mode; every register
reads 0 with no poison, but g0, p0 and m0 their constants; TSTAT, the keeper registers and TWIN are 0 otherwise; local SRAM and
granary read zero with every latch bit empty; TWDOG is 0; no gate and no reap context is enabled; the life cycle is BLANK with debug
level FULL; no key slot is in use; the OTP fields are clear; no command waits. KVEC and KLIM are 0x000B_0000. The life cycle and the
level are legal. That the state after reset is that of a cold boot in BLANK is the model's choice (notes/assumptions/2.md). Rules:
R59, R62, R63, R87, R101, R453, R458, R468, R472. -/
def Obligations.ResetLeavesTheStatedState : Prop :=
  let s := State.reset
  (∀ c t, t < 16 →
    let th := getThread s c t
    th.st.state = (if t = 0 then .held else .stopped) ∧ th.st.pm = (t == 0) ∧ th.pc = (if t = 0 then 0x000B0400 else 0) ∧
    th.st.xact = false ∧ th.st.flags = 0 ∧ th.st.te = 0 ∧ th.st.teIdz = false ∧ th.st.xcode = 0 ∧ th.st.xsub = 0 ∧
    th.k.xpc = 0 ∧ th.k.xstat = 0 ∧ th.k.xinfo = 0 ∧ th.k.kscr0 = 0 ∧ th.k.kscr1 = 0 ∧ th.k.kscr2 = 0 ∧ th.k.kscr3 = 0 ∧
    twinWord th = 0 ∧ th.deferred = none ∧
    (∀ n, th.regs.gGet n = {} ∧ (n ≠ 0 → th.regs.mGet n = {}) ∧ th.regs.sGet n = {}) ∧
    (∀ n, 0 < n → n < 8 → th.regs.pGet n = false)) ∧
  (∀ c a, (getCore s c).mem.localMem.byte a = 0 ∧ (getCore s c).mem.localMem.mark a = Mark.none ∧
    (getCore s c).mem.gran.byte a = 0 ∧ (getCore s c).mem.gran.mark a = Mark.none) ∧
  (∀ c, (getCore s c).ctl.kvec = 0x000B0000 ∧ (getCore s c).ctl.klim = 0x000B0000 ∧ (getCore s c).ctl.twdog = 0) ∧
  (∀ k, (getGate s k).en = false ∧ (getReap s k).en = false) ∧ (∀ n, (getSlot s n).st = .free) ∧
  lifeCycle s = 0 ∧ s.ward.debug = 3 ∧ s.ward.svn = 0 ∧ s.ward.xidx = 0 ∧ s.ward.revoke = 0 ∧ s.power.st = .run ∧ s.pending = [] ∧
  LevelLegal s

/-- From every state in which the life cycle and the debug level are legal, every command leaves them legal, and so does every step:
no command makes a 65th transition, records a life-cycle code that is no state, puts a debug level in force that the combination table
does not allow in the state of the life cycle, or records such a level for the next warm reset. The tokens, the requests of the DEBUG
principal, object writes on every path, resets and the loss of power are all among the commands. Rules: R453, R468, R472, R474, R475,
R476. -/
def Obligations.EveryStepKeepsTheLevelLegal : Prop :=
  (∀ (s s' : State) (c : Instr), LevelLegal s → exec c s = .next s' → LevelLegal s') ∧
  (∀ s s' : State, LevelLegal s → step s = .next s' → LevelLegal s')
end

