-- ==== Sys2Proof/Laws/Sparse.lean ====
section
/-!
SUPPORT. Laws/Sparse.lean: reading after writing in a sparse map and in a memory, for every list, and the canonical form kept by each
operation.
-/

namespace Sys2Proof.Machine

variable {α : Type}

/-! ## Sparse maps -/

@[simp] theorem spGet_nil (d : α) (k : Nat) : spGet d [] k = d := rfl

theorem spGet_erase_same (d : α) (m : Sparse α) (k : Nat) : spGet d (spErase m k) k = d := by
  induction m with
  | nil => rfl
  | cons p r ih =>
    obtain ⟨j, v⟩ := p
    by_cases h : j = k <;> simp_all [spErase, spGet]
    omega

theorem spGet_erase_other (d : α) (m : Sparse α) {k j : Nat} (h : j ≠ k) : spGet d (spErase m k) j = spGet d m j := by
  induction m with
  | nil => rfl
  | cons p r ih =>
    obtain ⟨i, v⟩ := p
    by_cases hi : i = k
    · subst hi; simp_all [spErase, spGet]
    · simp_all [spErase, spGet]

theorem spGet_insert_same (d : α) (m : Sparse α) (k : Nat) (v : α) : spGet d (spInsert m k v) k = v := by
  induction m with
  | nil => simp [spInsert, spGet]
  | cons p r ih =>
    obtain ⟨j, x⟩ := p
    simp only [spInsert]
    split
    · simp [spGet]
    · split
      · simp [spGet]
      · simp [spGet, *]

theorem spGet_insert_other (d : α) (m : Sparse α) {k j : Nat} (v : α) (h : j ≠ k) :
    spGet d (spInsert m k v) j = spGet d m j := by
  induction m with
  | nil => simp [spInsert, spGet, h]
  | cons p r ih =>
    obtain ⟨i, x⟩ := p
    simp only [spInsert]
    split
    · simp [spGet, h]
    · split
      · next hk => subst hk; simp [spGet, h]
      · simp [spGet, ih]

variable [DecidableEq α]

@[simp] theorem spGet_set_same (d : α) (m : Sparse α) (k : Nat) (v : α) : spGet d (spSet d m k v) k = v := by
  unfold spSet
  split
  · rename_i h; rw [spGet_erase_same, h]
  · exact spGet_insert_same d m k v

/-- The default the map is read with need not be the one it is written with, at another key. -/
@[simp] theorem spGet_set_other (d e : α) (m : Sparse α) {k j : Nat} (v : α) (h : j ≠ k) :
    spGet e (spSet d m k v) j = spGet e m j := by
  unfold spSet
  split
  · exact spGet_erase_other e m h
  · exact spGet_insert_other e m v h

@[simp] theorem spGet_upd_same (d : α) (m : Sparse α) (k : Nat) (f : α → α) :
    spGet d (spUpd d m k f) k = f (spGet d m k) := by simp [spUpd]

@[simp] theorem spGet_upd_other (d e : α) (m : Sparse α) {k j : Nat} (f : α → α) (h : j ≠ k) :
    spGet e (spUpd d m k f) j = spGet e m j := by simp [spUpd, h]

/-! ## The canonical form -/

theorem spWf_nil (d : Nat → α) : spWf d [] := by simp [spWf]

theorem spWf_erase {d : Nat → α} {m : Sparse α} (h : spWf d m) (k : Nat) : spWf d (spErase m k) :=
  ⟨h.1.filter _, fun p hp => h.2 p (List.mem_of_mem_filter hp)⟩

omit [DecidableEq α] in
theorem mem_insert {m : Sparse α} {k : Nat} {v : α} {p : Nat × α} (h : p ∈ spInsert m k v) : p = (k, v) ∨ p ∈ m := by
  induction m with
  | nil => simpa [spInsert] using h
  | cons q r ih =>
    obtain ⟨j, x⟩ := q
    simp only [spInsert] at h
    split at h
    · simpa using h
    · split at h
      · rcases List.mem_cons.1 h with h | h <;> simp [h]
      · rcases List.mem_cons.1 h with h | h
        · simp [h]
        · rcases ih h with h | h <;> simp [h]

theorem spWf_insert {d : Nat → α} {m : Sparse α} (h : spWf d m) {k : Nat} {v : α} (hv : v ≠ d k) :
    spWf d (spInsert m k v) := by
  induction m with
  | nil => simpa [spWf, spInsert] using hv
  | cons q r ih =>
    obtain ⟨j, x⟩ := q
    obtain ⟨hp, hd⟩ := h
    rw [List.pairwise_cons] at hp
    simp only [spInsert]
    split
    · rename_i hlt
      refine ⟨List.pairwise_cons.2 ⟨fun p hm => ?_, List.pairwise_cons.2 hp⟩, fun p hm => ?_⟩
      · rcases List.mem_cons.1 hm with rfl | hm
        · exact hlt
        · exact lt_trans hlt (hp.1 p hm)
      · rcases List.mem_cons.1 hm with rfl | hm
        · exact hv
        · exact hd p hm
    · split
      · rename_i _ he
        subst he
        refine ⟨List.pairwise_cons.2 hp, fun p hm => ?_⟩
        rcases List.mem_cons.1 hm with rfl | hm
        · exact hv
        · exact hd p (List.mem_cons_of_mem _ hm)
      · rename_i hnl hne
        have hr := ih ⟨hp.2, fun p hm => hd p (List.mem_cons_of_mem _ hm)⟩
        refine ⟨List.pairwise_cons.2 ⟨fun p hm => ?_, hr.1⟩, fun p hm => ?_⟩
        · rcases mem_insert hm with rfl | hm
          · simp only; omega
          · exact hp.1 p hm
        · rcases List.mem_cons.1 hm with rfl | hm
          · exact hd _ List.mem_cons_self
          · exact hr.2 p hm

theorem spWf_set {d : Nat → α} {m : Sparse α} (h : spWf d m) (k : Nat) (v : α) : spWf d (spSet (d k) m k v) := by
  unfold spSet
  split
  · exact spWf_erase h k
  · exact spWf_insert h ‹_›

/-! ## Memories -/

@[simp] theorem setByte_byte_same (m : Mem) (a : Nat) (b : Byte) : (m.setByte a b).byte a = b := by simp [Mem.setByte, Mem.byte]
@[simp] theorem setByte_byte_other (m : Mem) {a x : Nat} (b : Byte) (h : x ≠ a) : (m.setByte a b).byte x = m.byte x := by
  simp [Mem.setByte, Mem.byte, h]
@[simp] theorem setByte_mark (m : Mem) (a : Nat) (b : Byte) (w : Nat) : (m.setByte a b).mark w = m.mark w := rfl
@[simp] theorem setMark_byte (m : Mem) (w : Nat) (k : Mark) (a : Nat) : (m.setMark w k).byte a = m.byte a := rfl
@[simp] theorem setMark_mark_same (m : Mem) (w : Nat) (k : Mark) : (m.setMark w k).mark w = k := by simp [Mem.setMark, Mem.mark]
@[simp] theorem setMark_mark_other (m : Mem) {w x : Nat} (k : Mark) (h : x ≠ w) : (m.setMark w k).mark x = m.mark x := by
  simp [Mem.setMark, Mem.mark, h]

@[simp] theorem setBytes_mark (m : Mem) (a : Nat) (bs : List Byte) (w : Nat) : (m.setBytes a bs).mark w = m.mark w := by
  induction bs generalizing m a with
  | nil => rfl
  | cons b bs ih => simp [Mem.setBytes, ih]

/-- Bytes outside a write are unchanged. -/
theorem setBytes_byte_outside (m : Mem) (a : Nat) (bs : List Byte) {x : Nat} (h : x < a ∨ a + bs.length ≤ x) :
    (m.setBytes a bs).byte x = m.byte x := by
  induction bs generalizing m a with
  | nil => rfl
  | cons b bs ih =>
    simp only [List.length_cons] at h
    rw [Mem.setBytes, ih _ _ (by omega), setByte_byte_other _ _ (by omega)]

/-- Bytes inside a write are those written. -/
theorem setBytes_byte_inside (m : Mem) (a : Nat) (bs : List Byte) {i : Nat} (h : i < bs.length) :
    (m.setBytes a bs).byte (a + i) = bs[i] := by
  induction bs generalizing m a i with
  | nil => simp at h
  | cons b bs ih =>
    cases i with
    | zero => rw [Mem.setBytes, setBytes_byte_outside _ _ _ (by omega)]; simp
    | succ i =>
      have := ih (m.setByte a b) (a + 1) (i := i) (by simpa using h)
      rw [Mem.setBytes, show a + (i + 1) = a + 1 + i by omega, this]
      rfl

theorem setByte_wf {m : Mem} (h : m.Wf) (a : Nat) (b : Byte) : (m.setByte a b).Wf := ⟨spWf_set h.1 a b, h.2⟩
theorem setMark_wf {m : Mem} (h : m.Wf) (w : Nat) (k : Mark) : (m.setMark w k).Wf := ⟨h.1, spWf_set h.2 w k⟩

theorem setBytes_wf {m : Mem} (h : m.Wf) (a : Nat) (bs : List Byte) : (m.setBytes a bs).Wf := by
  induction bs generalizing m a with
  | nil => exact h
  | cons b bs ih => exact ih (setByte_wf h a b) (a + 1)

theorem probe_wf {m : Mem} (h : m.Wf) (w : Nat) : (m.probe w).1.Wf := by
  unfold Mem.probe
  split
  · exact setMark_wf h _ _
  · exact h

theorem probes_wf {m : Mem} (h : m.Wf) (w n : Nat) : (m.probes w n).1.Wf := by
  induction n generalizing m w with
  | zero => exact h
  | succ n ih => exact ih (probe_wf h w) (w + 1)

theorem read_wf {m : Mem} (h : m.Wf) (a n : Nat) : (m.read a n).mem.Wf := probes_wf h _ _

theorem writeWord_wf {m : Mem} (h : m.Wf) (latchy poison : Bool) (a : Nat) (bs : List Byte) :
    (m.writeWord latchy poison a bs).1.Wf := by
  have h1 : (if latchy || !(bs.length == 8) then m.probe (a / 8) else (m, false)).1.Wf := by
    split
    · exact probe_wf h _
    · exact h
  simp only [Mem.writeWord]
  generalize (if latchy || !(bs.length == 8) then m.probe (a / 8) else (m, false)) = r at h1
  obtain ⟨m1, bad⟩ := r
  dsimp only at h1 ⊢
  split
  · exact setMark_wf h1 _ _
  · split
    · exact setMark_wf (setBytes_wf h1 _ _) _ _
    · split
      · exact h1
      · exact setMark_wf (setBytes_wf h1 _ _) _ _

theorem writeFrom_wf (latchy poison : Bool) {k : Nat} {m : Mem} (h : m.Wf) (a : Nat) (bs : List Byte) :
    (Mem.writeFrom latchy poison k m a bs).1.Wf := by
  induction k generalizing m a bs with
  | zero => exact h
  | succ k ih =>
    simp only [Mem.writeFrom]
    split
    · exact h
    · exact ih (writeWord_wf h _ _ _ _) _ _

theorem write_wf {m : Mem} (h : m.Wf) (latchy poison : Bool) (a : Nat) (bs : List Byte) : (m.write latchy poison a bs).mem.Wf :=
  writeFrom_wf latchy poison (k := bs.length + 1) h a bs

theorem setFull_wf {m : Mem} (h : m.Wf) (w : Nat) (b : Bool) : (m.setFull w b).Wf := setMark_wf h _ _

theorem zeroRange_wf {m : Mem} (h : m.Wf) (a n : Nat) : (m.zeroRange a n).Wf :=
  ⟨⟨h.1.1.filter _, fun p hp => h.1.2 p (List.mem_of_mem_filter hp)⟩,
    ⟨h.2.1.filter _, fun p hp => h.2.2 p (List.mem_of_mem_filter hp)⟩⟩

theorem clearLatches_wf {m : Mem} (h : m.Wf) : m.clearLatches.1.Wf := by
  refine ⟨h.1, ⟨(List.pairwise_map.2 ?_).filter _, fun p hp => ?_⟩⟩
  · exact h.2.1
  · simpa using (List.mem_filter.1 hp).2

theorem empty_wf : ({} : Mem).Wf := by simp [Mem.Wf, spWf]

end Sys2Proof.Machine
end

