-- ==== Sys2Proof/Laws/State.lean ====
section
/-!
SUPPORT. Laws/State.lean: what reading a core, a thread or a register answers after each of the shared writes.
-/

namespace Sys2Proof.Machine

/-! ## Cores -/

@[simp] theorem getCore_setCore_same (s : State) (c : Nat) (k : Core) : getCore (setCore s c k) c = k := by
  simp [getCore, setCore]

@[simp] theorem getCore_setCore_other (s : State) {c d : Nat} (k : Core) (h : d ≠ c) :
    getCore (setCore s c k) d = getCore s d := by simp [getCore, setCore, h]

@[simp] theorem getCore_updCore_same (s : State) (c : Nat) (f : Core → Core) : getCore (updCore s c f) c = f (getCore s c) := by
  simp [updCore]

@[simp] theorem getCore_updCore_other (s : State) {c d : Nat} (f : Core → Core) (h : d ≠ c) :
    getCore (updCore s c f) d = getCore s d := by simp [updCore, h]

/-- A write of a core touches the list of cores alone. -/
theorem setCore_rest (s : State) (c : Nat) (k : Core) : setCore s c k = { s with cores := (setCore s c k).cores } := rfl
theorem updCore_rest (s : State) (c : Nat) (f : Core → Core) : updCore s c f = { s with cores := (updCore s c f).cores } := rfl
theorem updThread_rest (s : State) (c t : Nat) (f : Thread → Thread) :
    updThread s c t f = { s with cores := (updThread s c t f).cores } := rfl

@[simp] theorem updCore_power (s : State) (c : Nat) (f : Core → Core) : (updCore s c f).power = s.power := rfl
@[simp] theorem updCore_grid (s : State) (c : Nat) (f : Core → Core) : (updCore s c f).grid = s.grid := rfl
@[simp] theorem updCore_ward (s : State) (c : Nat) (f : Core → Core) : (updCore s c f).ward = s.ward := rfl
@[simp] theorem updCore_bulk (s : State) (c : Nat) (f : Core → Core) : (updCore s c f).bulk = s.bulk := rfl
@[simp] theorem updCore_recorder (s : State) (c : Nat) (f : Core → Core) : (updCore s c f).recorder = s.recorder := rfl
@[simp] theorem updCore_pending (s : State) (c : Nat) (f : Core → Core) : (updCore s c f).pending = s.pending := rfl

/-! ## Threads -/

@[simp] theorem thread_setThread_same (k : Core) (t : Nat) (th : Thread) : (k.setThread t th).thread t = th := by
  simp [Core.thread, Core.setThread]

@[simp] theorem thread_setThread_other (k : Core) {t u : Nat} (th : Thread) (h : u ≠ t) :
    (k.setThread t th).thread u = k.thread u := by simp [Core.thread, Core.setThread, h]

@[simp] theorem thread_updThread_same (k : Core) (t : Nat) (f : Thread → Thread) :
    (k.updThread t f).thread t = f (k.thread t) := by simp [Core.updThread]

@[simp] theorem thread_updThread_other (k : Core) {t u : Nat} (f : Thread → Thread) (h : u ≠ t) :
    (k.updThread t f).thread u = k.thread u := by simp [Core.updThread, h]

@[simp] theorem setThread_mem (k : Core) (t : Nat) (th : Thread) : (k.setThread t th).mem = k.mem := rfl
@[simp] theorem setThread_reqs (k : Core) (t : Nat) (th : Thread) : (k.setThread t th).reqs = k.reqs := rfl
@[simp] theorem updThread_mem (k : Core) (t : Nat) (f : Thread → Thread) : (k.updThread t f).mem = k.mem := rfl
@[simp] theorem updThread_reqs (k : Core) (t : Nat) (f : Thread → Thread) : (k.updThread t f).reqs = k.reqs := rfl

@[simp] theorem getThread_updThread_same (s : State) (c t : Nat) (f : Thread → Thread) :
    getThread (updThread s c t f) c t = f (getThread s c t) := by simp [getThread, updThread]

@[simp] theorem getThread_updThread_thread (s : State) (c : Nat) {t u : Nat} (f : Thread → Thread) (h : u ≠ t) :
    getThread (updThread s c t f) c u = getThread s c u := by simp [getThread, updThread, h]

@[simp] theorem getThread_updThread_core (s : State) {c d : Nat} (t u : Nat) (f : Thread → Thread) (h : d ≠ c) :
    getThread (updThread s c t f) d u = getThread s d u := by simp [getThread, updThread, h]

/-! ## Registers -/

@[simp] theorem gGet_zero (r : Regs) : r.gGet 0 = {} := rfl
@[simp] theorem gSet_zero (r : Regs) (v : GReg) : r.gSet 0 v = r := rfl

theorem gGet_gSet_same (r : Regs) {n : Nat} (v : GReg) (h : n ≠ 0) : (r.gSet n v).gGet n = v := by
  simp [Regs.gGet, Regs.gSet, h]

@[simp] theorem gGet_gSet_other (r : Regs) {n j : Nat} (v : GReg) (h : j ≠ n) : (r.gSet n v).gGet j = r.gGet j := by
  by_cases h0 : n = 0
  · simp [Regs.gSet, h0]
  · by_cases hj : j = 0 <;> simp [Regs.gGet, Regs.gSet, h0, hj, h]

@[simp] theorem gSet_p (r : Regs) (n : Nat) (v : GReg) : (r.gSet n v).p = r.p := by unfold Regs.gSet; split <;> rfl
@[simp] theorem gSet_m (r : Regs) (n : Nat) (v : GReg) : (r.gSet n v).m = r.m := by unfold Regs.gSet; split <;> rfl
@[simp] theorem gSet_sv (r : Regs) (n : Nat) (v : GReg) : (r.gSet n v).sv = r.sv := by unfold Regs.gSet; split <;> rfl

@[simp] theorem mGet_zero (r : Regs) : r.mGet 0 = ⟨BitVec.allOnes 32, false⟩ := rfl
theorem mGet_mSet_same (r : Regs) {n : Nat} (v : MReg) (h : n ≠ 0) : (r.mSet n v).mGet n = v := by
  simp [Regs.mGet, Regs.mSet, h]
@[simp] theorem mGet_mSet_other (r : Regs) {n j : Nat} (v : MReg) (h : j ≠ n) : (r.mSet n v).mGet j = r.mGet j := by
  by_cases h0 : n = 0
  · simp [Regs.mSet, h0]
  · by_cases hj : j = 0 <;> simp [Regs.mGet, Regs.mSet, h0, hj, h]

@[simp] theorem sGet_sSet_same (r : Regs) (n : Nat) (v : SReg) : (r.sSet n v).sGet n = v := by simp [Regs.sGet, Regs.sSet]
@[simp] theorem sGet_sSet_other (r : Regs) {n j : Nat} (v : SReg) (h : j ≠ n) : (r.sSet n v).sGet j = r.sGet j := by
  simp [Regs.sGet, Regs.sSet, h]

@[simp] theorem pGet_zero (r : Regs) : r.pGet 0 = true := rfl

end Sys2Proof.Machine
end

