-- ==== Sys2Proof/Laws/Issue.lean ====
section
/-!
SUPPORT. Laws/Issue.lean: what the issue of an instruction answers, once for every instruction, and what an instruction whose effect is on
its own thread leaves.
-/

namespace Sys2Proof.Machine

variable {m : Mn} {f : Form} {c t : Nat} {w : Word} {s s' : State}

theorem settleTwin_none (h : (getThread s c t).twPend = none) : settleTwin s c t = s := by
  unfold settleTwin
  simp only [getThread] at h
  simp [h]

theorem firstCand_nil : firstCand [] = none := rfl

/-- An instruction that issues, is legal and needs no privilege: what it answers is decided by its body. -/
theorem issueStep_of_issues (h : Issues m c t w s) (hb : f.uses.busy (getCore s c) t = false) (hi : f.illegal = [])
    (hp : f.priv = none) : issueStep f c t w s = issueEffect f c t s := by
  have hr := h.running
  have hs := h.noStop
  have htw := h.noTwin
  have hw := h.noWalk
  have hd := h.noDeferred
  have hpred := h.holds
  simp only [getThread] at hr hs htw hw hd hpred
  have ht : ¬ 16 ≤ t := by have := h.thread; omega
  have hhold : coreHolds (getCore s c) w = false := by simp [coreHolds, h.noSwitch]
  have hin : inSwitch (getCore s c) t = false := by simp [inSwitch, h.noSwitch]
  unfold issueStep
  rw [settleTwin_none h.noTwin]
  simp only [h.up, ht, hr, hs, htw, hw, hd, hhold, hin, h.fetched, hb, h.legal, hi, hp]
  simp only [hpred, List.append_nil, List.map_nil, firstCand_nil]
  rfl

/-- An instruction that issues and whose body completes. -/
theorem issue_done (h : Issues m c t w s) (hb : f.uses.busy (getCore s c) t = false) (hi : f.illegal = [])
    (hp : f.priv = none) (hd : f.body s = .done s') : issue m f c t w s = .next (finished c t s') := by
  simp [issue, wordIs, h.spells, issueStep_of_issues h hb hi hp, issueEffect, hd, finished]

/-! ## Effects on one thread -/

theorem supersedes_writeG (k : Core) (t n : Nat) (v : Word) :
    (k.writeG t n v).reqs = k.reqs.map (supersedes t (some n)) := by
  simp [Core.writeG, supersedes]

theorem supersedes_none (l : List Req) : l.map (supersedes t none) = l := by
  have : supersedes t none = id := by funext q; simp [supersedes]
  simp [this]

@[simp] theorem noteIssue_thread (k : Core) (t u : Nat) : (k.noteIssue t).thread u = k.thread u := rfl
@[simp] theorem noteIssue_mem (k : Core) (t : Nat) : (k.noteIssue t).mem = k.mem := rfl
@[simp] theorem noteIssue_reqs (k : Core) (t : Nat) : (k.noteIssue t).reqs = k.reqs := rfl

@[simp] theorem stepEnd_thread (s : State) (c t : Nat) : getThread (stepEnd s c t) c t = stepped (getThread s c t) := by
  unfold stepEnd stepped
  simp only
  split <;> simp

theorem stepEnd_threads (s : State) (c : Nat) {t u : Nat} (h : u ≠ t) : getThread (stepEnd s c t) c u = getThread s c u := by
  unfold stepEnd
  simp only
  split <;> simp [h]

theorem stepEnd_cores (s : State) {c d : Nat} (t : Nat) (h : d ≠ c) : getCore (stepEnd s c t) d = getCore s d := by
  unfold stepEnd
  simp only
  split <;> simp [updThread, h]

theorem stepEnd_core (s : State) (c t : Nat) :
    getCore (stepEnd s c t) c = { getCore s c with threads := (getCore (stepEnd s c t) c).threads } := by
  unfold stepEnd
  simp only
  split <;> simp [updThread, Core.updThread, Core.setThread]

theorem stepEnd_rest (s : State) (c t : Nat) : stepEnd s c t = { s with cores := (stepEnd s c t).cores } := by
  unfold stepEnd
  simp only
  split <;> rfl

/-- An effect on one core's thread and on the loads in flight to a register, then the issue's own counters. -/
theorem threadOnly_finished {th : Thread} {dest : Option Nat} {s1 : State} (hk : getThread s1 c t = th)
    (ho : ∀ u, u ≠ t → getThread s1 c u = getThread s c u)
    (hc : getCore s1 c =
      { getCore s c with threads := (getCore s1 c).threads, reqs := (getCore s c).reqs.map (supersedes t dest) })
    (hd : ∀ d, d ≠ c → getCore s1 d = getCore s d) (hr : s1 = { s with cores := s1.cores }) :
    ThreadOnly c t dest th s (finished c t s1) where
  thread := by
    unfold finished
    rw [stepEnd_thread]
    simpa [getThread] using congrArg stepped hk
  threads u hu := by
    unfold finished
    rw [stepEnd_threads _ _ hu]
    simpa [getThread] using ho u hu
  core := by
    unfold finished
    rw [stepEnd_core]
    simp only [getCore_updCore_same, Core.noteIssue]
    rw [hc]
  cores d h := by
    unfold finished
    rw [stepEnd_cores _ _ h]
    simp [h, hd d h]
  rest := by
    unfold finished
    rw [stepEnd_rest, updCore_rest, hr]

theorem advance_rest (s : State) (c t : Nat) : advance s c t = { s with cores := (advance s c t).cores } := rfl

/-- An instruction that writes one general register. -/
theorem threadOnly_writeG (s : State) (c t n : Nat) (v : Word) :
    ThreadOnly c t (some n) (wroteG (getThread s c t) n v) s
      (finished c t (advance (updCore s c (fun k => k.writeG t n v)) c t)) := by
  refine threadOnly_finished ?_ ?_ ?_ ?_ rfl
  · simp [advance, getThread, wroteG, updThread, Core.writeG, Core.updThread, Core.setThread, Core.thread]
  · intro u hu
    simp [advance, getThread, updThread, Core.writeG, Core.updThread, Core.setThread, Core.thread, hu]
  · simp [advance, updThread, Core.writeG, Core.updThread, Core.setThread, supersedes]
  · intro d hd
    simp [advance, updThread, hd]

/-- An instruction whose effect is a change of its thread alone. -/
theorem threadOnly_updThread (s : State) (c t : Nat) (f : Thread → Thread) :
    ThreadOnly c t none (f (getThread s c t)) s (finished c t (updThread s c t f)) := by
  refine threadOnly_finished ?_ ?_ ?_ ?_ rfl
  · simp
  · intro u hu
    simp [hu]
  · rw [supersedes_none]
    simp [updThread, Core.updThread, Core.setThread]
  · intro d hd
    simp [updThread, hd]

end Sys2Proof.Machine
end

