-- ==== Sys2Proof/Laws/Memory.lean ====
section
/-!
SUPPORT. Laws/Memory.lean: the scrubber keeps the canonical form of a memory, and every memory of the state after reset has it.
-/

namespace Sys2Proof.Machine

theorem foldl_wf {α : Type} {f : Mem → α → Mem} (hf : ∀ m x, m.Wf → (f m x).Wf) (l : List α) {m : Mem} (h : m.Wf) : (l.foldl f m).Wf := by
  induction l generalizing m with
  | nil => exact h
  | cons x l ih => exact ih (hf m x h)

theorem scrub_wf {m : Mem} (h : m.Wf) (p : Nat → Bool) : (m.scrub p).1.Wf :=
  foldl_wf (fun _ w h => probe_wf h w) _ (foldl_wf (fun _ _ h => setMark_wf h _ _) _ h)

theorem reset_memories_wf (c i : Nat) : State.reset.bulk.Wf ∧ State.reset.flash.Wf ∧ (spGet {} State.reset.cores c).mem.localMem.Wf ∧
    (spGet {} State.reset.cores c).mem.gran.Wf ∧ (spGet {} State.reset.host.ports i).mem.Wf :=
  ⟨empty_wf, empty_wf, empty_wf, empty_wf, empty_wf⟩

end Sys2Proof.Machine
end

