-- ==== Sys2Proof/Machine/Pins.lean ====
section
/-!
DEFINITION. Machine/Pins.lean: what the module drives on the hinge pins, as functions of the state (14 R516, R518). The TAP and the trace of
the debug phase stay out (log entry 62).
-/

namespace Sys2Proof.Machine

/-! ## The run function (14 R516) -/

/-- The code on STATE[2:0]. -/
def stateCode (s : State) : Nat := if s.power.target.isSome then 7 else s.power.st.codeN

/-- The level of pin n in its run function: none where the module does not drive it so. GPIO n − 8 is an output where its direction bit is
set. -/
def pinLevel (s : State) (n : Nat) : Option Bool :=
  let out := odNum s 0x0D 0x11 0 0
  if !s.power.powered || s.power.st = .off || pinPhase s n != 3 then none
  else if n = 0 then some (ready s)
  else if n = 1 then some (spGet 3 s.power.phases 20 != 5)
  else if n = 2 then some (!dies.any (fun d => (getDie s d).warn))
  else if n = 3 then some (!s.power.throttled)
  else if n < 7 then some ((stateCode s).testBit (n - 4))
  else if n = 7 then some (!alertUnread s)
  else if n < 20 then (if (odNum s 0x0D 0x10 0 0).testBit (n - 8) then some (out.testBit (n - 8)) else none)
  else if n = 20 then some s.power.heartbeat
  else if n < 24 then some (out.testBit (n - 9))
  else none

/-! ## The fail phase (14 R518) -/

/-- One clock of the stream: FDATA0, FDATA1, FFRAME. -/
abbrev FailClock := Bool × Bool × Bool

/-- The 128 clocks of an entry: byte 0 first, the least significant bit pair first, FFRAME in the first. -/
def entryClocks (bs : List Byte) : List FailClock :=
  (List.range 128).map (fun k =>
    let b := bs.getD (k / 4) 0
    (b.getLsbD (2 * (k % 4)), b.getLsbD (2 * (k % 4) + 1), k == 0))

/-- One pass of the stream: the ring's 2,048 entries, oldest first, a slot that nothing has filled as zeros, then 64 clocks low. -/
def failPass (s : State) : List FailClock :=
  (List.range 2048).flatMap (fun k => entryClocks (ringEntry s ((s.recorder.next + k) % 2048))) ++
    List.replicate 64 (false, false, false)

end Sys2Proof.Machine
end

