-- ==== Sys2Proof/Tests/Slice0.lean ====
section
/-!
SUPPORT. Tests/Slice0.lean: small checks of the model, expected values taken from the spec; ill-formed commands; and, for every statement with
hypotheses, concrete states and operands that meet them (witness_…).
-/

namespace Sys2Proof.Tests

set_option Elab.async false


open Sys2Proof.Machine

/-! ## States -/

/-- Core 0, thread 1 RUNNING in job mode at 0x1000, with th and k changed by f and g. -/
def mk (f : Thread → Thread) (g : Core → Core) : State :=
  updCore (updThread State.reset 0 1 (fun x => f { x with pc := 0x1000, st := { x.st with state := .running } })) 0 g

def job : State := mk id id
def keeperOf (th : Thread) : Thread := { th with st := { th.st with pm := true } }
def keeper : State := mk keeperOf id

/-- Thread 1 with general registers n and n + 1 holding a and b. -/
def withG (n : Nat) (a b : Word) (th : Thread) : Thread :=
  { th with regs := (th.regs.gSet n ⟨a, false⟩).gSet (n + 1) ⟨b, false⟩ }

/-- The word of m with these operands first and zero for the others. -/
def wd (m : Mn) (vals : List Nat) : Word := encodeWord m ((List.range (operandFields m).length).map (fun i => vals.getD i 0))

/-! ## Issuing, as a computation -/

def offeredB (c t : Nat) (s : State) : Bool :=
  coreUp s c && decide (t < 16) && decide ((getThread s c t).st.state = .running) && (getThread s c t).stopReq.isNone &&
    (getThread s c t).twPend.isNone && (getThread s c t).walk.isNone && (getCore s c).sync.jsw.isNone &&
    (getThread s c t).deferred.isNone && (fetchCheck s c t).isNone

def issuesB (m : Mn) (c t : Nat) (w : Word) (s : State) : Bool :=
  offeredB c t s && decide (coreMnemonic w = some m) && (illegalSubs w).isEmpty && !(predicated w && !predHolds (getThread s c t) w)

def readyB (c t : Nat) (u : Uses) (s : State) : Bool := !u.busy (getCore s c) t && (u.poison (getThread s c t)).isEmpty

theorem offered_of {c t : Nat} {s : State} (h : offeredB c t s = true) : Offered c t s := by
  simp only [offeredB, Bool.and_eq_true, decide_eq_true_eq, Option.isNone_iff_eq_none] at h
  obtain ⟨⟨⟨⟨⟨⟨⟨⟨a, b⟩, d⟩, e⟩, f⟩, g⟩, i⟩, j⟩, k⟩ := h
  exact ⟨a, b, d, e, f, g, i, j, k⟩

theorem issues_of {m : Mn} {c t : Nat} {w : Word} {s : State} (h : issuesB m c t w s = true) : Issues m c t w s := by
  simp only [issuesB, Bool.and_eq_true, decide_eq_true_eq, List.isEmpty_iff, Bool.not_eq_true'] at h
  exact ⟨offered_of h.1.1.1, h.1.1.2, h.1.2, h.2⟩

theorem ready_of {c t : Nat} {u : Uses} {s : State} (h : readyB c t u s = true) : Ready c t u s := by
  simp only [readyB, Bool.and_eq_true, List.isEmpty_iff, Bool.not_eq_true'] at h
  exact ⟨h.1, h.2⟩

theorem quiet_of {k : Core} (h : k.mem.latch = []) : quietWords k := by intro x hx; simp [h] at hx

theorem allReady_of {c t : Nat} {s : State} (h : (getCore s c).ctl.gBusy = []) (h2 : (getCore s c).ctl.sBusy = [])
    (h3 : (getCore s c).reqs = []) : allReady c t s := by
  intro n; simp [Core.gBusy, Core.sBusy, h, h2, h3]

/-! ## Decoding: words written out from the encodings of the spec, one or more for each family -/

theorem test_word_add : coreMnemonic 0x0118440000000000 = some .add ∧ wGd 0x0118440000000000 = 3 ∧ wGa 0x0118440000000000 = 1 ∧
    wGb 0x0118440000000000 = 2 := by decide
theorem test_word_addi : coreMnemonic 0x0800000000000000 = some .addi := by decide
theorem test_word_fmul : coreMnemonic 0x2000000000000002 = some .fmul := by decide
theorem test_word_mset : coreMnemonic 0x2808000000000000 = some .mset := by decide
theorem test_word_brl : coreMnemonic 0x31F8001FFFFFFFFF = some .brl := by decide
theorem test_word_ld : coreMnemonic 0x7008400C00000000 = some .ld ∧ wSize 0x7008400C00000000 = 8 := by decide
theorem test_word_fence : coreMnemonic 0x7600000000000003 = some .fenceA := by decide
theorem test_word_take : coreMnemonic 0x7808400C00000000 = some .take := by decide
theorem test_word_dpost : coreMnemonic 0x8008400000000005 = some .dpost := by decide
theorem test_word_gsync : coreMnemonic 0x8A08000000000101 = some .gsync := by decide
theorem test_word_wrcr : coreMnemonic 0x9100400000000001 = some .wrcr := by decide
theorem test_word_tmma : coreMnemonic 0x4000000000000000 = some .tmma := by decide
theorem test_word_tld : coreMnemonic 0x4400000000000000 = some .tld := by decide
theorem test_word_tdrain : coreMnemonic 0x5000000000000000 = some .tdrain := by decide
theorem test_word_tvadd : coreMnemonic 0x6000000000000000 = some .tvadd := by decide
theorem test_word_red : coreMnemonic 0x6800000000400000 = some .redSumsq := by decide
theorem test_word_illegal : coreMnemonic 0 = none ∧ illegalSubs 0 = [1] := by decide

/-- A word with nothing but its instruction's fixed bits issues, in keeper mode, for every instruction of the core. -/
theorem test_every_row_issues : ([.add, .sub, .and, .or, .xor, .andn, .sll, .srl, .sra, .min, .max, .minu, .maxu, .mul, .mulh, .mulhu,
    .div, .divu, .rem, .remu, .clz, .ctz, .popc, .addi, .andi, .ori, .xori, .slli, .srli, .srai, .li, .lih, .cmp, .cmpi, .plog, .pget,
    .pset, .fadd, .fsub, .fmul, .fdiv, .fmin, .fmax, .fsqrt, .i2f, .f2i, .fabs, .fneg, .ffma, .fcmp, .mset, .mget, .mgen, .br, .brl, .jr,
    .jrl, .ld, .st, .fenceL, .fenceG, .fenceB, .fenceA, .dpost, .dstat, .garrive, .gwait, .gsync, .reap, .rwait,
    .rdcr, .wrcr, .kcall, .xret, .thrStart, .thrStop, .thrState, .jswitch, .cacheAll, .cacheLine, .tlbAll, .tlbEntry, .brk] : List Mn).all
      (fun m => issuesB m 0 1 (wd m []) keeper && readyB 0 1 (readsAB (wd m [])) keeper) = true := by decide +kernel
theorem test_every_latch_row_issues :
    [wd .take [0,0,0,0,0,3], wd .peek [0,0,0,0,0,3], wd .fill [0,0,0,0,0,3], wd .put [0,0,0,0,0,3], wd .lclr [0,0,0,0,3],
      wd .lds [0,0,0,0,0,3], wd .sts [0,0,0,0,0,3]].map (fun w => illegalSubs w) = [[], [], [], [], [], [], []] := by decide +kernel

/-! ## Well-formedness: a word of another row, and a WRCR of another register, are refused -/

theorem test_ill_formed_word : (Instr.add 0 1 (wd .sub [])).wellFormed = false := by decide +kernel
theorem test_ill_formed_word_refused : exec (.add 0 1 (wd .sub [])) job = .refused .illFormed := rfl
theorem test_ill_formed_register : (Instr.twinWrite 0 1 (wd .wrcr [0, 0, 0, 2])).wellFormed = false ∧
    (Instr.klimWrite 0 1 (wd .wrcr [0, 0, 0, 0x20])).wellFormed = false ∧ (Instr.kvecWrite 0 1 (wd .wrcr [0, 0, 0, 0x21])).wellFormed = false := by
  decide +kernel
theorem test_well_formed_zero_word : (Instr.add 0 1 0).wellFormed = true ∧ (Instr.add 0 1 (wd .add [])).wellFormed = true := by
  decide +kernel

/-! ## Scalar instructions: results the spec states -/

def okB (m : Mn) (u : Uses) (w : Word) (s : State) : Bool := issuesB m 0 1 w s && readyB 0 1 u s

theorem ok_of {m : Mn} {u : Uses} {w : Word} {s : State} (h : okB m u w s = true) : Issues m 0 1 w s ∧ Ready 0 1 u s := by
  simp only [okB, Bool.and_eq_true] at h
  exact ⟨issues_of h.1, ready_of h.2⟩

theorem all_ok {l : List Mn} {u : Mn → Uses} {f : Mn → Word} {s : State} (h : l.all (fun m => okB m (u m) (f m) s) = true) (m : Mn)
    (hm : m ∈ l) : Issues m 0 1 (f m) s ∧ Ready 0 1 (u m) s :=
  ok_of (List.all_eq_true.mp h m hm)

/-- What f reads in the state that a command leaves. -/
def after {α : Type} (i : Instr) (s : State) (f : State → α) : Option α :=
  match exec i s with
  | .next s' => some (f s')
  | _ => none

def g3 (s : State) : Nat := (gVal (getThread s 0 1) 3).toNat
def exc (s : State) : Nat × Nat := ((getThread s 0 1).st.xcode.toNat, (getThread s 0 1).st.xsub.toNat)

/-- Job mode with g1 and g2. -/
def job2 (a b : Word) : State := mk (withG 1 a b) id
def idz (a : Word) : State := mk (fun th => { withG 1 a 0 th with st := { th.st with teIdz := true } }) id

theorem test_add_wraps : after (.add 0 1 (wd .add [3, 1, 2])) (job2 (-1) 2) g3 = some 1 := by decide +kernel
theorem test_mulh_signed : after (.mulh 0 1 (wd .mulh [3, 1, 2])) (job2 (-1) 1) g3 = some (2 ^ 64 - 1) := by decide +kernel
theorem test_mulhu_unsigned : after (.mulhu 0 1 (wd .mulhu [3, 1, 2])) (job2 (-1) (-1)) g3 = some (2 ^ 64 - 2) := by decide +kernel
theorem test_sra_by_low_six_bits : after (.sra 0 1 (wd .sra [3, 1, 2])) (job2 (-8) 65) g3 = some (2 ^ 64 - 4) := by decide +kernel
theorem test_div_by_zero : after (.div 0 1 (wd .div [3, 1, 2])) (job2 7 0) g3 = some (2 ^ 64 - 1) := by decide +kernel
theorem test_div_traps : after (.div 0 1 (wd .div [3, 1, 2])) (idz 7) exc = some (0x0B, 0x05) := by decide +kernel
theorem test_rem_sign_of_dividend : after (.rem 0 1 (wd .rem [3, 1, 2])) (job2 (-7) 2) g3 = some (2 ^ 64 - 1) := by decide +kernel
theorem test_clz_of_zero : after (.clz 0 1 (wd .clz [3, 1])) (job2 0 0) g3 = some 64 := by decide +kernel
theorem test_li_sign_extends : after (.li 0 1 (wd .li [3, 0, 0, 2 ^ 37 - 1])) job g3 = some (2 ^ 64 - 1) := by decide +kernel
theorem test_lih_keeps_low_37 : after (.lih 0 1 (wd .lih [3, 1, 0, 0, 1])) (job2 (-1) 0) g3 = some (2 ^ 38 - 1) := by decide +kernel
theorem test_fadd_one_and_one : after (.fadd 0 1 (wd .fadd [3, 1, 2])) (job2 0x3F800000 0x3F800000) g3 = some 0x40000000 := by
  decide +kernel
theorem test_fdiv_by_zero_flag : after (.fdiv 0 1 (wd .fdiv [3, 1, 2])) (job2 0x3F800000 0)
    (fun s => (g3 s, (getThread s 0 1).st.flags.toNat)) = some (0x7F800000, 8) := by decide +kernel
theorem test_fsqrt_of_minus_one : after (.fsqrt 0 1 (wd .fsqrt [3, 1])) (job2 0xBF800000 0)
    (fun s => (g3 s, (getThread s 0 1).st.flags.toNat)) = some (0x7FC00000, 16) := by decide +kernel
theorem test_cmp_ltu_is_unsigned : after (.cmp 0 1 (wd .cmp [1, 1, 2, 0, 0, 4])) (job2 (-1) 1)
    (fun s => (getThread s 0 1).regs.pGet 1) = some false := by decide +kernel
theorem test_mgen_field : after (.mgen 0 1 (wd .mgen [1, 0, 0, 28, 4])) job (fun s => ((getThread s 0 1).regs.mGet 1).v.toNat) =
    some 0xF0000000 := by decide +kernel
theorem test_mgen_beyond_32 : after (.mgen 0 1 (wd .mgen [1, 0, 0, 29, 4])) job exc = some (1, 3) := by decide +kernel
theorem test_brl_links : after (.brl 0 1 (wd .brl [3, 0, 0, 2 ^ 37 - 2])) job (fun s => ((getThread s 0 1).pc.toNat, g3 s)) =
    some (0xFF0, 0x1008) := by decide +kernel

/-! ## Scalar statements: states that meet their hypotheses -/

theorem witness_StepRunsTheFrontCommand : State.reset.pending = [] := rfl
theorem witness_WellFormedCommandsRun : (Instr.add 0 1 (wd .add [])).wellFormed = true ∧ (Instr.add 0 1 (wd .sub [])).wellFormed = false := by
  decide +kernel
theorem witness_EncodingLosesNoBit : fieldsFit (operandFields .addi) [31, 31, 7, 1, 2 ^ 37 - 1] = true ∧
    coreMnemonic (wd .addi [31, 31, 7, 1, 2 ^ 37 - 1]) = some .addi ∧ reservedClear .addi (wd .addi [31, 31, 7, 1, 2 ^ 37 - 1]) = true := by
  decide +kernel
theorem witness_RegistersReadWhatWasWritten : (31 : Nat) ≠ 0 ∧ (0 : Nat) < 7 ∧ 7 < 8 ∧ (0 : Nat) ≠ 31 := by decide

theorem witness_AluAndImmediateRowsWriteGd : ∀ m ∈ ([.add, .sub, .and, .or, .xor, .andn, .sll, .srl, .sra, .min, .max, .minu, .maxu, .mul,
    .mulh, .mulhu, .clz, .ctz, .popc, .addi, .andi, .ori, .xori, .slli, .srli, .srai, .li, .lih, .pget, .mget, .fabs, .fneg] : List Mn),
    Issues m 0 1 (wd m [3]) (job2 5 0) ∧ Ready 0 1 (readsAB (wd m [3])) (job2 5 0) :=
  all_ok (u := fun m => readsAB (wd m [3])) (f := fun m => wd m [3]) (by decide +kernel)

theorem witness_DivisionRowsWriteQuotientOrRemainder :
    (∀ m ∈ ([.div, .divu, .rem, .remu] : List Mn), Issues m 0 1 (wd m [3, 1, 2]) (job2 (BitVec.intMin 64) (-1)) ∧
      Ready 0 1 (readsAB (wd m [3, 1, 2])) (job2 (BitVec.intMin 64) (-1)) ∧
      Issues m 0 1 (wd m [3, 1, 2]) (job2 7 0) ∧ Ready 0 1 (readsAB (wd m [3, 1, 2])) (job2 7 0) ∧
      Issues m 0 1 (wd m [3, 1, 2]) (idz 7) ∧ Ready 0 1 (readsAB (wd m [3, 1, 2])) (idz 7)) ∧
    (getThread (job2 7 0) 0 1).st.teIdz = false ∧ (getThread (idz 7) 0 1).st.teIdz = true ∧ gVal (getThread (idz 7) 0 1) 2 = 0 := by
  refine ⟨fun m h => ?_, by decide +kernel⟩
  have e := List.all_eq_true.mp (show (([.div, .divu, .rem, .remu] : List Mn).all (fun m =>
    okB m (readsAB (wd m [3, 1, 2])) (wd m [3, 1, 2]) (job2 (BitVec.intMin 64) (-1)) &&
    okB m (readsAB (wd m [3, 1, 2])) (wd m [3, 1, 2]) (job2 7 0) &&
    okB m (readsAB (wd m [3, 1, 2])) (wd m [3, 1, 2]) (idz 7))) = true by decide +kernel) m h
  simp only [Bool.and_eq_true] at e
  exact ⟨(ok_of e.1.1).1, (ok_of e.1.1).2, (ok_of e.1.2).1, (ok_of e.1.2).2, (ok_of e.2).1, (ok_of e.2).2⟩

theorem witness_PredicateAndMaskRowsSetTheirThread : ∀ m ∈ ([.cmp, .cmpi, .plog, .pset, .mset, .mgen] : List Mn),
    Issues m 0 1 (wd m [1]) (job2 5 0) ∧ Ready 0 1 (readsAB (wd m [1])) (job2 5 0) :=
  all_ok (u := fun m => readsAB (wd m [1])) (f := fun m => wd m [1]) (by decide +kernel)

/-- 1 / 0 with the trap of DZ enabled or not. -/
def fz (te : BitVec 5) : State := mk (fun th => { withG 1 0x3F800000 0 th with st := { th.st with te := te } }) id
theorem witness_FpRowsWriteResultAndFlags :
    (∀ m ∈ ([.fadd, .fsub, .fmul, .fdiv, .fmin, .fmax, .fsqrt, .i2f, .f2i, .ffma] : List Mn),
      Issues m 0 1 (wd m [3, 1]) (fz 0) ∧ Ready 0 1 { gIn := [1, 2, 3], gOut := [3] } (fz 0)) ∧
    Issues .fdiv 0 1 (wd .fdiv [3, 1, 2]) (fz 8) ∧ (fdivS 0x3F800000 0).flags.testBit 3 = true ∧ (getThread (fz 8) 0 1).st.te.getLsbD 3 = true ∧
    ((fdivS 0x3F800000 0).flags.testBit 4 && (getThread (fz 8) 0 1).st.te.getLsbD 4) = false := by
  refine ⟨all_ok (u := fun _ => { gIn := [1, 2, 3], gOut := [3] }) (f := fun m => wd m [3, 1]) (by decide +kernel),
    issues_of (by decide +kernel), by decide +kernel⟩

theorem witness_FpCompareWritesItsPredicate : Issues .fcmp 0 1 (wd .fcmp [1, 1, 2]) (job2 0x7F800001 0) ∧
    Ready 0 1 { gIn := [1, 2] } (job2 0x7F800001 0) ∧ (getThread (job2 0x7F800001 0) 0 1).st.te = 0 ∧
    (0x7F800001 : Nat) % 2 ^ 31 > 0x7F800000 ∧ Nat.testBit 0x7F800001 22 = false ∧ Nat.testBit 0x7FC00000 22 = true := by
  refine ⟨issues_of (by decide +kernel), ready_of (by decide +kernel), by decide +kernel⟩

/-- BR and BRL to the last place of LOCAL's tag, to a target under another tag; JR and JRL to a misaligned target and to one of tag 1. -/
theorem witness_BranchRowsSetThePc :
    (∀ m ∈ ([.br, .brl, .jr, .jrl] : List Mn), Issues m 0 1 (wd m []) job ∧ Ready 0 1 (readsA (wd m [])) job) ∧
    Issues .brl 0 1 (wd .brl [3, 0, 0, 2 ^ 36]) job ∧
    ((getThread job 0 1).pc + (((wd .brl [3, 0, 0, 2 ^ 36]).truncate 37 : BitVec 37).signExtend 64) * 8).extractLsb' 56 8 = 0xFF ∧
    Issues .jrl 0 1 (wd .jrl [3, 1]) (job2 4 0) ∧ (4 : Nat) % 8 ≠ 0 ∧
    Issues .jrl 0 1 (wd .jrl [3, 1]) (job2 0x0100000000000000 0) ∧
    (gVal (getThread (job2 0x0100000000000000 0) 0 1) 1).extractLsb' 56 8 = 1 := by
  refine ⟨all_ok (u := fun m => readsA (wd m [])) (f := fun m => wd m []) (by decide +kernel), issues_of (by decide +kernel), by decide +kernel,
    issues_of (by decide +kernel), by decide, issues_of (by decide +kernel), by decide +kernel⟩

theorem witness_IssueChecksComeFirst :
    (Instr.add 0 1 (wd .add [3, 1, 2, 1])).coreCall = some (.add, 0, 1, wd .add [3, 1, 2, 1]) ∧
    (Instr.add 0 1 (wd .add [3, 1, 2, 1])).wellFormed = true ∧ Offered 0 1 job ∧ allReady 0 1 job ∧
    coreMnemonic (wd .add [3, 1, 2, 1]) = some .add ∧ illegalSubs (wd .add [3, 1, 2, 1]) = [] ∧
    Permitted .add 0 1 (wd .add [3, 1, 2, 1]) job ∧ predicated (wd .add [3, 1, 2, 1]) = true ∧
    predHolds (getThread job 0 1) (wd .add [3, 1, 2, 1]) = false ∧
    (Instr.add 0 1 0).coreCall = some (.add, 0, 1, 0) ∧ (Instr.add 0 1 0).wellFormed = true ∧ illegalSubs 0 = 1 :: [] ∧
    field (0xFF00000000000000 : Word) 63 56 = 0xFF :=
  ⟨rfl, by decide +kernel, offered_of (by decide +kernel), allReady_of (by decide +kernel) (by decide +kernel) (by decide +kernel),
    by decide +kernel, by decide +kernel, ⟨.inr (.inl rfl), by decide, by decide⟩, by decide +kernel, by decide +kernel,
    rfl, by decide +kernel, by decide +kernel, by decide +kernel⟩

/-! ## Control registers, exceptions and threads -/

/-- Thread t of core 0 changed by f. -/
def also (t : Nat) (f : Thread → Thread) (s : State) : State := updThread s 0 t f
def inState (x : TState) (th : Thread) : Thread := { th with st := { th.st with state := x } }
def withXact (th : Thread) : Thread := { th with st := { th.st with xact := true } }
def keeper2 (a b : Word) : State := mk (fun th => keeperOf (withG 1 a b th)) id
def onCore (f : Core → Core) (s : State) : State := updCore s 0 f
/-- A request of thread t with the given kind and stage, for an address of core c. -/
def rq (id t : Nat) (kind : ReqKind) (va c off : Nat) (stage : ReqStage) : Req :=
  { id := id, thread := t, kind := kind, va := va, target := c, off := off, job := false, data := [], poison := false, stage := stage
    resp := 0, respPoison := false, orphan := 0, superseded := false, cancel := none }
def withReq (q : Req) (s : State) : State := onCore (fun k => { k with reqs := k.reqs ++ [q] }) s

theorem test_kcall_enters : after (.kcall 0 1 (wd .kcall [0, 0, 5])) job (fun s =>
    ((getThread s 0 1).pc.toNat, (getThread s 0 1).k.xpc.toNat, (getThread s 0 1).st.pm, exc s)) = some (0xB0000, 0x1008, true, 0, 5) := by
  decide +kernel
theorem test_trap_vector : after (.jrl 0 1 (wd .jrl [3, 1])) (job2 4 0) (fun s => ((getThread s 0 1).pc.toNat, exc s, g3 s)) =
    some (0xB00C0, (3, 2), 0) := by decide +kernel
theorem test_core_id_of_the_last_core : (coreIdWord State.reset 2303).toNat = 3 * 2 ^ 30 + 47 * 2 ^ 24 + 47 * 2 ^ 18 + 2 ^ 17 := by
  decide +kernel
theorem test_twin_beyond_32 : after (.wrcr 0 1 (wd .wrcr [1, 0, 0, 1])) (job2 1025 0) exc = some (2, 2) ∧
    after (.wrcr 0 1 (wd .wrcr [1, 0, 0, 1])) (keeper2 1025 0) exc = some (8, 2) := by decide +kernel
theorem test_thread_zero_after_reset : (getThread State.reset 0 0).pc = 0x000B0400 ∧ (getThread State.reset 0 0).st.state = .held := by
  decide +kernel

theorem witness_RdcrReadsRegistersOfTheStatedLayout :
    (∀ n ∈ [0x000, 0x001, 0x002, 0x003, 0x004, 0x010, 0x011, 0x012, 0x013, 0x014, 0x015, 0x016, 0x020, 0x021, 0x022, 0x023, 0x024],
      okB .rdcr (readsNone (wd .rdcr [3, 0, 0, n])) (wd .rdcr [3, 0, 0, n]) keeper = true ∧ field (wd .rdcr [3, 0, 0, n]) 11 0 = n) ∧
    (getThread keeper 0 1).st.pm = true ∧ okB .rdcr (readsNone (wd .rdcr [3, 0, 0, 4])) (wd .rdcr [3, 0, 0, 4]) job = true ∧
    (4 : Nat) < 0x10 ∧ rowOf 2303 < 64 := by decide +kernel

/-- TWIN takes COUNT 32 at BASE 0 and not at BASE 1; KLIM 0xB0000 and KVEC 0xBFC00 are the last legal values beside their resets. -/
theorem witness_WrcrWritesTheNamedRegister :
    (∀ n ∈ [0x000, 0x001, 0x002, 0x003, 0x004, 0x010, 0x011, 0x012, 0x013, 0x014, 0x015, 0x016, 0x020, 0x021, 0x022, 0x023, 0x024],
      okB .wrcr { gIn := [1] } (wd .wrcr [1, 0, 0, n]) keeper = true ∧ field (wd .wrcr [1, 0, 0, n]) 11 0 = n) ∧
    okB .wrcr { gIn := [1] } (wd .wrcr [1]) job = true ∧
    (∀ v ∈ [1024, 1025, 0xB0000, 0xB0001, 0xBFC00, 0xC0000], okB .wrcr { gIn := [1] } (wd .wrcr [1, 0, 0, 1]) (keeper2 (word v) 0) = true) ∧
    field (1024 : Word) 10 5 + field (1024 : Word) 4 0 = 32 ∧ field (1025 : Word) 10 5 + field (1025 : Word) 4 0 = 33 ∧
    tileBusy (getCore (keeper2 1024 0) 0) 1 = false ∧
    tileBusy (getCore (onCore (fun k => { k with tile := { k.tile with xfers := [⟨0, 1, 0, 0⟩] } }) (keeper2 1024 0)) 0) 1 = true ∧
    okB .wrcr { gIn := [1] } (wd .wrcr [1, 0, 0, 1])
      (onCore (fun k => { k with tile := { k.tile with xfers := [⟨0, 1, 0, 0⟩] } }) (keeper2 1024 0)) = true ∧
    (getCore (keeper2 0xB0000 0) 0).ctl.kvec = 0xB0000 ∧ (getCore (keeper2 0xBFC00 0) 0).ctl.klim = 0xB0000 := by decide +kernel

/-- The commands that job mode may not issue, with their words. -/
def privileged : List (Mn × Word × Instr) :=
  [(.wrcr, wd .wrcr [1, 0, 0, 0x10], .wrcr 0 1 (wd .wrcr [1, 0, 0, 0x10])), (.rdcr, wd .rdcr [3, 0, 0, 0x10], .rdcr 0 1 (wd .rdcr [3, 0, 0, 0x10])),
    (.xret, wd .xret [], .xret 0 1 (wd .xret [])), (.thrStart, wd .thrStart [], .thrStart 0 1 (wd .thrStart [])),
    (.thrStop, wd .thrStop [], .thrStop 0 1 (wd .thrStop [])), (.thrState, wd .thrState [], .thrState 0 1 (wd .thrState [])),
    (.jswitch, wd .jswitch [], .jswitch 0 1 (wd .jswitch [])), (.tlbAll, wd .tlbAll [], .tlbinvAll 0 1 (wd .tlbAll [])),
    (.tlbEntry, wd .tlbEntry [], .tlbinvEntry 0 1 (wd .tlbEntry [])),
    (.ld, wd .ld [3, 1, 0, 0, 0, 3], .ld 0 1 (wd .ld [3, 1, 0, 0, 0, 3]))]
def control : State := job2 0x0F00000000000000 0
theorem witness_KeeperOperationsTrapInJobMode :
    (∀ x ∈ privileged, x.2.2.coreCall = some (x.1, 0, 1, x.2.1) ∧ x.2.2.wellFormed = true ∧ coreMnemonic x.2.1 = some x.1 ∧
      illegalSubs x.2.1 = []) ∧ Offered 0 1 control ∧ allReady 0 1 control ∧ (getThread control 0 1).st.pm = false ∧
    ((getThread control 0 1).regs.gGet 1).p = false ∧ field (gVal (getThread control 0 1) 1) 63 56 = 0x0F :=
  ⟨by decide +kernel, offered_of (by decide +kernel), allReady_of (by decide +kernel) (by decide +kernel) (by decide +kernel),
    by decide +kernel, by decide +kernel, by decide +kernel⟩

theorem witness_KcallAndExceptionsEnterKeeperMode : Issues .kcall 0 1 (wd .kcall [0, 0, 255]) job ∧ (getThread job 0 1).st.xact = false ∧
    Issues .kcall 0 1 (wd .kcall []) (mk withXact id) ∧ (getThread (mk withXact id) 0 1).st.xact = true ∧
    (mk withXact id).recorder.intake.length < 64 ∧ Issues .kcall 0 1 (wd .kcall []) keeper ∧ (getThread keeper 0 1).st.pm = true :=
  ⟨issues_of (by decide +kernel), by decide +kernel, issues_of (by decide +kernel), by decide +kernel, by decide +kernel,
    issues_of (by decide +kernel), by decide +kernel⟩

theorem witness_KcallAndExceptionsEnterKeeperMode_entry : (getThread job 0 1).st.state = .running ∧ (getThread job 0 1).st.xact = false ∧
    (getThread (mk withXact id) 0 1).st.state = .running ∧ (getThread (mk withXact id) 0 1).st.xact = true := by decide +kernel

def xpcAt (v : Word) : State := mk (fun th => { keeperOf th with k := { th.k with xpc := v } }) id
theorem witness_XretReturnsFromKeeperMode : (∀ v ∈ [0, 0x00FFFFFFFFFFFFF8, 4, 0x0100000000000000],
      issuesB .xret 0 1 (wd .xret []) (xpcAt (word v)) = true ∧ (getThread (xpcAt (word v)) 0 1).st.pm = true) ∧
    (0x00FFFFFFFFFFFFF8 : Word).extractLsb' 56 8 = 0 ∧ (0x0100000000000000 : Word).extractLsb' 56 8 ≠ 0 := by decide +kernel

/-- Thread 2 in state x, named by g1 of keeper thread 1. -/
def thr (x : TState) : State := also 2 (inState x) (keeper2 2 0x2000)
theorem witness_ThrRowsControlAnotherThread :
    (∀ x ∈ [TState.stopped, .faulted, .halted, .held, .running], (∀ m ∈ ([.thrStart, .thrState, .thrStop] : List Mn),
      okB m (readsAB (wd m [3, 1])) (wd m [3, 1]) (thr x) = true) ∧ (getThread (thr x) 0 2).st.state = x) ∧
    coreUp (thr .running) 0 = true ∧
    (getThread (also 2 (fun th => { th with stopReq := some [(1, 3)] }) (thr .running)) 0 2).stopReq = some [(1, 3)] ∧
    (getThread (thr .running) 0 2).walk = none ∧ loadsPending (getCore (thr .running) 0) 2 = false ∧
    inSwitch (getCore (thr .running) 0) 2 = false := by decide +kernel

def fenced : State := withReq (rq 0 1 .store 0 0 0 .done) job
theorem witness_FencesCachesAndTranslationsInvalidate :
    (∀ m ∈ ([.fenceL, .fenceG, .fenceB, .fenceA, .cacheAll] : List Mn), issuesB m 0 1 (wd m []) job = true ∧
      issuesB m 0 1 (wd m []) fenced = true) ∧
    fencePending (getCore job 0) 1 .fenceL = false ∧ fencePending (getCore fenced 0) 1 .fenceL = true ∧
    (∀ a ∈ [0, 0x0100000000000040, 0x0300000000000000], okB .cacheLine { gIn := [1] } (wd .cacheLine [1]) (job2 (word a) 0) = true) ∧
    (∀ m ∈ ([.tlbAll, .tlbEntry] : List Mn), okB m { gIn := [1] } (wd m []) keeper = true) := by decide +kernel

/-- A debug session has claimed core 0. -/
def claimed : State := onCore (fun k => { k with ctl := { k.ctl with debugClaim := true } }) job
def waits (x : WaitOn) : State := mk (fun th => { inState .waiting th with wait := x, k := { th.k with wwdog := 1 } }) id
theorem witness_WatchdogsAndDebugMoveThreads :
    issuesB .brk 0 1 (wd .brk []) claimed = true ∧ 2 ≤ claimed.ward.debug ∧ (getCore claimed 0).ctl.debugClaim = true ∧
    issuesB .brk 0 1 (wd .brk []) job = true ∧ (getCore job 0).ctl.debugClaim = false ∧ coreUp job 0 = true ∧
    (getThread job 0 1).st.pm = false ∧ (getCore (onCore (fun k => { k with ctl := { k.ctl with twdog := 1 } }) job) 0).ctl.twdog ≠ 0 ∧
    (∀ x ∈ [WaitOn.gate 319 1 3 false, .reap 255 3, .latch 0], (getThread (waits x) 0 1).st.state = .waiting ∧
      (getThread (waits x) 0 1).wait = x ∧ (getThread (waits x) 0 1).k.wwdog ≠ 0 ∧ (getThread (waits x) 0 1).deferred = none ∧
      (getThread (waits x) 0 1).stopReq = none) ∧
    (getThread (mk (fun th => { th with deferred := some ⟨5, 3, 0⟩ }) id) 0 1).deferred = some ⟨5, 3, 0⟩ ∧
    (getThread job 0 1).stopReq = none ∧ (getThread job 0 1).walk = none ∧ loadsPending (getCore job 0) 1 = false ∧
    (getThread job 0 1).deferred = none ∧ inSwitch (getCore job 0) 1 = false ∧
    (getGate job (gateKey (dieOf job.grid 0) 319)).fabUsed (gateKey (dieOf job.grid 0) 319) = 0 ∧
    (getThread (mk (inState .halted) id) 0 1).st.state = .halted ∧ job.grid.proc = none ∧
    (getThread (mk (inState .faulted) id) 0 1).st.state = .faulted ∧ (getThread job 0 0).st.state = .held := by decide +kernel

/-! ## Memory instructions -/

def locB (w : Word) (store : Bool) (n : Nat) (s : State) : Bool :=
  !((getThread s 0 1).regs.gGet (wGa w)).p && !((getThread s 0 1).regs.gGet (wGb w)).p &&
    decide (field (memAddr (getThread s 0 1) w) 63 56 = 0x00) && decide ((memAddr (getThread s 0 1) w).toNat % n = 0) &&
    decide (field (memAddr (getThread s 0 1) w) 55 0 + n ≤ 0xC0000) &&
    decide ((getThread s 0 1).st.pm = true ∨ field (memAddr (getThread s 0 1) w) 55 0 + n ≤ (getCore s 0).ctl.klim.toNat) &&
    slotFree (getCore s 0) 1 && !mustFollow s 0 1 false store (field (memAddr (getThread s 0 1) w) 55 0) n
theorem local_of {w : Word} {store : Bool} {n : Nat} {s : State} (h : locB w store n s = true) : LocalAccess 0 1 w store n s := by
  simp only [locB, Bool.and_eq_true, decide_eq_true_eq, Bool.not_eq_true'] at h
  obtain ⟨⟨⟨⟨⟨⟨⟨a, b⟩, d⟩, e⟩, f⟩, g⟩, i⟩, j⟩ := h
  exact ⟨a, b, d, e, f, g, i, j⟩

/-- LD or ST of g3 at g1 with a size code; the register fields of a memory word. -/
def mw (m : Mn) (size : Nat) : Word := wd m [3, 1, 0, 0, 0, size]
def lcl : Word := wd .lclr [1, 0, 0, 0, 3]
/-- Local SRAM of core 0 with bytes at a and the marks of word a / 8. -/
def localAt (a : Nat) (bs : List Byte) (k : Mark) (s : State) : State :=
  onCore (fun c => { c with mem := { c.mem with localMem := { bytes := (bs.zipIdx.map (fun p => (a + p.2, p.1))).filter (fun p => p.2 != 0)
                                                              marks := spSet Mark.none [] (a / 8) k } } }) s
def fullMark : Mark := { full := true }
def poisonMark : Mark := { poison := true }
def reqs (s : State) : List (Nat × Bool × ReqStage) := (getCore s 0).reqs.map (fun q => (q.resp, q.respPoison, q.stage))

theorem test_ld_little_endian : after (.ld 0 1 (mw .ld 1)) (localAt 0x40 [0x34, 0x12] {} (job2 0x40 0)) reqs =
    some [(0x1234, false, .done)] := by decide +kernel
theorem test_st_byte_poison : after (.st 0 1 (mw .st 0)) (localAt 0x40 [1] poisonMark (job2 0x41 0))
    (fun s => ((getCore s 0).mem.localMem.byte 0x41, (getCore s 0).mem.localMem.mark 8)) = some (0, poisonMark) := by decide +kernel
theorem test_ld_at_the_limit_of_job_mode : after (.ld 0 1 (mw .ld 3)) (job2 0xB0000 0) exc = some (5, 3) := by decide +kernel
theorem test_take_of_a_full_word : after (.ldTake 0 1 (mw .take 3)) (localAt 0x40 [7] fullMark (job2 0x40 0))
    (fun s => (reqs s, (getCore s 0).mem.localMem.mark 8, (getThread s 0 1).st.state)) =
      some ([(7, false, .done)], {}, .waiting) := by decide +kernel
theorem test_take_from_bulk : after (.ldTake 0 1 (mw .take 3)) (job2 0x0400000000000000 0) exc = some (9, 1) := by decide +kernel
theorem test_gwait_disabled : after (.gwait 0 1 (wd .gwait [3, 1, 0, 0, 319])) job exc = some (0x0A, 4) := by decide +kernel
theorem test_gate_beyond_319 : after (.gsync 0 1 (wd .gsync [3, 0, 0, 320])) job exc = some (0x0A, 6) := by decide +kernel
theorem test_dpost_without_a_ring : after (.dpost 0 1 (wd .dpost [3, 1])) keeper exc = some (0x0D, 0x40) := by decide +kernel

theorem witness_AddressesFormAsStated : (255 : Nat) < 2 ^ (8 * wSize (mw .ld 4)) ∧ (128 : Nat) ≥ 2 ^ (8 * wSize (mw .ld 4) - 1) ∧
    4 ≤ field (mw .ld 4) 36 34 := by decide +kernel

theorem witness_LoadsFromLocalReadTheirBytes :
    Issues .ld 0 1 (mw .ld 3) (keeper2 0xBFFF8 0) ∧ Ready 0 1 { gOut := [3], gData := [1, 0] } (keeper2 0xBFFF8 0) ∧
    LocalAccess 0 1 (mw .ld 3) false 8 (keeper2 0xBFFF8 0) ∧ LocalAccess 0 1 (mw .ld 0) false 1 (job2 0xAFFFF 0) ∧
    Issues .lds 0 1 (mw .lds 3) (job2 0xAFF80 0) ∧ Ready 0 1 { gData := [1, 0], sOut := [3] } (job2 0xAFF80 0) ∧
    LocalAccess 0 1 (mw .lds 3) false 128 (job2 0xAFF80 0) ∧
    (getCore (localAt 0x40 [1] poisonMark (job2 0x40 0)) 0).mem.localMem.mark 8 = poisonMark ∧
    LocalAccess 0 1 (mw .ld 3) false 8 (localAt 0x40 [1] poisonMark (job2 0x40 0)) ∧ quietWords (getCore (keeper2 0xBFFF8 0) 0) ∧
    quietWords (getCore (localAt 0x40 [1] poisonMark (job2 0x40 0)) 0) :=
  ⟨issues_of (by decide +kernel), ready_of (by decide +kernel), local_of (by decide +kernel), local_of (by decide +kernel),
    issues_of (by decide +kernel), ready_of (by decide +kernel), local_of (by decide +kernel), by decide +kernel, local_of (by decide +kernel),
    quiet_of (by decide +kernel), quiet_of (by decide +kernel)⟩

def poisonedG3 : State := mk (fun th => { withG 1 0x40 0 th with regs := (withG 1 0x40 0 th).regs.gSet 3 ⟨1, true⟩ }) id
theorem witness_StoresToLocalWriteTheirBytes :
    (∀ z ∈ [0, 3], Issues .st 0 1 (mw .st z) (job2 0x40 0) ∧ Ready 0 1 { gData := [3, 1, 0] } (job2 0x40 0) ∧
      LocalAccess 0 1 (mw .st z) true 8 (job2 0x40 0)) ∧
    wSize (mw .st 0) = 1 ∧ wSize (mw .st 3) = 8 ∧
    Issues .st 0 1 (mw .st 0) (localAt 0x40 [1] poisonMark (job2 0x40 0)) ∧ LocalAccess 0 1 (mw .st 0) true 1 (localAt 0x40 [1] poisonMark (job2 0x40 0)) ∧
    Issues .st 0 1 (mw .st 3) poisonedG3 ∧ Ready 0 1 { gData := [3, 1, 0] } poisonedG3 ∧ LocalAccess 0 1 (mw .st 3) true 8 poisonedG3 ∧
    ((getThread poisonedG3 0 1).regs.gGet 3).p = true ∧
    Issues .sts 0 1 (mw .sts 3) (job2 0xAFF80 0) ∧ (getCore (job2 0xAFF80 0) 0).sBusy 1 3 = false ∧
    LocalAccess 0 1 (mw .sts 3) true 128 (job2 0xAFF80 0) ∧ quietWords (getCore (job2 0xAFF80 0) 0) ∧ quietWords (getCore poisonedG3 0) ∧
    quietWords (getCore (localAt 0x40 [1] poisonMark (job2 0x40 0)) 0) := by
  refine ⟨fun z h => ?_, by decide +kernel, by decide +kernel, issues_of (by decide +kernel), local_of (by decide +kernel),
    issues_of (by decide +kernel), ready_of (by decide +kernel), local_of (by decide +kernel), by decide +kernel,
    issues_of (by decide +kernel), by decide +kernel, local_of (by decide +kernel), quiet_of (by decide +kernel),
    quiet_of (by decide +kernel), quiet_of (by decide +kernel)⟩
  simp only [List.mem_cons, List.mem_nil_iff, or_false] at h
  rcases h with rfl | rfl
  · exact ⟨issues_of (by decide +kernel), ready_of (by decide +kernel), local_of (by decide +kernel)⟩
  · exact ⟨issues_of (by decide +kernel), ready_of (by decide +kernel), local_of (by decide +kernel)⟩

/-- CORE address of row 0, column 1. -/
def coreOne : Nat := 0x0200000000000000 + 2 ^ 36
/-- Core 0 with a request on its way to local SRAM of core 1, in job mode or not, at offset off. -/
def sent (kind : ReqKind) (jb : Bool) (off : Nat) (data : List Byte) : State :=
  withReq { rq 0 1 kind (coreOne + off) 1 off .sent with job := jb, data := data } job
theorem witness_FarAccessesLeaveAsRequests :
    (∀ m ∈ ([.ld, .st] : List Mn), issuesB m 0 1 (mw m 3) (job2 (word coreOne) 0) = true) ∧
    Ready 0 1 { gOut := [3], gData := [3, 1, 0] } (job2 (word coreOne) 0) ∧ FarAccess 0 1 (mw .ld 3) 8 (job2 (word coreOne) 0) ∧
    FarAccess 0 1 (mw .st 3) 8 (job2 (word coreOne) 0) ∧
    (∀ x ∈ [(ReqKind.load 3 8 false, true, 0xAFFF9), (.load 3 8 false, true, 0xAFFF8), (.load 3 8 false, false, 0xBFFF8)],
      findReq (sent x.1 x.2.1 x.2.2 []) 0 0 = some { rq 0 1 x.1 (coreOne + x.2.2) 1 x.2.2 .sent with job := x.2.1, data := [] } ∧
      (coreOne + x.2.2) / 2 ^ 56 = 2) ∧
    (∀ x ∈ [(true, 0xAFFF9), (true, 0xAFFF8), (false, 0xBFFF8)],
      findReq (sent .store x.1 x.2 (List.replicate 8 1)) 0 0 =
        some { rq 0 1 .store (coreOne + x.2) 1 x.2 .sent with job := x.1, data := List.replicate 8 1 }) ∧
    behind (getCore (sent .store true 0 []) 0) { rq 0 1 .store coreOne 1 0 .sent with job := true, data := [] } = false ∧
    (getCore job 1).ctl.klim.toNat < 0xAFFF9 + 8 ∧ 0xAFFF8 + 8 ≤ (getCore job 1).ctl.klim.toNat ∧
    (getThread (sent .store true 0 []) 0 1).deferred = none ∧ (rq 0 1 .store coreOne 1 0 .sent).route ≠ .cut ∧
    quietWords (getCore (sent .store true 0 []) 1) ∧ (0 : Nat) ≠ 1 ∧
    badWords { rq 0 1 .store (coreOne + 0xAFFF8) 1 0xAFFF8 .sent with job := true, data := List.replicate 8 1 } [1] ≠ [] := by
  exact ⟨by decide +kernel, ready_of (by decide +kernel), by constructor <;> decide +kernel, by constructor <;> decide +kernel, by decide +kernel,
    by decide +kernel, by decide +kernel, by decide +kernel, by decide +kernel, by decide +kernel, by decide +kernel, quiet_of (by decide +kernel),
    by decide, by decide +kernel⟩
/-- R507: a store whose second 32-bit word has bad parity makes its 64-bit word poison; a position beyond the data is none of its words. -/
theorem test_bad_parity_poisons : after (.remoteAccessArrive 0 0 [1, 2]) (sent .store false 0x40 (List.replicate 8 1))
    (fun s => (((getCore s 1).mem.localMem.mark 8).poison, s.od.xqParity, s.recorder.intake.map (·.code))) = some (true, 1, [0x12]) := by
  decide +kernel

def answered (kind : ReqKind) (x : WaitOn) : State :=
  withReq (rq 0 1 kind 0x40 0 0x40 .done) (mk (fun th => { th with wait := x, st := { th.st with state := if x = .none then .running else .waiting } }) id)
theorem witness_ResponsesWriteRegistersAndFreeSlots :
    (∀ x ∈ [(ReqKind.load 3 8 false, WaitOn.none), (.loadS 3, .none), (.take 3, .latch 0), (.peek 3, .latch 0), (.store, .none), (.put, .none),
        (.clear, .none), (.fill, .latch 0)],
      findReq (answered x.1 x.2) 0 0 = some (rq 0 1 x.1 0x40 0 0x40 .done) ∧ (rq 0 1 x.1 0x40 0 0x40 .done).cancel = none ∧
      answerHere (answered x.1 x.2) 0 (rq 0 1 x.1 0x40 0 0x40 .done) = true ∧ (getThread (answered x.1 x.2) 0 1).wait = x.2 ∧ (answered x.1 x.2).grid.proc = none ∧
      (getThread (answered x.1 x.2) 0 1).step = false) ∧
    (rq 0 1 .store 0x40 0 0x40 .done).stage = .done ∧ badWords (rq 0 1 (.load 3 8 false) 0x40 0 0x40 .done) [1] ≠ [] ∧
    (rq 0 1 (.load 3 8 false) 0x40 0 0x40 .done).superseded = false := by
  decide +kernel
/-- R507: a store of a poisoned register to CONTROL is discarded and counted. -/
theorem test_poisoned_control_store :
    after (.st 0 1 (mw .st 3))
      (mk (fun th => keeperOf { th with regs := (th.regs.gSet 1 ⟨0x0F00000000000100, false⟩).gSet 3 ⟨0xB0400, true⟩ }) id)
      (fun s => ((getCore s 0).ctl.kvec, s.od.ctlDrops)) = some (0xB0000, 1) := by decide +kernel

def latchWords : List (Mn × Word × Bool) := [(.take, mw .take 3, false), (.peek, mw .peek 3, false), (.fill, mw .fill 3, true),
  (.put, mw .put 3, true), (.lclr, lcl, true)]
theorem witness_LatchOperationsMoveTheLatchBit :
    (∀ k ∈ [Mark.none, fullMark], (∀ x ∈ latchWords, issuesB x.1 0 1 x.2.1 (localAt 0xAFFF8 [1] k (job2 0xAFFF8 0)) = true ∧
      locB x.2.1 x.2.2 8 (localAt 0xAFFF8 [1] k (job2 0xAFFF8 0)) = true ∧
      readyB 0 1 { gOut := [3], gData := [3, 1, 0] } (localAt 0xAFFF8 [1] k (job2 0xAFFF8 0)) = true) ∧
      (getCore (localAt 0xAFFF8 [1] k (job2 0xAFFF8 0)) 0).mem.latch = [] ∧
      (getCore (localAt 0xAFFF8 [1] k (job2 0xAFFF8 0)) 0).mem.localMem.mark (0xAFFF8 / 8) = k ∧ k.ecc ≠ .unc) := by decide +kernel

/-- The operations that form an address, each with its command. -/
def addressing : List (Mn × Word × Instr) :=
  [(.ld, mw .ld 3, .ld 0 1 (mw .ld 3)), (.st, mw .st 3, .st 0 1 (mw .st 3)), (.lds, mw .lds 3, .lds 0 1 (mw .lds 3)),
    (.sts, mw .sts 3, .sts 0 1 (mw .sts 3)), (.take, mw .take 3, .ldTake 0 1 (mw .take 3)), (.peek, mw .peek 3, .ldPeek 0 1 (mw .peek 3)),
    (.fill, mw .fill 3, .stFill 0 1 (mw .fill 3)), (.put, mw .put 3, .stPut 0 1 (mw .put 3)), (.lclr, lcl, .lclr 0 1 lcl)]
/-- Misaligned; FLASH; FABRIC, an unassigned space; LDS in HOST; a latch operation in BULK; beyond LOCAL; the keeper area; beyond the granary. -/
def badAddresses : List Nat := [0x41, 0x0500000000000000, 0x0700000000000000, 0x0600000000000000, 0x0400000000000000, 0xC0000, 0xB0000,
  0x0100000000500000]
theorem witness_BadAddressesTakeTheirExceptions :
    (∀ x ∈ addressing, x.2.2.coreCall = some (x.1, 0, 1, x.2.1) ∧ x.2.2.wellFormed = true ∧ formsAddress x.1 = true ∧
      (∀ a ∈ badAddresses, issuesB x.1 0 1 x.2.1 (job2 (word a) 0) = true)) ∧
    (∀ a ∈ badAddresses, (getThread (job2 (word a) 0) 0 1).st.pm = false ∧ field (word a) 63 56 ≠ 0x0F ∧
      slotFree (getCore (job2 (word a) 0) 0) 1 = true) ∧ rangeChecks (job2 0x0400000000000000 0) 0 true 8 0x0400000000000000 = [] ∧ allReady 0 1 (job2 0x41 0) ∧
    ((getThread (mk (fun th => { th with regs := th.regs.gSet 1 ⟨0, true⟩ }) id) 0 1).regs.gGet 1).p = true :=
  ⟨by decide +kernel, by decide +kernel, by decide +kernel, allReady_of (by decide +kernel) (by decide +kernel) (by decide +kernel),
    by decide +kernel⟩

def waiterOf (kind : ReqKind) : Waiter := ⟨false, 8, kind, 0, 0, [], false⟩
def stuck (stage : ReqStage) (x : Option CancelWhy) : State :=
  onCore (fun k => { k with mem := { k.mem with latch := [waiterOf (.take 3)] } })
    (withReq { rq 0 1 (.take 3) 0x40 0 0x40 stage with cancel := x } (mk (fun th => { inState .waiting th with wait := .latch 0 }) id))
/-- A returned request to core 1, which has become a hole. -/
def stuckAtHole : State :=
  withReq (rq 0 1 (.take 3) 0x40 1 0x40 .returned) { job with grid := { job.grid with pos := [(1, CoreFence.hole)] } }
theorem witness_LatchWaitsResendAndCancel :
    isHole (stuck .returned none) 0 = false ∧ isHole stuckAtHole 1 = true ∧ latchHeld stuckAtHole 1 = false ∧
    findReq stuckAtHole 0 0 = some (rq 0 1 (.take 3) 0x40 1 0x40 .returned) ∧ (getThread stuckAtHole 0 1).st.xact = false ∧
    findReq (stuck .returned none) 0 0 = some (rq 0 1 (.take 3) 0x40 0 0x40 .returned) ∧ latchHeld (stuck .returned none) 0 = false ∧
    ((getCore (stuck .returned none) 0).mem.localMem.mark 8) = {} ∧ (getCore (stuck .returned none) 0).mem.latch.length < 512 ∧
    (∀ x ∈ [CancelWhy.watchdog, .stop, .reset], ∀ st ∈ [ReqStage.done, .waiting, .returned],
      findReq (stuck st (some x)) 0 0 = some { rq 0 1 (.take 3) 0x40 0 0x40 st with cancel := some x } ∧
      (getThread (stuck st (some x)) 0 1).st.xact = false ∧ (stuck st (some x)).grid.proc = none ∧
      (getThread (stuck st (some x)) 0 1).step = false) := by decide +kernel

/-- Core 0 with its BULK root at 0x1000, enabled or not; a level-1 entry there leads to a leaf of 1 GiB at 0x2000. -/
def walking (en : Bool) : State :=
  onCore (fun k => { k with mem := { k.mem with mc := { k.mem.mc with trootb := if en then 0x1001 else 0x1000 } } })
    { mk (fun th => { th with walk := some { va := 0x0400000000000000, write := false } }) id with
      bulk := { bytes := [(0x1000, 1), (0x1001, 0x20), (0x2000, 3)] } }
theorem witness_TranslationWalksLoadOrTrap :
    (∀ m ∈ ([.ld, .st] : List Mn), issuesB m 0 1 (mw m 3) (job2 0x0400000000000000 0) = true) ∧
    field (0x0400000000000000 : Word) 63 56 = 0x04 ∧ (getCore (job2 0x0400000000000000 0) 0).mem.tlb = [] ∧
    slotFree (getCore (job2 0x0400000000000000 0) 0) 1 = true ∧ coreUp (walking false) 0 = true ∧
    (getThread (walking false) 0 1).walk = some { va := 0x0400000000000000, write := false } ∧
    bitOf (rootOf (getCore (walking false) 0) 4) 0 = false ∧ walk (walking false) 0 4 0 = (.fault 6, walking false) ∧
    (getThread (walking false) 0 1).st.xact = false ∧ (walk (walking true) 0 4 0).1 = .leaf 2 3 0x2000 := by decide +kernel

/-! ## Gates, reaps and the Drill -/

/-- Gate n of die 0 with core 0 as its only member, and core 0's copy of it. -/
def gateOpen (g : GateCtx) (n : Nat) (l : GateLocal) (s : State) : State :=
  setGateLocal (setGate s n { g with en := true, rows := 1, cols := 1 }) 0 n l
def lastHeld : GateLocal := { c := 5, sent := true, heldN := 1 }
theorem test_garrive_open : after (.garrive 0 1 (wd .garrive [3, 0, 0, 255])) (gateOpen { lcnt := 1 } 255 {} job)
    (fun s => (g3 s, (gateLocal s 0 255).openN, (getGate s 255).arr.cores)) = some (1, 1, []) := by decide +kernel
theorem test_garrive_next : after (.garrive 0 1 (wd .garrive [3, 0, 0, 255])) (gateOpen {} 255 { c := 7, sent := true } job)
    (fun s => (g3 s, (gateLocal s 0 255).heldN)) = some (9, 1) := by decide +kernel
theorem test_third_arrival : after (.garrive 0 1 (wd .garrive [3, 0, 0, 255])) (gateOpen {} 255 lastHeld job) exc =
    some (0x0A, 2) := by decide +kernel

/-- The gate states of each clause: disabled (319), no member, open, next, a third arrival; a copy that has and has not reached 6. -/
theorem witness_GateInstructionsArriveAndWait :
    (∀ m ∈ ([.garrive, .gsync] : List Mn), (∀ n ∈ [319, 320], okB m (readsNone (wd m [3, 0, 0, n])) (wd m [3, 0, 0, n]) job = true) ∧
      (∀ l ∈ [({} : GateLocal), { sent := true }, lastHeld], okB m (readsNone (wd m [3, 0, 0, 255])) (wd m [3, 0, 0, 255]) (gateOpen {} 255 l job) = true)) ∧
    (getGate job (gateKey 0 319)).en = false ∧ named 0 0 0 = false ∧ named 1 1 0 = true ∧ (getGate (gateOpen {} 255 {} job) 255).en = true ∧
    (gateLocal (gateOpen {} 255 {} job) 0 255).sent = false ∧ (getGate (gateOpen {} 255 {} job) 255).lcnt < lastHeld.heldN ∧
    (∀ c ∈ [6, 5], okB .gwait (readsA (wd .gwait [3, 1, 0, 0, 255])) (wd .gwait [3, 1, 0, 0, 255])
      (gateOpen {} 255 { c := BitVec.ofNat 32 c } (job2 6 0)) = true) ∧
    ((6 : BitVec 32) - 6).toNat < 2 ^ 31 ∧ 2 ^ 31 ≤ ((5 : BitVec 32) - 6).toNat := by decide +kernel

/-- Gate 0 of die 0, thread 1 of core 0 waiting for generation g of it. -/
def gateWait (g : GateCtx) (l : GateLocal) (gen : Nat) : State :=
  gateOpen g 0 l (mk (fun th => { inState .waiting th with wait := .gate 0 gen 3 false }) id)
def memberRows (rows cols : BitVec 48) : State := setGate job 0 { rows := rows, cols := cols }
theorem witness_GatesCompleteAndRelease :
    membersBad (memberRows 0 0) (gateDie 0) 0 0 (otherMembers 0 (({} : GateCtx).withCtl 1)) = true ∧ (getGate (memberRows 0 0) 0).en = false ∧
    membersBad (memberRows 1 1) (gateDie 0) 1 1 (otherMembers 0 (({} : GateCtx).withCtl 1)) = false ∧ bitOf (1 : Word) 0 = true ∧
    (getThread (memberRows 0 0) 0 1).deferred = none ∧ bitOf (0 : Word) 0 = false ∧ (getGate (gateWait {} {} 1) 0).en = true ∧
    (getThread (gateWait {} {} 1) 0 1).wait = .gate 0 1 3 false ∧ dieOf (gateWait {} {} 1).grid 0 = 0 ∧ isHole (gateWait {} {} 1) 0 = false ∧
    coreExists (gateWait {} {} 1) 0 = true ∧
    members (gateWait { arr := { cores := [0] } } {} 1) 1 1 = [0] ∧ (getGate (gateWait { arr := { cores := [0] } } {} 1) 0).arr.cores = [0] ∧
    treeClear (gateWait { arr := { cores := [0] } } {} 1) 1 1 = true ∧ (({} : GateCtx).sowUsed 0 &&& ~~~0) = 0 ∧
    (inScope (gateWait { gen := 1 } {} 1) (gateDie 0)).contains 0 = true ∧
    genReached (getGate (gateWait { gen := 1 } {} 1) 0).gen ((gateLocal (gateWait { gen := 1 } {} 1) 0 0).c + 1) = true ∧ (gateWait { gen := 1 } {} 1).resets = [] ∧
    commitPending (gateWait { gen := 1 } {} 1) 0 = false ∧ genReached (0 + 1) (BitVec.ofNat 32 1) = true ∧
    (∀ idle ∈ [true, false], ({ job with resets := [⟨false, 0, 1, 0, idle⟩] } : State).resets.find?
      (fun m => m.target == 0 && m.reap == false && m.ctx == 0) = some ⟨false, 0, 1, 0, idle⟩) ∧ gateDie 1087 = none := by decide +kernel

/-- Reap context n of die 0 with members core 0, or cores 0 and 1. -/
def reapOpen (r : ReapCtx) (cols : BitVec 48) (s : State) : State := setReap s 0 { r with en := true, rows := 1, cols := cols }
def withOut (o : ReapOut) (s : State) : State := setOuts s 0 [o]
def outOf (res : Option (List Nat × Nat)) : ReapOut := ⟨0, .thread 1 none, 1, res, none⟩
def reapW : Word := wd .reap [3, 1]
theorem test_reap_alone_completes : after (.reap 0 1 reapW) (reapOpen {} 1 (job2 0x80 0)) (fun s => (g3 s, (getReap s 0).round.toNat)) =
    some (1, 1) := by decide +kernel
theorem test_rwait_nothing : after (.rwait 0 1 (wd .rwait [3])) job exc = some (0x0A, 0x31) := by decide +kernel

theorem witness_ReapsContributeAndCollect :
    (∀ s ∈ [job2 0x80 0, reapOpen {} 2 (job2 0x80 0), reapOpen {} 3 (job2 0x80 0), reapOpen {} 1 (job2 0x80 0),
        withOut (outOf none) (reapOpen {} 3 (job2 0x80 0))],
      okB .reap { gIn := [1, 0], gOut := [3] } reapW s = true ∧ mustFollow s 0 1 false false 0x80 ((getReap s 0).lanes * 4 + (getReap s 0).lanes / 8) = false) ∧
    field (0x80 : Word) 63 56 = 0 ∧ 0x80 + ((getReap job 0).lanes * 4 + (getReap job 0).lanes / 8) ≤ 0xB0000 ∧
    (getReap job 0).en = false ∧ named 1 2 0 = false ∧ named 1 3 0 = true ∧ (findOut (withOut (outOf none) job) 0 0).isSome = true ∧
    findOut job 0 0 = none ∧ reapHole (reapOpen {} 3 (job2 0x80 0)) (getReap (reapOpen {} 3 (job2 0x80 0)) 0) = none ∧
    members job 1 3 = [0, 1] ∧ members job 1 1 = [0] ∧ (getReap (reapOpen {} 1 job) 0).ins = [] ∧
    (∀ s ∈ [job, withOut (outOf none) job, withOut (outOf (some ([], 0))) job], okB .rwait (readsNone (wd .rwait [3])) (wd .rwait [3]) s = true) ∧
    findOut (withOut (outOf none) job) 0 0 = some (outOf none) ∧ (outOf (some ([], 0))).result.isSome = true := by decide +kernel

def reapThere (x : WaitOn) : State :=
  withOut (outOf none) (reapOpen { outs := [⟨0, [1], 0⟩] } 1 (mk (fun th => { inState .waiting th with wait := x }) id))
theorem witness_ReapContextsOpenEndAndDeliver :
    (membersBad job (reapDie 0) 0 0 false || reapCfgBad 0 (({} : ReapCtx).withCtl 1)) = true ∧
    (membersBad job (reapDie 0) 1 1 false || reapCfgBad 0 (({ rows := 1, cols := 1 } : ReapCtx).withCtl 1)) = false ∧
    (getReap job 0).en = false ∧ (getReap (reapThere .none) 0).en = true ∧ members (reapThere .none) 1 1 = [0] ∧
    findOut (reapThere .none) 0 0 = some (outOf none) ∧ (getThread (reapThere .none) 0 1).deferred = none ∧
    (getReap (reapThere .none) 0).outs.find? (fun x => x.core == 0) = some ⟨0, [1], 0⟩ ∧
    (∀ t ∈ allThreads, (getThread (reapThere .none) 0 t).wait = .none) ∧ (getThread (reapThere (.reap 0 3)) 0 1).wait = .reap 0 3 ∧
    (getThread (reapThere (.reap 0 3)) 0 1).step = false ∧ (831 : Nat) < 832 := by decide +kernel

/-- Ring 0 of core 0: 4 slots at 0xB0000. -/
def ring (f : Ring → Ring) (s : State) : State := setRing s 0 0 (f { base := 0xB0000 / 64, logn := 2, job := true, en := true })
theorem test_dpost_takes_the_tail : after (.dpost 0 1 (wd .dpost [3, 1])) (ring id (job2 0x40 0))
    (fun s => (g3 s, (getRing s 0 0).tail)) = some (0, 1) := by decide +kernel
/-- Keeper thread 1 is alone on core 0, which may have a store in flight. -/
def alone (qs : List Req) : State := onCore (fun k => { k with reqs := qs }) (also 0 (inState .stopped) keeper)
def storeOut : List Req := [rq 0 1 .store 0x40 0 0x40 .done]
/-- Ring 0 free, context 0 open to cores 0 and 1, with and without a contribution of core 0. -/
def posting : State := reapOpen {} 3 (ring id (job2 0x80 0))
theorem witness_JswitchDpostDstatReapAndRwaitComplete :
    (∀ s ∈ [alone [], alone storeOut], issuesB .jswitch 0 1 (wd .jswitch []) s = true ∧ (getThread s 0 1).st.pm = true ∧ (∀ u ∈ [2, 3, 4, 5, 6, 7, 8, 9, 10, 11, 12, 13, 14, 15], (getThread s 0 u).st.state = .stopped) ∧
      
      (getThread s 0 0).st.state = .stopped ∧ ringsIdle (getCore s 0) = true ∧ enginesIdle (getCore s 0) = true ∧ (getCore s 0).drain.jobs = [] ∧
      (getCore s 0).mem.latch = [] ∧ (getCore s 0).mem.puts = [] ∧ s.gates = [] ∧ s.reaps = [] ∧ s.resets = []) ∧
    (getCore (alone []) 0).reqs = [] ∧ (getCore (alone storeOut) 0).reqs ≠ [] ∧
    okB .dpost { gIn := [1], gOut := [3] } (wd .dpost [3, 1]) posting = true ∧ okB .dstat { gOut := [3] } (wd .dstat [3]) posting = true ∧
    okB .reap { gIn := [1, 0], gOut := [3] } reapW posting = true ∧ (getRing posting 0 0).job = true ∧
    ringValid (getCore posting 0) (getRing posting 0 0) = true ∧ field (0x80 : Word) 63 56 = 0 ∧
    0x80 + 64 ≤ (getCore posting 0).ctl.klim.toNat ∧ mustFollow posting 0 1 false false 0x80 64 = false ∧
    (getCore posting 0).mem.localMem = {} ∧ (getCore posting 0).mem.latch = [] ∧ findOut posting 0 0 = none ∧
    reapHole posting (getReap posting 0) = none ∧ members posting 1 3 = [0, 1] ∧ (getReap posting 0).ins = [] ∧
    (∀ r ∈ [none, some ([], 0)], okB .rwait { gOut := [3] } (wd .rwait [3]) (withOut (outOf r) posting) = true ∧
      findOut (withOut (outOf r) posting) 0 0 = some (outOf r) ∧ (outOf r).who = .thread 1 none) := by decide +kernel

theorem witness_DrillPostsAndStatus :
    (∀ a ∈ [0xAFFC0, 0x41, 0x0100000000000000, 0x0F00000000000000], okB .dpost (readsA (wd .dpost [3, 1])) (wd .dpost [3, 1]) (ring id (job2 (word a) 0)) = true) ∧
    (∀ f ∈ [(fun r : Ring => { r with tail := 4 }), (fun r => { r with error := true }), (fun r => { r with job := false })],
      okB .dpost (readsA (wd .dpost [3, 1])) (wd .dpost [3, 1]) (ring f (job2 0xAFFC0 0)) = true ∧
      okB .dstat (readsNone (wd .dstat [3])) (wd .dstat [3]) (ring f (job2 0xAFFC0 0)) = true) ∧
    ringValid (getCore (ring id job) 0) (getRing (ring id job) 0 0) = true ∧ (getRing (ring id job) 0 0).job = true ∧
    2 ^ (getRing (ring (fun r => { r with tail := 4 }) job) 0 0).logn ≤ (4 + 2 ^ 32 - 0) % 2 ^ 32 ∧
    mustFollow (ring id (job2 0xAFFC0 0)) 0 1 false false 0xAFFC0 64 = false ∧ (getThread job 0 1).st.pm = false ∧
    (getCore (ring id (job2 0xAFFC0 0)) 0).mem.latch = [] ∧ (getCore (ring id (job2 0xAFFC0 0)) 0).mem.localMem = {} := by decide +kernel

/-- A descriptor: words 0 to 7. -/
def copyWords (src dst n : Nat) : List Nat := [0x01 * 2 ^ 56, src, dst, n, 0, 0, 0, 0]
/-- COPY of 64 bytes from 0 to 0x40 with its completion word at a. -/
def cplWords (a : Nat) : List Nat := [0x01 * 2 ^ 56 + 2 ^ 53, 0, 0x40, 64, 0, 0, 0, a]
def runOf (ws : List Nat) (ph : DescPhase) (st : Nat) : DescRun := ⟨0, ws, false, ph, st, 0, 0, 0, false⟩
theorem witness_DrillRingsStartAndEndDescriptors :
    coreUp job 0 = true ∧ (getRing job 0 0).en = false ∧ (getRing (ring id job) 0 0).en = true ∧
    ringOn (getCore (ring (fun r => { r with posted := [⟨0, 1, [], [], []⟩] }) job) 0)
      (getRing (ring (fun r => { r with posted := [⟨0, 1, [], [], []⟩] }) job) 0 0) = true ∧
    job.grid.proc = none ∧ latchHeld job 0 = false ∧ fabricWait job 0 0 = some none ∧ storesAcked (getCore job 0) ⟨0, 1, [], [], []⟩ = true ∧ wgReady job 0 [0, 0, 0, 0, 0, 0, 0, 0] = true ∧
    (getRing (ring (fun r => { r with cur := some (runOf (copyWords 0 0x40 64) .moved 0) }) job) 0 0).cur =
      some (runOf (copyWords 0 0x40 64) .moved 0) ∧ dGA (copyWords 0 0x40 64) = false ∧
    dCW [0x01 * 2 ^ 56 + 2 ^ 53, 0, 0, 0, 0, 0, 0, 0xBFFF8] = true ∧ dCPL [0x01 * 2 ^ 56 + 2 ^ 53, 0, 0, 0, 0, 0, 0, 0xBFFF8] < 0xC0000 ∧
    (getCore job 0).mem.latch = [] ∧ (getThread job 0 0).deferred = none ∧ (runOf [] .moved 2).status ≠ 0 := by decide +kernel

/-- The operation code of each row of the Drill, with bit 55 (PF) and bit 0 of word 0 where they choose a row. -/
theorem witness_DrillOperationsRunAndCopyMoves :
    (let p := patOf (copyWords 0 0xAFFC0 64) 3;
      dDRN (copyWords 0 0xAFFC0 64) = false ∧ dField (copyWords 0 0xAFFC0 64) 0 31 0 = 0 ∧ dField (copyWords 0 0xAFFC0 64) 3 27 20 = 0 ∧
      (patOf (copyWords 0 0 0) 3).l0 = 0 ∧ p.l0 ≠ 0 ∧ p.n1 = 0 ∧ p.n2 = 0 ∧ p.n3 = 0 ∧
      dAligned (dWord (copyWords 0 0xAFFC0 64) 1) p.l0 p.ss = true ∧ dAligned (dWord (copyWords 0 0xAFFC0 64) 2) p.l0 p.ds = true ∧
      dWord (copyWords 0 0xAFFC0 64) 2 + p.l0 ≤ (getCore job 0).ctl.klim.toNat ∧
      dWord (copyWords 0 0xAFFC0 64) 1 + p.l0 ≤ dWord (copyWords 0 0xAFFC0 64) 2) ∧
    dAligned 1 (patOf (copyWords 1 0 64) 3).l0 (patOf (copyWords 1 0 64) 3).ss = false ∧
    coreExists job 0 = true ∧ isHole job 0 = false ∧ (getCore job 0).burst = none ∧
    (∀ op ∈ [1, 2, 3, 4, 5, 6, 7, 8, 9, 10, 11, 12],
      (getRing (ring (fun r => { r with cur := some (runOf [op * 2 ^ 56 + 1, 0, 0, 0, 0, 0, 0, 0] .run 0) }) job) 0 0).cur =
        some (runOf [op * 2 ^ 56 + 1, 0, 0, 0, 0, 0, 0, 0] .run 0) ∧ ringOn (getCore (ring id job) 0) (getRing (ring id job) 0 0) = true ∧
      opCut (ring id job) 0 [op * 2 ^ 56 + 1, 0, 0, 0, 0, 0, 0, 0] = false ∧ dOp [op * 2 ^ 56 + 1, 0, 0, 0, 0, 0, 0, 0] = op) ∧
    dCW (copyWords 1 0 64) = false ∧ dCW (cplWords 0xBFFF8) = true ∧ dCPL (cplWords 0xBFFF8) % 8 = 0 ∧ dCPL (cplWords 0xBFFF8) < 0xC0000 ∧
    dPF [2 ^ 56 + 2 ^ 55] = true ∧ dPF (copyWords 0 0 64) = false ∧ (dWord [7 * 2 ^ 56 + 1] 0).testBit 0 = true ∧
    (dWord [7 * 2 ^ 56] 0).testBit 0 = false := by decide +kernel

/-! ## Tile moves, the array, the vector unit and the drain -/

/-- Thread 1 in mode km with the whole window and g1 = a, g2 = b; core 0's tile unit changed by f. -/
def win (km : Bool) (a b : Word) (f : TileUnit → TileUnit) : State :=
  mk (fun th => { (if km then keeperOf else id) (withG 1 a b th) with twCount := 32 }) (fun k => { k with tile := f k.tile })
/-- A tile register with a tag of the format for 32 rows of 8 granules. -/
def tag (n fmt : Nat) (u : TileUnit) : TileUnit := { u with regs := spSet {} u.regs n { fmt := fmt, nrows := 31, gran := 7 } }
/-- TLD or TST of register 31, 32 rows of 8 granules, format BF16, base g1, pitch of the rows. -/
def tw (m : Mn) : Word := wd m [31, 1, 0, 31, 7, 0, 0]
def tileGet (n : Nat) (s : State) : Nat × Nat × Nat := ((getTile s 0 n).fmt, (getTile s 0 n).nrows, (getTile s 0 n).gran)

theorem test_tile_after_reset : (State.reset |> fun s => tileGet 0 s) = (15, 31, 7) ∧ laneGet (getTile State.reset 0 0).side 0 = 0x7F7F7F7F := by
  decide +kernel
theorem test_tile_outside_window : after (.tmov 0 1 (wd .tmov [1, 0])) job exc = some (8, 1) := by decide +kernel
theorem test_tzero_tag : after (.tzero 0 1 (wd .tzero [31, 3, 1, 2])) (win false 0 0 id) (tileGet 31) = some (2, 3, 1) := by decide +kernel
theorem test_ttag_of_none : after (.ttag 0 1 (wd .ttag [3, 31])) (win false 0 0 id) g3 = some (15 * 2 ^ 12 + 31 * 2 ^ 7 + 7 * 2 ^ 4) := by
  decide +kernel
theorem test_tst_of_none : after (.tst 0 1 (tw .tst)) (win false 0x100 0 id) exc = some (7, 5) := by decide +kernel

theorem witness_TileMovesQueueAndRetire :
    (∀ km ∈ [false, true], ∀ x ∈ [(Mn.tld, tw .tld, 0xAF800), (.tst, tw .tst, 0xAF800), (.tlds, wd .tlds [31, 1], 0xAFF80), (.tsts, wd .tsts [31, 1], 0xAFF80)],
      okB x.1 { gIn := [1, 0] } x.2.1 (win km (word x.2.2) 0 (tag 31 0)) = true) ∧
    (31 : Nat) < (getThread (win false 0 0 id) 0 1).twCount.toNat ∧ tileWait (win false 0xAF800 0 (tag 31 0)) 0 [31] [31] = false ∧
    0xAF800 + (31 * 64 + 64) ≤ 0xB0000 ∧ 0xAFF80 + 128 ≤ 0xB0000 ∧ tileGet 31 (win false 0 0 (tag 31 0)) = (0, 31, 7) ∧
    tmRows (tw .tst) = 32 ∧ tmGrans (tw .tst) = 8 ∧ tmFmt (tw .tst) = 0 ∧ queueLen (getCore (win false 0 0 id) 0) < 4 ∧
    (∀ km ∈ [true], ∀ m ∈ ([.tld, .tst, .tlds, .tsts] : List Mn), okB m { gIn := [1, 0] } (wd m [31, 1]) (mk keeperOf id) = true) ∧
    (getThread (mk keeperOf id) 0 1).twCount = 0 ∧
    (∀ st ∈ [false, true], ∀ sd ∈ [false, true],
      moveFollows (win false 0xAF800 0 (tag 31 0)) 0 ⟨0, 1, st, sd, 31, false, 0xAF800, 64, 32, 8, 0, false⟩ = false ∧
      moveBlocked [] ⟨0, 1, st, sd, 31, false, 0x80, 64, 1, 8, 0, false⟩ = false ∧
      afterDrains (getCore job 0) ⟨0, 1, st, sd, 31, false, 0x80, 64, 1, 8, 0, false⟩ = false ∧
      (getCore (win false 0 0 (fun u => { u with moves := [⟨0, 1, st, sd, 31, false, 0x80, 64, 1, 8, 0, false⟩] })) 0).tile.moves.find?
        (fun x => x.store == st) = some ⟨0, 1, st, sd, 31, false, 0x80, 64, 1, 8, 0, false⟩) := by decide +kernel

def linked : State := win false 0 0 (fun u => { u with xfers := [⟨0, 1, 0, 31⟩] })
def brokenYoke : State := { win false 0 0 id with grid := { (win false 0 0 id).grid with pos := [(1, CoreFence.hole)] } }
theorem test_txfer_over_a_broken_yoke : after (.txfer 0 1 (wd .txfer [0, 0])) brokenYoke
    (fun s => (exc s, (getThread s 0 1).k.xinfo.toNat)) = some ((0x0C, 2), 1) := by decide +kernel
theorem witness_TileCopiesAndReads :
    (∀ m ∈ ([.tmov, .tzero, .txfer, .ttag] : List Mn), okB m { gOut := [31] } (wd m [31, 31]) (win false 0 0 id) = true ∧
      okB m { gOut := [31] } (wd m [31, 31]) job = true) ∧
    (getThread job 0 1).twCount = 0 ∧ (getThread (win false 0 0 id) 0 1).twCount = 32 ∧
    tileWait (win false 0 0 id) 0 [31] [31] = false ∧ tileWait (win false 0 0 id) (partner 0) [] [31] = false ∧
    yokeBroken (win false 0 0 id) 0 = false ∧ yokeBroken brokenYoke 0 = true ∧ issuesB .txfer 0 1 (wd .txfer [0, 0]) brokenYoke = true ∧
    (getCore (win false 0 0 id) 0).tile.xfers = [] ∧ (getCore (win false 0 0 id) 1).tile.passes = [] ∧
    (∀ b ∈ [0, 1, 2], ∀ x ∈ [0, 1], okB .tastat { gOut := [3] } (wd .tastat [3, b, x]) (win false 0 0 id) = true ∧
      bankBusy (getCore (win false 0 0 id) 0) b = false) ∧
    (getCore linked 0).tile.xfers = [⟨0, 1, 0, 31⟩] := by decide +kernel

/-- TMMA of BF16: 32 × 32, K of 8 granules, A in register 1 and B in register 2. -/
def mmw : Word := wd .tmma [0, 31, 31, 7, 1, 2]
def mmS (f : TileUnit → TileUnit) : State := win false 0 0 (fun u => f (tag 1 0 (tag 2 0 u)))
/-- A pass of INT8 on bank 0 that reads registers 1 and 2, started or not. -/
def pass (st : Bool) : Pass := ⟨0, 1, 10, 4, 4, 1, 1, 2, 0, false, false, false, false, 0, 0xF, 0xF, 0, [], none, st⟩
/-- One segment entry: B register 2, last row 31, 8 granules. -/
def segLo : Word := word (2 ^ 15 + 2 * 2 ^ 10 + 31 * 2 ^ 5 + 7 * 4)
/-- TMMA.SEG with its descriptor in g2 and g3; TMMA.CONV with its descriptor in g2 and g3. -/
def segW : Word := wd .tmmaSeg [0, 31, 31, 1, 2]
def segS : State := mk (fun th => { withG 2 segLo 0 th with twCount := 32 }) (fun k => { k with tile := tag 1 0 (tag 2 0 k.tile) })
/-- A one-dimensional convolution of BF16, 4 channels, width 1, kernel 1, in the 64 bytes at 0xAFFC0. -/
def convBytes : List Byte := [0, 0, 0, 0x10, 0, 0, 0, 0, 1, 0, 1, 0, 4, 0, 8, 0, 1, 1, 0, 0, 0, 0, 0, 0]
def convW : Word := wd .tmmaConv [0, 31, 31, 0, 2, 2]
def convS : State := localAt 0xAFFC0 convBytes {} (mk (fun th => { withG 2 0xAFFC0 0 th with twCount := 32 }) (fun k => { k with tile := tag 2 0 k.tile }))
theorem test_tmma_extent : after (.tmma 0 1 mmw) (mmS (fun u => { u with regs := spSet {} u.regs 1 { fmt := 0, nrows := 30, gran := 7 } })) exc =
    some (7, 1) := by decide +kernel
theorem test_int8_cell : (cellRun (pass true) 1 0 (List.replicate 8 (FV.num true 3 0)) (List.replicate 8 (FV.num false 5 0)) ⟨0, false, false, false⟩).bits =
    (2 ^ 32 - 120 : Nat) := by decide +kernel
theorem test_conv_queues : after (.tmmaConv 0 1 convW) convS (fun s => (getCore s 0).tile.passes.length) = some 1 := by decide +kernel
theorem test_seg_queues : after (.tmmaSeg 0 1 segW) segS (fun s => ((getCore s 0).tile.passes.map (·.segs))) = some [[⟨2, 31, 8⟩]] := by
  decide +kernel
theorem witness_ArrayPassesQueueStartAndLand :
    okB .tmma (mmUses mmw []) mmw (mmS id) = true ∧ mmA mmw = 1 ∧ mmB mmw = 2 ∧ arrayWait (mmS id) 0 mmw [1] [2] = false ∧
    sclRefused (mmPair mmw) (mmScl mmw) false = false ∧ bankModeAt (getCore (mmS id) 0) (mmAcc mmw) = .empty ∧ mmYK mmw = false ∧
    (∀ n ∈ [1, 2], tileGet n (mmS id) = (0, 31, 7) ∧ (getTile (mmS id) 0 n).prow = 0) ∧ mmScl mmw = 0 ∧
    (getTile (mmS (fun u => { u with regs := spSet {} u.regs 1 { fmt := 0, nrows := 30, gran := 7 } })) 0 1).nrows + 1 < mmRows mmw ∧
    okB .tmmaSeg (mmUses segW [2, 3]) segW segS = true ∧ segValid (segEntries segLo 0) = true ∧
    segsOf (getThread segS 0 1) (segEntries segLo 0) = [⟨2, 31, 8⟩] ∧ arrayWait segS 0 segW [1] [2] = false ∧
    okB .tmmaConv (mmUses convW [2, 3]) convW convS = true ∧ arrayWait convS 0 convW [] [2] = false ∧
    mustFollow convS 0 1 false false 0xAFFC0 64 = false ∧
    (let ws := wordsOf 8 ((getCore convS 0).mem.localMem.getBytes 0xAFFC0 64)
     let a : ConvArg := ⟨word (ws.getD 0 0), word (ws.getD 1 0), word (ws.getD 2 0), word (ws.getD 3 0), 0, 0⟩
     convValid (convGeom a) a (ws.drop 4) false 0 = true ∧ (convGeom a).endN ≤ 0xB0000) ∧
    (getCore (mmS (fun u => { u with passes := [pass false] })) 0).tile.passes.find? (fun q => !q.started) = some (pass false) ∧
    (getCore (mmS (fun u => { u with passes := [pass true] })) 0).tile.passes = [pass true] ∧ (pass true).fpair = 10 ∧
    (pass true).conv = none ∧ (pass true).clr = false := by decide +kernel

def vecRows : List Mn := [.tvadd, .tvsub, .tvmul, .tvfma, .tvmin, .tvmax, .tvscl, .tvcvt, .redSum, .redMax, .redMin, .redAbsmax, .redSumsq,
  .fnExp2, .fnExp, .fnLog2, .fnRcp, .fnRsqrt, .fnSqrt, .tvbcast]
def vecS : State := win false 0 0 (tag 0 0)
def vop (m : Mn) : VecOp := ⟨0, 1, wd m [], 0, 0, 0, 0xFFFFFFFF, 0⟩
theorem test_tvbcast_one : after (.vectorOpComplete 0) (win false 0 0 (fun u => { u with vecs :=
    [{ vop .tvbcast with word := wd .tvbcast [3], td := 3, lanes := 0x3F800000 }] })) (fun s => ((getTile s 0 3).row 0).toNat % 2 ^ 16) = some 0x3F80 := by
  decide +kernel
theorem witness_VectorOperationsQueueAndComplete :
    (∀ m ∈ vecRows, okB m (vUses (wd m [])) (wd m []) vecS = true ∧ okB m (vUses (wd m [])) (wd m []) job = true ∧
      tileWait vecS 0 ((vSources (wd m [])).map (phys (getThread vecS 0 1))) ((vDests (wd m [])).map (phys (getThread vecS 0 1))) = false ∧
      (∀ i ∈ vSources (wd m []), i = 0 ∧ vRows (wd m []) ≤ 32 ∧ fmtGrans 0 (vElems (wd m [])) ≤ 8) ∧ vElems (wd m []) ≤ 32 ∧
      vMR (wd m []) = 0 ∧ (vSources (wd m []) ++ vDests (wd m [])).length ≠ 0) ∧
    tileGet 0 vecS = (0, 31, 7) ∧ (getThread job 0 1).twCount = 0 ∧
    (getCore (win false 0 0 (fun u => { u with vecs := [vop .redSum] })) 0).tile.vecs = [vop .redSum] ∧ vIsRed (vop .redSum).word = true ∧
    (getCore (win false 0 0 (fun u => { u with vecs := [vop .tvadd] })) 0).tile.vecs = [vop .tvadd] ∧ vIsRed (vop .tvadd).word = false := by
  decide +kernel

/-- TDRAIN of bank 0 to register 31 as E4M3 with row scales: 32 rows and columns, descriptor at 0xAFFC0 in g2. -/
def tdw (dst : Nat) : Word := wd .tdrain [31, 2, 0, 0, 0, dst, 0, 0, 2, 0]
def tdD0 : Word := word (2 ^ 48 + 31 * 2 ^ 32 + 31 * 2 ^ 27)
def tdS (f : DrainUnit → DrainUnit) : State :=
  onCore (fun k => { k with drain := f k.drain })
    (localAt 0xAFFC0 [0, 0, 0, 0xF8, 0x1F, 0, 1, 0] {} (mk (fun th => { withG 2 0xAFFC0 0 th with twCount := 32 }) id))
def dj (dst : Nat) (d0 : Word) (ph : DrainPhase) : DrainJob :=
  { id := 0, seq := 0, thread := 1, word := tdw dst, d0 := d0, d1 := 0, d2 := 0, dest := 0x100, td := 31, tz := 0, fmt := 2, rs := 0, zs := 0, job := true
    phase := ph, vals := [], vals2 := [], rmax := [], counts := [], prow := 0, ppois := false, qexp := [], rowsOut := 0 }
def tokenD0 : Word := word (2 * 2 ^ 48)
def tokenS : State := setOuts (tdS (fun u => { u with jobs := [dj 0 tokenD0 .contributed] })) 0 [⟨0, .drain 0, 1, some ([], 0), none⟩]
theorem test_tdrain_queues : after (.tdrain 0 1 (tdw 0)) (tdS id) (fun s => (getCore s 0).drain.jobs.map (fun j => (j.fmt, j.td, j.d0))) =
    some [(2, 31, tdD0)] := by decide +kernel
theorem test_user_slot_without_table : after (.tdrain 0 1 (wd .tdrain [31, 2, 0, 0, 0, 0, 0, 0, 2, 12])) (tdS id) exc = some (7, 0x0F) := by
  decide +kernel
theorem witness_DrainsIssuePassAndRetire :
    (∀ x ∈ [0, 3], okB .tdrain { gIn := tdPair (tdw x) } (tdw x) (tdS id) = true ∧ drainBusy (tdS id) 0 (tdw x) = false ∧
      userSlot (tdFn (tdw x)) = none ∧ tdDst (tdw x) = x ∧ tdBwd (tdw x) = false ∧ tdVecs (tdw x) tdD0 = []) ∧
    wordsOf 8 ((getCore (tdS id) 0).mem.localMem.getBytes 0xAFFC0 64) = tdD0.toNat :: List.replicate 7 0 ∧
    drainFmt (tdS id) (tdw 0) tdD0 = 2 ∧ ddG0 tdD0 + drainGrans tdD0 2 ≤ 8 ∧ paramEnd (tdw 0) tdD0 = 0 ∧ ddStw tdD0 = false ∧ ddOsc tdD0 = 1 ∧
    tileWait (tdS id) 0 [31] [31] = false ∧ mustFollow (tdS id) 0 1 false false 0xAFFC0 64 = false ∧
    (∀ i ∈ List.range 8, (getCore (tdS id) 0).mem.localMem.mark (0xAFFC0 / 8 + i) = Mark.none) ∧ (getCore (tdS id) 0).sBusy 1 0 = false ∧
    nextPass (tdS (fun u => { u with jobs := [dj 0 tdD0 .issued] })) 0 = some (dj 0 tdD0 .issued) ∧ ddOsc tdD0 ≠ 2 ∧
    (getCore tokenS 0).drain.jobs = [dj 0 tokenD0 .contributed] ∧ findOut tokenS 0 0 = some ⟨0, .drain 0, 1, some ([], 0), none⟩ ∧
    ddOsc tokenD0 = 2 ∧
    (∀ x ∈ [0, 1, 3], nextPass (tdS (fun u => { u with jobs := [dj x tdD0 .scaled] })) 0 = some (dj x tdD0 .scaled)) ∧
    coreUp (tdS id) 0 = true ∧ (getCore (tdS id) 0).mem.latch = [] ∧
    (getCore (tdS (fun u => { u with jobs := [dj 0 (word (2 ^ 50)) .written] })) 0).drain.jobs.find? (fun j => j.phase = .written) =
      some (dj 0 (word (2 ^ 50)) .written) ∧ ddStw (word (2 ^ 50)) = true ∧
    findReq (withReq { rq 0 1 .store 0x0F00000000023FFC 1 0x3FFC .tableHeld with data := [1, 2, 3, 4] } job) 0 0 =
      some { rq 0 1 .store 0x0F00000000023FFC 1 0x3FFC .tableHeld with data := [1, 2, 3, 4] } ∧ (getCore job 1).drain.jobs = [] ∧
    ({ job with gov := { job.gov with due := some 0 } } : State).gov.due = some 0 ∧ job.gov.cfg.fabric = false ∧ job.gov.again = 0 ∧
    job.gov.later = [] ∧ job.gov.slots = [] := by
  decide +kernel

/-! ## Engines, the grid and the sowing engines -/

/-- Core 0 with an engine's ring at 0, enabled, its command, a lane table of one lane at 0x10000, and granary bytes. -/
def eng (b : Bool) (cmd : Option EngCmd) (hwdog : Nat) (g : List Host.Cell) (ms : Sparse Mark) : State :=
  onCore (fun k => { k with
    eng := { k.eng with harrow := (if b then {} else { logn := 2, en := true, cmd := cmd })
                        winnow := (if b then { logn := 2, en := true, cmd := cmd } else {}), laneN := 1, laneBase := 0x10000 / 32, hwdog := hwdog }
    mem := { k.mem with gran := { bytes := g, marks := ms } } }) job
def cmdOfWords (ws : List Nat) (ph : EngPhase) : EngCmd := { words := ws, bad := false, phase := ph, epoch := 0, status := 0, result := 0 }
def updW : List Nat := [2 ^ 56 + 32, 0x1000 + 0x2000 * 2 ^ 32, 0x3000 * 2 ^ 32, 0x4000 + 0x5000 * 2 ^ 32, 0x6000 + 0x7000 * 2 ^ 32, 0x8000 * 2 ^ 32, 0, 0x100]
def normW : List Nat := [2 * 2 ^ 56 + 32, 0x1000, 0, 0, 0, 0, 0, 0x100]
def verdW (clr : Nat) : List Nat := [3 * 2 ^ 56 + clr * 2 ^ 44, 0, 0, 0, 0, 0, 0, 0x100]
/-- The granary of a core with epoch word v at 0x6000, full or not. -/
def epoch (v : List Host.Cell) (full : Bool) (ph : EngPhase) : State :=
  eng false (some (cmdOfWords updW ph)) 1 (v.map (fun p => (0x6000 + p.1, p.2))) (if full then [(0x6000 / 8, fullMark)] else [])

/-- The same with the inputs of its UPDATE read, and SKIP. -/
def begun (skip full : Bool) (v : List Host.Cell) : State :=
  updCmd (epoch v full .run) 0 false (fun m => { m with hyper := List.replicate 8 0, laneSkip := skip })

theorem test_clear_zeroes_chaff : after (.clear 0) (eng true (some (cmdOfWords [3 * 2 ^ 56 + 32, 0x1000 * 2 ^ 32, 0, 0, 0, 0, 0, 0x100] .run)) 0 [(0x1000, 9)] [])
    (fun s => ((getCore s 0).mem.gran.bytes, (getEng s 0 true).cmd.map (fun m => (m.phase, m.status)))) = some ([], some (.ended, 0)) := by
  decide +kernel
/-- 32 elements of 1.0: the sum of squares is 32. -/
theorem test_norm_of_ones : after (.norm 0) (eng false (some (cmdOfWords normW .run)) 0
    ((List.range 32).flatMap (fun i => [(0x1002 + 4 * i, (0x80 : Byte)), (0x1003 + 4 * i, 0x3F)])) []) (fun s => laneField s 0 0 0x10) =
      some 0x42000000 := by decide +kernel

/-- The slot of a ring at LOCAL 0 holds a VERDICT, full. -/
def slotFull : State := localAt 0 [0, 0, 0, 0, 0, 0, 0, 3] fullMark (eng false none 1 [] [])
theorem witness_EngineRingsTakeAndEndCommands :
    (getEng job 0 false).en = false ∧ (getEng (eng false none 1 [] []) 0 false).en = true ∧ bitOf (1 : Word) 0 = true ∧
    coreExists slotFull 0 = true ∧ isHole slotFull 0 = false ∧ (getEng slotFull 0 false).cmd = none ∧ (getCore slotFull 0).mem.latch = [] ∧
    (getCore slotFull 0).mem.localMem.mark 0 = fullMark ∧ latchHeld slotFull 0 = false ∧
    (∀ i ∈ List.range 7, (getCore slotFull 0).mem.localMem.mark (i + 1) = Mark.none) ∧
    wordsOf 8 ((getCore slotFull 0).mem.localMem.getBytes 0 64) = [3 * 2 ^ 56, 0, 0, 0, 0, 0, 0, 0] ∧
    eOpOk false [3 * 2 ^ 56] = true ∧ eOpOk false [4 * 2 ^ 56] = false ∧
    (getEng (eng false (some (cmdOfWords normW .ended)) 1 [] []) 0 false).cmd = some (cmdOfWords normW .ended) ∧
    eCplOk (getCore (eng false none 1 [] []) 0) (getEng (eng false none 1 [] []) 0 false) normW = true ∧
    eCplOk (getCore (eng false none 1 [] []) 0) (getEng (eng false none 1 [] []) 0 false) [0, 0, 0, 0, 0, 0, 0, 4] = false ∧
    (getEng (epoch [] false .epochWait) 0 false).cmd = some (cmdOfWords updW .epochWait) ∧ eOp updW = 1 ∧
    (getCore (epoch [] false .epochWait) 0).eng.hwdog = 1 := by decide +kernel

def verdS (cols : BitVec 48) : State := reapOpen {} cols (eng false (some (cmdOfWords (verdW 0) .run)) 0 [] [])
def verdOut : ReapOut := ⟨0, .harrow, 1, some ([0x3F800000], 0), none⟩
/-- VERDICT of 32 lanes. -/
def verd32 : List Nat := [3 * 2 ^ 56 + 31, 0, 0, 0, 0, 0, 0, 0x100]
def verd32S (cols : BitVec 48) : State :=
  reapOpen {} cols (onCore (fun k => { k with eng := { k.eng with laneN := 32 } }) (eng false (some (cmdOfWords verd32 .run)) 0 [] []))
theorem witness_HarrowCommandsRun :
    (∀ ph ∈ [EngPhase.run, .epochWait], (getEng (epoch [] true ph) 0 false).cmd = some (cmdOfWords updW ph)) ∧ eOp updW = 1 ∧
    updateCheck (epoch [] false .run) 0 updW = none ∧ updateCheck job 0 updW = some 0x13 ∧ uZg updW = false ∧
    (getCore (epoch [] false .run) 0).mem.gran = {} ∧ (getCore (epoch [] false .run) 0).mem.localMem = {} ∧
    (epoch [] false .run).resil.stubArea = none := by decide +kernel
theorem witness_HarrowCommandsRun_begun :
    (∀ x ∈ [false, true], ∀ f ∈ [false, true], (getEng (begun x f []) 0 false).cmd =
        some { cmdOfWords updW .run with hyper := List.replicate 8 0, laneSkip := x } ∧
      ((getCore (begun x f []) 0).mem.gran.mark (uEpw updW / 8)).full = f ∧
      ((getCore (begun x f []) 0).mem.gran.mark (uEpw updW / 8)).ecc = .clean) ∧
    ofBytes ((getCore (begun false true [(3, 0x80)]) 0).mem.gran.getBytes (8 * (uEpw updW / 8)) 8) = 2 ^ 31 ∧ uNb3 updW = false ∧
    cntOf updW 0 0 = 0 ∧ cntOf updW 0 (ofBytes ((getCore (begun false true [(1, 0x04)]) 0).mem.gran.getBytes (8 * (uEpw updW / 8)) 8)) = 1 := by decide +kernel
theorem witness_HarrowCommandsRun_sums :
    eOp normW = 2 ∧ normCheck (eng false (some (cmdOfWords normW .run)) 0 [] []) 0 normW = none ∧ normCheck job 0 normW = some 0x13 ∧
    (∀ n ∈ [0, 1], eOp (verdW n) = 3 ∧ vClr (verdW n) = (n == 1) ∧ verdictCheck (verdS 1) 0 (verdW n) = none ∧ verdictCheck job 0 (verdW n) = some 0x13) ∧
    verdictCtxOk (verdS 1) 0 (verdW 0) = false ∧ verdictCheck (verd32S 3) 0 verd32 = none ∧ verdictCtxOk (verd32S 3) 0 verd32 = true ∧
    reapHole (verd32S 3) (getReap (verd32S 3) 0) = none ∧ members (verd32S 3) 1 3 = [0, 1] ∧ (getReap (verd32S 3) 0).ins = [] ∧
    (stubbleNow { job with resil := { job.resil with stubArea := some 0 } }).lanes.contains 0 = false ∧
    findOut (withOut verdOut (eng false (some (cmdOfWords (verdW 0) .reapWait)) 0 [] [])) 0 0 = some verdOut ∧
    (∀ x ∈ [0x3F800000, 0x7F800000], f32finite x = (x == 0x3F800000)) := by decide +kernel

def winW (op mode : Nat) : List Nat := [op * 2 ^ 56 + mode * 2 ^ 54 + 4 * 2 ^ 50 + 256, 0x1000, 0x0100000000008000, 0x1000, 0, 0, 0, 0x100]
/-- A packet header at 0x8000 of the given kind for 256 elements, of length n. -/
def header (kind : Byte) (n : Nat) : List Host.Cell :=
  [(0x8001, 1), (0x8007, kind), (0x800C, BitVec.ofNat 8 n), (0x800D, BitVec.ofNat 8 (n / 256))].filter (fun p => p.2 != 0)
theorem witness_WinnowCommandsRun :
    (∀ op ∈ [1, 2], ∀ mode ∈ [0, 1, 2], eOp (winW op mode) = op ∧ eMode (winW op mode) = mode ∧ nEf (winW op mode) = false ∧
      winnowCheck (eng true (some (cmdOfWords (winW op mode) .run)) 0 [] []) 0 (winW op mode) false (op == 1) = none ∧
      winnowCheck job 0 (winW op mode) false (op == 1) = some 0x13 ∧
      (getEng (eng true (some (cmdOfWords (winW op mode) .run)) 0 [] []) 0 true).cmd = some (cmdOfWords (winW op mode) .run)) ∧
    (∀ x ∈ [((3 : Byte), 0, 32 + 1024), (2, 2, 32 + 8 + 32), (1, 1, 32)],
      let s := eng true (some (cmdOfWords (winW 2 x.2.1) .run)) 0 (header x.1 x.2.2) []
      let p (off len : Nat) : Nat := ofBytes ((coreMem s true 0).getBytes (0x8000 + off) len)
      32 ≤ nPcap (winW 2 x.2.1) ∧ fieldN (p 0 8) 63 56 = x.1.toNat ∧ fieldN (p 0 8) 31 0 = 256 ∧ fieldN (p 0 8) 43 32 = 0 ∧ p 8 4 = 0 ∧
      p 12 4 = packetBytes x.1.toNat 256 (p 20 4) ∧ p 12 4 ≤ nPcap (winW 2 x.2.1) ∧ (p 0 8).testBit 51 = false) ∧
    clearCheck (eng true none 0 [] []) 0 [3 * 2 ^ 56 + 32, 0x1000 * 2 ^ 32, 0, 0, 0, 0, 0, 0x100] = none ∧
    clearCheck (eng true none 0 [] []) 0 [3 * 2 ^ 56 + 31, 0, 0, 0, 0, 0, 0, 0] = some 0x11 := by decide +kernel

def fencing (hole written : Bool) : State := { job with grid := { job.grid with
  proc := some { pos := 2303, readable := true, deadRtr := false, cause := 1, hole := hole, mapWritten := written } } }
theorem test_reset_of_a_core : after (.coreReset 0) job (fun s => ((getThread s 0 0).pc.toNat, (getThread s 0 1).st.state)) =
    some (0x000B0400, .stopped) := by decide +kernel
theorem test_first_fence_uses_the_spare : after (.fenceCore 0 1 true false) job (fun s => (fenceOf s 0, s.grid.proc.map (·.hole))) =
    some (.fencing, some false) := by decide +kernel
theorem witness_CoresFenceMoveAndReset :
    coreExists job 2303 = true ∧ isHole job 2303 = false ∧ (∀ h ∈ [false, true], coresHold (fencing h false) = true) ∧ job.grid.proc = none ∧ (skipOf job.grid (furrowOf job.grid 2303)).2 = true ∧
    (∀ h ∈ [false, true], netsDrained (fencing h false) = true ∧ (fencing h false).grid.proc =
      some { pos := 2303, readable := true, deadRtr := false, cause := 1, hole := h, mapWritten := false }) ∧
    (fencing false true).grid.proc.map (·.mapWritten) = some true ∧ coreUp job 2303 = true ∧ job.ward.entropyBad = false ∧
    (11 : Nat) < 12 ∧ ({ job with ward := { job.ward with lcrec := [1] } } : State).ward.lcrec.getLast?.getD 0 = 1 ∧ job.ward.debug = 3 ∧
    job.ward.lcrec.getLast?.getD 0 = 0 ∧ job.grid.fuses = [] := by decide +kernel

/-- Core 1 with its granary cache in a state of maintenance. -/
def maint (op : Nat) (made : Bool) : State :=
  updCore job 1 (fun k => { k with mem := { k.mem with
    gcache := [⟨1, 0, 1, List.replicate 256 7, []⟩], mc := { k.mem.mc with gcbusy := true, gcdone := made, gcop := op, csteps := 1 } } })
theorem test_gsplit_takes_steps : after (.gsplitWrite 1 20) (updCore job 1 (fun k => k.setThread 0 {})) (fun s => (getCore s 1).mem.mc.csteps) =
    some 20 := by decide +kernel
theorem witness_SplitsCachesCountersAndRegisters :
    (let s := updCore job 1 (fun k => k.setThread 0 {});
      coreUp s 1 = true ∧ field (20 : Word) 4 0 ≤ 20 ∧ field (20 : Word) 4 0 ≠ (getCore s 1).mem.mc.csteps ∧ (getCore s 1).sync.jsw = none ∧
      (getCore s 1).reqs = [] ∧ (getCore s 1).mem.latch = [] ∧ ringsIdle (getCore s 1) = true ∧ enginesIdle (getCore s 1) = true ∧ (getCore s 1).drain.jobs = [] ∧
      ∀ t ∈ allThreads, ((getCore s 1).thread t).st.state = .stopped ∧ ((getCore s 1).thread t).stopReq = none) ∧
    (∀ op ∈ [0, 1, 2], (getCore (maint op false) 1).mem.mc.gcbusy = true ∧ (getCore (maint op false) 1).mem.mc.gcdone = false ∧
      (getCore (maint op false) 1).mem.mc.gcop = op ∧ (getCore (maint op false) 1).mem.gcache = [⟨1, 0, 1, List.replicate 256 7, []⟩]) ∧
    (getCore (maint 0 true) 1).mem.mc.gcdone = true ∧
    findReq (withReq (rq 0 1 (.load 3 8 false) 0x0600000000000000 0 0 .done) job) 0 0 =
      some (rq 0 1 (.load 3 8 false) 0x0600000000000000 0 0 .done) ∧ (0x0600000000000000 : Nat) / 2 ^ 56 = 6 ∧
    clusterUp job = true ∧ (job.power.st = .run) ∧ (0xFFFE : Nat) < 65536 ∧ (0xEFFF : Nat) < 0xF000 ∧ (0xFFE : Nat) < 0xFFF ∧
    fnNo 127 ≠ 0 ∧ tdiFrozen job 127 = false ∧ (127 : Nat) < 128 := by decide +kernel

/-- An entry of 8 bytes for core (0, 0) at 0x40, its latch word at 0x80, from a page of bulk memory; with no source. -/
def entW (len : Nat) : List Nat := [2 ^ 63, 0x0400000000000000, len * 2 ^ 32 + 0x40, 0, 0, 0x80, 0, 0]
def sowS (f : SowEngine → SowEngine) : State := setSow (setGate job 0 { en := true, rows := 1, cols := 1, gen := 1 }) 0
  (f { entries := [(0, { words := entW 8, valid := true, pages := [⟨false, 0x10000, 0, false, false, false⟩] })], period := 4 })
theorem witness_SowingEntriesRun :
    (getSow job 0).en = false ∧ (getSow (sowS (fun e => { e with en := true })) 0).en = true ∧ bitOf (1 : Word) 0 = true ∧
    enV (entW 0) = true ∧ enV [0, 0, 0, 0, 0, 0, 0, 0] = false ∧ sowWalks job 0 (entW 0) = (.inr [], job) ∧
    sowWalks job 0 [2 ^ 63, 0, 0, 0, 0, 0, 0, 0] = (.inl 4, job) ∧ heldPages (getSow job 0) 4095 + 0 ≤ 32768 ∧
    quiescing (sowS id) = false ∧ (getEntry (getSow (sowS id) 0) 0).valid = true ∧ (getSow (sowS id) 0).gate < 320 ∧
    (getGate (sowS id) (gateKey 0 0)).en = true ∧ genReached (getGate (sowS id) (gateKey 0 0)).gen (BitVec.ofNat 32 (0 + 2 ^ 32 - 1)) = true ∧
    (getSow (sowS id) 0).running = [] ∧ (getSow (sowS id) 0).redos = [] ∧ coresHold (sowS id) = false ∧
    (getSow (sowS (fun e => { e with running := List.replicate 8 { entry := 1, trigger := 0, redo := false, status := 0, delivered := false } })) 0).running.length = 8 ∧
    (∀ x ∈ [(0, true), (0, false), (2, false)],
      (getSow (sowS (fun e => { e with running := [⟨0, 0, false, x.1, x.2, false⟩] })) 0).running.find? (fun r => r.entry == 0) =
        some ⟨0, 0, false, x.1, x.2, false⟩) ∧
    enGA (entW 8) = false ∧ sowReached (sowS id) 0 (getSow (sowS id) 0) 0 = true ∧
    (∀ b ∈ [false], (sowDemand (sowS id) 0 (getEntry (getSow (sowS id) 0) 0) b).data = List.replicate 8 0 ∧
      (sowDemand (sowS id) 0 (getEntry (getSow (sowS id) 0) 0) b).status = 0 ∧ (sowDemand (sowS id) 0 (getEntry (getSow (sowS id) 0) 0) b).pois = [false]) ∧
    treeCut (sowS id) (getEntry (getSow (sowS id) 0) 0) = false ∧
    sowCores (sowS id) (enTarget (entW 8)) = [0] ∧ enTile (entW 8) = false ∧ enSkew (entW 8) = false ∧ enGran (entW 8) = false ∧
    enLword (entW 8) = 0x80 ∧ enDst (entW 8) = 0x40 := by decide +kernel

/-! ## Host ports, functions and queues -/

/-- Port A up, its host memory as given, its region 0 valid and writable at bus address 0; function 0 with a root at 0x1000 whose page
at 0 is writable bulk memory, and an admin queue on die 0 with the commands cs. -/
def hostS (m : List Host.Cell) (qs : List (Nat × Queue)) : State :=
  { updFn (updPort job 0 (fun p => { p with up := true, mem := { bytes := m }, regions := [(0, { w0 := 0, w1 := 5 })] })) 0
      (fun f => { f with root := 0x1001 }) with
    bulk := { bytes := [(0x1000, 1), (0x1001, 0x20), (0x2000, 7)] } } |> fun s => { s with host := { s.host with queues := qs } }
def queue (idx : Nat) (cs : List Cmd) : Queue := { fn := 0, idx := idx, sqb := 0x10000, cqb := 0x20000, logsq := 4, logcq := 4, cmds := cs }
def cmd (ws : List Nat) : Cmd := { no := 7, cid := 3, words := ws }
/-- The admin queue with one command. -/
def ringS (ws : List Nat) (others : List (Nat × Queue)) : State := hostS [] ((0, queue 0 [cmd ws]) :: others)
def hasB (opc : Nat) (ws : List Nat) (others : List (Nat × Queue)) : Bool :=
  managersRun (ringS ws others) && decide (getQueue (ringS ws others) 0 = some (queue 0 [cmd ws])) &&
    decide (getCmd (queue 0 [cmd ws]) 7 = some (cmd ws)) && decide ((cmd ws).opc = opc) && mayStart (queue 0 [cmd ws]) (cmd ws)
theorem has_of {opc : Nat} {ws : List Nat} {others : List (Nat × Queue)} (h : hasB opc ws others = true) :
    QueueHas 0 7 opc (queue 0 [cmd ws]) (cmd ws) (ringS ws others) := by
  simp only [hasB, Bool.and_eq_true, decide_eq_true_eq] at h
  obtain ⟨⟨⟨⟨a, b⟩, d⟩, e⟩, f⟩ := h
  exact ⟨a, b, d, e, .inr ⟨rfl, f⟩⟩

/-- The status a command ends with. -/
def statusOf (s : State) : Option CmdState := (cmdOf s 0 7).map (·.st)
def createW : List Nat := [0x01, 0x1000, 0x2000, 0, 4 * 2 ^ 12 + 4 * 2 ^ 8, 2047, 0, 0]
def deleteW : List Nat := [0x02, 0, 0, 0, 0, 5, 0, 0]
def abortW : List Nat := [0x03, 0, 0, 0, 0, 9 * 2 ^ 16 + 5, 0, 0]
def rehomeW (key : Nat) : List Nat := [0x04, 0x1000, 0x2000, key, 4 * 2 ^ 12 + 4 * 2 ^ 8, 8 * 2 ^ 32 + 6, 15, 0]
def gateW (op : Nat) : List Nat := [op, 319, 0, 0, 0, 0, 0, 0]
def launchW : List Nat := [0x20, 0, 0, 0, 47 * 2 ^ 18 + 47 * 2 ^ 6, 0, 0, 0]
theorem test_nop : after (.nop 0 7) (ringS [0x23, 0, 0, 0, 0, 0, 0, 0] []) statusOf = some (some (.ended 0 0)) := by decide +kernel
theorem test_nop_with_a_field : after (.nop 0 7) (ringS [0x23, 1, 0, 0, 0, 0, 0, 0] []) statusOf = some (some (.ended 2 0)) := by decide +kernel
theorem test_abort_of_nothing : after (.abort 0 7) (ringS abortW [(1, queue 5 [])]) statusOf = some (some (.ended 6 0)) := by decide +kernel
theorem test_rehome_wrong_key : after (.rehome 0 7) (ringS (rehomeW 1) [(8, { queue 5 [] with st := .orphaned, rhkey := 2 })]) statusOf =
    some (some (.ended 0x0D 0)) := by decide +kernel

/-- Where no core holds a gate copy, the cluster's is the reset value. -/
theorem copy_of_no_copies {s : State} (h : ∀ x ∈ s.cores, x.2.sync.gates = []) (key : Nat) : clusterCopy s key = 0 := by
  have e : ∀ c (l : List (Nat × Core)), (∀ x ∈ l, x.2.sync.gates = []) → (spGet {} l c).sync.gates = [] := by
    intro c l
    induction l with
    | nil => intro _; rfl
    | cons y r ih =>
      intro hl
      rw [spGet]
      split
      · exact hl y (List.mem_cons_self ..)
      · exact ih (fun x hx => hl x (List.mem_cons_of_mem _ hx))
  have g : ∀ c, (getCore s c).sync.gates = [] := fun c => e c s.cores h
  simp only [clusterCopy, gateLocal, g]
  rfl

theorem witness_RingCommandsEndWithTheirStatus :
    ((∀ x ∈ [(0x01, createW), (0x02, deleteW), (0x03, abortW), (0x04, rehomeW 2), (0x05, [5, 0, 0, 0, 0, 5, 0, 0]),
        (0x08, [8, 0x0100010000, 0x100, 8, 0, 0, 0, 0]), (0x09, [9, 0x0100010000, 0x100, 8, 0, 0, 0, 0]), (0x20, launchW), (0x21, gateW 0x21),
        (0x22, gateW 0x22), (0x23, [0x23, 1, 0, 0, 0, 0, 0, 0])],
      hasB x.1 x.2 [(1, queue 5 []), (8, { queue 7 [] with st := .orphaned, rhkey := 2 })] = true) ∧
    ringFields (cmd createW) 0 = true ∧ zeroWords (cmd createW) [6, 7] = true ∧ findQueue (ringS createW []) 0 2047 = none ∧
    tdiFrozen (ringS createW []) 0 = false ∧ (freeIds (ringS createW []) 0).head? = some 1 ∧ ringFields (cmd [1, 1, 0, 0, 0, 0, 0, 0]) 0 = false ∧
    findQueue (ringS deleteW [(1, queue 5 [])]) 0 5 = some 1 ∧ getQueue (ringS deleteW [(1, queue 5 [])]) 1 = some (queue 5 []) ∧
    findQueue (ringS deleteW []) 0 5 = none ∧
    getQueue (ringS abortW [(1, queue 5 [{ no := 8, cid := 9, words := [0x23, 0, 0, 0, 0, 0, 0, 0] }])]) 1 =
      some (queue 5 [{ no := 8, cid := 9, words := [0x23, 0, 0, 0, 0, 0, 0, 0] }]) ∧ fieldN ((cmd abortW).word 5) 31 16 = 9 ∧
    (∀ x ∈ [(2, 0), (1, 0x0D)], rehomeStatus (ringS (rehomeW x.1) [(8, { queue 7 [] with st := .orphaned, rhkey := 2 })])
      (queue 0 [cmd (rehomeW x.1)]) (cmd (rehomeW x.1)) = x.2) ∧
    rehomeStatus (ringS (rehomeW 2) []) (queue 0 [cmd (rehomeW 2)]) (cmd (rehomeW 2)) = 2 ∧
    odFields (cmd [8, 0x0100010000, 0x100, 8, 0, 0, 0, 0]) = true ∧ odFields (cmd [8, 2 ^ 40, 0, 0, 0, 0, 0, 0]) = false ∧
    hostAlive (ringS launchW []) 0 = true ∧ hostAlive job 0 = false ∧ launchRect (ringS launchW []) (cmd launchW) = true ∧
    lifeCycle (ringS launchW []) ≠ 5 ∧ (barCheck (ringS launchW []) 0 0 0 1 false).1 = none ∧ (cmd (gateW 0x21)).word 1 = 319 ∧
    (∀ x ∈ [(false, false), (true, false), (true, true)],
      (getGate (setGate (ringS (gateW 0x21) []) 1087 { en := true, ctlm := true, arr := { ctl := x.1, ctlHeld := x.2 } }) 1087).arr.ctl = x.1) ∧
    (getGate (ringS (gateW 0x21) []) 1087).en = false ∧ genReached 0 (BitVec.ofNat 32 0) = true) ∧
    (∀ g ∈ [0, 1], clusterCopy (setGate (ringS (gateW 0x21) []) 1087 { en := true, gen := g }) 1087 = 0) := by
  exact ⟨by decide +kernel, fun g _ => copy_of_no_copies (s := setGate (ringS (gateW 0x21) []) 1087 { en := true, gen := g })
    (show ∀ x ∈ (ringS (gateW 0x21) []).cores, x.2.sync.gates = [] by decide +kernel) 1087⟩

/-- A data command of 8 bytes between host address 0x100 and bulk address 0x3000. -/
def dataW (op : Nat) : List Nat := [op, 0x100, 0x3000, 8, 0, 0, 0, 0]
def committed : Queue := { queue 5 [{ cmd (dataW 0x10) with st := .committed 0 8 }] with order := [7] }
theorem test_data_in : after (.dataIn 0 7 false) (ringS (dataW 0x10) [] |> fun s => updPort s 0 (fun p => { p with mem := { bytes := [(0x107, 9)] } }))
    (fun s => (s.bulk.byte 0x3007, statusOf s)) = some (9, some (.ended 0 8)) := by decide +kernel
theorem test_seal_in_without_key : after (.sealIn 0 7 false) (ringS (dataW 0x12) []) statusOf = some (some (.ended 0x0A 0)) := by decide +kernel
theorem witness_QueuesFetchMoveAndComplete :
    (fnHears (ringS [] []) 0 = true ∧ hostAlive (ringS [] []) (fnPort 0) = true ∧ (getFn (ringS [] []) 0).d3hot = false ∧ tlpOk (ringS [] []) 0 none = true ∧ asleep (ringS [] []) = false ∧
    findQueue (ringS [] []) 0 2047 = none ∧ findQueue (hostS [] [(0, queue 0 [])]) 0 0 = some 0 ∧
    getQueue (hostS [] [(0, queue 0 [])]) 0 = some (queue 0 []) ∧ 15 < 2 ^ (queue 0 []).logsq ∧ 2 ^ (queue 0 []).logcq ≤ 16 ∧
    managersRun (hostS [] [(0, { queue 0 [] with sqt := 1 })]) = true ∧ nextQueue (hostS [] [(0, { queue 0 [] with sqt := 1 })]) 0 8 = some 0 ∧
    fetchable (hostS [] [(0, { queue 0 [] with sqt := 1 })]) 0 { queue 0 [] with sqt := 1 } 1 = 1 ∧
    (∀ op ∈ [0x10, 0x11, 0x12, 0x13], hasB op (dataW op) [] = true ∧ hasB op [op, 1, 0, 0, 0, 0, 0, 0] [] = true) ∧
    dataFields (cmd (dataW 0x10)) = true ∧ dataFields (cmd [0x10, 1, 0, 0, 0, 0, 0, 0]) = false ∧ dataLen (cmd (dataW 0x10)) = 8 ∧
    (∀ w ∈ [false, true], barXlate (ringS (dataW 0x10) []) 0 0 0x3000 w = (.inr 0x3000, ringS (dataW 0x10) []) ∧
      hostBad (ringS (dataW 0x10) []) (queue 0 [cmd (dataW 0x10)]) (cmd (dataW 0x10)) 0x100 8 w false = false ∧
      (barCheck (ringS (dataW 0x10) []) 0 0 0x3000 8 w).1 = none ∧ (barCheck (ringS (dataW 0x10) []) 0 1 0x3000 8 w).1 = some .key ∧
      (barCheck job 0 0 0x3000 8 w).1 = some .xlate)) ∧
    engineKey (ringS (dataW 0x12) []) 0 0 = (none, ringS (dataW 0x12) []) ∧
    (engineKey (setCached (setSlot (ringS (dataW 0x12) []) 5 { st := .installed, transport := some 77 }) 0 [5]) 0 5).1 = some 77 ∧
    openMessage 77 8 (List.replicate (messageLen 8) 0) (List.replicate (messageLen 8 / 8) false) = (none, false) ∧
    mayCommit (queue 5 []) = true ∧
    getQueue (hostS [] [(1, committed)]) 1 = some committed ∧ getCmd committed 7 = some { cmd (dataW 0x10) with st := .committed 0 8 } ∧
    committed.unread < 2 ^ committed.logcq ∧ (queue 5 []).vec < vecCount 0 ∧ ({ queue 5 [] with unsig := 1 }).cqcnt < 1 ∧
    (spGet {} (getFn (hostS [] []) 0).msix 0).mask = true ∧ (getFn (hostS [] []) 0).quiet = true ∧
    ({ msixEn := true, msix := [(0, { mask := false })] } : Fn).quiet = false :=
  ⟨by decide +kernel, by decide +kernel⟩

/-- Function 1 of port A, a VF, in a TDISP state, with stream 0 secure. -/
def vfS (t : Nat) : State :=
  updFn (updPort (hostS [] []) 0 (fun p => { p with numVfs := 1, streams := [(0, { secure := true })] })) 1 (fun f => { f with tdi := t })
theorem test_lock : after (.lockInterfaceRequest 1 0) (vfS 0) (fun s => (getFn s 1).tdi) = some 1 := by decide +kernel
theorem test_last_control_core_of_a_die : after (.controlCoreFail 3) { job with host := { job.host with ccFailed := [0, 1, 2] } }
    (fun s => (s.recorder.intake.getLast?).map (·.code)) = some (some 0x00F2) := by decide +kernel
theorem witness_PortsFunctionsAndTdisRun :
    ((∀ f ∈ [0, 1], fnExists (vfS 0) f = true ∧ hostAlive (vfS 0) (fnPort f) = true) ∧ (getFn (hostS [] []) 0).aqEn = false ∧
    (∀ f ∈ [0, 1], (getFn (vfS 0) f).d3hot = false ∧ tdiFrozen (vfS 0) f = false) ∧ job.resil.members = [] ∧
    bitOf (word (2 * 2 ^ 12 + 1)) 0 = true ∧ field (word (2 * 2 ^ 12 + 1)) 15 12 = 2 ∧ (getFn (hostS [] []) 0).asqb.toNat % 4096 = 0 ∧
    findQueue (hostS [] []) 0 0 = none ∧ (freeIds (hostS [] []) 0).head? = some 0 ∧
    (getFn (updFn (hostS [] [(0, queue 0 [])]) 0 (fun f => { f with aqEn := true })) 0).aqEn = true ∧ clusterUp (hostS [] []) = true ∧
    (∀ y ∈ (hostS [] [(0, queue 0 [])]).host.queues, y.2.fn = 0 → y.2.cmds = [] ∧ y.2.order = []) ∧
    ((hostS [] [(0, queue 0 [])]).host.queues.map (·.1)).Nodup ∧ tlpOk (hostS [] []) 0 none = true ∧
    barSize (hostS [] []) 0 < barSize (hostS [] []) 0 + 1 ∧ 0x3000 + 8 ≤ barSize (hostS [] []) 0 ∧
    (∀ w ∈ [false, true], barXlate (hostS [] []) 0 0 0x3000 w = (.inr 0x3000, hostS [] []) ∧
      (barCheck (updFn (hostS [] []) 0 (fun f => { f with fkey := 1 })) 0 1 0x3000 8 w).1 = some .key) ∧
    getQueue (hostS [] [(8, { queue 5 [] with st := .orphaned })]) 8 = some { queue 5 [] with st := .orphaned } ∧
    portLinks (hostS [] []) 0 = true ∧ ({ job with power := { job.power with st := .sleep } } : State).power.st = .sleep ∧
    job.power.target = none ∧ job.power.tripped = false ∧ streamSecure (getPort (vfS 1) 0) 0 = true ∧ (vfS 0).ward.entropyBad = false ∧
    fnNo 1 ≠ 0 ∧ (∀ t ∈ [0, 1, 2], (getFn (vfS t) 1).tdi = t) ∧ 15 ∉ job.host.ccFailed ∧
    dieLost { job with host := { job.host with ccFailed := [0, 1, 2, 3] } } 0 = true) ∧
    (∀ g q, (g, q) ∈ (hostS [] [(3, { queue 5 [] with rhkey := 9 })]).host.queues → fnPort q.fn = 0 ∧ q.idx ≠ 0 ∧ q.rhkey ≠ 0 ∧ q.st ≠ .orphaned) := by
  refine ⟨by decide +kernel, ?_⟩
  intro g q h
  simp only [hostS, List.mem_singleton, Prod.mk.injEq] at h
  obtain ⟨-, rfl⟩ := h
  decide

/-! ## The fabric -/

/-- An image of versions up to 3 runs; the module's ID is 1, its lowest version 2. -/
def portS (f : FabPort → FabPort) : State :=
  setFabPort (odSet (odSet { job with fw := { job.fw with a := { st := 4, header := [0, 0, 3 * 2 ^ 40] } } } 6 0 0 1) 6 2 0 2) 0 (f {})
def upS (f : FabPort → FabPort) : State := portS (fun p => f { p with state := .up })
def flit (seq : Nat) : Flit := { kind := 1, seq := seq, ack := 0, vc := 4, cls := 0, sop := true, eop := false, crvc := 0, crcls := 0, crn := 0, payload := [7] }
def hello : Hello := { id := 5, minver := 0, maxver := 9, laneSet := 0, credits := [] }
theorem test_gap_asks_once : after (.flitReceive 0 (flitBytes (flit 3)) false) (upS id)
    (fun s => ((getFabPort s 0).retrying, (getFabPort s 0).wire.map (fun f => (f.kind, f.payload.take 1)))) = some (true, [(2, [2])]) := by
  decide +kernel
/-- 11 R391: a flit is 256 bytes, and one bit turned over anywhere fails its CRC. -/
theorem test_flit_crc : (flitBytes (flit 3)).length = 256 ∧ flitIntact ((flitBytes (flit 3)).set 9 1) = false := by decide +kernel
theorem test_lane_lost : after (.laneFail 0 1) (upS id) (fun s => (getFabPort s 0).state) = some .train := by decide +kernel
theorem witness_FabricLinksReceiveAndMoveThroughTheirStates :
    (getFabPort job 0).state = .off ∧ portEnabled job 0 = true ∧ (getFabPort (upS id) 0).state = .up ∧ (getFabPort (upS id) 0).retrying = false ∧
    (∀ n ∈ [0, 3], flitIntact (flitBytes (flit n)) = true ∧ (flitOf (flitBytes (flit n))).kind = 1 ∧ (flitOf (flitBytes (flit n))).seq = n ∧
      (flitOf (flitBytes (flit n))).sop = true ∧ (flitOf (flitBytes (flit n))).eop = false) ∧
    (getFabPort (upS id) 0).rxSeq = 0 ∧ (3 + 2 ^ 16 - 0) % 2 ^ 16 < 2 ^ 15 ∧ (getFabPort (upS id) 0).txq = [] ∧
    flitIntact (flitBytes { flit 0 with kind := 2, payload := [1] }) = true ∧ (flitOf (flitBytes { flit 0 with kind := 2, payload := [1] })).kind = 2 ∧
    bytesAt (flitOf (flitBytes { flit 0 with kind := 2, payload := [1] })).payload 0 1 = 1 ∧
    (∀ n ∈ [14, 15], (getFabPort (upS (fun p => { p with unacked := [(flit 0, 0), (flit 1, n)] })) 0).unacked.any (fun y => y.1.seq == 1) = true ∧
      (n + 1 < 16 ↔ n = 14)) ∧
    (getFabPort (upS (fun p => { p with retrying := true })) 0).retrying = true ∧ portAlive (getFabPort (portS (fun p => { p with state := .train })) 0) = true ∧
    4 ≤ popN 8 (BitVec.ofNat 8 15).toNat ∧ (laneChoice (getFabPort job 0).lanes).isSome = true ∧
    moduleId (portS id) ≠ 0xFFFF ∧ (getFabPort (portS (fun p => { p with selfId := 1 })) 0).selfId ≠ 0xFFFF ∧ hello.id ≠ 0xFFFF ∧ hello.minver ≤ min hello.maxver (highestVersion (portS id)) ∧
    lowestVersion (portS id) ≤ min hello.maxver (highestVersion (portS id)) ∧ min 1 (highestVersion (portS id)) < lowestVersion (portS id) ∧
    moduleId job = 0xFFFF ∧ job.ward.entropyBad = false ∧ wardUp job = true ∧ accepts job ⟨true, lifeCycle job, 0⟩ = true ∧
    accepts job ⟨false, lifeCycle job, 0⟩ = false ∧ aliasGood { job with ward := { job.ward with aliasKey := some ⟨4, 65536, job.ward.debug⟩ } } = true ∧
    (peerSession { job with ward := { job.ward with aliasKey := some ⟨4, 65536, job.ward.debug⟩ } } ⟨true, lifeCycle job, 0⟩).2 = true ∧
    (peerSession job ⟨false, lifeCycle job, 0⟩).2 = false ∧ (∀ lane, lane < 8 → (getFabPort (upS id) 0).uses lane = true) ∧
    (getFabPort (upS (fun p => { p with laneSet := 1 })) 0).uses 7 = false ∧
    (getFabPort (upS (fun p => { p with txq := [{ flit := flit 0 }] })) 0).txq.any (fun f => f.flit.vc == 4 && f.flit.cls == 0) = true ∧
    (getFabPort (upS (fun p => { p with txq := [{ flit := flit 0 }] })) 0).credits (vcKey 4 0) = 0 ∧ 0xEFFF < 0xF000 ∧ 0xEFFF ≠ moduleId (portS id) := by
  decide +kernel

/-- A packet of module 5 on its channel 2. -/
def pkt (opc addr opf len : Nat) (data : List Byte) : Packet :=
  { opc := opc, dst := 1, src := 5, chan := 2, fin := true, ver := 0, cseq := 0, len := len, addr := addr, opf := opf, data := data, pois := [false] }
/-- Window 0 onto core 0's local SRAM at 0x1000, with these high bits of word 0; port 0 up and a route and a key to module 5. -/
def winS (hi nbytes held : Nat) (x : Packet) : State :=
  let s := upS id
  { s with fabric := { s.fabric with
      inbox := [⟨0, 1, 4, 0, 0, x⟩], routes := [(5, 0x80)], pairKeys := [(5, some 9)], rgroups := [(3, 2 ^ 31 + 0x300)]
      windows := [(0, { w0 := word (hi * 2 ^ 58), w1 := word 0x1000, w2 := word (0xFFFF * 2 ^ 48 + nbytes), bytes := held })] } }
def bytes8 : List Byte := [1, 2, 3, 4, 5, 6, 7, 8]
theorem test_put : after .put (winS 0x2C 0 0 (pkt 1 8 0 8 bytes8)) (fun s => (getCore s 0).mem.localMem.getBytes 0x1007 10) =
    some [0, 1, 2, 3, 4, 5, 6, 7, 8, 0] := by decide +kernel
theorem test_put_without_window : after .put (winS 0 0 0 (pkt 1 8 0 8 bytes8)) (fun s => (getCore s 0).mem.localMem.bytes) = some [] := by
  decide +kernel
theorem test_notify : after .put (winS 0x2D 8 4 (pkt 1 8 0 8 bytes8)) (fun s => ((getWindow s 0).bytes, (getWindow s 0).quanta)) = some (4, 1) := by
  decide +kernel
def arriveS (gen : Nat) : State :=
  setGate (winS 0 0 0 (pkt 6 0 (300 + gen * 2 ^ 32) 0 [])) (1024 + 44) { en := true, fabn := 1 }
def chanS (f : Chan → Chan) (st : Nat) : State :=
  setChan (setRing (winS 0 0 0 (pkt 8 0 st 0 [])) 0 0 { base := 0xB0000 / 64, logn := 2, job := true, en := true, cur := some (runOf (copyWords 0 0 8) .run 0) })
    0 (f { user := .drill 0 0, dst := 5, vc := 4, port := some 0, unacked := [pkt 1 0 0 8 bytes8] })
theorem witness_FabricPacketsActAndAreAcknowledged :
    (opcOk 7 = true ∧ (getRx job (rxKey 5 2)).expect = 0 ∧
    (∀ o ∈ [1, 2, 3, 4, 5, 6, 7, 8], (winS 0x2C 0 0 (pkt o 8 0 8 bytes8)).fabric.inbox.find? (fun y => y.pkt.opc == o) =
      some ⟨0, 1, 4, 0, 0, pkt o 8 0 8 bytes8⟩) ∧
    outside 7 0 = false ∧ outside 1 0 = false ∧ job.resil.state ≠ 6 ∧
    bitOf (getWindow (winS 0 0 0 (pkt 1 8 0 8 bytes8)) 0).w0 63 = false ∧
    (∀ hi ∈ [0x2C, 0x2D, 0x2A], let w := getWindow (winS hi 8 4 (pkt 1 8 0 8 bytes8)) 0
      bitOf w.w0 63 = true ∧ field w.w0 62 61 = 1 ∧ 8 + 8 ≤ (field w.w0 31 12 + 1) * 4096 ∧ aCore w.w1.toNat = 0 ∧
      inGrid job.grid (aRow w.w1.toNat) (aCol w.w1.toNat) = true ∧ isHole job 0 = false ∧ w.w1.toNat % 2 ^ 36 + 8 + 8 ≤ localEnd ∧
      w.admits (pkt 1 8 0 8 bytes8) = true ∧ w.bytes < field w.w2 31 0 ∧ field w.w2 31 0 ≤ w.bytes + 8 ∧ w.bytes + 8 < 2 * field w.w2 31 0 ∧
      bitOf w.w0 60 = (hi != 0x2A) ∧ bitOf w.w0 58 = (hi == 0x2D) ∧ bitOf w.w0 59 = (hi != 0x2C && hi != 0x2D))) ∧
    (((winS 0x2A 0 0 (pkt 2 8 0 8 [])).fabric.chans = [] ∧ isGroup 5 = false ∧ 5 ≠ moduleId (winS 0x2A 0 0 (pkt 2 8 0 8 [])) ∧
    (fabKey (winS 0x2A 0 0 (pkt 2 8 0 8 [])) 5).isSome = true ∧ (pickRoute (winS 0x2A 0 0 (pkt 2 8 0 8 [])) 5 3 0).isSome = true) ∧
    ((redEntry (winS 0 0 0 (pkt 5 0 (3 * 2 ^ 52) 128 [])) 3).testBit 31 = true ∧ 1 ∈ redKids (redEntry (winS 0 0 0 (pkt 5 0 (3 * 2 ^ 52) 128 [])) 3) ∧
      (pkt 5 0 (3 * 2 ^ 52) 128 []).opf.testBit 7 = false ∧ fieldN (pkt 5 0 (3 * 2 ^ 52) 128 []).opf 6 4 ≠ 7 ∧
      redRound (winS 0 0 0 (pkt 5 0 (3 * 2 ^ 52) 128 [])) 3 = none ∧ roundBefore 4 5 = true ∧ roundBefore 0 0 = false ∧
      (getRed { job with fabric := { job.fabric with red := [(48, { round := 5, lanes := [1] })] } } 48).round = 5)) ∧
    (((getGate (arriveS 1) (1024 + (300 - 256))).en = true ∧
    (1 = ((getGate (arriveS 1) 1068).gen.toNat + 1) % 2 ^ 32) ∧ (2 = ((getGate (arriveS 2) 1068).gen.toNat + 2) % 2 ^ 32) ∧
    (getGate (arriveS 1) 1068).arr.fab < (getGate (arriveS 1) 1068).fabn ∧ (getGate (arriveS 2) 1068).arr.fabHeld < (getGate (arriveS 2) 1068).fabn ∧
    (getGate job 1068).en = false) ∧
    (∀ st ∈ [0, 1], (getChan (chanS id st) 0).map (fun c => (c.dst, c.acks, c.unacked.map (·.cseq), c.user, c.failed)) =
      some (5, [], [0], .drill 0 0, false)) ∧
    ((getRing (chanS id 1) 0 0).cur.map (·.status)) = some 0 ∧
    0 < (getRx { job with fabric := { job.fabric with rxs := [(rxKey 5 2, { expect := 3, acted := 3, pend := 3 })] } } (rxKey 5 2)).pend ∧
    (0 < odNum job 0x06 0x31 0 8) ∧ odNum job 0x06 0x31 0 8 ≤ ((getChan (chanS (fun c => { c with resends := 8 }) 0) 0).map (·.resends)).getD 0 ∧ isPeer job 5 = false) ∧
    (∀ a, (getCore (winS 0x2C 0 0 (pkt 1 8 0 8 bytes8)) 0).mem.localMem.mark a = Mark.none) :=
  ⟨by decide +kernel, by decide +kernel, by decide +kernel, fun _ => rfl⟩
/-- A heartbeat clears its sender's count: the kinds that the clusters use are kinds of 16 bits. -/
theorem witness_heartbeat_packet : (pkt 7 0 (Config.controlKind 0) 0 []).opf % 2 ^ 16 = Config.controlKind 0 := by
  have h := Nat.mod_lt (Config.kindCode 0) (show 0 < 65534 by decide)
  show Config.controlKind 0 % 2 ^ 16 = _
  simp only [Config.controlKind]
  split
  · rfl
  · split <;> omega

/-! ## Commits, checkpoints, recovery -/

def resS (f : Resil → Resil) : State :=
  let s := winS 0 0 0 (pkt 1 0 0 0 [])
  { s with ward := { s.ward with lcrec := [1, 2], debug := 0 }, resil := f s.resil }
def stepDone (b : Bool) : StepDone := ⟨b, true, true, true⟩
def ext : Extent := ⟨0, false, 0x2000, 16⟩
def block : BlockSrc := ⟨4, 1, 0, 0, [ext], []⟩
def fframe : FallowFrame := ⟨0, 0, 0, [0x40, 0x80, 0xC0], 16, 0xF001, 8, 5, 0, 0, 0, false, 0, 0, 1, 0, 1, 16, 0, 0, 0, 0, 0⟩
def frameS (full : Bool) : State :=
  let s := resS id
  updCore { s with fabric := { s.fabric with groups := [(1, 2 ^ 31 + 1)], groupKeys := [(1, some 3)] } } 0
    (fun k => { k with mem := { k.mem with gran := { marks := spSet {} [] 0 { full := full } } } })
def dig (step : Nat) : DigestRec := ⟨4, 1, 0, 0, step, 16, false, []⟩
def shared : State :=
  let s := updPort (odSet (odSet (resS (fun r => { r with sinceShared := 12, ckpts := [(0, { sealed_ := true })] })) 9 0x12 0 4) 9 0x14 0 0) 0
    (fun p => { p with up := true, regions := [(0, { w0 := 0, w1 := 5 })] })
  setCached (setSlot s 4 { st := .installed, transport := some 77 }) 0 [4]
theorem test_commit_arrive : after (.commitArrive 300 (stepDone true) [block]) (setGate (resS id) 1068 { en := true, ctlm := true })
    (fun s => (s.resil.arrived, s.resil.step)) = some (some 1068, 0) := by decide +kernel
theorem test_commit_waits : after (.commitArrive 300 (stepDone false) []) (setGate (resS id) 1068 { en := true, ctlm := true })
    (fun s => s.resil.arrived) = some none := by decide +kernel
theorem test_notice_of_itself : after (.failNotice 1) (resS (fun r => { r with members := [1, 5] })) (fun s => (s.resil.state, s.resil.members)) =
    some (7, []) := by decide +kernel
theorem witness_CommitsCheckpointsAndRecoveryRun :
    (clusterUp (resS id) = true ∧ (stepDone false).updates = false ∧ stepQuiet (setGate (resS id) 1068 { en := true }) = true ∧
    stepQuiet (setEng (resS id) 0 false { cmd := some (cmdOfWords updW .run) }) = false ∧
    (resS id).resil.stubble.step ≠ (resS id).resil.step + 1 ∧ (resS id).resil.arrived = none ∧
    (getGate (setGate (resS id) 1068 { en := true }) (1024 + (300 - 256))).en = true ∧
    (getGate (setGate (resS id) 1068 { en := true }) 1068).arr.ctl = false ∧ awake (resS id) = true ∧
    0x1000 % 8 = ext.off % 8 ∧
    coreUp (frameS true) 0 = true ∧ fframe.len ≤ 2 ^ 20 ∧
    (∀ b, ((getCore (frameS b) 0).mem.gran.mark (fframe.epw / 8)).full = b ∧ ((getCore (frameS b) 0).mem.gran.mark (fframe.epw / 8)).poison = false ∧
      ((getCore (frameS b) 0).mem.gran.mark (fframe.epw / 8)).ecc = .clean) ∧
    isGroup fframe.group = true ∧ (groupEntry (frameS true) fframe.group).testBit 31 = true ∧ (fabKey (frameS true) fframe.group).isSome = true ∧
    fframe.group ≠ moduleId (frameS true) ∧ (frameS true).fabric.chans = [] ∧ 0 < fframe.len ∧ fframe.addr % 4096 + fframe.len ≤ 4096 ∧ fframe.addr % 8 = 0 ∧
    isCoordinator (resS (fun r => { r with members := [1, 5] })) = true ∧ isCoordinator (resS id) = false ∧
    (resS (fun r => { r with named := some 0 })).resil.named = some (resS id).resil.step ∧ (resS id).resil.writing = none ∧
    sealAvailable (resS id) = true ∧ sealAvailable job = false ∧ flashPowered (resS id) = true ∧ 2 * (ext.len + 64) ≤ (resS id).mstats.ckptBytes) ∧
    (
    (resS (fun r => { r with writing := some 1 })).resil.writing = some 1 ∧ (resS id).recorder.intake.length < 64 ∧
    (odNum (resS id) 0x09 0x11 0 12 ≠ 0 ∧ (resS id).resil.sinceShared < odNum (resS id) 0x09 0x11 0 12) ∧
    (odNum shared 0x09 0x11 0 12 ≠ 0 ∧ odNum shared 0x09 0x11 0 12 ≤ shared.resil.sinceShared ∧ hostAlive shared 0 = true ∧ sealAvailable shared = true ∧
      (hostRegion shared 0).valid = true ∧ (hostRegion shared 0).writable = true ∧ (engineKey shared 0 (odNum shared 0x09 0x12 0 0)).1 = some 77 ∧
      (latestCkpt shared).isSome = true) ∧
    (dig 3).step % 2 ^ 32 ≠ 2 % 2 ^ 32 ∧ [dig 3] ≠ [] ∧
    isPeer (resS (fun r => { r with members := [1, 5] })) 5 = true ∧ 5 ∉ (resS id).resil.probing ∧
    spGet 0 (resS id).resil.missed 5 + 1 < odNum (resS id) 0x09 0x21 0 5 ∧
    odNum (resS id) 0x09 0x21 0 5 ≤ spGet 0 (resS (fun r => { r with missed := [(5, 4)] })).resil.missed 5 + 1 ∧
    prober (resS (fun r => { r with members := [1, 5], probing := [5] })) 5 = some (moduleId (resS id)) ∧ 2 * 1 ≤ [1, 5].length ∧ [1, 5].length < 2 * 2 ∧
    (∀ n ∈ [2, 3, 4], (resS (fun r => { r with state := n, members := [1] })).resil.state = n) ∧
    (pickRoute (resS id) 5 7 0).isSome = true ∧ (fabKey (resS id) 5).isSome = true ∧ 5 ≠ moduleId (resS id) ∧ isGroup 5 = false ∧
    (resS id).fabric.chans = []) ∧
    (∀ w, (resS id).bulk.mark w = Mark.none ∧ (getCore (resS id) 0).mem.localMem.mark w = Mark.none) ∧
    (∀ b w, ((getCore (frameS b) 0).mem.gran.mark w).ecc = .clean) ∧ clusterCopy (setGate (resS id) 1068 { en := true }) 1068 = 0 := by
  have marks : ∀ b, (getCore (frameS b) 0).mem.gran.marks = if b then [(0, { full := true })] else [] := by decide +kernel
  refine ⟨by decide +kernel, by decide +kernel, fun _ => ⟨rfl, rfl⟩, fun b w => ?_, copy_of_no_copies (by decide +kernel) 1068⟩
  show (spGet Mark.none (getCore (frameS b) 0).mem.gran.marks w).ecc = .clean
  rw [marks]
  cases b
  · rfl
  · show (if w = 0 then _ else _ : Mark).ecc = .clean
    split <;> rfl

/-! ## The Ward -/

def wardS (f : Ward → Ward) : State := { job with ward := f { job.ward with lcrec := [1, 2, 3], debug := 1 } }
def session (ready : Bool) : Session := ⟨7, 300, ready, 11, 0, [], []⟩
def alias_ : AliasKey := ⟨4, 65536, 1⟩
theorem test_slot_twice : after (.slotAllocate 3) (setSlot (wardS id) 3 { st := .retired }) (fun s => s.ward.reply) = some (some .error) := by
  decide +kernel
theorem test_slot_release : after (.slotRelease 300 7 3) (setSlot (wardS (fun w => { w with sessions := [session true] })) 3 { st := .allocated })
    (fun s => ((getSlot s 3).st, s.ward.reply)) = some (.retired, some (.slotState 3)) := by decide +kernel
theorem test_request_out_of_order : after (.getCertificate 5) (wardS (fun w => { w with spdm := [(5, 2)], aliasKey := some alias_ }))
    (fun s => s.ward.reply) = some (some .error) := by decide +kernel
theorem test_level_not_raised : after (.debugLower 3 2) (wardS id) (fun s => s.ward.lowered) = some none := by decide +kernel
theorem test_token_format : after (.tokenCheck 1 []) (wardS (fun w => { w with nonce := some 1 })) (fun s => (s.ward.nonce, s.ward.tokenResult)) =
    some (none, 1) := by decide +kernel
theorem witness_WardKeysIdentityTokensAndLevelsFollowTheirRules :
    (getSlot (setSlot (wardS id) 16383 { st := .allocated }) 16383).st = .allocated ∧ (getSlot (setSlot (wardS id) 1 { st := .retired }) 1).st = .retired ∧
    wardUp (wardS id) = true ∧ (wardS id).recorder.intake.length < 64 ∧ (wardS (fun w => { w with entropyBad := true })).ward.entropyBad = true ∧
    (wardS id).ward.entropyBad = false ∧ jobsAnySlot (wardS id) = true ∧ (getSlot (wardS id) 16383).st = .free ∧ jobsAnySlot job = false ∧
    aliasGood (wardS id) = false ∧ hasIdentity (wardS id) = true ∧ (wardS (fun w => { w with xidx := 1 })).ward.nextIdx < 1024 * 1 ∧
    aliasGood (wardS (fun w => { w with aliasKey := some alias_ })) = true ∧
    (∀ n ∈ [0, 1, 2, 3], spdmStage (wardS (fun w => { w with spdm := spSet 0 [] 5 n })) 5 = n) ∧ (wardS id).ward.sessions.length < 64 ∧
    (∀ b, getSession (wardS (fun w => { w with sessions := [session b] })) (session b).id = some (session b)) ∧
    (getSlot (setSlot (wardS id) 3 { st := .allocated, ticket := 9 }) 3).ticket = 9 ∧ 1 ≤ (wardS id).ward.debug ∧
    tokenCheck (wardS id) [] ≠ 0 ∧ (lifeCycle job = 0 ∧ job.ward.debug = 3) ∧
    (0 < (wardS id).ward.debug ∧ levelAllowed (lifeCycle (wardS id)) 0 = true) := by decide +kernel

/-- A token signed by the owner: header, identity, nonce, reserved bytes, signature. -/
def token (kind target : Nat) : List Byte :=
  toBytes 4 3 ++ [0, 0xFF, BitVec.ofNat 8 target, BitVec.ofNat 8 kind] ++ List.replicate 32 0 ++ toBytes 32 5 ++ List.replicate 2828 0
def ownedS : State := wardS (fun w => { w with nonce := some 5, ownerKey := [1] })
/-- A token passes every check where the part's identity digests to 32 zero bytes and its signature verifies; both are the part's. -/
theorem witness_token_passes (h : devId ownedS = List.replicate 32 0) (v : ∀ k m g, Config.xmssVerify k m g = true) :
    tokenCheck ownedS (token 1 1) = 0 ∧ tokenCheck ownedS (token 2 2) = 0 ∧ tkKind (token 1 1) = 1 ∧ tkKind (token 2 2) ≠ 1 := by
  simp only [tokenCheck, h, v]
  decide +kernel

/-! ## Firmware and resets -/

def fwS (f : Firmware → Firmware) : State := { job with fw := f job.fw }
def goodHeader : List Nat := [0x4B49524100010100, 100 * 2 ^ 32 + 1, 2 ^ 30, 0, 0, 0, 0, 0]
theorem test_armed_waits : after .fwActivate (setGate (fwS (fun w => { w with armed := some (1, 300, 1) })) 1068 { en := true })
    (fun s => s.fw.boot) = some 0 := by decide +kernel
theorem test_warm_reset_lowers : after .warmReset (wardS (fun w => { w with lowered := some 0 })) (fun s => (s.ward.debug, s.ward.lcrec, s.cores.length)) =
    some (0, [1, 2, 3], 0) := by decide +kernel
theorem test_cold_reset_counts : after (.coldReset []) { job with recorder := { job.recorder with boot := 65535 } } (fun s => s.recorder.boot) = some 0 := by
  decide +kernel
theorem test_vin_low : after (.vinLockout 41999) job (fun s => (s.power.powered, s.power.st)) = some (false, .off) := by decide +kernel
theorem witness_FirmwareImagesActivateAndResetsKeepWhatTheyMust :
    job.fw.boot < 2 ∧ clusterUp job = true ∧ goodHeader.length = 8 ∧ (fwSlot job (otherSlot job)).st ∉ [3, 4] ∧
    headerCheck job (List.replicate 8 0) [] [] = 1 ∧
    (fwSlot (fwS (fun w => { w with b := { st := 1 } })) (otherSlot job)).st = 1 ∧
    (fwSlot (fwS (fun w => { w with b := { st := 2 } })) 1).st = 2 ∧
    (∀ g ∈ [0, 1], genReached (getGate (setGate job 1068 { en := true, gen := BitVec.ofNat 32 g }) (1024 + (300 - 256))).gen (BitVec.ofNat 32 1) =
      (g == 1)) ∧ awake job = true ∧
    (resS (fun r => { r with step := 1 })).resil.sealedStep ≠ (resS (fun r => { r with step := 1 })).resil.step ∧ job.resil.named = none ∧
    job.resil.sealedStep = job.resil.step ∧ (latestCkpt (resS (fun r => { r with ckpts := [(0, { sealed_ := true })] }))).isSome = true ∧
    onTrial (fwS (fun w => { w with a := { st := 3 } })) = true ∧ odNum (odSet job 0x0A 0x31 0 300) 0x0A 0x31 0 0 = 300 ∧
    genReached (getGate (setGate job 1068 { en := true }) 1068).gen (BitVec.ofNat 32 (odNum job 0x0A 0x32 0 0)) = true ∧
    (job.power.powered = true ∧ job.power.tripped = false ∧ job.power.st ≠ .off) ∧
    ({ job with power := { job.power with powered := false } } : State).power.powered = false ∧ ([] : List Nat).getD 3 0 % 8 ≠ 2 ∧
    [0, 0, 0, 2].getD 3 0 % 8 = 2 ∧ job.power.st = .run ∧ spGet 3 job.power.phases 20 = 3 := by decide +kernel
/-- A block that its digest record names, and one that it does not, whatever the digests are. -/
theorem witness_firmware_blocks (bs : List Byte) :
    (∃ x : FwSlot, x.st = 1 ∧ Config.shake256 32 (padTo 65536 bs) = x.table.getD x.next []) ∧
    (∃ x : FwSlot, x.st = 1 ∧ x.retries = 3 ∧ Config.shake256 32 (padTo 65536 bs) ≠ x.table.getD x.next []) :=
  ⟨⟨{ st := 1, table := [Config.shake256 32 (padTo 65536 bs)] }, rfl, rfl⟩,
   ⟨{ st := 1, retries := 3, table := [0 :: Config.shake256 32 (padTo 65536 bs)] }, rfl, rfl, by
      intro h
      have := congrArg List.length h
      simp at this⟩⟩
/-- A header passes every check where its signature verifies; that is the part's. -/
theorem witness_header_passes (v : ∀ k m g, Config.xmssVerify k m g = true) : headerCheck job goodHeader [[]] [] = 0 := by
  simp only [headerCheck, v]
  decide +kernel

/-! ## Power, dictionary, recorder, reset -/

def powS (f : Power → Power) : State := { job with power := f job.power }
def dieS (x : DieClock) : State := updDie job 0 (fun _ => x)
theorem test_limiter_at_105 : after (.fastLimiter 1260) job (fun s => (getDie s 2).powerCap) = some 0 ∧
    after (.fastLimiter 1261) job (fun s => (getDie s 2).powerCap) = some 1 := by decide +kernel
theorem test_dvfs_down : after (.dvfsRequest 0 2 1) job (fun s => ((getDie s 0).point, (getDie s 0).ramp)) = some (2, some (pointMv 2)) := by
  decide +kernel
theorem test_dvfs_back : after (.dvfsRequest 0 1 1) (dieS { point := 1, mv := 720, ramp := some 800 }) (fun s => (getDie s 0).ramp) = some none := by
  decide +kernel
theorem test_trip : after (.thermalTrip 1 112000 0) job (fun s => (s.power.tripped, s.cores.length)) = some (true, 0) := by decide +kernel
/-- R516: STATE[2:0] shows 7 in a transition; THERM_N falls with a warning. R518: bits 0, 1 of a byte go first. -/
theorem test_pins : [4, 5, 6].map (pinLevel (powS (fun w => { w with target := some .idle }))) = [some true, some true, some true] ∧
    pinLevel (dieS { warn := true }) 2 = some false ∧
    (entryClocks [0x83]).take 4 = [(true, true, true), (false, false, false), (false, false, false), (false, true, false)] := by
  decide +kernel
theorem witness_PowerStatesClocksAndTemperatureFollowTheirRules :
    job.power.st ≠ .off ∧ job.power.target = none ∧ (∀ n ∈ [0, 1, 2, 3, 4], powerStatus job n 1 = 0) ∧ powerStatus job 4 0 ≠ 0 ∧
    job.power.wakeAfter = false ∧ job.power.queued = none ∧ job.power.powered = true ∧ job.power.tripped = false ∧
    (∀ p ∈ [PowerState.idle, .run, .sleep], (powS (fun w => { w with target := some p })).power.target = some p) ∧
    (powS (fun w => { w with st := .deepSleep })).power.st = .deepSleep ∧ (64 : Nat) = smbusAddr job ∧ maxClass job < 1 ∧ 0 ≤ maxClass job ∧
    ((getDie job 3).powerCap = 0 ∧ (getDie job 3).thermCap = 0 ∧ job.power.brake = false) ∧
    ((getDie (dieS { point := 1 }) 0).point < 4 ∧ 0 < (getDie (dieS { point := 1 }) 0).point) ∧
    ((getDie (dieS { ramp := some 800 }) 0).ramp = some 800 ∧ pointInForce (dieS { ramp := some 800 }) 0 = (getDie (dieS { ramp := some 800 }) 0).point) ∧
    (pointInForce (dieS { point := 1, ramp := some 850 }) 0 < 1 ∧ pointMv (pointInForce (dieS { point := 1, ramp := some 850 }) 0) ≤ 850) ∧
    pointMv (getDie job 0).point ≤ 850 ∧ 560 < pointMv (getDie job 0).point ∧
    classWatts (classInForce job) * 105 < 1261 * 100 ∧ job.recorder.intake.length < 64 ∧ warnAt job ≤ 95000 ∧ 94999 < warnAt job ∧
    90000 + 5000 ≤ warnAt job ∧ pointAsked job 0 ≤ 4 := by decide +kernel

def frame (kind session : Nat) : List Byte := (⟨1, kind, 0, false, session, 0, 0, 0, 0, 0, 0⟩ : FrameHead).bytes
def mboxS (cur len : Nat) (d : List Byte) : State :=
  updFn (hostS [] []) 0 (fun f => { f with mbox := { f.mbox with busy := true, cur := cur, len := len, data := d } })
def recS (f : Recorder → Recorder) : State := { job with recorder := f job.recorder }
def event (sev : Nat) : Event := ⟨sev, 0x0070, 0, 0, 0⟩
theorem test_frame_write_denied : after (.frameWrite (frame 2 0)) job (fun s => (frameHead s.od.frameOut).status) = some 3 := by decide +kernel
theorem test_fatal_freezes : after .eventRecord (recS (fun r => { r with intake := [event 4] })) (fun s => (s.recorder.frozen, s.recorder.black.length)) =
    some (true, 1) := by decide +kernel
theorem test_smbus_pec : after (.smbusWrite [1] false) job (fun s => s.od.smbus.status) = some 0x0C := by decide +kernel
theorem witness_DictionaryPathsAndRecorderServeTheirRequests :
    objOf 0 0xFFFF = none ∧ ((objOf 9 0x10).map (fun o => (o.arr.getD 1, o.acc == .rw))) = some (1, true) ∧
    (Restrict.full = .full ∧ clusterUp (powS (fun w => { w with tripped := true })) = false ∧ isAo 9 0x10 = false) ∧
    ((objOf 0 0).map (fun o => (o.arr.getD 1, o.acc == .ro))) = some (1, true) ∧
    odCheck job { who := 0, path := 300, area := 0, item := 0, sub := 0, off := 0 } .write ≠ 0 ∧
    odCheck job { who := 1, path := 300, area := 1, item := 0x24, sub := 0, off := 0 } .read ≠ 0 ∧
    clusterUp job = true ∧ stagingOf job { who := 1, path := 300, area := 0x09, item := 0x10, sub := 0, off := 0 } = none ∧
    (∀ n ∈ [0, 1, 2, 3, 4], fnExists (mboxS n 0 []) 0 = true ∧ (getFn (mboxS n 0 []) 0).mbox.busy = true ∧ (getFn (mboxS n 0 []) 0).mbox.cur = n) ∧
    odCheck (mboxS 1 8 []) (mboxReq 0 (getFn (mboxS 1 8 []) 0).mbox) .write ≠ 0 ∧
    frameGood (frameHead []) [] = false ∧
    frameGood (frameHead (takeBytes 32 (frame 2 0))) (takeBytes 32 (frame 2 0)) = true ∧
    wardUp job = true ∧ job.power.st ≠ .sleep ∧
    (∀ k ∈ [1, 2, 3, 5, 6], frameGood (frameHead (frame k 0)) (frame k 0) = true ∧ (frameHead (frame k 0)).session = 0 ∧
      (frameHead (frame k 0)).kind = k) ∧
    getSession (wardS (fun w => { w with sessions := [session true] })) 7 = some (session true) ∧
    odCheck job (busReq job.od.smbus) .write ≠ 0 ∧
    alertUnread (recS (fun r => { r with ring := [(0, ⟨1, 0, 0, event 3⟩)] })) = true ∧ job.od.smbus.released = false ∧
    (recS (fun r => { r with intake := [event 4], frozen := true })).recorder.frozen = true ∧ job.recorder.frozen = false ∧
    flashPowered job = true ∧ (recS (fun r => { r with ring := [(0, ⟨1, 0, 0, event 3⟩)], next := 1 })).recorder.entries ≠ [] ∧
    job.recorder.intake.length < 64 := by decide +kernel
theorem witness_dictionary_accesses : ∀ p ∈ [(0, 0, Access.ro), (9, 0x10, .rw), (1, 0x40, .rws), (1, 0x24, .wo)],
    (objOf p.1 p.2.1).map (fun o => (o.acc == p.2.2, decide (0 < o.arr.getD 1))) = some (true, true) := by decide +kernel

theorem witness_ResetLeavesTheStatedState : (15 : Nat) < 16 ∧ (0 : Nat) < 7 ∧ 7 < 8 ∧ (255 : Nat) ≠ 0 := by decide
theorem witness_EveryStepKeepsTheLevelLegal : LevelLegal State.reset ∧ exec .nonceExpire State.reset = .next State.reset ∧
    step State.reset = .next State.reset :=
  ⟨⟨by decide, by decide, by decide, by decide⟩, rfl, rfl⟩

/-! A frame under a session key -/

theorem takeBytes_self (k : Nat) : ∀ l : List Byte, l.length = k → takeBytes k l = l := by
  induction k with
  | zero => intro l h; simp [takeBytes, List.length_eq_zero_iff.mp h]
  | succ k ih =>
    rintro (_ | ⟨a, l⟩) h
    · cases h
    · simp only [takeBytes, ih l (by simpa using h)]
theorem ofBytes_toBytes (k n : Nat) : ofBytes (toBytes k n) = n % 256 ^ k := by
  induction k generalizing n with
  | zero => simp [toBytes, ofBytes, Nat.mod_one]
  | succ k ih =>
    rw [Nat.pow_succ', Nat.mod_mul, ← ih]
    rfl
/-- A frame of session 7 of no data: of a kind, with a sequence number. -/
def plainFrame (kind seq : Byte) : List Byte :=
  [7, 0, 0, 0, 0, 0, kind, 1, 0, 0, 0, 0, seq, 0, 0, 0] ++ List.replicate 16 0
theorem frame_bytes_head (t : List Byte) : ∀ k ∈ [(1 : Byte), 2], frameHead (plainFrame k 1 ++ t) = ⟨1, k.toNat, 0, false, 7, 1, 0, 0, 0, 0, 0⟩ := by
  simp only [frameHead, plainFrame, bytesAt, List.cons_append, List.nil_append, List.replicate, List.drop_succ_cons, List.drop_zero, takeBytes]
  decide +kernel
theorem frame_bytes_tag (k : Byte) (n : Nat) : bytesAt (plainFrame k 1 ++ toBytes 16 n) 32 16 = n % 2 ^ 128 := by
  have := ofBytes_toBytes 16 n
  have d : (plainFrame k 1 ++ toBytes 16 n).drop 32 = toBytes 16 n := by simp [plainFrame]
  have e : (toBytes 16 n).length = 16 := by simp [toBytes]
  rw [bytesAt, d, takeBytes_self 16 _ e, this, show (256 : Nat) ^ 16 = 2 ^ 128 by norm_num]
theorem frame_bytes_open (key iv n : Nat) (k : Byte) (hk : k ∈ [(1 : Byte), 2]) : openFrame key iv (plainFrame k 1 ++ toBytes 16 n) =
      if n % 2 ^ 128 = Config.gcmTag key iv (plainFrame k 1) [] % 2 ^ 128 then some [] else none := by
  have ht : (plainFrame k 1 ++ toBytes 16 n).take 32 = plainFrame k 1 := rfl
  simp only [openFrame, frame_bytes_head _ k hk, ht, frame_bytes_tag, Nat.add_zero, List.take_zero, List.length_nil]
  rfl
theorem frame_bytes_good (n : Nat) (k : Byte) (hk : k ∈ [(1 : Byte), 2]) :
    frameGood (frameHead (plainFrame k 1 ++ toBytes 16 n)) (plainFrame k 1 ++ toBytes 16 n) = true := by
  rw [frame_bytes_head _ k hk]
  fin_cases hk <;> rfl
/-- A frame of a session whose tag is right, and one whose tag is wrong, under any key. -/
theorem witness_frame_tags (key iv : Nat) : ∀ k ∈ [(1 : Byte), 2],
    (∃ f, frameGood (frameHead f) f = true ∧ frameHead f = ⟨1, k.toNat, 0, false, 7, 1, 0, 0, 0, 0, 0⟩ ∧ openFrame key iv f = some []) ∧
    (∃ f, frameGood (frameHead f) f = true ∧ frameHead f = ⟨1, k.toNat, 0, false, 7, 1, 0, 0, 0, 0, 0⟩ ∧ openFrame key iv f = none) := by
  intro k hk
  have opens (n : Nat) := frame_bytes_open key iv n k hk
  refine ⟨⟨plainFrame k 1 ++ toBytes 16 (Config.gcmTag key iv (plainFrame k 1) []), frame_bytes_good _ k hk, frame_bytes_head _ k hk, ?_⟩,
    ⟨plainFrame k 1 ++ toBytes 16 (Config.gcmTag key iv (plainFrame k 1) [] + 1), frame_bytes_good _ k hk, frame_bytes_head _ k hk, ?_⟩⟩
  · rw [opens, if_pos rfl]
  · rw [opens, if_neg]
    omega
/-- The session that such a frame belongs to: it is ready, on the frame path, its last SEQ is below 1, and a write of no object leaves it there. -/
theorem witness_frame_session : let s := wardS (fun w => { w with sessions := [session true] });
    getSession s 7 = some (session true) ∧ (session true).transport = 300 ∧ (session true).lastSeq < 1 ∧
    getSession (odWrite s { who := 1, path := 300, session := 7, limit := .full, area := 0, item := 0, sub := 0, off := 0 } [] false).2 7 =
      some (session true) := by
  decide +kernel
/-- A mailbox write that is refused, one longer than the mailbox, one that its server carries out, and a frame of kind 1 or 2 in a mailbox. -/
theorem witness_mailbox_requests :
    (∀ n ∈ [8, 5000], (getFn (mboxS 1 n []) 0).mbox.busy = true ∧ (getFn (mboxS 1 n []) 0).mbox.len = n) ∧
    (let m := (getFn (mboxS 1 8 []) 0).mbox;
      (getFn (odWrite (mboxS 1 8 []) (mboxReq 0 m) (takeBytes m.len m.data) m.more).2 0).mbox.busy = true) ∧
    (∀ k ∈ [1, 2], let m := (getFn (mboxS 3 32 (frame k 0)) 0).mbox;
      let f := takeBytes (min m.len 4096) m.data;
      frameGood (frameHead f) f = true ∧ (frameHead f).session = 0 ∧ (frameHead f).kind = k) ∧
    ([0, 0, 0, 0, 0, 0, 0, 0, 0] : List Byte).length = 9 := by decide +kernel

end Sys2Proof.Tests
end

section
/-!
PROOFS. Folds of an idempotent change, and what the fence procedure's commands leave unchanged (01 R17–R25).
-/

namespace Sys2Proof.Machine

/-! ## Folds over independent places -/

/-- A fold of steps, each of which changes one place of a state by an idempotent function, changes the places it lists, each as if once. -/
theorem get_foldl {σ ι β : Type} [DecidableEq ι] {get : σ → ι → β} {step : σ → ι → σ} {f : ι → β → β} (hf : ∀ i x, f i (f i x) = f i x)
    (h : ∀ s i j, get (step s i) j = if j = i then f j (get s j) else get s j) (l : List ι) (s : σ) (j : ι) :
    get (l.foldl step s) j = if j ∈ l then f j (get s j) else get s j := by
  induction l generalizing s with
  | nil => simp
  | cons i l ih =>
    rw [List.foldl_cons, ih, h]
    by_cases hi : j = i <;> by_cases hl : j ∈ l <;> simp [hi, hl, hf]

/-- What every step of a fold keeps, the fold keeps. -/
theorem foldl_keeps {σ ι β : Type} (get : σ → β) {step : σ → ι → σ} (h : ∀ s i, get (step s i) = get s) (l : List ι) (s : σ) :
    get (l.foldl step s) = get s :=
  List.foldlRecOn (motive := fun x => get x = get s) l step rfl (fun x hx i _ => (h x i).trans hx)

/-! ## What leaves the grid -/

@[simp] theorem sendEvent_grid (s : State) (e : Event) : (sendEvent s e).grid = s.grid := by
  unfold sendEvent; split <;> rfl

@[simp] theorem sendEvent_cores (s : State) (e : Event) : (sendEvent s e).cores = s.cores := by
  unfold sendEvent; split <;> rfl

theorem getCore_sendEvent (s : State) (e : Event) (c : Nat) : getCore (sendEvent s e) c = getCore s c := by
  simp [getCore]

theorem getThread_sendEvent (s : State) (e : Event) (c t : Nat) : getThread (sendEvent s e) c t = getThread s c t := by
  simp [getThread, getCore_sendEvent]

@[simp] theorem deliverDeferred_grid (s : State) (c t : Nat) (x : Exc) : (deliverDeferred s c t x).grid = s.grid := by
  unfold deliverDeferred
  split
  · exact sendEvent_grid _ _
  · rfl

@[simp] theorem endOut_grid (s : State) (c n : Nat) (why : ReapEnd) (x : Option Exc) : (endOut s c n why x).grid = s.grid := by
  unfold endOut
  split
  · rfl
  · dsimp only
    split
    · split
      · exact foldl_keeps State.grid (fun _ _ => deliverDeferred_grid _ _ _ _) _ _
      · rfl
    · rfl

@[simp] theorem reapDiscard_grid (s : State) (key : Nat) (why : ReapEnd) (x : Nat → Exc) : (reapDiscard s key why x).grid = s.grid := by
  unfold reapDiscard
  dsimp only
  rw [foldl_keeps State.grid (fun _ _ => endOut_grid _ _ _ _ _)]
  split <;> rfl

@[simp] theorem discardReaps_grid (s : State) (c : Nat) : (discardReaps s c).grid = s.grid :=
  foldl_keeps State.grid (fun s key => by dsimp only; split <;> simp) _ _

@[simp] theorem holdCore_grid (s : State) (c : Nat) : (holdCore s c).grid = s.grid := updCore_grid s c _

@[simp] theorem holdAll_grid (s : State) (later : List Nat) : (holdAll s later).grid = s.grid :=
  foldl_keeps State.grid holdCore_grid _ _

/-! ## Holding and releasing threads -/

/-- A thread as a core's hold leaves it: HELD where it ran (01 R17 step 1). -/
def heldThread (th : Thread) : Thread :=
  if th.st.state = .running then { th with st := { th.st with state := .held }, fenceHeld := true } else th

theorem heldThread_idem (th : Thread) : heldThread (heldThread th) = heldThread th := by
  by_cases h : th.st.state = .running <;> simp [heldThread, h]

/-- A thread as the release of the cores leaves it (01 R17 step 5; 02 R89). -/
def releasedThread (th : Thread) : Thread :=
  if th.fenceHeld = true ∧ th.st.state = .held then
    { th with st := { th.st with state := if th.stopHeld then .stopped else .running }, stopHeld := false, fenceHeld := false }
  else th

theorem releasedThread_idem (th : Thread) : releasedThread (releasedThread th) = releasedThread th := by
  by_cases h : th.fenceHeld = true ∧ th.st.state = .held <;> simp [releasedThread, h]

theorem thread_updThread (k : Core) (t u : Nat) (f : Thread → Thread) :
    (k.updThread t f).thread u = if u = t then f (k.thread u) else k.thread u := by
  by_cases h : u = t
  · subst h; simp
  · simp [h]

theorem thread_mapThreads (k : Core) {f : Nat → Thread → Thread} (hf : ∀ t x, f t (f t x) = f t x) (t : Nat) :
    (k.mapThreads f).thread t = if t < 16 then f t (k.thread t) else k.thread t := by
  have h := get_foldl (get := Core.thread) (step := fun k t => k.updThread t (f t)) (f := f) hf
    (fun k u t => by rw [thread_updThread]; split <;> simp [*]) allThreads k t
  simpa [Core.mapThreads, allThreads] using h

theorem holdCore_eq (s : State) (c : Nat) : holdCore s c = updCore s c (fun k => k.mapThreads (fun _ => heldThread)) := rfl

theorem getThread_holdCore (s : State) (c d : Nat) {t : Nat} (ht : t < 16) :
    getThread (holdCore s c) d t = if d = c then heldThread (getThread s d t) else getThread s d t := by
  by_cases h : d = c
  · subst h
    simpa [getThread, holdCore_eq, ht] using
      thread_mapThreads (getCore s d) (f := fun _ => heldThread) (fun _ => heldThread_idem) t
  · simp [getThread, holdCore_eq, h]

/-- Every core but the later ones holds. -/
theorem getThread_holdAll (s : State) (later : List Nat) {d t : Nat} (hd : coreExists s d = true) (ht : t < 16) :
    getThread (holdAll s later) d t = if d ∉ later then heldThread (getThread s d t) else getThread s d t := by
  have h := get_foldl (get := fun s d => getThread s d t) (f := fun _ => heldThread) (fun _ => heldThread_idem)
    (fun s c d => getThread_holdCore s c d ht) ((allCores s).filter (fun c => !later.contains c)) s d
  have : d < gridRows s.grid * 48 := by simpa [coreExists] using hd
  simpa [holdAll, allCores, this] using h

/-- One step of the release: a thread that a fence procedure holds is released. -/
theorem getThread_releaseStep (s : State) (c t u : Nat) :
    getThread (if (getThread s c t).fenceHeld then releaseThread s c t else s) c u =
      if u = t then releasedThread (getThread s c u) else getThread s c u := by
  by_cases h : u = t
  · subst h
    by_cases hf : (getThread s c u).fenceHeld = true <;> simp [releaseThread, releasedThread, hf]
  · split <;> simp [releaseThread, h]

/-- The release of one core's threads. -/
def releaseCore (s : State) (c : Nat) : State :=
  allThreads.foldl (fun s t => if (getThread s c t).fenceHeld then releaseThread s c t else s) s

theorem getThread_releaseCore (s : State) (c d : Nat) {t : Nat} (ht : t < 16) :
    getThread (releaseCore s c) d t = if d = c then releasedThread (getThread s d t) else getThread s d t := by
  by_cases h : d = c
  · subst h
    have := get_foldl (get := fun s t => getThread s d t) (f := fun _ => releasedThread) (fun _ => releasedThread_idem)
      (fun s u t => getThread_releaseStep s d u t) allThreads s t
    simpa [releaseCore, allThreads, ht] using this
  · rw [if_neg h]
    exact foldl_keeps (fun s => getThread s d t) (fun s u => by split <;> simp [releaseThread, h]) _ _

theorem releaseCore_grid (s : State) (c : Nat) : (releaseCore s c).grid = s.grid :=
  foldl_keeps State.grid (fun s u => by split <;> rfl) _ _

theorem releaseCores_of_written {s : State} {p : FenceProc} (hp : s.grid.proc = some p) (hw : p.mapWritten = true) :
    releaseCores s = (allCores s).foldl releaseCore { s with grid := { s.grid with
      proc := none, pos := if p.hole then s.grid.pos else spSet .active s.grid.pos p.pos .moved } } := by
  simp only [releaseCores, hp, hw]
  rfl

/-- The release ends the procedure, and lets every held thread of every core run or stop. -/
theorem releaseCores_grid {s : State} {p : FenceProc} (hp : s.grid.proc = some p) (hw : p.mapWritten = true) :
    (releaseCores s).grid = { s.grid with
      proc := none, pos := if p.hole then s.grid.pos else spSet .active s.grid.pos p.pos .moved } := by
  rw [releaseCores_of_written hp hw, foldl_keeps State.grid releaseCore_grid]

theorem getThread_releaseCores {s : State} {p : FenceProc} (hp : s.grid.proc = some p) (hw : p.mapWritten = true) {c t : Nat}
    (hc : coreExists s c = true) (ht : t < 16) : getThread (releaseCores s) c t = releasedThread (getThread s c t) := by
  have hm : c ∈ allCores s := by simpa [allCores, coreExists] using hc
  rw [releaseCores_of_written hp hw, get_foldl (get := fun s d => getThread s d t) (f := fun _ => releasedThread)
    (fun _ => releasedThread_idem) (fun s c d => getThread_releaseCore s c d ht), if_pos hm]
  rfl

/-! ## The start of the procedure -/

/-- The state as FENCE_CORE first writes it, before any core holds. -/
def fenceBegun (s : State) (c cause : Nat) (readable deadRtr : Bool) : State :=
  { s with grid := { s.grid with
    pos := spSet .active s.grid.pos c .fencing
    proc := some { pos := c, readable := readable, deadRtr := deadRtr, cause := cause,
                   hole := !(skipOf s.grid (furrowOf s.grid c)).2, mapWritten := false, running := gateCores s c } } }

theorem fenceCore_of_idle {s : State} {c : Nat} (hc : coreExists s c = true) (hh : isHole s c = false) (hp : s.grid.proc = none)
    (cause : Nat) (readable deadRtr : Bool) : fenceCore s c cause readable deadRtr =
      let held := holdAll (fenceBegun s c cause readable deadRtr) (gateCores s c)
      let hole := !(skipOf s.grid (furrowOf s.grid c)).2
      sendEvent (if hole then discardReaps held c else held)
        { sev := 3, code := 0x0060, source := srcCore c, arg0 := cause, arg1 := boolN hole } := by
  rw [fenceCore, if_neg (by simp [hc, hh, hp])]
  rfl

theorem fenceCore_grid {s : State} {c : Nat} (hc : coreExists s c = true) (hh : isHole s c = false) (hp : s.grid.proc = none)
    (cause : Nat) (readable deadRtr : Bool) :
    (fenceCore s c cause readable deadRtr).grid = (fenceBegun s c cause readable deadRtr).grid := by
  rw [fenceCore_of_idle hc hh hp, sendEvent_grid]
  split <;> simp

/-- With a spare in the furrow, the threads of every core that no gate names hold. -/
theorem getThread_fenceCore {s : State} {c : Nat} (hc : coreExists s c = true) (hh : isHole s c = false) (hp : s.grid.proc = none)
    (cause : Nat) (readable deadRtr : Bool) (hs : (skipOf s.grid (furrowOf s.grid c)).2 = true) {d t : Nat}
    (hd : coreExists s d = true) (ht : t < 16) : getThread (fenceCore s c cause readable deadRtr) d t =
      if d ∉ gateCores s c then heldThread (getThread s d t) else getThread s d t := by
  rw [fenceCore_of_idle hc hh hp, getThread_sendEvent, if_neg (by simp [hs])]
  exact getThread_holdAll (fenceBegun s c cause readable deadRtr) (gateCores s c) hd ht

end Sys2Proof.Machine
end

section
/-!
PROOFS. The map write, core reset and wipe (01 R17–R20; 02 R101; 13 R461).
-/

namespace Sys2Proof.Machine

/-! ## Forgetting a core -/

/-- What forgetting some core leaves of a state: only cores differ, and those in their requests and latch waiters alone. -/
structure CoresButWaits (s s' : State) : Prop where
  rest : s' = { s with cores := s'.cores }
  core : ∀ d, getCore s' d = { getCore s d with
    reqs := (getCore s' d).reqs, mem := { (getCore s d).mem with latch := (getCore s' d).mem.latch } }

theorem CoresButWaits.refl (s : State) : CoresButWaits s s := ⟨rfl, fun _ => rfl⟩

theorem CoresButWaits.trans {s s1 s2 : State} (h : CoresButWaits s s1) (h' : CoresButWaits s1 s2) : CoresButWaits s s2 where
  rest := by rw [h'.rest, h.rest]
  core d := by rw [h'.core d, h.core d]

/-- A change of the requests and latch waiters of one core. -/
theorem coresButWaits_updCore (s : State) (c : Nat) {f : Core → Core}
    (hf : ∀ k, f k = { k with reqs := (f k).reqs, mem := { k.mem with latch := (f k).mem.latch } }) : CoresButWaits s (updCore s c f) where
  rest := rfl
  core d := by
    by_cases h : d = c
    · subst h; rw [getCore_updCore_same]; exact hf _
    · rw [getCore_updCore_other _ _ h]

theorem coresButWaits_sendCancel (s : State) (c req : Nat) (why : CancelWhy) : CoresButWaits s (sendCancel s c req why) := by
  unfold sendCancel updReq
  exact coresButWaits_updCore s c (fun _ => rfl)

theorem coresButWaits_foldl {ι : Type} {step : State → ι → State} (h : ∀ s i, CoresButWaits s (step s i)) (l : List ι) (s : State) :
    CoresButWaits s (l.foldl step s) :=
  List.foldlRecOn (motive := CoresButWaits s) l step (.refl s) (fun x hx i _ => hx.trans (h x i))

theorem coresButWaits_forgetCore (s : State) (c : Nat) : CoresButWaits s (forgetCore s c) := by
  refine (coresButWaits_foldl (fun s w => ?_) _ s).trans (coresButWaits_foldl (fun s x => ?_) _ _)
  · split
    · exact .refl s
    · exact coresButWaits_sendCancel s _ _ _
  · exact coresButWaits_updCore s _ (fun _ => rfl)

/-! ## The map write -/

/-- The procedure has its map written, and waits for the release. -/
def mapWritten (s : State) (p : FenceProc) : State :=
  { s with grid := { s.grid with proc := some { p with mapWritten := true, running := [] } } }

@[simp] theorem getCore_mapWritten (s : State) (p : FenceProc) (c : Nat) : getCore (mapWritten s p) c = getCore s c := rfl
@[simp] theorem fenceOf_mapWritten (s : State) (p : FenceProc) (c : Nat) : fenceOf (mapWritten s p) c = fenceOf s c := rfl

theorem fenceMapWrite_of_held {s : State} {p : FenceProc} (hp : s.grid.proc = some p) (hw : p.mapWritten = false)
    (hc : coresHold s = true) (hn : netsDrained s = true) :
    fenceMapWrite s = mapWritten (if p.hole then makeHole s p else spareMove s p) p := by
  simp [fenceMapWrite, mapWritten, hp, hw, hc, hn]

@[simp] theorem makeHole_grid (s : State) (p : FenceProc) : (makeHole s p).grid =
    { (recordFence s p.pos p.deadRtr true).grid with pos := spSet .active s.grid.pos p.pos .hole } := by
  have h := (coresButWaits_forgetCore (recordFence s p.pos p.deadRtr true) p.pos).rest
  simp only [makeHole]
  rw [h]
  rfl

@[simp] theorem getCore_makeHole (s : State) (p : FenceProc) : getCore (makeHole s p) p.pos = coreReset :=
  getCore_setCore_same _ _ _

/-- A position whose column changes site is MOVED, where it is no hole (01 R25). -/
def markMoved (m : Sparse CoreFence) (x : Nat) : Sparse CoreFence := if spGet .active m x == .hole then m else spSet .active m x .moved

theorem spGet_markMoved_other (m : Sparse CoreFence) {x c : Nat} (h : c ≠ x) : spGet .active (markMoved m x) c = spGet .active m c := by
  unfold markMoved
  split
  · rfl
  · exact spGet_set_other _ _ _ _ h

theorem spGet_foldl_markMoved (l : List Nat) (m : Sparse CoreFence) {c : Nat} (h : c ∉ l) :
    spGet .active (l.foldl markMoved m) c = spGet .active m c :=
  List.foldlRecOn (motive := fun x => spGet .active x c = spGet .active m c) l markMoved rfl
    (fun x hx i hi => (spGet_markMoved_other x (fun he : c = i => h (he ▸ hi))).trans hx)

/-- The spare's takeover leaves the map of the position itself: it stays FENCING until the release (01 R25, R29). -/
theorem spareMove_fence (s : State) (p : FenceProc) : fenceOf (spareMove s p) p.pos = fenceOf s p.pos := by
  simp only [spareMove, fenceOf]
  split <;> exact spGet_foldl_markMoved _ _ (by simp)

theorem spareMove_skip (s : State) (p : FenceProc) :
    skipOf (spareMove s p).grid (furrowOf s.grid p.pos) = (siteCol s.grid p.pos, false) := by
  simp only [spareMove, skipOf]
  split <;> exact spGet_insert_same _ _ _ _

theorem spareMove_fences (s : State) (p : FenceProc) :
    (spareMove s p).grid.fences = (recordFence s p.pos p.deadRtr false).grid.fences := by
  simp only [spareMove]
  split <;> rfl

theorem getCore_spareMove_other (s : State) (p : FenceProc) {d : Nat} (h : d ≠ p.pos) : getCore (spareMove s p) d = getCore s d := by
  simp only [spareMove]
  split
  · rfl
  · exact getCore_updCore_other _ _ h

/-- What the core that takes over has of the memories: nothing where they could not be read (01 R19). -/
def movedMem (readable : Bool) (m : CoreMem) : CoreMem := if readable then m else { m with localMem := {}, gran := {}, gcache := [] }

theorem getCore_spareMove_same (s : State) (p : FenceProc) : getCore (spareMove s p) p.pos =
    { getCore s p.pos with mem := movedMem p.readable (getCore s p.pos).mem } := by
  simp only [spareMove, movedMem]
  split
  · rfl
  · exact getCore_updCore_same _ _ _

/-! ## Reset, wipe and reseeding -/

theorem reseed_of_good {s : State} (h : s.ward.entropyBad = false) (c : Nat) : reseed s c =
    updCore { s with draws := s.draws + 1 } c (fun k => { k with seed := some (BitVec.ofNat 256 (Config.draw s.draws)) }) := by
  simp [reseed, h]

theorem getCore_reseed_same (s : State) (c : Nat) : getCore (reseed s c) c = { getCore s c with
    seed := if s.ward.entropyBad then (getCore s c).seed else some (BitVec.ofNat 256 (Config.draw s.draws)) } := by
  unfold reseed
  split
  · rfl
  · rw [getCore_updCore_same]; rfl

theorem getCore_reseed_other (s : State) {c d : Nat} (h : d ≠ c) : getCore (reseed s c) d = getCore s d := by
  unfold reseed
  split
  · rfl
  · rw [getCore_updCore_other _ _ h]; rfl

theorem getCore_coreResetAt_same (s : State) (c : Nat) : getCore (coreResetAt s c) c = { coreReset with
    nextReq := (getCore s c).nextReq
    seed := if s.ward.entropyBad then none else some (BitVec.ofNat 256 (Config.draw s.draws)) } := by
  obtain ⟨hrest, hcore⟩ := coresButWaits_forgetCore s c
  simp only [coreResetAt, getCore_reseed_same, getCore_setCore_same]
  rw [hcore c, hrest]
  rfl

theorem getCore_coreResetAt_other (s : State) {c d : Nat} (h : d ≠ c) : (getCore (coreResetAt s c) d).threads = (getCore s d).threads ∧
    (getCore (coreResetAt s c) d).mem.localMem = (getCore s d).mem.localMem := by
  have hd : getCore (coreResetAt s c) d = getCore (forgetCore s c) d := by
    simp only [coreResetAt, getCore_reseed_other _ h, getCore_setCore_other _ _ h]
  rw [hd, (coresButWaits_forgetCore s c).core d]
  exact ⟨rfl, rfl⟩

theorem getThread_coreResetAt (s : State) (c t : Nat) : getThread (coreResetAt s c) c t = threadReset t := by
  rw [getThread, getCore_coreResetAt_same]
  exact spGet_nil _ t

/-- What a wipe leaves of a core, its generator apart (13 R461). -/
def wipedCore (k : Core) : Core := { k with
  mem := { k.mem with localMem := {}, gran := {}, gcache := [], l1 := [], tlb := [] }
  tile := { k.tile with regs := [], acc0 := {}, acc1 := {}, opCache := [] }
  drain := { k.drain with tables := [], held := [] } }

/-- With no latch waiter there is nothing that a wipe serves. -/
theorem coreWipe_of_noWaiters {s : State} {c : Nat} (h : (getCore s c).mem.latch = []) :
    coreWipe s c = updCore (reseed s c) c wipedCore := by
  have hl : (getCore (updCore (reseed s c) c wipedCore) c).mem.latch = [] := by
    rw [getCore_updCore_same, getCore_reseed_same]; exact h
  change serveAll (updCore (reseed s c) c wipedCore) c = _
  rw [serveAll, hl, List.foldl_nil]

end Sys2Proof.Machine
end

section
/-!
PROOFS. The patrol scrub (07 R273, R274, R276).
-/

namespace Sys2Proof.Machine

/-! ## Entries of a canonical map -/

/-- A canonical map lists a value at a key where it reads that value and the value is no default. -/
theorem mem_iff_spGet {α : Type} [DecidableEq α] {d : α} {m : Sparse α} (h : spWf (fun _ => d) m) (k : Nat) (v : α) :
    (k, v) ∈ m ↔ v ≠ d ∧ spGet d m k = v := by
  induction m with
  | nil => simpa using fun hv => Ne.symm hv
  | cons p r ih =>
    obtain ⟨j, x⟩ := p
    obtain ⟨hp, hd⟩ := h
    rw [List.pairwise_cons] at hp
    have hx : x ≠ d := hd (j, x) List.mem_cons_self
    have ihr := ih ⟨hp.2, fun q hq => hd q (List.mem_cons_of_mem _ hq)⟩
    by_cases hk : k = j
    · subst hk
      have hn : (k, v) ∉ r := fun hm => absurd (hp.1 _ hm) (lt_irrefl k)
      simp only [List.mem_cons, hn, Prod.mk.injEq, true_and, or_false, spGet, if_true]
      constructor
      · rintro rfl; exact ⟨hx, rfl⟩
      · rintro ⟨-, rfl⟩; rfl
    · simp [List.mem_cons, hk, spGet, ihr]

/-- The keys at which a canonical map lists a value with a property that the default does not have. -/
theorem mem_keys_filter {α : Type} [DecidableEq α] {d : α} {m : Sparse α} (h : spWf (fun _ => d) m) (p : Nat × α → Bool)
    (hd : ∀ k, p (k, d) = false) (k : Nat) : k ∈ (m.filter p).map (·.1) ↔ p (k, spGet d m k) = true := by
  simp only [List.mem_map, List.mem_filter, Prod.exists, exists_and_right, exists_eq_right]
  constructor
  · rintro ⟨v, hv, hp⟩
    rwa [((mem_iff_spGet h k v).1 hv).2]
  · intro hp
    refine ⟨_, (mem_iff_spGet h k _).2 ⟨fun he => ?_, rfl⟩, hp⟩
    rw [he, hd] at hp
    exact absurd hp (by decide)

/-! ## The scrub of a memory -/

/-- A mark as a scrub leaves it: corrected, or full poison where it could not be read. -/
def scrubbedMark (k : Mark) : Mark := if k.ecc = .unc then { poison := true, full := true, ecc := .clean } else { k with ecc := .clean }

/-- A mark as a probe leaves it. -/
def probedMark (k : Mark) : Mark := if k.ecc = .unc then { poison := true, full := true, ecc := .clean } else k

/-- A scrub's correction of a word. -/
def Mem.correct (m : Mem) (w : Nat) : Mem := m.setMark w { m.mark w with ecc := .clean }

/-- The words of a part of a memory whose stored code is in a given state. -/
def Mem.found (m : Mem) (p : Nat → Bool) (e : Ecc) : List Nat := (m.marks.filter (fun x => p x.1 && x.2.ecc == e)).map (·.1)

theorem mem_found {m : Mem} (h : m.Wf) (p : Nat → Bool) {e : Ecc} (he : e ≠ .clean) (w : Nat) :
    w ∈ m.found p e ↔ p w = true ∧ (m.mark w).ecc = e := by
  have := mem_keys_filter h.2 (fun x => p x.1 && x.2.ecc == e) (fun k => by simpa [Mark.none] using fun _ => he.symm) w
  simpa [Mem.found, Mem.mark] using this

theorem scrub_eq (m : Mem) (p : Nat → Bool) : m.scrub p =
    ((m.found p .unc).foldl (fun m w => (m.probe w).1) ((m.found p .oneBit ++ m.found p .twoBit).foldl Mem.correct m),
      m.found p .oneBit, m.found p .twoBit, m.found p .unc) := rfl

theorem probe_bytes (m : Mem) (w : Nat) : (m.probe w).1.bytes = m.bytes := by
  unfold Mem.probe; split <;> rfl

theorem probe_mark (m : Mem) (w x : Nat) : (m.probe w).1.mark x = if x = w then probedMark (m.mark x) else m.mark x := by
  by_cases hx : x = w
  · subst hx
    by_cases h : (m.mark x).ecc = .unc <;> simp [Mem.probe, probedMark, h]
  · unfold Mem.probe
    split <;> simp [hx]

theorem correct_mark (m : Mem) (w x : Nat) : (m.correct w).mark x = if x = w then { m.mark x with ecc := .clean } else m.mark x := by
  by_cases hx : x = w
  · subst hx; simp [Mem.correct]
  · simp [Mem.correct, hx]

/-- A scrub changes no byte. -/
theorem scrub_bytes (m : Mem) (p : Nat → Bool) : (m.scrub p).1.bytes = m.bytes := by
  rw [scrub_eq, foldl_keeps Mem.bytes probe_bytes, foldl_keeps Mem.bytes (step := Mem.correct) (fun _ _ => rfl)]

/-- A scrub corrects the words of its part, or makes them full poison; it changes no other mark. -/
theorem scrub_mark {m : Mem} (h : m.Wf) (p : Nat → Bool) (w : Nat) :
    (m.scrub p).1.mark w = if p w = true then scrubbedMark (m.mark w) else m.mark w := by
  have hp := get_foldl (get := Mem.mark) (f := fun _ => probedMark) (fun _ k => by by_cases hk : k.ecc = .unc <;> simp [probedMark, hk])
    probe_mark (m.found p .unc) ((m.found p .oneBit ++ m.found p .twoBit).foldl Mem.correct m) w
  have hc := get_foldl (get := Mem.mark) (f := fun _ k => { k with ecc := .clean }) (fun _ _ => rfl) correct_mark
    (m.found p .oneBit ++ m.found p .twoBit) m w
  simp only [scrub_eq, hp, hc, List.mem_append, mem_found h p (e := .unc) (by decide), mem_found h p (e := .oneBit) (by decide),
    mem_found h p (e := .twoBit) (by decide)]
  cases p w with
  | false => simp
  | true =>
    generalize m.mark w = k
    obtain ⟨po, fu, e⟩ := k
    cases e <;> simp [scrubbedMark, probedMark]

/-! ## Reports and services of a scrub -/

theorem sendEvent_bulk (s : State) (e : Event) : (sendEvent s e).bulk = s.bulk := by
  unfold sendEvent; split <;> rfl

theorem retireFrame_cores (s : State) (pa : Nat) : (retireFrame s pa).cores = s.cores := by
  simp only [retireFrame]; split <;> simp

theorem retireFrame_bulk (s : State) (pa : Nat) : (retireFrame s pa).bulk = s.bulk := by
  simp only [retireFrame]; split <;> simp [sendEvent_bulk]

theorem reportUncorr_cores (s : State) (kind source : Nat) (l : List Nat) : (reportUncorr s kind source l).cores = s.cores := by
  induction l generalizing s with
  | nil => rfl
  | cons a as ih =>
    rw [reportUncorr, ih]
    split <;> simp [retireFrame_cores]

theorem reportUncorr_bulk (s : State) (kind source : Nat) (l : List Nat) : (reportUncorr s kind source l).bulk = s.bulk := by
  induction l generalizing s with
  | nil => rfl
  | cons a as ih =>
    rw [reportUncorr, ih]
    split <;> simp [retireFrame_bulk, sendEvent_bulk]

theorem countCorrCore_cores (s : State) (c n : Nat) : (countCorrCore s c n).cores = s.cores := by
  unfold countCorrCore; split <;> rfl

theorem countCorrBulk_bulk (s : State) (i n : Nat) : (countCorrBulk s i n).bulk = s.bulk := by
  unfold countCorrBulk; split <;> rfl

/-! ## A full word at which nobody waits -/

/-- A word of a core's memory that is full and readable, and at which no latch operation waits. -/
structure IdleFull (s : State) (gran : Bool) (c wd : Nat) : Prop where
  full : ((coreMem s gran c).mark wd).full = true
  readable : ((coreMem s gran c).mark wd).ecc ≠ .unc
  alone : ∀ x ∈ (getCore s c).mem.latch, sameWord gran wd x = false

theorem getCore_setCoreMem_self (s : State) (gran : Bool) (c d : Nat) : getCore (setCoreMem s gran c (coreMem s gran c)) d = getCore s d := by
  by_cases h : d = c
  · subst h; cases gran <;> simp [setCoreMem, setLocal, setGran, coreMem]
  · cases gran <;> simp [setCoreMem, setLocal, setGran, h]

theorem wordProbe_of_readable {s : State} {gran : Bool} {c wd : Nat} (h : ((coreMem s gran c).mark wd).ecc ≠ .unc) :
    wordProbe s gran c wd = (setCoreMem s gran c (coreMem s gran c), (coreMem s gran c).mark wd,
      ofBytes ((coreMem s gran c).getBytes (8 * wd) 8)) := by
  simp [wordProbe, Mem.probe, h]

/-- Serving such a word changes no core. -/
theorem getCore_serve_idle {s : State} {gran : Bool} {c wd : Nat} (h : IdleFull s gran c wd) (d : Nat) :
    getCore (serve s gran c wd) d = getCore s d := by
  have hp : (getCore s c).mem.latch.filter (fun x => sameWord gran wd x && x.kind.isPeek) = [] :=
    List.filter_eq_nil_iff.2 (fun x hx => by simp [h.alone x hx])
  have hw : (getCore s c).mem.latch.filter (fun x => !(sameWord gran wd x && x.kind.isPeek)) = (getCore s c).mem.latch :=
    List.filter_eq_self.2 (fun x hx => by simp [h.alone x hx])
  have hf : (getCore s c).mem.latch.find? (fun x => sameWord gran wd x && x.kind.isTake) = none :=
    List.find?_eq_none.2 (fun x hx => by simp [h.alone x hx])
  unfold serve serveWord
  rw [wordProbe_of_readable h.readable]
  simp only [h.full, if_true, getCore_setCoreMem_self, hp, hw, hf, List.foldl_nil]
  by_cases hd : d = c
  · subst hd
    simp [setWaiters, getCore_setCoreMem_self]
  · simp [setWaiters, hd, getCore_setCoreMem_self]

theorem getCore_serveFound_idle {s : State} {gran : Bool} {c : Nat} {l : List Nat} (h : ∀ a ∈ l, IdleFull s gran c (a / 8)) (d : Nat) :
    getCore (serveFound s gran c l) d = getCore s d := by
  refine List.foldlRecOn (motive := fun x => ∀ d, getCore x d = getCore s d) l _ (fun _ => rfl) (fun x hx a ha d => ?_) d
  obtain ⟨hf, hr, ha⟩ := h a ha
  have hm : coreMem x gran c = coreMem s gran c := by simp only [coreMem, hx]
  exact (getCore_serve_idle ⟨hm ▸ hf, hm ▸ hr, by rwa [hx]⟩ d).trans (hx d)

/-! ## The scrub of a core -/

/-- No latch operation waits at an uncorrectable word of one of the core's memories. -/
def quietMem (s : State) (gran : Bool) (c : Nat) : Prop :=
  ∀ x ∈ (getCore s c).mem.latch, x.gran = gran → ((coreMem s gran c).mark x.word).ecc ≠ .unc

theorem coreMem_setCoreMem_same (s : State) (gran : Bool) (c : Nat) (m : Mem) : coreMem (setCoreMem s gran c m) gran c = m := by
  cases gran <;> simp [coreMem, setCoreMem, setGran, setLocal]

theorem latch_setCoreMem (s : State) (gran : Bool) (c : Nat) (m : Mem) :
    (getCore (setCoreMem s gran c m) c).mem.latch = (getCore s c).mem.latch := by
  cases gran <;> simp [setCoreMem, setGran, setLocal]

/-- A core whose scrub is counted and reported; nobody has been served yet. -/
def scrubReported (s : State) (gran : Bool) (c : Nat) : State :=
  let r := (coreMem s gran c).scrub (fun _ => true)
  reportUncorr (countCorrCore (setCoreMem s gran c r.1) c (r.2.1.length + r.2.2.1.length)) (boolN gran) (srcCore c) (r.2.2.2.map (8 * ·))

theorem scrubCoreMem_eq (s : State) (gran : Bool) (c : Nat) : scrubCoreMem s gran c =
    serveFound (scrubReported s gran c) gran c (((coreMem s gran c).found (fun _ => true) .unc).map (8 * ·)) := rfl

theorem getCore_scrubReported (s : State) (gran : Bool) (c d : Nat) :
    getCore (scrubReported s gran c) d = getCore (setCoreMem s gran c ((coreMem s gran c).scrub (fun _ => true)).1) d := by
  simp only [getCore, scrubReported, reportUncorr_cores, countCorrCore_cores]

theorem coreMem_scrubReported (s : State) (gran : Bool) (c : Nat) :
    coreMem (scrubReported s gran c) gran c = ((coreMem s gran c).scrub (fun _ => true)).1 := by
  rw [coreMem, getCore_scrubReported, ← coreMem, coreMem_setCoreMem_same]

/-- A scrub of one of a core's memories puts the scrubbed memory in its place: it serves nobody. -/
theorem getCore_scrubCoreMem {s : State} {gran : Bool} {c : Nat} (hq : quietMem s gran c) (hw : (coreMem s gran c).Wf) (d : Nat) :
    getCore (scrubCoreMem s gran c) d = getCore (setCoreMem s gran c ((coreMem s gran c).scrub (fun _ => true)).1) d := by
  rw [scrubCoreMem_eq, getCore_serveFound_idle (fun a ha => ?_), getCore_scrubReported]
  obtain ⟨w, hf, rfl⟩ := List.mem_map.1 ha
  obtain ⟨-, hu⟩ := (mem_found hw (fun _ => true) (e := .unc) (by decide) w).1 hf
  have hm : (coreMem (scrubReported s gran c) gran c).mark w = { poison := true, full := true, ecc := .clean } := by
    rw [coreMem_scrubReported, scrub_mark hw]; simp [scrubbedMark, hu]
  rw [Nat.mul_div_cancel_left w (by decide : 0 < 8)]
  refine ⟨by rw [hm], by rw [hm]; decide, fun x hx => ?_⟩
  rw [getCore_scrubReported, latch_setCoreMem] at hx
  by_contra hs
  simp only [sameWord, Bool.and_eq_true, beq_iff_eq, Bool.not_eq_false] at hs
  exact hq x hx hs.1 (hs.2 ▸ hu)

theorem quietMem_of_quietWords {s : State} {c : Nat} (h : quietWords (getCore s c)) (gran : Bool) : quietMem s gran c := by
  intro x hx hg
  have := h x hx
  rwa [hg, ← coreMem] at this

/-- The patrol scrub of a core at whose uncorrectable words nobody waits replaces its two memories by the scrubbed ones. -/
theorem mem_scrubCore {s : State} {c : Nat} (hq : quietWords (getCore s c)) (hl : (getCore s c).mem.localMem.Wf)
    (hg : (getCore s c).mem.gran.Wf) : (getCore (scrubCoreMem (scrubCoreMem s false c) true c) c).mem =
      { (getCore s c).mem with
        localMem := ((getCore s c).mem.localMem.scrub (fun _ => true)).1
        gran := ((getCore s c).mem.gran.scrub (fun _ => true)).1 } := by
  have h1 : getCore (scrubCoreMem s false c) c = { getCore s c with
      mem := { (getCore s c).mem with localMem := ((getCore s c).mem.localMem.scrub (fun _ => true)).1 } } := by
    rw [getCore_scrubCoreMem (quietMem_of_quietWords hq false) hl]
    simp [setCoreMem, setLocal, coreMem]
  have hm2 : coreMem (scrubCoreMem s false c) true c = (getCore s c).mem.gran := by simp [coreMem, h1]
  have hq2 : quietMem (scrubCoreMem s false c) true c := fun x hx hg =>
    hm2 ▸ quietMem_of_quietWords hq true x (by rwa [h1] at hx) hg
  rw [getCore_scrubCoreMem hq2 (hm2 ▸ hg), hm2]
  simp [setCoreMem, setGran, h1]

/-! ## The scrub of a stack -/

theorem scrubStack_bulk (s : State) (i : Nat) : (scrubStack s i).bulk = (s.bulk.scrub (fun w => 8 * w / 2 ^ 38 == i)).1 := by
  simp only [scrubStack]
  rw [reportUncorr_bulk, foldl_keeps State.bulk (fun _ _ => retireFrame_bulk _ _), countCorrBulk_bulk]

end Sys2Proof.Machine
end

section
/-!
PROOFS. The test-time map (01 R12–R16).
-/

namespace Sys2Proof.Machine

/-- The furrows that test fuses off. -/
def testFused (bad : List Nat) (toKX2112 : Bool) : List Nat :=
  let must := [mustFuse bad 0, mustFuse bad 1]
  if must.any (fun l => 3 ≤ l.length) then List.range 96
  else if must.all (·.isEmpty) && !toKX2112 then []
  else [0, 1].flatMap (fun h => (makeUp bad h).flatMap (rowFurrows h))

/-- What test blows for a furrow. -/
def testFuse (bad fused : List Nat) (f : Nat) : FurrowFuse := { fused := fused.contains f, bad := testBad bad f }

theorem testFuses_eq (bad : List Nat) (b : Bool) :
    testFuses bad b = (List.range 96).foldl (fun m f => spSet {} m f (testFuse bad (testFused bad b) f)) [] := rfl

theorem spGet_testFuses (bad : List Nat) (b : Bool) (f : Nat) :
    spGet {} (testFuses bad b) f = if f < 96 then testFuse bad (testFused bad b) f else {} := by
  have h := get_foldl (get := fun m f => spGet ({} : FurrowFuse) m f) (step := fun m f => spSet {} m f (testFuse bad (testFused bad b) f))
    (f := fun f _ => testFuse bad (testFused bad b) f) (fun _ _ => rfl)
    (fun m i j => by by_cases hj : j = i <;> simp [hj]) (List.range 96) [] f
  simpa [testFuses_eq] using h

theorem testFuses_wf (bad : List Nat) (b : Bool) : spWf (fun _ => ({} : FurrowFuse)) (testFuses bad b) := by
  rw [testFuses_eq]
  exact List.foldlRecOn (motive := fun m => spWf (fun _ => ({} : FurrowFuse)) m) _ _ (spWf_nil _)
    (fun m hm f _ => spWf_set hm f _)

/-! ## How many furrows are fused -/

/-- A row of a half with a furrow that cannot be repaired (01 R13). -/
def mustRow (bad : List Nat) (half r : Nat) : Bool := (rowFurrows half r).any (fun f => 2 ≤ (badCols bad f).length)

/-- A row of a half with a furrow that has no spare. -/
def noSpareRow (bad : List Nat) (half r : Nat) : Bool := (rowFurrows half r).any (fun f => !(badCols bad f).isEmpty)

/-- The rows of a half in the order in which test fuses them (01 R14). -/
def fuseOrder (bad : List Nat) (half : Nat) : List Nat :=
  let rest := (List.range 24).filter (fun r => !mustRow bad half r)
  (List.range 24).filter (mustRow bad half) ++ (rest.filter (noSpareRow bad half) ++ rest.filter (fun r => !noSpareRow bad half r))

theorem makeUp_eq (bad : List Nat) (half : Nat) : makeUp bad half = (fuseOrder bad half).take 2 := by
  have hrest : (List.range 24).filter (fun r => !(mustFuse bad half).contains r) = (List.range 24).filter (fun r => !mustRow bad half r) := by
    refine List.filter_congr (fun r hr => ?_)
    rw [Bool.eq_iff_iff]
    simp [mustFuse, mustRow, List.mem_filter, List.mem_range.1 hr]
  simp only [makeUp, hrest, List.append_assoc]
  rfl

theorem fuseOrder_perm (bad : List Nat) (half : Nat) : (fuseOrder bad half).Perm (List.range 24) :=
  (List.Perm.append_left _ (List.filter_append_perm (noSpareRow bad half) _)).trans (List.filter_append_perm (mustRow bad half) _)

/-- Two different rows make up a half's count. -/
theorem makeUp_pair (bad : List Nat) (half : Nat) : ∃ x y, makeUp bad half = [x, y] ∧ x ≠ y ∧ x < 24 ∧ y < 24 := by
  have hperm := fuseOrder_perm bad half
  have hlen : (makeUp bad half).length = 2 := by rw [makeUp_eq, List.length_take, hperm.length_eq]; rfl
  obtain ⟨x, y, hxy⟩ := List.length_eq_two.1 hlen
  have hsub : [x, y].Sublist (fuseOrder bad half) := hxy ▸ makeUp_eq bad half ▸ List.take_sublist _ _
  have hlt (z : Nat) (hz : z ∈ [x, y]) : z < 24 := List.mem_range.1 (hperm.mem_iff.1 (hsub.subset hz))
  have hnd := hsub.nodup (hperm.nodup_iff.2 List.nodup_range)
  exact ⟨x, y, hxy, by simpa using hnd, hlt x (by simp), hlt y (by simp)⟩

/-- Test fuses all furrows, none, or two rows of each half; it lists each once. -/
theorem testFused_shape (bad : List Nat) (b : Bool) : (testFused bad b).Nodup ∧ (∀ f ∈ testFused bad b, f < 96) ∧
    ((testFused bad b).length = 0 ∨ (testFused bad b).length = 8 ∨ (testFused bad b).length = 96) := by
  unfold testFused
  dsimp only
  split
  · exact ⟨List.nodup_range, fun f hf => List.mem_range.1 hf, .inr (.inr rfl)⟩
  · split
    · exact ⟨List.nodup_nil, fun f hf => absurd hf List.not_mem_nil, .inl rfl⟩
    · obtain ⟨x, y, h0, hxy, hx, hy⟩ := makeUp_pair bad 0
      obtain ⟨z, w, h1, hzw, hz, hw⟩ := makeUp_pair bad 1
      simp only [List.flatMap_cons, List.flatMap_nil, h0, h1, rowFurrows, List.cons_append, List.nil_append, List.append_nil]
      refine ⟨?_, ?_, .inr (.inl rfl)⟩
      · simp only [List.nodup_cons, List.mem_cons, List.not_mem_nil, or_false, not_or, not_false_eq_true, List.nodup_nil, and_true]
        omega
      · simp only [List.mem_cons, List.not_mem_nil, or_false]
        omega

/-- The fuses blown count the furrows that test fuses. -/
theorem fusedCount_testFuses (g : Grid) (bad : List Nat) (b : Bool) :
    fusedCount { g with fuses := testFuses bad b } = (testFused bad b).length := by
  obtain ⟨hnd, hlt, -⟩ := testFused_shape bad b
  have hw := testFuses_wf bad b
  have hkeys : ((testFuses bad b).filter (fun p => p.2.fused)).map (·.1) |>.Nodup :=
    (List.pairwise_map.2 (hw.1.imp (fun h => h.ne))).sublist ((List.filter_sublist).map _)
  have hperm : (((testFuses bad b).filter (fun p => p.2.fused)).map (·.1)).Perm (testFused bad b) := by
    refine (List.perm_ext_iff_of_nodup hkeys hnd).2 (fun f => ?_)
    rw [mem_keys_filter hw (fun p => p.2.fused) (fun _ => rfl), spGet_testFuses]
    by_cases hf : f < 96
    · simp [hf, testFuse]
    · simpa [hf] using fun hm => hf (hlt f hm)
  simpa [fusedCount] using hperm.length_eq

/-- A part without failed sites that is not made a KX2112 keeps its fuses blank. -/
theorem testFuses_nil : testFuses [] false = [] := by
  have hf : testFused [] false = [] := by decide
  rw [testFuses_eq, hf]
  refine List.foldlRecOn (motive := fun m => m = []) _ _ rfl (fun m hm f _ => ?_)
  subst hm
  rfl

theorem testMap_of_open {s : State} (hl : s.ward.lcrec.getLast?.getD 0 = 1) (hf : s.grid.fuses = []) (bad : List Nat) (b : Bool) :
    testMap s bad b = { s with grid := { s.grid with fuses := testFuses bad b } } := by
  simp [testMap, hl, hf]

theorem testMap_of_closed {s : State} (h : s.ward.lcrec.getLast?.getD 0 ≠ 1 ∨ s.grid.fuses ≠ []) (bad : List Nat) (b : Bool) :
    testMap s bad b = s := by
  rcases h with h | h <;> simp [testMap, h]

theorem fencesClear_of_open {s : State} (hl : s.ward.lcrec.getLast?.getD 0 = 1 ∨ s.ward.lcrec.getLast?.getD 0 = 4)
    (hd : s.ward.debug = 3) : fencesClear s =
      { s with grid := { s.grid with fences := [], skips := [], pos := [], dead := [], proc := none } } := by
  simp [fencesClear, hl, hd]

theorem fencesClear_of_closed {s : State}
    (h : ¬ (s.ward.lcrec.getLast?.getD 0 = 1 ∨ s.ward.lcrec.getLast?.getD 0 = 4) ∨ s.ward.debug ≠ 3) : fencesClear s = s := by
  rcases h with h | h <;> simp [fencesClear, h]

end Sys2Proof.Machine
end

section
/-!
PROOFS. The statement of the fence procedure, resets, scrub and test-time map.
-/

namespace Sys2Proof.Machine

/-- Settles O46, one case per command, each from the laws of the function that it runs. -/
theorem coresFenceMoveAndReset : Obligations.CoresFenceMoveAndReset := by
  intro s c hc
  refine ⟨?fence, ?mapWrite, ?release, ?reset, ?wipe, ?reseed, ⟨?scrubCore, ?scrubStack⟩, ?clear, ?noClear, ?testMap, ?noTestMap⟩
  case fence =>
    intro cause rd dr hh hp
    have hg := fenceCore_grid hc hh hp cause rd dr
    refine ⟨fenceCore s c cause rd dr, rfl, by simp [fenceOf, hg, fenceBegun], by rw [hg]; rfl, fun d hd => ?_, fun hs d t hd ht => ?_⟩
    · simp [fenceOf, hg, fenceBegun, hd]
    · rw [getThread_fenceCore hc hh hp cause rd dr hs hd ht]
      by_cases hm : d ∈ gateCores s c <;> simp [heldThread, hm]
  case mapWrite =>
    rintro p hp rfl hw hold hnet -
    refine ⟨fenceMapWrite s, rfl, ?_⟩
    rw [fenceMapWrite_of_held hp hw hold hnet]
    cases hhole : p.hole with
    | true =>
      rw [if_pos rfl]
      exact ⟨by simp [mapWritten, hhole], by simp [mapWritten, recordFence], nofun,
        fun _ => ⟨by simp [mapWritten, fenceOf], getCore_makeHole s p⟩⟩
    | false =>
      have hk := getCore_spareMove_same s p
      rw [if_neg (by decide)]
      refine ⟨by simp [mapWritten, hhole], spareMove_fences s p, fun _ => ⟨spareMove_fence s p, spareMove_skip s p, ?_⟩, nofun⟩
      refine ⟨by simp [hk], by simp [hk], fun d hd => getCore_spareMove_other s p hd, ?_⟩
      cases hr : p.readable <;> simp [hk, hr, movedMem]
  case release =>
    intro p hp hw
    have hg := releaseCores_grid hp hw
    exact ⟨releaseCores s, rfl, by rw [hg], fun hhole => by simp [fenceOf, hg, hhole], fun t ht => getThread_releaseCores hp hw hc ht⟩
  case reset =>
    exact ⟨coreResetAt s c, congrArg Host.Outcome.next (if_pos hc), getCore_coreResetAt_same s c, getThread_coreResetAt s c,
      fun d hd => getCore_coreResetAt_other s hd⟩
  case wipe =>
    intro hl
    refine ⟨coreWipe s c, congrArg Host.Outcome.next (if_pos hc), ?_⟩
    rw [coreWipe_of_noWaiters hl]
    refine ⟨fun d hd => ?_, ?_⟩
    · rw [getCore_updCore_other _ _ hd, getCore_reseed_other _ hd]
    · rw [getCore_updCore_same, getCore_reseed_same]; rfl
  case reseed =>
    intro hup he
    refine ⟨reseed s c, congrArg Host.Outcome.next (if_pos (by simp [hup, he])), ?_, ?_, fun d hd => getCore_reseed_other s hd⟩
    · rw [reseed_of_good he]; rfl
    · simp [getCore_reseed_same, he]
  case scrubCore =>
    intro hup hq hl hg
    refine ⟨scrubCoreMem (scrubCoreMem s false c) true c, congrArg Host.Outcome.next (if_pos hup), ?_⟩
    simp only [mem_scrubCore hq hl hg, scrub_bytes, scrub_mark hl, scrub_mark hg, if_true, true_and]
    exact fun _ => ⟨rfl, rfl⟩
  case scrubStack =>
    intro i hi hb
    refine ⟨scrubStack s i, congrArg Host.Outcome.next (if_pos hi), ?_⟩
    simp only [scrubStack_bulk, scrub_bytes, scrub_mark hb, beq_iff_eq, true_and]
    exact fun _ => rfl
  case clear =>
    exact fun hlc hd => ⟨fencesClear s, rfl, by rw [fencesClear_of_open hlc hd]; exact ⟨rfl, rfl⟩⟩
  case noClear => exact fun h => congrArg Host.Outcome.next (fencesClear_of_closed h)
  case testMap =>
    intro bad b hlc hf
    refine ⟨testMap s bad b, rfl, ?_⟩
    rw [testMap_of_open hlc hf]
    obtain ⟨-, -, hlen⟩ := testFused_shape bad b
    refine ⟨rfl, by rwa [fusedCount_testFuses], ?_⟩
    rintro rfl rfl
    simp only [testFuses_nil, true_and]
    rfl
  case noTestMap => exact fun bad b h => congrArg Host.Outcome.next (testMap_of_closed h bad b)

end Sys2Proof.Machine
end

section
/-!
PROOFS. The encodings of the core instructions: decoding undoes encoding, and encoding undoes decoding (02 R69–R92, 03 R116–R149).
-/

namespace Sys2Proof.Machine

/-! ## Fields -/

theorem testBit_fieldN (n hi lo j : Nat) : (fieldN n hi lo).testBit j = (decide (j < hi + 1 - lo) && n.testBit (lo + j)) := by
  simp [fieldN, Nat.testBit_mod_two_pow, Nat.testBit_shiftRight]

/-- Two numbers with the same bits in a range have the same field there. -/
theorem fieldN_congr {n m hi lo : Nat} (h : ∀ i, lo ≤ i → i ≤ hi → n.testBit i = m.testBit i) : fieldN n hi lo = fieldN m hi lo := by
  refine Nat.eq_of_testBit_eq (fun j => ?_)
  simp only [testBit_fieldN]
  by_cases hj : j < hi + 1 - lo
  · simp [hj, h (lo + j) (by omega) (by omega)]
  · simp [hj]

/-- The bits that a list of fields covers. -/
def covers (fs : List (Nat × Nat)) (i : Nat) : Bool := fs.any (fun r => decide (r.2 ≤ i) && decide (i ≤ r.1))

/-- Fields listed from the top down without overlap, all below a bit. -/
def stacked : Nat → List (Nat × Nat) → Bool
  | _, [] => true
  | b, (hi, lo) :: fs => decide (lo ≤ hi) && decide (hi < b) && stacked lo fs

theorem packFields_lt {b : Nat} {fs : List (Nat × Nat)} (h : stacked b fs = true) (vs : List Nat) : packFields fs vs < 2 ^ b := by
  induction fs generalizing b vs with
  | nil => simp [packFields]
  | cons r fs ih =>
    obtain ⟨hi, lo⟩ := r
    simp only [stacked, Bool.and_eq_true, decide_eq_true_eq] at h
    obtain ⟨⟨hlo, hb⟩, hs⟩ := h
    cases vs with
    | nil => simp [packFields]
    | cons v vs =>
      have hv : v % 2 ^ (hi + 1 - lo) < 2 ^ (hi + 1 - lo) := Nat.mod_lt _ (by positivity)
      calc packFields ((hi, lo) :: fs) (v :: vs)
        _ < (v % 2 ^ (hi + 1 - lo) + 1) * 2 ^ lo := by rw [packFields, Nat.add_mul, one_mul]; have := ih hs vs; omega
        _ ≤ 2 ^ (hi + 1 - lo) * 2 ^ lo := Nat.mul_le_mul_right _ hv
        _ = 2 ^ (hi + 1) := by rw [← pow_add]; congr 1; omega
        _ ≤ 2 ^ b := Nat.pow_le_pow_right (by decide) hb

theorem testBit_packFields_cons {hi lo v : Nat} {fs : List (Nat × Nat)} {vs : List Nat} (hs : stacked lo fs = true) (i : Nat) :
    (packFields ((hi, lo) :: fs) (v :: vs)).testBit i =
      if i < lo then (packFields fs vs).testBit i else (decide (i - lo < hi + 1 - lo) && v.testBit (i - lo)) := by
  rw [packFields, mul_comm, Nat.testBit_two_pow_mul_add _ (packFields_lt hs vs), Nat.testBit_mod_two_pow]

theorem lt_of_mem_stacked {b : Nat} {fs : List (Nat × Nat)} (h : stacked b fs = true) {q : Nat × Nat} (hq : q ∈ fs) : q.1 < b := by
  induction fs generalizing b with
  | nil => simp at hq
  | cons r fs ih =>
    simp only [stacked, Bool.and_eq_true, decide_eq_true_eq] at h
    obtain ⟨⟨hle, hb⟩, hs⟩ := h
    rcases List.mem_cons.1 hq with rfl | hq
    · exact hb
    · exact (ih hs hq).trans (hle.trans_lt hb)

theorem lt_of_covers {b : Nat} {fs : List (Nat × Nat)} (h : stacked b fs = true) {i : Nat} (hi : covers fs i = true) : i < b := by
  obtain ⟨q, hq, hi⟩ := List.any_eq_true.1 hi
  simp only [Bool.and_eq_true, decide_eq_true_eq] at hi
  exact hi.2.trans_lt (lt_of_mem_stacked h hq)

/-- The values of stacked fields stand in their fields. -/
theorem fields_packFields {b : Nat} {fs : List (Nat × Nat)} (hs : stacked b fs = true) {vs : List Nat} (hv : fieldsFit fs vs = true) :
    fs.map (fun r => fieldN (packFields fs vs) r.1 r.2) = vs := by
  induction fs generalizing b vs with
  | nil => cases vs <;> simp_all [fieldsFit]
  | cons r fs ih =>
    obtain ⟨hi, lo⟩ := r
    simp only [stacked, Bool.and_eq_true, decide_eq_true_eq] at hs
    obtain ⟨⟨hlo, -⟩, hs⟩ := hs
    cases vs with
    | nil => simp [fieldsFit] at hv
    | cons v vs =>
      simp only [fieldsFit, Bool.and_eq_true, decide_eq_true_eq] at hv
      obtain ⟨hlt, hfit⟩ := hv
      rw [List.map_cons]
      congr 1
      · refine Nat.eq_of_testBit_eq (fun j => ?_)
        rw [testBit_fieldN, testBit_packFields_cons hs, if_neg (by omega), Nat.add_sub_cancel_left]
        by_cases hj : j < hi + 1 - lo
        · simp [hj]
        · simp [hj, Nat.testBit_lt_two_pow (hlt.trans_le (Nat.pow_le_pow_right (by decide) (not_lt.1 hj)))]
      · refine (List.map_congr_left (fun q hq => fieldN_congr (fun i _ hi' => ?_))).trans (ih hs hfit)
        rw [testBit_packFields_cons hs, if_pos (hi'.trans_lt (lt_of_mem_stacked hs hq))]

/-- Outside the fields nothing stands. -/
theorem testBit_packFields_outside {b : Nat} {fs : List (Nat × Nat)} (hs : stacked b fs = true) (vs : List Nat) {i : Nat}
    (hi : covers fs i = false) : (packFields fs vs).testBit i = false := by
  induction fs generalizing b vs with
  | nil => simp [packFields]
  | cons r fs ih =>
    obtain ⟨h, l⟩ := r
    simp only [covers, List.any_cons, Bool.or_eq_false_iff, Bool.and_eq_false_iff, decide_eq_false_iff_not] at hi
    simp only [stacked, Bool.and_eq_true, decide_eq_true_eq] at hs
    cases vs with
    | nil => simp [packFields]
    | cons v vs =>
      rw [testBit_packFields_cons hs.2]
      split
      · exact ih hs.2 vs hi.2
      · simp; omega

/-- Packing the fields of a number gives its bits there. -/
theorem testBit_packFields_inside {b : Nat} {fs : List (Nat × Nat)} (hs : stacked b fs = true) (n : Nat) {i : Nat}
    (hi : covers fs i = true) : (packFields fs (fs.map (fun r => fieldN n r.1 r.2))).testBit i = n.testBit i := by
  induction fs generalizing b with
  | nil => simp [covers] at hi
  | cons r fs ih =>
    obtain ⟨h, l⟩ := r
    simp only [stacked, Bool.and_eq_true, decide_eq_true_eq] at hs
    obtain ⟨⟨hle, hb⟩, hs⟩ := hs
    rw [List.map_cons, testBit_packFields_cons hs]
    have hor : (l ≤ i ∧ i ≤ h) ∨ covers fs i = true := by simpa [covers] using hi
    split
    · next hl => exact ih hs (hor.resolve_left (by omega))
    · next hl =>
      obtain ⟨-, hih⟩ := hor.resolve_right (fun hc => hl (lt_of_covers hs hc))
      have hj : i - l < h + 1 - l := by omega
      simp [testBit_fieldN, hj, Nat.add_sub_cancel' (not_lt.1 hl)]

/-! ## What the decoder looks at -/

/-- The function field of a major opcode; the empty field where it has none (02 R71, R73, R76, R85, R89, R92, 03 R149). -/
def fnField (op : Nat) : Nat × Nat :=
  match op with
  | 0x01 => (5, 0)
  | 0x20 => (3, 0)
  | 0x68 => (23, 20)
  | 0x69 => (23, 20)
  | 0x76 => (1, 0)
  | 0x94 => (3, 0)
  | 0x96 => (0, 0)
  | 0x97 => (0, 0)
  | _ => (0, 1)

/-- The bits of an instruction's words that the decoder looks at: the major opcode and its function. -/
def decodeFields (m : Mn) : List (Nat × Nat) := [(63, 56), fnField (fieldN (fixedBits m) 63 56)]

/-- Each bit of a word is an operand's, reserved, or the decoder's, and the fixed bits are the decoder's. -/
def layoutGood (m : Mn) : Bool :=
  stacked 56 (operandFields m) && (List.range 64).all (fun i =>
    let o := covers (operandFields m) i
    let r := covers (reservedRanges m) i
    let d := covers (decodeFields m) i
    (o || r || d) && !(o && r) && !(o && d) && !(r && d) && (d || !(fixedBits m).testBit i))

theorem layoutGood_all (m : Mn) : layoutGood m = true := by
  cases m <;> decide +kernel

theorem fieldN_bit (n i : Nat) : fieldN n i i = boolN (n.testBit i) := by
  have h : fieldN n i i = n >>> i % 2 := by simp [fieldN]
  rw [h, Nat.testBit_eq_decide_div_mod_eq, Nat.shiftRight_eq_div_pow]
  have := Nat.mod_two_eq_zero_or_one (n / 2 ^ i)
  rcases this with h | h <;> simp [boolN, h]

theorem bitOf_eq_field {k : Nat} (w : BitVec k) (i : Nat) : bitOf w i = (field w i i == 1) := by
  rw [field, fieldN_bit, bitOf, BitVec.getLsbD]
  cases w.toNat.testBit i <;> rfl

/-- The decoder looks at the major opcode and its function alone. -/
theorem coreMnemonic_congr {w v : Word} (ho : field w 63 56 = field v 63 56)
    (hf : field w (fnField (field v 63 56)).1 (fnField (field v 63 56)).2 =
      field v (fnField (field v 63 56)).1 (fnField (field v 63 56)).2) : coreMnemonic w = coreMnemonic v := by
  unfold coreMnemonic
  rw [ho]
  generalize field v 63 56 = op at hf
  split <;> try rfl
  all_goals
    simp only [fnField] at hf
    simp only [bitOf_eq_field, hf]

theorem coreMnemonic_fixed (m : Mn) : coreMnemonic (word (fixedBits m)) = some m := by
  cases m <;> decide +kernel

theorem field_lt {k : Nat} (w : BitVec k) (hi lo : Nat) : field w hi lo < 2 ^ (hi + 1 - lo) := Nat.mod_lt _ (by positivity)

/-- A decoded word has the major opcode and the function of its instruction. -/
theorem fields_of_coreMnemonic {m : Mn} {w : Word} (h : coreMnemonic w = some m) :
    ∀ r ∈ decodeFields m, field w r.1 r.2 = fieldN (fixedBits m) r.1 r.2 := by
  have hnone : field w 0 1 = 0 := Nat.lt_one_iff.1 (field_lt w 0 1)
  have hbit : field w 0 0 < 2 := field_lt w 0 0
  have hpair : field w 1 0 < 4 := field_lt w 1 0
  unfold coreMnemonic aluFunction faluFunction tvredFunction tvfnFunction at h
  split at h <;> try split at h
  all_goals
    cases h <;> simp [decodeFields, fixedBits, fieldN, fnField, bitOf_eq_field, *] at * <;> omega

/-- And such a word decodes to the instruction. -/
theorem coreMnemonic_of_fields {m : Mn} {w : Word} (h : ∀ r ∈ decodeFields m, field w r.1 r.2 = fieldN (fixedBits m) r.1 r.2) :
    coreMnemonic w = some m := by
  have hfix (hi lo : Nat) : field (word (fixedBits m)) hi lo = fieldN (fixedBits m) hi lo := by
    rw [field, BitVec.toNat_ofNat, Nat.mod_eq_of_lt]
    cases m <;> decide
  rw [← coreMnemonic_fixed m]
  simp only [decodeFields, List.mem_cons, List.not_mem_nil, or_false, forall_eq_or_imp, forall_eq] at h
  obtain ⟨ho, hf⟩ := h
  exact coreMnemonic_congr (by rw [hfix, ho]) (by rw [hfix, hfix, hf])

/-! ## The bits of an encoded word -/

/-- What the layout of an instruction says of a bit of its words. -/
structure BitPlace (m : Mn) (i : Nat) : Prop where
  some : covers (operandFields m) i = true ∨ covers (reservedRanges m) i = true ∨ covers (decodeFields m) i = true
  free : covers (operandFields m) i = true → covers (reservedRanges m) i = false ∧ covers (decodeFields m) i = false
  zero : covers (decodeFields m) i = false → (fixedBits m).testBit i = false
  clear : covers (reservedRanges m) i = true → covers (decodeFields m) i = false

theorem stacked_operandFields (m : Mn) : stacked 56 (operandFields m) = true := by
  have h := layoutGood_all m
  rw [layoutGood, Bool.and_eq_true] at h
  exact h.1

theorem bitPlace (m : Mn) {i : Nat} (hi : i < 64) : BitPlace m i := by
  have h := layoutGood_all m
  rw [layoutGood, Bool.and_eq_true] at h
  have h := List.all_eq_true.1 h.2 i (List.mem_range.2 hi)
  refine ⟨?_, ?_, ?_, ?_⟩ <;> revert h <;>
    cases covers (operandFields m) i <;> cases covers (reservedRanges m) i <;> cases covers (decodeFields m) i <;> simp

theorem word_add (a b : Nat) : word (a + b) = word a + word b := by simp [word, BitVec.ofNat_add]

theorem getLsbD_word (n : Nat) {i : Nat} (hi : i < 64) : (word n).getLsbD i = n.testBit i := by
  simp only [word, BitVec.getLsbD_ofNat, hi, decide_true, Bool.true_and]

/-- The bits of an encoded word are the fixed ones and those of the operands. -/
theorem getLsbD_encodeWord (m : Mn) (vals : List Nat) {i : Nat} (hi : i < 64) :
    (encodeWord m vals).getLsbD i = ((fixedBits m).testBit i || (packFields (operandFields m) vals).testBit i) := by
  have hand : word (fixedBits m) &&& word (packFields (operandFields m) vals) = 0 := by
    refine BitVec.eq_of_getLsbD_eq (fun j hj => ?_)
    obtain ⟨-, hfree, hzero, -⟩ := bitPlace m hj
    rw [BitVec.getLsbD_and, getLsbD_word _ hj, getLsbD_word _ hj]
    cases hc : covers (operandFields m) j with
    | true => simp [hzero (hfree hc).2]
    | false => simp [testBit_packFields_outside (stacked_operandFields m) vals hc]
  rw [encodeWord, word_add, BitVec.add_eq_or_of_and_eq_zero _ _ hand, BitVec.getLsbD_or, getLsbD_word _ hi, getLsbD_word _ hi]

theorem toNat_testBit_encodeWord_operand (m : Mn) (vals : List Nat) {i : Nat} (hc : covers (operandFields m) i = true) :
    (encodeWord m vals).toNat.testBit i = (packFields (operandFields m) vals).testBit i := by
  have hi : i < 64 := (lt_of_covers (stacked_operandFields m) hc).trans (by decide)
  obtain ⟨-, hfree, hzero, -⟩ := bitPlace m hi
  rw [← BitVec.getLsbD, getLsbD_encodeWord m vals hi, hzero (hfree hc).2, Bool.false_or]

/-- Off the operands an encoded word has the fixed bits. -/
theorem toNat_testBit_encodeWord_fixed (m : Mn) (vals : List Nat) {i : Nat} (hi : i < 64) (hc : covers (operandFields m) i = false) :
    (encodeWord m vals).toNat.testBit i = (fixedBits m).testBit i := by
  rw [← BitVec.getLsbD, getLsbD_encodeWord m vals hi, testBit_packFields_outside (stacked_operandFields m) vals hc, Bool.or_false]

theorem covers_of_mem {fs : List (Nat × Nat)} {r : Nat × Nat} (hr : r ∈ fs) {i : Nat} (hlo : r.2 ≤ i) (hhi : i ≤ r.1) :
    covers fs i = true := List.any_eq_true.2 ⟨r, hr, by simp [hlo, hhi]⟩

/-! ## Encoding and decoding -/

theorem operandsOf_encodeWord {m : Mn} {vals : List Nat} (hv : fieldsFit (operandFields m) vals = true) :
    operandsOf m (encodeWord m vals) = vals := by
  refine (List.map_congr_left (fun r hr => ?_)).trans (fields_packFields (stacked_operandFields m) hv)
  exact fieldN_congr (fun i hlo hhi => toNat_testBit_encodeWord_operand m vals (covers_of_mem hr hlo hhi))

theorem coreMnemonic_encodeWord (m : Mn) (vals : List Nat) : coreMnemonic (encodeWord m vals) = some m := by
  have hlt : ∀ r ∈ decodeFields m, r.1 < 64 := by cases m <;> decide
  refine coreMnemonic_of_fields (fun r hr => fieldN_congr (fun i hlo hhi => ?_))
  have hi : i < 64 := hhi.trans_lt (hlt r hr)
  refine toNat_testBit_encodeWord_fixed m vals hi (Bool.eq_false_iff.2 (fun hc => ?_))
  have := ((bitPlace m hi).free hc).2
  rw [covers_of_mem hr hlo hhi] at this
  exact absurd this (by decide)

/-- A field without a set bit is zero. -/
theorem fieldN_eq_zero {n hi lo : Nat} (h : ∀ i, lo ≤ i → i ≤ hi → n.testBit i = false) : fieldN n hi lo = 0 := by
  rw [fieldN_congr (m := 0) (by simpa using h)]
  simp [fieldN]

theorem reservedClear_encodeWord (m : Mn) (vals : List Nat) : reservedClear m (encodeWord m vals) = true := by
  have hlt : ∀ r ∈ reservedRanges m, r.1 < 64 := by cases m <;> decide
  refine List.all_eq_true.2 (fun r hr => ?_)
  have : field (encodeWord m vals) r.1 r.2 = 0 := fieldN_eq_zero (fun i hlo hhi => ?_)
  · simp [nonzeroField, this]
  have hi : i < 64 := hhi.trans_lt (hlt r hr)
  have hr := covers_of_mem hr hlo hhi
  obtain ⟨-, hfree, hzero, hclear⟩ := bitPlace m hi
  rw [toNat_testBit_encodeWord_fixed m vals hi (Bool.eq_false_iff.2 (fun hc => by simp [(hfree hc).1] at hr)), hzero (hclear hr)]

/-- A bit of a field is the number's. -/
theorem testBit_of_fieldN_eq {n m hi lo i : Nat} (h : fieldN n hi lo = fieldN m hi lo) (hlo : lo ≤ i) (hhi : i ≤ hi) :
    n.testBit i = m.testBit i := by
  have := congrArg (fun x => x.testBit (i - lo)) h
  simpa [testBit_fieldN, show i - lo < hi + 1 - lo by omega, hlo] using this

theorem encodeWord_operandsOf {m : Mn} {w : Word} (hm : coreMnemonic w = some m) (hr : reservedClear m w = true) :
    encodeWord m (operandsOf m w) = w := by
  refine BitVec.eq_of_getLsbD_eq (fun i hi => ?_)
  obtain ⟨hsome, hfree, hzero, hclear⟩ := bitPlace m hi
  change (encodeWord m (operandsOf m w)).toNat.testBit i = w.toNat.testBit i
  cases hc : covers (operandFields m) i with
  | true => rw [toNat_testBit_encodeWord_operand m _ hc]; exact testBit_packFields_inside (stacked_operandFields m) _ hc
  | false =>
    rw [toNat_testBit_encodeWord_fixed m _ hi hc]
    cases hd : covers (decodeFields m) i with
    | true =>
      obtain ⟨r, hmem, hin⟩ := List.any_eq_true.1 hd
      simp only [Bool.and_eq_true, decide_eq_true_eq] at hin
      exact (testBit_of_fieldN_eq (fields_of_coreMnemonic hm r hmem) hin.1 hin.2).symm
    | false =>
      have hres : covers (reservedRanges m) i = true := by simpa [hc, hd] using hsome
      obtain ⟨r, hmem, hin⟩ := List.any_eq_true.1 hres
      simp only [Bool.and_eq_true, decide_eq_true_eq] at hin
      have hz : fieldN w.toNat r.1 r.2 = fieldN 0 r.1 r.2 := by
        have := List.all_eq_true.1 hr r hmem
        simpa [nonzeroField, field, fieldN] using this
      rw [hzero hd, testBit_of_fieldN_eq hz hin.1 hin.2, Nat.zero_testBit]

/-- Settles O3: the operand fields, the reserved ranges and the fields that the decoder looks at share a word's bits among them. -/
theorem encodingLosesNoBit : Obligations.EncodingLosesNoBit :=
  ⟨fun m vals hv => ⟨coreMnemonic_encodeWord m vals, operandsOf_encodeWord hv, reservedClear_encodeWord m vals⟩,
    fun _ _ => encodeWord_operandsOf⟩

/-- Settles O4, by evaluating the decoder. -/
theorem writtenWordsDecode : Obligations.WrittenWordsDecode := by
  unfold Obligations.WrittenWordsDecode
  decide

end Sys2Proof.Machine
end

section
/-!
PROOFS. Fields of a word, and the registers of a thread (02 R59, R60).
-/

namespace Sys2Proof.Machine

/-! ## Writing a field -/

theorem testBit_setFieldN {n hi lo v : Nat} (h : lo ≤ hi) (i : Nat) :
    (setFieldN n hi lo v).testBit i = if lo ≤ i ∧ i ≤ hi then v.testBit (i - lo) else n.testBit i := by
  have hlow : n % 2 ^ lo < 2 ^ lo := Nat.mod_lt _ (by positivity)
  have hval : v % 2 ^ (hi + 1 - lo) < 2 ^ (hi + 1 - lo) := Nat.mod_lt _ (by positivity)
  have hmid : 2 ^ lo * (v % 2 ^ (hi + 1 - lo)) + n % 2 ^ lo < 2 ^ (hi + 1) := by
    calc 2 ^ lo * (v % 2 ^ (hi + 1 - lo)) + n % 2 ^ lo
      _ < 2 ^ lo * (v % 2 ^ (hi + 1 - lo) + 1) := by rw [Nat.mul_add, mul_one]; omega
      _ ≤ 2 ^ lo * 2 ^ (hi + 1 - lo) := Nat.mul_le_mul_left _ hval
      _ = 2 ^ (hi + 1) := by rw [← pow_add]; congr 1; omega
  have hsum : setFieldN n hi lo v =
      2 ^ (hi + 1) * (n >>> (hi + 1)) + (2 ^ lo * (v % 2 ^ (hi + 1 - lo)) + n % 2 ^ lo) := by
    simp only [setFieldN, Nat.shiftLeft_eq]; ring
  rw [hsum, Nat.testBit_two_pow_mul_add _ hmid, Nat.testBit_two_pow_mul_add _ hlow, Nat.testBit_shiftRight, Nat.testBit_mod_two_pow,
    Nat.testBit_mod_two_pow]
  by_cases hi' : i < hi + 1
  · by_cases hl : i < lo
    · simp [hi', hl]
    · simp [hi', hl, show i - lo < hi + 1 - lo by omega, show lo ≤ i ∧ i ≤ hi by omega]
  · simp [hi', show ¬ (lo ≤ i ∧ i ≤ hi) by omega, show hi + 1 + (i - (hi + 1)) = i by omega]

theorem getLsbD_setField {k : Nat} (w : BitVec k) {hi lo : Nat} (v : Nat) (h : lo ≤ hi) {i : Nat} (hk : i < k) :
    (setField w hi lo v).getLsbD i = if lo ≤ i ∧ i ≤ hi then v.testBit (i - lo) else w.getLsbD i := by
  rw [setField, BitVec.getLsbD_ofNat, testBit_setFieldN h]
  simp [hk, BitVec.getLsbD]

/-! ## Registers -/

@[simp] theorem pGet_gSet (r : Regs) (n i : Nat) (v : GReg) : (r.gSet n v).pGet i = r.pGet i := by simp [Regs.pGet]
@[simp] theorem mGet_gSet (r : Regs) (n i : Nat) (v : GReg) : (r.gSet n v).mGet i = r.mGet i := by simp [Regs.mGet]
@[simp] theorem sGet_gSet (r : Regs) (n i : Nat) (v : GReg) : (r.gSet n v).sGet i = r.sGet i := by simp [Regs.sGet]

@[simp] theorem pSet_g (r : Regs) (n : Nat) (b : Bool) : (r.pSet n b).g = r.g := by unfold Regs.pSet; split <;> rfl
@[simp] theorem pSet_m (r : Regs) (n : Nat) (b : Bool) : (r.pSet n b).m = r.m := by unfold Regs.pSet; split <;> rfl
@[simp] theorem pSet_sv (r : Regs) (n : Nat) (b : Bool) : (r.pSet n b).sv = r.sv := by unfold Regs.pSet; split <;> rfl
@[simp] theorem gGet_pSet (r : Regs) (n i : Nat) (b : Bool) : (r.pSet n b).gGet i = r.gGet i := by simp [Regs.gGet]
@[simp] theorem mGet_pSet (r : Regs) (n i : Nat) (b : Bool) : (r.pSet n b).mGet i = r.mGet i := by simp [Regs.mGet]
@[simp] theorem sGet_pSet (r : Regs) (n i : Nat) (b : Bool) : (r.pSet n b).sGet i = r.sGet i := by simp [Regs.sGet]

@[simp] theorem mSet_g (r : Regs) (n : Nat) (v : MReg) : (r.mSet n v).g = r.g := by unfold Regs.mSet; split <;> rfl
@[simp] theorem mSet_p (r : Regs) (n : Nat) (v : MReg) : (r.mSet n v).p = r.p := by unfold Regs.mSet; split <;> rfl
@[simp] theorem mSet_sv (r : Regs) (n : Nat) (v : MReg) : (r.mSet n v).sv = r.sv := by unfold Regs.mSet; split <;> rfl
@[simp] theorem gGet_mSet (r : Regs) (n i : Nat) (v : MReg) : (r.mSet n v).gGet i = r.gGet i := by simp [Regs.gGet]
@[simp] theorem pGet_mSet (r : Regs) (n i : Nat) (v : MReg) : (r.mSet n v).pGet i = r.pGet i := by simp [Regs.pGet]
@[simp] theorem sGet_mSet (r : Regs) (n i : Nat) (v : MReg) : (r.mSet n v).sGet i = r.sGet i := by simp [Regs.sGet]

/-- A write of a predicate changes its bit alone. -/
theorem getLsbD_pSet (r : Regs) {n : Nat} (b : Bool) (h0 : n ≠ 0) {j : Nat} (hj : j < 8) :
    (r.pSet n b).p.getLsbD j = if j = n then b else r.p.getLsbD j := by
  rw [Regs.pSet, if_neg h0, getLsbD_setField _ _ le_rfl hj]
  by_cases h : j = n
  · subst h
    cases b <;> simp [boolN]
  · simp [h, show ¬ (n ≤ j ∧ j ≤ n) by omega]

theorem pGet_pSet_same (r : Regs) {n : Nat} (b : Bool) (h0 : n ≠ 0) (hn : n < 8) : (r.pSet n b).pGet n = b := by
  simp [Regs.pGet, h0, getLsbD_pSet r b h0 hn]

theorem pGet_pSet_other (r : Regs) {n j : Nat} (b : Bool) (h : j ≠ n) (hj : j < 8) : (r.pSet n b).pGet j = r.pGet j := by
  by_cases h0 : n = 0
  · simp [Regs.pSet, h0]
  · simp [Regs.pGet, getLsbD_pSet r b h0 hj, h]

/-- Settles O5, from the reading rules of the four register files. -/
theorem registersReadWhatWasWritten : Obligations.RegistersReadWhatWasWritten := by
  refine ⟨fun r g b m => ⟨rfl, rfl, rfl, rfl, rfl, rfl, rfl, rfl⟩, fun r n j g b m v => ?_⟩
  refine ⟨fun hn => ⟨gGet_gSet_same r g hn, mGet_mSet_same r m hn⟩, fun hn => pGet_pSet_same r b (by omega) hn.2, sGet_sSet_same r n v,
    fun hj => ⟨gGet_gSet_other r g hj, mGet_mSet_other r m hj, sGet_sSet_other r v hj⟩, fun hj _ hj8 => pGet_pSet_other r b hj hj8, ?_, ?_, ?_⟩
  · exact fun i => ⟨pGet_gSet r n i g, mGet_gSet r n i g, sGet_gSet r n i g⟩
  · exact fun i => ⟨gGet_pSet r n i b, mGet_pSet r n i b, sGet_pSet r n i b⟩
  · exact fun i => ⟨gGet_mSet r n i m, pGet_mSet r n i m, sGet_mSet r n i m⟩

end Sys2Proof.Machine
end

section
/-!
PROOFS. What the issue of an instruction answers: exceptions 0x01 and 0x02 before anything else, the predicate, then the instruction's
own effect (02 R55, R70, R72, R99).
-/

namespace Sys2Proof.Machine

variable {m : Mn} {f : Form} {c t : Nat} {w : Word} {s s' : State} {x : Exc} {n : Nat}

/-! ## The exception that is taken -/

/-- Condition y is taken before condition b (02 R99). -/
def beats (y b : Cand) : Bool := y.rank < b.rank || (y.rank == b.rank && y.x.sub < b.x.sub)

/-- The step of the search for the exception that is taken. -/
def better (b y : Cand) : Cand := if beats y b then y else b

theorem firstCand_cons (a : Cand) (l : List Cand) : firstCand (a :: l) = some (l.foldl better a).x := rfl

theorem foldl_better_of_best {a : Cand} {l : List Cand} (h : ∀ y ∈ l, beats y a = false) : l.foldl better a = a :=
  List.foldlRecOn (motive := fun b => b = a) l better rfl (fun b hb y hy => by subst hb; simp [better, h y hy])

theorem foldl_better_lt {a b : Cand} {l : List Cand} (hb : beats a b = true) (h : ∀ y ∈ l, beats a y = true) :
    beats a (l.foldl better b) = true :=
  List.foldlRecOn (motive := fun b => beats a b = true) l better hb
    (fun b hb y hy => by unfold better; split; exacts [h y hy, hb])

/-- A condition that beats those listed before it, and that none listed after it beats, is taken. -/
theorem firstCand_of_best {a : Cand} {l r : List Cand} (hl : ∀ y ∈ l, beats a y = true) (hr : ∀ y ∈ r, beats y a = false) :
    firstCand (l ++ a :: r) = some a.x := by
  cases l with
  | nil => rw [List.nil_append, firstCand_cons, foldl_better_of_best hr]
  | cons b l =>
    have hb : beats a (l.foldl better b) = true :=
      foldl_better_lt (hl b List.mem_cons_self) (fun y hy => hl y (List.mem_cons_of_mem _ hy))
    rw [List.cons_append, firstCand_cons, List.foldl_append, List.foldl_cons, better, if_pos hb, foldl_better_of_best hr]

theorem firstCand_head {a : Cand} {r : List Cand} (hr : ∀ y ∈ r, beats y a = false) : firstCand (a :: r) = some a.x :=
  firstCand_of_best (l := []) (by simp) hr

@[simp] theorem firstCand_cand (code sub : Nat) (info : Word) : firstCand [cand code sub info] = some ⟨code, sub, info⟩ := rfl

@[simp] theorem when?_true (code sub : Nat) (info : Word) : when? true code sub info = [cand code sub info] := rfl
@[simp] theorem when?_false (code sub : Nat) (info : Word) : when? false code sub info = [] := rfl

/-! ## Exceptions 0x01 and 0x02 -/

/-- The conditions of exceptions 0x01 and 0x02 of an instruction. -/
def Form.cands (f : Form) (w : Word) : List Cand :=
  (illegalSubs w ++ f.illegal).map (fun n => cand 0x01 n w) ++ f.priv.toList.map (fun n => cand 0x02 n w)

/-- The thread can issue and its registers are ready: the frame of every instruction is passed. -/
theorem issueStep_of_offered (h : Offered c t s) (hb : f.uses.busy (getCore s c) t = false) : issueStep f c t w s =
    ((firstCand (f.cands w)).map (fun x => trapped c t x s)).getD
      (if predicated w && !predHolds (getThread s c t) w then stepEnd (advance (updCore s c (fun k => k.noteIssue t)) c t) c t
        else issueEffect f c t s) := by
  have hr := h.running
  have hs := h.noStop
  have htw := h.noTwin
  have hw := h.noWalk
  have hd := h.noDeferred
  simp only [getThread] at hr hs htw hw hd
  have ht : ¬ 16 ≤ t := by have := h.thread; omega
  have hhold : coreHolds (getCore s c) w = false := by simp [coreHolds, h.noSwitch]
  have hin : inSwitch (getCore s c) t = false := by simp [inSwitch, h.noSwitch]
  unfold issueStep Form.cands
  rw [settleTwin_none h.noTwin]
  simp only [h.up, ht, hr, hs, htw, hw, hd, hhold, hin, h.fetched, hb]
  cases f.priv with
  | none =>
    simp only [Option.toList_none, List.map_nil]
    generalize firstCand _ = o
    cases o <;> rfl
  | some n =>
    simp only [Option.toList_some, List.map_cons, List.map_nil]
    generalize firstCand _ = o
    cases o <;> rfl

theorem issueStep_trapped (h : Offered c t s) (hb : f.uses.busy (getCore s c) t = false) (hx : firstCand (f.cands w) = some x) :
    issueStep f c t w s = trapped c t x s := by
  rw [issueStep_of_offered h hb, hx]; rfl

theorem issueStep_skipped (h : Offered c t s) (hb : f.uses.busy (getCore s c) t = false) (hc : f.cands w = [])
    (hp : predicated w = true) (hn : predHolds (getThread s c t) w = false) :
    issueStep f c t w s = stepEnd (advance (updCore s c (fun k => k.noteIssue t)) c t) c t := by
  rw [issueStep_of_offered h hb, hc, hp, hn]; rfl

theorem issue_of_wordIs (h : wordIs m w = true) : issue m f c t w s = .next (issueStep f c t w s) := if_pos h

theorem wordIs_of_spells (h : coreMnemonic w = some m) : wordIs m w = true := by simp [wordIs, h]

/-! ## An instruction that issues -/

/-- The instruction finds its registers ready and neither exception 0x01 nor 0x02 of its own. -/
structure Free (f : Form) (c t : Nat) (s : State) : Prop where
  ready : f.uses.busy (getCore s c) t = false
  legal : f.illegal = []
  allowed : f.priv = none

theorem issue_effect (h : Issues m c t w s) (hf : Free f c t s) : issue m f c t w s = .next (issueEffect f c t s) := by
  rw [issue_of_wordIs (wordIs_of_spells h.spells), issueStep_of_issues h hf.ready hf.legal hf.allowed]

theorem issue_finished (h : Issues m c t w s) (hf : Free f c t s) (hd : f.body s = .done s') :
    issue m f c t w s = .next (finished c t s') := issue_done h hf.ready hf.legal hf.allowed hd

theorem issue_raised {xs : List Cand} (h : Issues m c t w s) (hf : Free f c t s) (hd : f.body s = .raise xs)
    (hx : firstCand xs = some x) : issue m f c t w s = .next (trapped c t x s) := by
  simp [issue_effect h hf, issueEffect, hd, hx, trapped]

theorem issue_waits (h : Issues m c t w s) (hf : Free f c t s) (hd : f.body s = .wait) : issue m f c t w s = .next s := by
  simp [issue_effect h hf, issueEffect, hd]

theorem issue_holds (h : Issues m c t w s) (hf : Free f c t s) (hd : f.body s = .hold s') : issue m f c t w s = .next s' := by
  simp [issue_effect h hf, issueEffect, hd]

/-- A legal word that job mode may not issue takes exception 0x02. -/
theorem issue_denied (h : Offered c t s) (hm : wordIs m w = true) (hl : illegalSubs w = []) (hb : f.uses.busy (getCore s c) t = false)
    (hi : f.illegal = []) (hp : f.priv = some n) : issue m f c t w s = .next (trapped c t ⟨0x02, n, w⟩ s) := by
  rw [issue_of_wordIs hm, issueStep_trapped h hb]
  simp [Form.cands, hl, hi, hp]

/-- A legal word that the state makes illegal takes exception 0x01. -/
theorem issue_illegal (h : Issues m c t w s) (hb : f.uses.busy (getCore s c) t = false)
    (hi : f.illegal = [n]) (hp : f.priv = none) : issue m f c t w s = .next (trapped c t ⟨0x01, n, w⟩ s) := by
  rw [issue_of_wordIs (wordIs_of_spells h.spells), issueStep_trapped h.toOffered hb]
  simp [Form.cands, h.legal, hi, hp]

/-! ## What is left of the state -/

theorem getThread_updCore_same (s : State) (c u : Nat) (g : Core → Core) : getThread (updCore s c g) c u = (g (getCore s c)).thread u := by
  simp [getThread]

@[simp] theorem getThread_updCore_other (s : State) {c d : Nat} (u : Nat) (g : Core → Core) (h : d ≠ c) :
    getThread (updCore s c g) d u = getThread s d u := by simp [getThread, h]

@[simp] theorem getCore_updThread_other (s : State) {c d : Nat} (t : Nat) (g : Thread → Thread) (h : d ≠ c) :
    getCore (updThread s c t g) d = getCore s d := by simp [updThread, h]

theorem getCore_updThread_same (s : State) (c t : Nat) (g : Thread → Thread) :
    getCore (updThread s c t g) c = { getCore s c with threads := (getCore (updThread s c t g) c).threads } := by
  simp [updThread, Core.updThread, Core.setThread]

@[simp] theorem getThread_advance_same (s : State) (c t : Nat) :
    getThread (advance s c t) c t = { getThread s c t with pc := (getThread s c t).pc + 8 } := getThread_updThread_same s c t _

@[simp] theorem getThread_advance_other (s : State) (c : Nat) {t u : Nat} (h : u ≠ t) : getThread (advance s c t) c u = getThread s c u :=
  getThread_updThread_thread s c _ h

@[simp] theorem getCore_advance_other (s : State) {c d : Nat} (t : Nat) (h : d ≠ c) : getCore (advance s c t) d = getCore s d :=
  getCore_updThread_other s t _ h

theorem getCore_advance_same (s : State) (c t : Nat) :
    getCore (advance s c t) c = { getCore s c with threads := (getCore (advance s c t) c).threads } := getCore_updThread_same s c t _

/-- A state in which the issue is counted already, and whose thread then ends its step. -/
theorem threadOnly_stepEnd {th : Thread} {dest : Option Nat} {s1 : State} (hk : getThread s1 c t = th)
    (ho : ∀ u, u ≠ t → getThread s1 c u = getThread s c u)
    (hc : getCore s1 c = { (getCore s c).noteIssue t with
      threads := (getCore s1 c).threads, reqs := (getCore s c).reqs.map (supersedes t dest) })
    (hd : ∀ d, d ≠ c → getCore s1 d = getCore s d) (hr : s1 = { s with cores := s1.cores }) :
    ThreadOnly c t dest th s (stepEnd s1 c t) where
  thread := by rw [stepEnd_thread, hk]
  threads u hu := by rw [stepEnd_threads _ _ hu, ho u hu]
  core := by rw [stepEnd_core, hc]
  cores d h := by rw [stepEnd_cores _ _ h, hd d h]
  rest := by rw [stepEnd_rest, hr]

theorem threadOnly_skipped (s : State) (c t : Nat) : ThreadOnly c t none { getThread s c t with pc := (getThread s c t).pc + 8 } s
    (stepEnd (advance (updCore s c (fun k => k.noteIssue t)) c t) c t) := by
  refine threadOnly_stepEnd ?_ (fun u hu => ?_) ?_ (fun d hd => ?_) rfl
  · rw [getThread_advance_same, getThread_updCore_same]; rfl
  · rw [getThread_advance_other _ _ hu, getThread_updCore_same]; rfl
  · rw [getCore_advance_same, supersedes_none, getCore_updCore_same]; rfl
  · rw [getCore_advance_other _ _ hd, getCore_updCore_other _ _ hd]

/-- An effect on one core's thread and on the loads in flight to a register, then the pc passed and the issue's own counters. -/
theorem threadOnly_completed {th : Thread} {dest : Option Nat} {s1 : State} (hk : getThread s1 c t = th)
    (ho : ∀ u, u ≠ t → getThread s1 c u = getThread s c u)
    (hc : getCore s1 c =
      { getCore s c with threads := (getCore s1 c).threads, reqs := (getCore s c).reqs.map (supersedes t dest) })
    (hd : ∀ d, d ≠ c → getCore s1 d = getCore s d) (hr : s1 = { s with cores := s1.cores }) :
    ThreadOnly c t dest { th with pc := th.pc + 8 } s (completed c t s1) := by
  unfold completed
  refine threadOnly_finished ?_ (fun u hu => ?_) ?_ (fun d h => ?_) ?_
  · rw [getThread_advance_same, hk]
  · rw [getThread_advance_other _ _ hu, ho u hu]
  · rw [getCore_advance_same, hc]
  · rw [getCore_advance_other _ _ h, hd d h]
  · rw [advance_rest, hr]

/-- An instruction whose effect is a change of its thread, the pc passed after it. -/
theorem threadOnly_completed_updThread (s : State) (c t : Nat) (g : Thread → Thread) : ThreadOnly c t none
    { g (getThread s c t) with pc := (g (getThread s c t)).pc + 8 } s (completed c t (updThread s c t g)) := by
  refine threadOnly_completed (getThread_updThread_same s c t g) (fun u hu => getThread_updThread_thread s c g hu) ?_
    (fun d hd => getCore_updThread_other s t g hd) (updThread_rest s c t g)
  rw [supersedes_none, ← getCore_updThread_same]

theorem getThread_writeG_same (s : State) (c t n : Nat) (v : Word) : getThread (updCore s c (fun k => k.writeG t n v)) c t =
    { getThread s c t with regs := (getThread s c t).regs.gSet n ⟨v, false⟩ } := by
  simp [getThread, Core.writeG, Core.updThread, Core.setThread, Core.thread]

theorem getThread_writeG_other (s : State) (c n : Nat) {t u : Nat} (v : Word) (h : u ≠ t) :
    getThread (updCore s c (fun k => k.writeG t n v)) c u = getThread s c u := by
  simp [getThread, Core.writeG, Core.updThread, Core.setThread, Core.thread, h]

theorem getCore_writeG_same (s : State) (c t n : Nat) (v : Word) : getCore (updCore s c (fun k => k.writeG t n v)) c =
    { getCore s c with
      threads := (getCore (updCore s c (fun k => k.writeG t n v)) c).threads
      reqs := (getCore s c).reqs.map (supersedes t (some n)) } := by
  rw [getCore_updCore_same, ← supersedes_writeG _ t n v]
  rfl

end Sys2Proof.Machine
end

section
/-!
PROOFS. Integer, predicate and mask instructions (02 R71, R73–R75, R77).
-/

namespace Sys2Proof.Machine

/-! ## Values -/

@[simp] theorem word_toNat (a : Word) : word a.toNat = a := BitVec.ofNat_toNat _ a

theorem minBy_slt (a b : Word) : minBy BitVec.slt a b = if a.toInt ≤ b.toInt then a else b := by
  simp only [minBy, BitVec.slt, decide_eq_true_eq, ← not_lt, ite_not]

theorem maxBy_slt (a b : Word) : maxBy BitVec.slt a b = if b.toInt ≤ a.toInt then a else b := by
  simp only [maxBy, BitVec.slt, decide_eq_true_eq, ← not_lt, ite_not]

theorem minBy_ult (a b : Word) : minBy BitVec.ult a b = if a.toNat ≤ b.toNat then a else b := by
  simp only [minBy, BitVec.ult, decide_eq_true_eq, ← not_lt, ite_not]

theorem maxBy_ult (a b : Word) : maxBy BitVec.ult a b = if b.toNat ≤ a.toNat then a else b := by
  simp only [maxBy, BitVec.ult, decide_eq_true_eq, ← not_lt, ite_not]

theorem clz64_eq (a : Word) : clz64 a = a.clz := by
  unfold clz64
  by_cases h : a = 0
  · subst h; rfl
  · have hn : a.toNat ≠ 0 := fun hz => h (BitVec.eq_of_toNat_eq hz)
    have hlo : 2 ^ (64 - 1 - a.clz.toNat) ≤ a.toNat := BitVec.two_pow_sub_clz_le_toNat_of_ne_zero (by decide) h
    have hhi : a.toNat < 2 ^ (64 - a.clz.toNat) := BitVec.toNat_lt_two_pow_sub_clz
    have hlt : a.clz.toNat < 64 := by simpa [BitVec.lt_def] using BitVec.clz_lt_iff_ne_zero.2 h
    have hlog : Nat.log2 a.toNat = 63 - a.clz.toNat := by
      rw [Nat.log2_eq_iff hn]
      exact ⟨hlo, by rwa [show 63 - a.clz.toNat + 1 = 64 - a.clz.toNat by omega]⟩
    rw [if_neg hn, hlog, show 63 - (63 - a.clz.toNat) = a.clz.toNat by omega]
    exact word_toNat _

/-- ctzN finds the lowest set bit. -/
theorem ctzN_eq {k n j : Nat} (hj : j < k) (hset : n.testBit j = true) (hlow : ∀ i, i < j → n.testBit i = false) : ctzN k n = j := by
  induction k generalizing n j with
  | zero => omega
  | succ k ih =>
    rw [ctzN]
    cases j with
    | zero => rw [if_pos (by simpa using hset)]
    | succ j =>
      have h0 : n % 2 ≠ 1 := by simpa using hlow 0 (by omega)
      rw [if_neg h0, ih (j := j) (by omega), Nat.add_comm]
      · rwa [← Nat.testBit_succ]
      · intro i hi; rw [← Nat.testBit_succ]; exact hlow (i + 1) (by omega)

theorem ctzN_zero (k : Nat) : ctzN k 0 = k := by
  induction k with
  | zero => rfl
  | succ k ih => rw [ctzN, if_neg (by decide), Nat.zero_div, ih, Nat.add_comm]

theorem ctz64_eq (a : Word) : word (ctzN 64 a.toNat) = a.ctz := by
  by_cases h : a = 0
  · subst h
    exact (congrArg word (ctzN_zero 64)).trans (by decide +kernel)
  · have hset := BitVec.getLsbD_true_ctz_of_ne_zero h
    have hlt : a.ctz.toNat < 64 := by simpa [BitVec.lt_def] using BitVec.ctz_lt_iff_ne_zero.2 h
    rw [ctzN_eq hlt hset (fun i hi => BitVec.getLsbD_false_of_lt_ctz hi)]
    exact word_toNat _

theorem popN_succ_top (k n : Nat) : popN (k + 1) n = popN k n + boolN (n.testBit k) := by
  induction k generalizing n with
  | zero =>
    rcases Nat.mod_two_eq_zero_or_one n with h | h <;> simp [popN, boolN, h]
  | succ k ih => rw [popN, ih, popN, Nat.testBit_succ]; omega

theorem cpopNatRec_eq_popN (a : Word) (k acc : Nat) : a.cpopNatRec k acc = acc + popN k a.toNat := by
  induction k generalizing acc with
  | zero => simp [popN]
  | succ k ih =>
    rw [BitVec.cpopNatRec_succ, ih, popN_succ_top, BitVec.getLsbD]
    cases a.toNat.testBit k <;> simp [boolN, Nat.add_assoc, Nat.add_comm]

theorem pop64_eq (a : Word) : word (popN 64 a.toNat) = a.cpop := by
  rw [BitVec.cpop, cpopNatRec_eq_popN, Nat.zero_add]

theorem field_eq_extract {k : Nat} (w : BitVec k) (hi lo : Nat) : field w hi lo = (w.extractLsb' lo (hi + 1 - lo)).toNat := by
  rw [BitVec.extractLsb'_toNat]; rfl

theorem signedN_toNat {k : Nat} (hk : 0 < k) (x : BitVec k) : signedN k x.toNat = x.toInt := by
  obtain ⟨k, rfl⟩ : ∃ j, k = j + 1 := ⟨k - 1, by omega⟩
  have hx := x.isLt
  rw [signedN, BitVec.toInt, Nat.mod_eq_of_lt hx, pow_succ, Nat.add_sub_cancel]
  exact if_congr (by omega) rfl rfl

/-- Sign extension of a pattern is that of a word of its width. -/
theorem sextWord_toNat {k : Nat} (hk : 0 < k) (x : BitVec k) : sextWord k x.toNat = x.signExtend 64 := by
  rw [sextWord, signedN_toNat hk, BitVec.signExtend]

theorem immS_eq (w : Word) : immS w = (w.truncate 37 : BitVec 37).signExtend 64 := by
  rw [← sextWord_toNat (by decide), immS, wImm, BitVec.truncate_eq_setWidth, BitVec.toNat_setWidth]
  rfl

theorem lih_eq (a w : Word) : word (field a 36 0 + field w 26 0 * 2 ^ 37) = w.extractLsb' 0 27 ++ a.extractLsb' 0 37 := by
  have ha : field a 36 0 < 2 ^ 37 := field_lt a 36 0
  have hw : field w 26 0 < 2 ^ 27 := field_lt w 26 0
  refine BitVec.eq_of_toNat_eq ?_
  have hea : (a.extractLsb' 0 37).toNat = field a 36 0 := (field_eq_extract a 36 0).symm
  have hew : (w.extractLsb' 0 27).toNat = field w 26 0 := (field_eq_extract w 26 0).symm
  rw [BitVec.toNat_append, hea, hew, ← Nat.shiftLeft_add_eq_or_of_lt ha, word, BitVec.toNat_ofNat, Nat.shiftLeft_eq]
  omega

theorem predBits_eq (r : Regs) : word (predBits r) = (r.p ||| 1#8).zeroExtend 64 := by
  simp only [predBits, Regs.pGet]
  generalize r.p = p
  revert p
  decide

theorem mask31_eq (a : Word) : word (a.toNat % 2 ^ 31) = a &&& 0x7FFFFFFF#64 := by
  refine BitVec.eq_of_toNat_eq ?_
  rw [BitVec.toNat_and, word, BitVec.toNat_ofNat]
  have := Nat.and_two_pow_sub_one_eq_mod a.toNat 31
  simp only [BitVec.toNat_ofNat] at this ⊢
  norm_num at this ⊢
  omega

theorem xor_two_pow_of_lt {r k : Nat} (h : r < 2 ^ k) : r ^^^ 2 ^ k = 2 ^ k + r := by
  refine Nat.eq_of_testBit_eq (fun j => ?_)
  have hadd := Nat.testBit_two_pow_mul_add 1 h j
  rw [mul_one] at hadd
  rw [hadd, Nat.testBit_xor, Nat.testBit_two_pow]
  by_cases hj : j < k
  · simp [hj, hj.ne']
  · rw [Nat.testBit_lt_two_pow (h.trans_le (Nat.pow_le_pow_right (by decide) (not_lt.1 hj)))]
    rcases (not_lt.1 hj).eq_or_lt with rfl | hlt
    · simp
    · simp [hj, hlt.ne, Nat.testBit_lt_two_pow (Nat.one_lt_two_pow (Nat.sub_ne_zero_of_lt hlt))]

theorem f32neg_eq_xor {x : Nat} (h : x < 2 ^ 32) : f32neg x = x ^^^ 2 ^ 31 := by
  unfold f32neg
  by_cases hx : x < 2 ^ 31
  · rw [if_neg (by simp [Nat.testBit_lt_two_pow hx]), xor_two_pow_of_lt hx, Nat.add_comm]
  · obtain ⟨r, rfl⟩ : ∃ r, x = 2 ^ 31 + r := ⟨x - 2 ^ 31, by omega⟩
    have hr : r < 2 ^ 31 := by omega
    rw [if_pos (by rw [Nat.testBit_two_pow_add_eq, Nat.testBit_lt_two_pow hr]; rfl), ← xor_two_pow_of_lt hr, Nat.xor_assoc, Nat.xor_self,
      Nat.xor_zero, xor_two_pow_of_lt hr, Nat.add_sub_cancel_left]

theorem flip31_eq (a : Word) : word (f32neg (a.toNat % 2 ^ 32)) = (a &&& 0xFFFFFFFF#64) ^^^ 0x80000000#64 := by
  have hlt : a.toNat % 2 ^ 32 < 2 ^ 32 := Nat.mod_lt _ (by decide)
  have hand := Nat.and_two_pow_sub_one_eq_mod a.toNat 32
  have hxor : a.toNat % 2 ^ 32 ^^^ 2 ^ 31 < 2 ^ 32 := Nat.xor_lt_two_pow hlt (by decide)
  refine BitVec.eq_of_toNat_eq ?_
  rw [f32neg_eq_xor hlt, BitVec.toNat_xor, BitVec.toNat_and, word, BitVec.toNat_ofNat, Nat.mod_eq_of_lt (hxor.trans (by decide)), ← hand]
  rfl

end Sys2Proof.Machine
end

section
/-!
PROOFS. The statements of the ALU, division, predicate and mask rows.
-/

namespace Sys2Proof.Machine

variable {m : Mn} {c t : Nat} {w : Word} {s : State}

/-! ## Rows that write a general register -/

/-- The form of an instruction that writes gd with a value of the thread. -/
def writeForm (u : Uses) (c t : Nat) (w : Word) (v : Thread → Word) : Form := { uses := u, body := writeBody u c t (wGd w) v }

theorem Free.of_ready {u : Uses} {b : State → Res} (h : Ready c t u s) : Free { uses := u, body := b } c t s := ⟨h.free, rfl, rfl⟩

theorem writeBody_of_clean {u : Uses} (h : u.poison (getThread s c t) = []) (n : Nat) (v : Thread → Word) :
    writeBody u c t n v s = .done (advance (updCore s c (fun k => k.writeG t n (v (getThread s c t)))) c t) := by
  simp [writeBody, h]

/-- A row whose body writes gd with a value of the thread and the word. -/
theorem rowWritesG {row : Nat → Nat → Word → Instr} {uses : Word → Uses} {v v' : Thread → Word → Word}
    (hrow : ∀ c t w s, exec (row c t w) s = issue m (writeForm (uses w) c t w (fun th => v th w)) c t w s)
    (hv : ∀ th w, v th w = v' th w) : RowWritesG row m uses v' := by
  obtain rfl : v = v' := funext fun th => funext fun w => hv th w
  intro c t w s hi hr
  have hb : (writeForm (uses w) c t w (fun th => v th w)).body s = .done _ := writeBody_of_clean hr.clean (wGd w) (fun th => v th w)
  exact ⟨_, (hrow c t w s).trans (issue_finished hi (.of_ready hr) hb), threadOnly_writeG s c t _ _⟩

/-- Settles O6: each row is the one write of gd with its value, stated as the spec states it. -/
theorem aluAndImmediateRowsWriteGd : Obligations.AluAndImmediateRowsWriteGd := by
  refine ⟨⟨?add, ?sub, ?and, ?or, ?xor, ?andn, ?sll, ?srl, ?sra, ?min, ?max, ?minu, ?maxu, ?mul, ?mulh, ?mulhu, ?clz, ?ctz, ?popc⟩,
    ?addi, ?andi, ?ori, ?xori, ?slli, ?srli, ?srai, ?li, ?lih, ?pget, ?mget, ?fabs, ?fneg⟩
  case min => exact rowWritesG (fun _ _ _ _ => rfl) (fun _ _ => minBy_slt _ _)
  case max => exact rowWritesG (fun _ _ _ _ => rfl) (fun _ _ => maxBy_slt _ _)
  case minu => exact rowWritesG (fun _ _ _ _ => rfl) (fun _ _ => minBy_ult _ _)
  case maxu => exact rowWritesG (fun _ _ _ _ => rfl) (fun _ _ => maxBy_ult _ _)
  case clz => exact rowWritesG (fun _ _ _ _ => rfl) (fun _ _ => clz64_eq _)
  case ctz => exact rowWritesG (fun _ _ _ _ => rfl) (fun _ _ => ctz64_eq _)
  case popc => exact rowWritesG (fun _ _ _ _ => rfl) (fun _ _ => pop64_eq _)
  case addi | andi | ori | xori => exact rowWritesG (fun _ _ _ _ => rfl) (fun _ w => congrArg _ (immS_eq w))
  case li => exact rowWritesG (fun _ _ _ _ => rfl) (fun _ w => immS_eq w)
  case lih => exact rowWritesG (fun _ _ _ _ => rfl) (fun _ _ => lih_eq _ _)
  case pget => exact rowWritesG (fun _ _ _ _ => rfl) (fun _ _ => predBits_eq _)
  case mget => exact rowWritesG (fun _ _ _ _ => rfl) (fun _ _ => BitVec.eq_of_toNat_eq (by simp [word]))
  case fabs => exact rowWritesG (fun _ _ _ _ => rfl) (fun _ _ => mask31_eq _)
  case fneg => exact rowWritesG (fun _ _ _ _ => rfl) (fun _ _ => flip31_eq _)
  all_goals exact rowWritesG (fun _ _ _ _ => rfl) (fun _ _ => rfl)

/-! ## Division -/

theorem divS_eq (a b : Word) : divS a b = if b = 0 then BitVec.allOnes 64
    else if a = BitVec.intMin 64 ∧ b = BitVec.allOnes 64 then BitVec.intMin 64 else a.sdiv b := by
  have hq : BitVec.ofInt 64 (a.toInt.tdiv b.toInt) = a.sdiv b := BitVec.eq_of_toInt_eq (by rw [BitVec.toInt_ofInt, BitVec.toInt_sdiv])
  rw [divS, hq]
  refine if_congr Iff.rfl rfl ?_
  split
  · next h => rw [h.1, h.2]; rfl
  · rfl

theorem remS_eq (a b : Word) : remS a b = if b = 0 then a
    else if a = BitVec.intMin 64 ∧ b = BitVec.allOnes 64 then 0 else a.srem b := by
  rw [remS, ← BitVec.toInt_srem, BitVec.ofInt_toInt]
  refine if_congr Iff.rfl rfl ?_
  split
  · next h => rw [h.1, h.2]; rfl
  · rfl

theorem divUns_eq (a b : Word) : divUns a b = if b = 0 then BitVec.allOnes 64 else a / b :=
  if_congr Iff.rfl rfl (BitVec.eq_of_toNat_eq (by
    rw [BitVec.toNat_udiv, word, BitVec.toNat_ofNat, Nat.mod_eq_of_lt ((Nat.div_le_self _ _).trans_lt a.isLt)]))

theorem remUns_eq (a b : Word) : remUns a b = if b = 0 then a else a % b :=
  if_congr Iff.rfl rfl (BitVec.eq_of_toNat_eq (by
    rw [BitVec.toNat_umod, word, BitVec.toNat_ofNat, Nat.mod_eq_of_lt ((Nat.mod_le _ _).trans_lt a.isLt)]))

theorem gGet_clean_of_poison_nil {u : Uses} {th : Thread} (h : u.poison th = []) {n : Nat} (hn : n ∈ u.gIn) : (th.regs.gGet n).p = false := by
  simp only [Uses.poison, List.append_eq_nil_iff, List.map_eq_nil_iff, List.filter_eq_nil_iff] at h
  simpa using h.1.1 n hn

/-- A division that its divisor does not trap writes its result. -/
theorem divForm_runs {i : Instr} {f : Word → Word → Word} (hrow : exec i s = issue m (divForm c t w f) c t w s) (hi : Issues m c t w s)
    (hr : Ready c t (readsAB w) s) (hz : (getThread s c t).st.teIdz = false ∨ gVal (getThread s c t) (wGb w) ≠ 0) :
    Runs i s (ThreadOnly c t (some (wGd w)) (wroteG (getThread s c t) (wGd w)
      (f (gVal (getThread s c t) (wGa w)) (gVal (getThread s c t) (wGb w)))) s) := by
  refine ⟨_, hrow.trans (issue_finished hi (.of_ready hr) ?_), threadOnly_writeG s c t _ _⟩
  have hc := hr.clean
  rw [readsAB] at hc
  rcases hz with hz | hz
  · simp [divForm, hc, hz]
  · have hz' : (gVal (getThread s c t) (wGb w) == 0) = false := beq_eq_false_iff_ne.2 hz
    simp only [divForm, hc, hz', Bool.and_false, when?_false, List.append_nil]

/-- A division by zero traps where TE_IDZ asks for it. -/
theorem divForm_traps {i : Instr} {f : Word → Word → Word} (hrow : exec i s = issue m (divForm c t w f) c t w s) (hi : Issues m c t w s)
    (hr : Ready c t (readsAB w) s) (ht : (getThread s c t).st.teIdz = true) (hz : gVal (getThread s c t) (wGb w) = 0) :
    exec i s = .next (trapped c t ⟨0x0B, 0x05, w⟩ s) := by
  have hb : ((getThread s c t).regs.gGet (wGb w)).p = false := gGet_clean_of_poison_nil hr.clean (by simp [readsAB])
  have hc := hr.clean
  rw [readsAB] at hc
  exact hrow.trans (issue_raised (xs := [cand 0x0B 0x05 w]) hi (.of_ready hr) (by simp [divForm, hc, ht, hz, hb]) rfl)

/-- Settles O7, from the two ways a division ends. -/
theorem divisionRowsWriteQuotientOrRemainder : Obligations.DivisionRowsWriteQuotientOrRemainder := by
  refine ⟨fun c t w s hr hz => ?_, fun c t w s hr ht hz => ?_⟩
  · dsimp only
    rw [← divS_eq, ← divUns_eq, ← remS_eq, ← remUns_eq]
    exact ⟨fun hi => divForm_runs rfl hi hr hz, fun hi => divForm_runs rfl hi hr hz, fun hi => divForm_runs rfl hi hr hz,
      fun hi => divForm_runs rfl hi hr hz⟩
  · exact ⟨fun hi => divForm_traps rfl hi hr ht hz, fun hi => divForm_traps rfl hi hr ht hz, fun hi => divForm_traps rfl hi hr ht hz,
      fun hi => divForm_traps rfl hi hr ht hz⟩

/-! ## Predicates and masks -/

/-- The form of an instruction that changes its thread, once its sources are clean. -/
def threadForm (u : Uses) (c t : Nat) (g : Thread → Thread) : Form :=
  { uses := u
    body := fun s => match u.poison (getThread s c t) with
      | [] => .done (advance (updThread s c t g) c t)
      | xs => .raise xs }

theorem threadForm_runs {i : Instr} {u : Uses} {g : Thread → Thread} (hrow : exec i s = issue m (threadForm u c t g) c t w s)
    (hi : Issues m c t w s) (hr : Ready c t u s) :
    Runs i s (ThreadOnly c t none { g (getThread s c t) with pc := (g (getThread s c t)).pc + 8 } s) :=
  ⟨_, hrow.trans (issue_finished hi (.of_ready hr) (by simp [threadForm, hr.clean])), threadOnly_completed_updThread s c t g⟩

theorem rowSetsThread {row : Nat → Nat → Word → Instr} {uses : Word → Uses} {g f : Thread → Word → Thread}
    (hrow : ∀ c t w s, exec (row c t w) s = issue m (threadForm (uses w) c t (fun th => g th w)) c t w s)
    (hg : ∀ th w, { g th w with pc := (g th w).pc + 8 } = f th w) : RowSetsThread row m uses f := by
  intro c t w s hi hr
  rw [← hg]
  exact threadForm_runs (hrow c t w s) hi hr

/-- The integer conditions as 02 R75 states them. -/
theorem intCond_eq (k : Nat) (a b : Word) : intCond k a b =
    if k = 0 then decide (a = b) else if k = 1 then decide (a ≠ b) else if k = 2 then decide (a.toInt < b.toInt)
    else if k = 3 then decide (b.toInt ≤ a.toInt) else if k = 4 then decide (a.toNat < b.toNat) else decide (b.toNat ≤ a.toNat) := by
  unfold intCond
  split
  case h_1 => rfl
  case h_2 => exact (decide_not (p := a = b)).symm
  case h_3 => rfl
  case h_4 => exact (decide_not (p := a.toInt < b.toInt)).symm.trans (decide_eq_decide.2 not_lt)
  case h_5 => rfl
  case h_6 h0 h1 h2 h3 h4 =>
    rw [if_neg h0, if_neg h1, if_neg h2, if_neg h3, if_neg h4]
    exact (decide_not (p := a.toNat < b.toNat)).symm.trans (decide_eq_decide.2 not_lt)

theorem predLogic_eq (k : Nat) (a b : Bool) : predLogic k a b =
    if k = 0 then a && b else if k = 1 then a || b else if k = 2 then xor a b else a && !b := by
  unfold predLogic
  split
  case h_1 | h_2 => rfl
  case h_3 => cases a <;> cases b <;> rfl
  case h_4 h0 h1 h2 => rw [if_neg h0, if_neg h1, if_neg h2]

theorem onesRun_eq (b n : Nat) : onesRun b n = BitVec.ofNat 32 (2 ^ n - 1) <<< b := by
  refine BitVec.eq_of_toNat_eq ?_
  rw [onesRun, BitVec.toNat_shiftLeft, BitVec.toNat_ofNat, BitVec.toNat_ofNat, Nat.shiftLeft_eq, Nat.shiftLeft_eq, Nat.mod_mul_mod]

theorem cmpi_imm_eq (w : Word) : sextWord 33 (field w 36 4) = (w.extractLsb' 4 33).signExtend 64 := by
  rw [field_eq_extract, sextWord_toNat (by decide)]

/-- Predicates written one after the other: each of those listed has its value. -/
theorem pGet_foldl_pSet (g : Nat → Bool) {l : List Nat} (hl : ∀ i ∈ l, 0 < i) (r : Regs) {j : Nat} (hj : j < 8) :
    (l.foldl (fun r i => r.pSet i (g i)) r).pGet j = if j ∈ l then g j else r.pGet j := by
  induction l generalizing r with
  | nil => simp
  | cons i l ih =>
    have hi : i ≠ 0 := (hl i List.mem_cons_self).ne'
    rw [List.foldl_cons, ih (fun x hx => hl x (List.mem_cons_of_mem _ hx))]
    by_cases hm : j ∈ l
    · simp [hm]
    · by_cases hji : j = i
      · subst hji; simp [hm, pGet_pSet_same r (g j) hi hj]
      · simp [hm, hji, pGet_pSet_other r (g i) hji hj]

theorem foldl_pSet_rest (g : Nat → Bool) (l : List Nat) (r : Regs) :
    l.foldl (fun r i => r.pSet i (g i)) r = { r with p := (l.foldl (fun r i => r.pSet i (g i)) r).p } := by
  refine List.foldlRecOn (motive := fun x : Regs => x = { r with p := x.p }) l _ rfl (fun x hx i _ => ?_)
  rw [hx]
  unfold Regs.pSet
  split <;> rfl

/-- Settles O8: each row changes its predicate or mask by the stated function. -/
theorem predicateAndMaskRowsSetTheirThread : Obligations.PredicateAndMaskRowsSetTheirThread := by
  refine ⟨rowSetsThread (fun _ _ _ _ => rfl) (fun th w => ?cmp), rowSetsThread (fun _ _ _ _ => rfl) (fun th w => ?cmpi),
    rowSetsThread (fun _ _ _ _ => rfl) (fun th w => ?plog), fun c t w s hi hr => ?pset, rowSetsThread (fun _ _ _ _ => rfl) (fun _ _ => rfl),
    rowSetsThread (fun _ _ _ _ => rfl) (fun th w => ?mgen)⟩
  case cmp => exact congrArg (wroteP th (wGd w)) (intCond_eq _ _ _)
  case cmpi => exact congrArg (wroteP th (wGd w)) ((intCond_eq _ _ _).trans (by rw [cmpi_imm_eq]))
  case plog => exact congrArg (wroteP th (wGd w)) (predLogic_eq _ _ _)
  case mgen => exact congrArg (wroteM th (wGd w)) (onesRun_eq _ _)
  case pset =>
    obtain ⟨s', hs, h⟩ := threadForm_runs (i := .pset c t w) rfl hi hr
    refine ⟨s', hs, _, h, fun i h0 h8 => ?_, foldl_pSet_rest _ _ _⟩
    rw [pGet_foldl_pSet _ (by decide) _ h8, if_pos (by interval_cases i <;> simp)]
    rfl

end Sys2Proof.Machine
end

section
/-!
PROOFS. The FP32 rows: flags, traps and results; NaN operands (02 R76).
-/

namespace Sys2Proof.Machine

variable {m : Mn} {c t : Nat} {w : Word} {s : State} {i : Instr} {fl n : Nat}

/-! ## The end of an FP32 instruction -/

/-- A raised flag whose trap is enabled. -/
def trapsOn (te : BitVec 5) (fl n : Nat) : Bool := fl.testBit n && te.getLsbD n

theorem firstTrap_none {te : BitVec 5} (h : ((List.range 5).all (fun n => !trapsOn te fl n)) = true) : firstTrap fl te.toNat = none := by
  rw [List.all_eq_true] at h
  refine List.find?_eq_none.2 (fun n hn => ?_)
  have hoff : trapsOn te fl n = false := by simpa using h n (by simp at hn ⊢; omega)
  rw [trapsOn] at hoff
  simp [hoff, BitVec.testBit_toNat]

theorem firstTrap_some {te : BitVec 5} (hn : n < 5) (h : trapsOn te fl n = true) (hl : ∀ k, n < k → k < 5 → trapsOn te fl k = false) :
    firstTrap fl te.toNat = some n := by
  have hsplit : [4, 3, 2, 1, 0] = (List.range (4 - n)).map (4 - ·) ++ n :: (List.range n).reverse := by interval_cases n <;> rfl
  rw [firstTrap, hsplit]
  refine List.find?_eq_some_iff_append.2 ⟨h, _, _, rfl, fun k hk => ?_⟩
  obtain ⟨j, hj, rfl⟩ := List.mem_map.1 hk
  rw [List.mem_range] at hj
  exact congrArg not (hl (4 - j) (by omega) (by omega))

theorem flagEnd_untrapped {write : State → State} (h : ((List.range 5).all (fun n => !trapsOn (getThread s c t).st.te fl n)) = true) :
    flagEnd c t w fl write s = .done (advance (write (updThread s c t (fun th => raisedF th fl))) c t) := by
  simp only [flagEnd, firstTrap_none h]
  rfl

theorem flagEnd_trapped {write : State → State} (hn : n < 5) (h : trapsOn (getThread s c t).st.te fl n = true)
    (hl : ∀ k, n < k → k < 5 → trapsOn (getThread s c t).st.te fl k = false) :
    flagEnd c t w fl write s = .done (takeExc (updThread s c t (fun th => raisedF th fl)) c t ⟨0x0B, n, w⟩) := by
  simp only [flagEnd, firstTrap_some hn h hl]
  rfl

/-- The flags raised, then gd written: the one thread is all that changes. -/
theorem threadOnly_raised_writeG (s : State) (c t fl n : Nat) (v : Word) :
    ThreadOnly c t (some n) (wroteG (raisedF (getThread s c t) fl) n v) s
      (completed c t (updCore (updThread s c t (fun th => raisedF th fl)) c (fun k => k.writeG t n v))) := by
  have h := threadOnly_completed (s := s) (c := c) (t := t) (dest := some n)
    (th := { raisedF (getThread s c t) fl with regs := (getThread s c t).regs.gSet n ⟨v, false⟩ })
    (s1 := updCore (updThread s c t (fun th => raisedF th fl)) c (fun k => k.writeG t n v)) ?_ (fun u hu => ?_) ?_ (fun d hd => ?_) rfl
  · exact h
  · rw [getThread_writeG_same, getThread_updThread_same]; rfl
  · rw [getThread_writeG_other _ _ _ _ hu, getThread_updThread_thread _ _ _ hu]
  · rw [getCore_writeG_same, getCore_updThread_same]
  · rw [getCore_updCore_other _ _ hd, getCore_updThread_other _ _ _ hd]

/-! ## FP32 rows -/

theorem fpForm_body {ins : List Nat} {f : Thread → FRes} (hr : Ready c t { gIn := ins, gOut := [wGd w] } s) :
    (fpForm c t w ins f).body s = flagEnd c t w (f (getThread s c t)).flags
      (fun s' => updCore s' c (fun k => k.writeG t (wGd w) (word (f (getThread s c t)).bits))) s := by
  simp only [fpForm, hr.clean]

theorem fpForm_runs {ins : List Nat} {f : Thread → FRes} (hrow : exec i s = issue m (fpForm c t w ins f) c t w s)
    (hi : Issues m c t w s) (hr : Ready c t { gIn := ins, gOut := [wGd w] } s)
    (h : ((List.range 5).all (fun n => !trapsOn (getThread s c t).st.te (f (getThread s c t)).flags n)) = true) :
    Runs i s (ThreadOnly c t (some (wGd w)) (wroteG (raisedF (getThread s c t) (f (getThread s c t)).flags) (wGd w)
      (word (f (getThread s c t)).bits)) s) :=
  ⟨_, hrow.trans (issue_finished hi (.of_ready hr) ((fpForm_body hr).trans (flagEnd_untrapped h))),
    threadOnly_raised_writeG s c t _ _ _⟩

theorem fpForm_traps {ins : List Nat} {f : Thread → FRes} (hrow : exec i s = issue m (fpForm c t w ins f) c t w s)
    (hi : Issues m c t w s) (hr : Ready c t { gIn := ins, gOut := [wGd w] } s) (hn : n < 5)
    (h : trapsOn (getThread s c t).st.te (f (getThread s c t)).flags n = true)
    (hl : ∀ k, n < k → k < 5 → trapsOn (getThread s c t).st.te (f (getThread s c t)).flags k = false) :
    exec i s = .next (finished c t
      (takeExc (updThread s c t (fun th => raisedF th (f (getThread s c t)).flags)) c t ⟨0x0B, n, w⟩)) :=
  hrow.trans (issue_finished hi (.of_ready hr) ((fpForm_body hr).trans (flagEnd_trapped hn h hl)))

/-- What an FP32 row that writes gd does, for each result it may have. -/
def FpRow (i : Nat → Nat → Word → Instr) (m : Mn) (ins : Word → List Nat) (f : Thread → Word → FRes) : Prop :=
  ∀ c t w s, Issues m c t w s → Ready c t { gIn := ins w, gOut := [wGd w] } s →
    (((List.range 5).all (fun n => !trapsOn (getThread s c t).st.te (f (getThread s c t) w).flags n)) = true → Runs (i c t w) s
      (ThreadOnly c t (some (wGd w)) (wroteG (raisedF (getThread s c t) (f (getThread s c t) w).flags) (wGd w)
        (word (f (getThread s c t) w).bits)) s)) ∧
    (∀ n, n < 5 → trapsOn (getThread s c t).st.te (f (getThread s c t) w).flags n = true →
      (∀ k, n < k → k < 5 → trapsOn (getThread s c t).st.te (f (getThread s c t) w).flags k = false) →
      exec (i c t w) s = .next (finished c t
        (takeExc (updThread s c t (fun th => raisedF th (f (getThread s c t) w).flags)) c t ⟨0x0B, n, w⟩)))

theorem fpRow {row : Nat → Nat → Word → Instr} {ins : Word → List Nat} {f : Thread → Word → FRes}
    (hrow : ∀ c t w s, exec (row c t w) s = issue m (fpForm c t w (ins w) (fun th => f th w)) c t w s) : FpRow row m ins f :=
  fun c t w s hi hr => ⟨fpForm_runs (hrow c t w s) hi hr, fun _ hn => fpForm_traps (hrow c t w s) hi hr hn⟩

theorem exec_fcvtF2i (c t : Nat) (w : Word) (s : State) : exec (.fcvtF2i c t w) s = issue .f2i (fpForm c t w [wGa w]
    (fun th => ⟨(f2iS (fVal th (wGa w))).1.toNat, (f2iS (fVal th (wGa w))).2⟩)) c t w s := by
  change issue .f2i (fpForm c t w [wGa w] _) c t w s = _
  congr 2

/-- Settles O9: every row is the one end of an FP32 instruction, with its own function. -/
theorem fpRowsWriteResultAndFlags : Obligations.FpRowsWriteResultAndFlags := by
  unfold Obligations.FpRowsWriteResultAndFlags
  intro row lo ab
  have hrow : ∀ {i m ins f}, FpRow i m ins f → row i m ins f := fun h => h
  have hlo : lo = fVal := rfl
  clear_value row lo
  subst hlo
  refine ⟨hrow (fpRow ?_), hrow (fpRow ?_), hrow (fpRow ?_), hrow (fpRow ?_), hrow (fpRow ?_), hrow (fpRow ?_), hrow (fpRow ?_),
    hrow (fpRow ?_), hrow (fpRow exec_fcvtF2i), hrow (fpRow ?_)⟩
  all_goals exact fun _ _ _ _ => rfl

/-! ## NaN operands -/

theorem fp32_eq (a : Nat) : fp32 a =
    if a / 2 ^ 23 % 2 ^ 8 = 255 then
      if a % 2 ^ 23 = 0 then .inf (a.testBit 31) else .nan (a.testBit 31) (decide (a % 2 ^ 23 < 2 ^ 22))
    else if a / 2 ^ 23 % 2 ^ 8 = 0 then .num (a.testBit 31) (a % 2 ^ 23) fmtFP32.qmin
    else .num (a.testBit 31) (2 ^ 23 + a % 2 ^ 23) ((a / 2 ^ 23 % 2 ^ 8 : Nat) - 127 - 23) := by
  simp [fp32, BFmt.decode, fmtFP32, BFmt.qmin]
  rfl

theorem fp32_isNan {a : Nat} : (fp32 a).isNan = decide (a % 2 ^ 31 > 0x7F800000) := by
  rw [fp32_eq]
  split
  · split
    · exact (decide_eq_false (by omega)).symm
    · exact (decide_eq_true (by omega)).symm
  · split <;> exact (decide_eq_false (by omega)).symm

theorem fp32_nan {a : Nat} (h : a % 2 ^ 31 > 0x7F800000) : ∃ neg, fp32 a = .nan neg (!a.testBit 22) := by
  have hq : decide (a % 2 ^ 23 < 2 ^ 22) = !a.testBit 22 := by
    rw [Nat.testBit_eq_decide_div_mod_eq, ← decide_not]
    exact decide_eq_decide.2 (by omega)
  exact ⟨a.testBit 31, by rw [fp32_eq, if_pos (by omega), if_neg (by omega), hq]⟩

theorem isSig_of_not_nan {x : FV} (h : x.isNan = false) : x.isSig = false := by
  cases x with
  | nan => cases h
  | inf | num => rfl

theorem fp32_isSig {a : Nat} : (fp32 a).isSig = (decide (a % 2 ^ 31 > 0x7F800000) && !a.testBit 22) := by
  by_cases h : a % 2 ^ 31 > 0x7F800000
  · obtain ⟨neg, hn⟩ := fp32_nan h
    rw [hn, decide_eq_true h, Bool.true_and, FV.isSig]
  · rw [isSig_of_not_nan (fp32_isNan.trans (decide_eq_false h)), decide_eq_false h, Bool.false_and]

theorem negate_isNan (x : FV) : x.negate.isNan = x.isNan := by cases x <;> rfl

theorem add_isNan {x y : FV} (h : x.isNan = true ∨ y.isNan = true) : (x.add y).1.isNan = true := by
  cases x with
  | nan => rfl
  | inf | num =>
    cases y with
    | nan => rfl
    | inf | num => simp [FV.isNan] at h

theorem mul_isNan {x y : FV} (h : x.isNan = true ∨ y.isNan = true) : (x.mul y).1.isNan = true := by
  cases x with
  | nan => rfl
  | inf | num =>
    cases y with
    | nan => rfl
    | inf | num => simp [FV.isNan] at h

theorem div_isNan {x y : FV} (h : x.isNan = true ∨ y.isNan = true) : (x.div y).1.isNan = true := by
  cases x with
  | nan => rfl
  | inf | num =>
    cases y with
    | nan => rfl
    | inf | num => simp [FV.isNan] at h

theorem scalarRes_nan {sig inv dz : Bool} {v : FV} (h : v.isNan = true) : (scalarRes sig inv dz v).bits = 0x7FC00000 := by
  cases v with
  | nan => rfl
  | inf | num => cases h

theorem fcmpS_of_nan {a b : Nat} (h : (fp32 a).isNan = true ∨ (fp32 b).isNan = true) :
    (∀ k, k < 3 → (fcmpS k a b).1 = false) ∧ (fcmpS 3 a b).1 = true := by
  have hun : ((fp32 a).isNan || (fp32 b).isNan) = true := by simpa using h
  refine ⟨fun k hk => ?_, hun⟩
  match k, hk with
  | 0, _ => rcases h with h | h <;> simp [fcmpS, FV.eq, h]
  | 1, _ => simp [fcmpS, hun]
  | 2, _ => simp [fcmpS, hun]

/-- FCMP that runs: its predicate and its flags. -/
theorem fcmp_runs (hi : Issues .fcmp c t w s) (hr : Ready c t { gIn := [wGa w, wGb w] } s) {r : Bool × Nat}
    (hc : fcmpS (field w 1 0) (fVal (getThread s c t) (wGa w)) (fVal (getThread s c t) (wGb w)) = r)
    (h : ((List.range 5).all (fun n => !trapsOn (getThread s c t).st.te r.2 n)) = true) :
    Runs (.fcmp c t w) s (ThreadOnly c t none (wroteP (raisedF (getThread s c t) r.2) (wGd w) r.1) s) := by
  refine ⟨completed c t (updThread (updThread s c t (fun th => raisedF th r.2)) c t
    (fun th => { th with regs := th.regs.pSet (wGd w) r.1 })), issue_finished hi (.of_ready hr) ?_, ?_⟩
  · simp only [hr.clean, hc]
    exact flagEnd_untrapped h
  · have hp := threadOnly_completed (s := s) (c := c) (t := t) (dest := none)
      (th := { raisedF (getThread s c t) r.2 with regs := (getThread s c t).regs.pSet (wGd w) r.1 })
      (s1 := updThread (updThread s c t (fun th => raisedF th r.2)) c t (fun th => { th with regs := th.regs.pSet (wGd w) r.1 }))
      ?_ (fun u hu => ?_) ?_ (fun d hd => ?_) rfl
    · exact hp
    · rw [getThread_updThread_same, getThread_updThread_same]; rfl
    · rw [getThread_updThread_thread _ _ _ hu, getThread_updThread_thread _ _ _ hu]
    · rw [getCore_updThread_same, getCore_updThread_same, supersedes_none]
    · rw [getCore_updThread_other _ _ _ hd, getCore_updThread_other _ _ _ hd]

/-- Settles O10: the row runs as every FP32 row does, and NaN operands are followed through each function. -/
theorem fpCompareWritesItsPredicate : Obligations.FpCompareWritesItsPredicate := by
  refine ⟨fun c t w s hi hr => fcmp_runs hi hr rfl, fun a b ha hb h => ?_, fun a ha h => ?_, by decide, by decide⟩
  · dsimp only at h ⊢
    rw [← fp32_isNan, ← fp32_isNan] at h
    have hneg : (fp32 a).isNan = true ∨ (fp32 b).negate.isNan = true := by rwa [negate_isNan]
    obtain ⟨hlow, hun⟩ := fcmpS_of_nan h
    refine ⟨hlow, hun, fun k _ => ?_, scalarRes_nan (add_isNan h), scalarRes_nan (add_isNan hneg), scalarRes_nan (mul_isNan h),
      scalarRes_nan (div_isNan h), fun d _ => scalarRes_nan (add_isNan (.inl (mul_isNan h)))⟩
    simp only [fcmpS, sigAny, fp32_isSig, flagNV]
  · obtain ⟨neg, hn⟩ := fp32_nan (of_decide_eq_true h)
    simp only [f2iS, hn, flagNV]

end Sys2Proof.Machine
end

section
/-!
PROOFS. Branches and jumps: the target, its two exceptions, the link (02 R78, R99).
-/

namespace Sys2Proof.Machine

variable {m : Mn} {c t : Nat} {w : Word} {s : State} {i : Instr} {u : Uses}

/-! ## The checks of an address -/

theorem tag_eq_zero (a : Word) : field a 63 56 = 0 ↔ a.extractLsb' 56 8 = 0 := by
  rw [field_eq_extract, ← BitVec.toNat_inj]; rfl

theorem targetChecks_good {a : Word} (ht : field a 63 56 = 0) (ha : a.toNat % 8 = 0) : targetChecks a = [] := by
  simp [targetChecks, ht, ha]

/-- A misaligned target takes 0x03, whatever its tag. -/
theorem targetChecks_misaligned {a : Word} (ha : a.toNat % 8 ≠ 0) :
    targetChecks a ≠ [] ∧ firstCand (targetChecks a) = some ⟨0x03, 0x02, a⟩ := by
  have hb : (a.toNat % 8 != 0) = true := bne_iff_ne.2 ha
  cases ht : field a 63 56 != 0 <;> simp only [targetChecks, hb, ht, when?_true, when?_false]
  · exact ⟨by simp, rfl⟩
  · exact ⟨by simp, rfl⟩

theorem targetChecks_space {a : Word} (ht : field a 63 56 ≠ 0) (ha : a.toNat % 8 = 0) :
    targetChecks a ≠ [] ∧ firstCand (targetChecks a) = some ⟨0x05, 0x01, a⟩ := by
  have hb : (field a 63 56 != 0) = true := bne_iff_ne.2 ht
  simp only [targetChecks, hb, ha, when?_true]
  exact ⟨by simp, rfl⟩

theorem addrPoison_eq_nil {th : Thread} {regs : List Nat} (h : ∀ n ∈ regs, (th.regs.gGet n).p = false) : addrPoison th regs = [] := by
  simpa [addrPoison, List.filter_eq_nil_iff] using h

/-! ## A branch -/

/-- The state a branch leaves: the link written, the pc at the target. -/
def branched (c t : Nat) (link : Option Nat) (a : Word) (s : State) : State :=
  updThread (match link with
    | some gd => updCore s c (fun k => k.writeG t gd ((getThread s c t).pc + 8))
    | none => s) c t (fun th => { th with pc := a })

theorem branchBody_good {base link : Option Nat} {target : Thread → Word} (hp : addrPoison (getThread s c t) base.toList = [])
    (ht : targetChecks (target (getThread s c t)) = []) :
    branchBody c t base link target s = .done (branched c t link (target (getThread s c t)) s) := by
  cases link <;> simp [branchBody, hp, ht, branched]

theorem branchBody_bad {base link : Option Nat} {target : Thread → Word} (hp : addrPoison (getThread s c t) base.toList = [])
    (ht : targetChecks (target (getThread s c t)) ≠ []) :
    branchBody c t base link target s = .raise (targetChecks (target (getThread s c t))) := by
  simp only [branchBody, hp]

/-- The registers after a branch. -/
def linked (link : Option Nat) (th : Thread) : Regs :=
  match link with
  | some gd => th.regs.gSet gd ⟨th.pc + 8, false⟩
  | none => th.regs

theorem threadOnly_branched (s : State) (c t : Nat) (link : Option Nat) (a : Word) :
    ThreadOnly c t link { getThread s c t with pc := a, regs := linked link (getThread s c t) } s (finished c t (branched c t link a s)) := by
  cases link with
  | none => exact threadOnly_updThread s c t (fun th => { th with pc := a })
  | some gd =>
    refine threadOnly_finished ?_ (fun u hu => ?_) ?_ (fun d hd => ?_) rfl
    · rw [branched, getThread_updThread_same, getThread_writeG_same]; rfl
    · rw [branched, getThread_updThread_thread _ _ _ hu, getThread_writeG_other _ _ _ _ hu]
    · rw [branched, getCore_updThread_same, getCore_writeG_same]
    · rw [branched, getCore_updThread_other _ _ _ hd, getCore_updCore_other _ _ hd]

/-- What a branch row does for each target. -/
def BranchRow (i : Nat → Nat → Word → Instr) (m : Mn) (uses : Word → Uses) (link : Word → Option Nat) (target : Thread → Word → Word) : Prop :=
  ∀ c t w s, Issues m c t w s → Ready c t (uses w) s →
    ((target (getThread s c t) w).extractLsb' 56 8 = 0 → (target (getThread s c t) w).toNat % 8 = 0 → Runs (i c t w) s
      (ThreadOnly c t (link w)
        { getThread s c t with pc := target (getThread s c t) w, regs := linked (link w) (getThread s c t) } s)) ∧
    ((target (getThread s c t) w).toNat % 8 ≠ 0 →
      exec (i c t w) s = .next (trapped c t ⟨0x03, 0x02, target (getThread s c t) w⟩ s)) ∧
    ((target (getThread s c t) w).extractLsb' 56 8 ≠ 0 → (target (getThread s c t) w).toNat % 8 = 0 →
      exec (i c t w) s = .next (trapped c t ⟨0x05, 0x01, target (getThread s c t) w⟩ s))

theorem branchRow {row : Nat → Nat → Word → Instr} {uses : Word → Uses} {base link : Word → Option Nat} {target : Thread → Word → Word}
    (hrow : ∀ c t w s, exec (row c t w) s =
      issue m { uses := uses w, body := branchBody c t (base w) (link w) (fun th => target th w) } c t w s)
    (hbase : ∀ w, ∀ n ∈ (base w).toList, n ∈ (uses w).gIn) : BranchRow row m uses link target := by
  intro c t w s hi hr
  have hp : addrPoison (getThread s c t) (base w).toList = [] :=
    addrPoison_eq_nil (fun n hn => gGet_clean_of_poison_nil hr.clean (hbase w n hn))
  specialize hrow c t w s
  generalize hf : ({ uses := uses w, body := branchBody c t (base w) (link w) (fun th => target th w) } : Form) = f at hrow
  have hfree : Free f c t s := hf ▸ .of_ready hr
  have hbody : f.body s = branchBody c t (base w) (link w) (fun th => target th w) s := hf ▸ rfl
  refine ⟨fun ht ha => ⟨_, hrow.trans (issue_finished hi hfree (hbody.trans (branchBody_good hp (targetChecks_good ?_ ha)))),
    threadOnly_branched s c t _ _⟩, fun ha => ?_, fun ht ha => ?_⟩
  · exact (tag_eq_zero _).2 ht
  · obtain ⟨hne, hx⟩ := targetChecks_misaligned ha
    exact hrow.trans (issue_raised hi hfree (hbody.trans (branchBody_bad hp hne)) hx)
  · obtain ⟨hne, hx⟩ := targetChecks_space (mt (tag_eq_zero _).1 ht) ha
    exact hrow.trans (issue_raised hi hfree (hbody.trans (branchBody_bad hp hne)) hx)

/-- Settles O11: the four rows are one branch with their base, link and target. -/
theorem branchRowsSetThePc : Obligations.BranchRowsSetThePc := by
  unfold Obligations.BranchRowsSetThePc
  intro rel reg row
  have hrow : ∀ {i m uses target} (link : Bool), BranchRow i m uses (fun w => if link then some (wGd w) else none) target →
      row i m uses link target := by
    intro i m uses target link h
    cases link <;> exact h
  have hrel : rel = fun th w => relTarget w th := by funext th w; simp only [relTarget, immS_eq]; rfl
  have hreg : reg = fun th w => regTarget w th := by funext th w; simp only [regTarget, immS_eq]; rfl
  clear_value row rel reg
  subst hrel hreg
  refine ⟨hrow _ (branchRow (base := fun _ => none) ?_ ?_), hrow _ (branchRow (base := fun _ => none) ?_ ?_),
    hrow _ (branchRow (base := fun w => some (wGa w)) ?_ ?_), hrow _ (branchRow (base := fun w => some (wGa w)) ?_ ?_)⟩
  case refine_1 | refine_3 | refine_5 | refine_7 => exact fun _ _ _ _ => rfl
  case refine_2 | refine_4 => simp
  case refine_6 | refine_8 => simp [readsA]

end Sys2Proof.Machine
end

section
/-!
PROOFS. Entry to keeper mode and return from it (02 R94–R96).
-/

namespace Sys2Proof.Machine

variable {m : Mn} {c t : Nat} {w : Word} {s : State} {x : Exc} {e : Word}

/-! ## Entry to keeper mode -/

@[simp] theorem getCore_interrupt (s : State) (i : ClusterInt) (c : Nat) : getCore (interrupt s i) c = getCore s c := rfl

/-- A double fault: the thread is FAULTED, the recorder and the resilience agent are told. -/
theorem enterKeeper_faulted (h : (getThread s c t).st.xact = true) (x : Exc) (e : Word) : enterKeeper s c t x e =
    interrupt (sendEvent (updThread s c t (fun th => { th with st := { th.st with state := .faulted }, wait := .none, walk := none }))
      { sev := 3, code := 0x0001, source := srcCore c, arg0 := t * 2 ^ 16 + x.code * 2 ^ 8 + x.sub,
        arg1 := (getThread s c t).k.xpc.toNat }) (.doubleFault c t) := if_pos h

/-- The thread after an entry at which it was not WAITING. -/
def entered (kvec : Word) (t : Nat) (x : Exc) (e : Word) (th : Thread) : Thread :=
  { th with
    pc := kvec + word (x.code * 0x40)
    k := { th.k with xpc := e, xstat := tstatWord t th, xinfo := x.info }
    st := { th.st with xcode := BitVec.ofNat 8 x.code, xsub := BitVec.ofNat 8 x.sub, pm := true, xact := true }
    wait := .none
    walk := none }

theorem getThread_enterKeeper_faulted (h : (getThread s c t).st.xact = true) (x : Exc) (e : Word) :
    getThread (enterKeeper s c t x e) c t =
      { getThread s c t with st := { (getThread s c t).st with state := .faulted }, wait := .none, walk := none } := by
  rw [enterKeeper_faulted h]
  exact (getThread_sendEvent _ _ c t).trans (getThread_updThread_same s c t _)

/-- The thread after any entry that is no double fault: a WAITING thread leaves its wait. -/
def enteredFrom (s : State) (c t : Nat) (x : Exc) (e : Word) (th : Thread) : Thread :=
  { entered (getCore s c).ctl.kvec t x e th with
    st := { (entered (getCore s c).ctl.kvec t x e th).st with
      state := if th.st.state = .waiting then (if th.step then .halted else if coreHeld s c then .held else .running) else th.st.state }
    step := th.step && th.st.state != .waiting
    fenceHeld := th.fenceHeld || (th.st.state == .waiting && coreHeld s c && !th.step) }

theorem enteredFrom_of_not_waiting {th : Thread} (h : th.st.state ≠ .waiting) (s : State) (c t : Nat) (x : Exc) (e : Word) :
    enteredFrom s c t x e th = entered (getCore s c).ctl.kvec t x e th := by
  have hb : (th.st.state == .waiting) = false := beq_false_of_ne h
  simp [enteredFrom, entered, h, hb, bne]

/-- An entry counts one more keeper entry over the loads of its thread in flight. -/
def orphaned (t : Nat) (q : Req) : Req := if q.thread == t then { q with orphan := q.orphan + 1 } else q

theorem enterKeeper_clear (h : (getThread s c t).st.xact = false) (x : Exc) (e : Word) : enterKeeper s c t x e =
    setCore s c { (getCore s c).setThread t (enteredFrom s c t x e (getThread s c t)) with
      reqs := (getCore s c).reqs.map (orphaned t) } := if_neg (by rw [← getThread, h]; decide)

theorem getThread_enterKeeper_clear (h : (getThread s c t).st.xact = false) (hw : (getThread s c t).st.state ≠ .waiting) (x : Exc) (e : Word) :
    getThread (enterKeeper s c t x e) c t = entered (getCore s c).ctl.kvec t x e (getThread s c t) := by
  rw [enterKeeper_clear h, ← enteredFrom_of_not_waiting hw, getThread, getCore_setCore_same]
  exact thread_setThread_same (getCore s c) t _

/-- An entry that is no double fault touches the list of cores alone. -/
theorem enterKeeper_rest (h : (getThread s c t).st.xact = false) (x : Exc) (e : Word) :
    enterKeeper s c t x e = { s with cores := (enterKeeper s c t x e).cores } := by
  rw [enterKeeper_clear h]
  rfl

theorem getThread_enterKeeper_other (s : State) (c : Nat) {t u : Nat} (x : Exc) (e : Word) (hu : u ≠ t) :
    getThread (enterKeeper s c t x e) c u = getThread s c u := by
  cases h : (getThread s c t).st.xact
  · rw [enterKeeper_clear h, getThread, getCore_setCore_same]
    exact thread_setThread_other (getCore s c) _ hu
  · rw [enterKeeper_faulted h]
    exact (getThread_sendEvent _ _ c u).trans (getThread_updThread_thread s c _ hu)

theorem getCore_enterKeeper_other (s : State) {c d : Nat} (t : Nat) (x : Exc) (e : Word) (hd : d ≠ c) :
    getCore (enterKeeper s c t x e) d = getCore s d := by
  cases h : (getThread s c t).st.xact
  · rw [enterKeeper_clear h]
    exact getCore_setCore_other s _ hd
  · rw [enterKeeper_faulted h]
    exact (getCore_sendEvent _ _ d).trans (getCore_updThread_other s t _ hd)

/-- Of the core, an entry changes its threads' records and the loads in flight of the thread. -/
theorem getCore_enterKeeper_same (s : State) (c t : Nat) (x : Exc) (e : Word) : getCore (enterKeeper s c t x e) c =
    { getCore s c with
      threads := (getCore (enterKeeper s c t x e) c).threads
      reqs := if (getThread s c t).st.xact then (getCore s c).reqs else (getCore s c).reqs.map (orphaned t) } := by
  cases h : (getThread s c t).st.xact
  · rw [enterKeeper_clear h, getCore_setCore_same, if_neg (by decide)]
    rfl
  · rw [enterKeeper_faulted h, if_pos rfl, getCore_interrupt, getCore_sendEvent]
    exact getCore_updThread_same s c t _

theorem enterKeeper_bulk (s : State) (c t : Nat) (x : Exc) (e : Word) : (enterKeeper s c t x e).bulk = s.bulk := by
  cases h : (getThread s c t).st.xact
  · rw [enterKeeper_rest h]
  · rw [enterKeeper_faulted h]
    exact sendEvent_bulk _ _

theorem orphaned_id (t : Nat) (q : Req) : (orphaned t q).id = q.id := by unfold orphaned; split <;> rfl

/-- The exception of a RUNNING thread, as 02 R94 states it. -/
theorem takeExc_spec (s : State) (c t : Nat) (x : Exc) (hr : (getThread s c t).st.state = .running) :
    ((getThread s c t).st.xact = false →
      getThread (takeExc s c t x) c t = entered (getCore s c).ctl.kvec t x (getThread s c t).pc (getThread s c t) ∧
      (getCore (takeExc s c t x) c).reqs.map (·.id) = (getCore s c).reqs.map (·.id) ∧
      takeExc s c t x = { s with cores := (takeExc s c t x).cores }) ∧
    ((getThread s c t).st.xact = true → getThread (takeExc s c t x) c t =
      { getThread s c t with st := { (getThread s c t).st with state := .faulted }, wait := .none, walk := none }) ∧
    (∀ u, u ≠ t → getThread (takeExc s c t x) c u = getThread s c u) ∧ (∀ d, d ≠ c → getCore (takeExc s c t x) d = getCore s d) ∧
    (getCore (takeExc s c t x) c).mem = (getCore s c).mem ∧ (takeExc s c t x).bulk = s.bulk := by
  unfold takeExc
  refine ⟨fun h => ⟨getThread_enterKeeper_clear h (by simp [hr]) _ _, ?_, enterKeeper_rest h _ _⟩,
    fun h => getThread_enterKeeper_faulted h _ _, fun u hu => getThread_enterKeeper_other s c _ _ hu,
    fun d hd => getCore_enterKeeper_other s t _ _ hd, ?_, enterKeeper_bulk s c t _ _⟩
  · rw [getCore_enterKeeper_same, h, if_neg (by decide), List.map_map]
    exact List.map_congr_left (fun q _ => orphaned_id t q)
  · rw [getCore_enterKeeper_same]

/-! ## The end of an instruction, without its counters -/

theorem getThread_finished_same (s : State) (c t : Nat) : getThread (finished c t s) c t = stepped (getThread s c t) := by
  rw [finished, stepEnd_thread, getThread_updCore_same]; rfl

theorem getThread_finished_other (s : State) (c : Nat) {t u : Nat} (h : u ≠ t) : getThread (finished c t s) c u = getThread s c u := by
  rw [finished, stepEnd_threads _ _ h, getThread_updCore_same]; rfl

theorem getCore_finished_other (s : State) {c d : Nat} (t : Nat) (h : d ≠ c) : getCore (finished c t s) d = getCore s d := by
  rw [finished, stepEnd_cores _ _ h, getCore_updCore_other _ _ h]

theorem getCore_finished_same (s : State) (c t : Nat) :
    getCore (finished c t s) c = { (getCore s c).noteIssue t with threads := (getCore (finished c t s) c).threads } := by
  rw [finished, stepEnd_core, getCore_updCore_same]

theorem finished_rest (s : State) (c t : Nat) : finished c t s = { s with cores := (finished c t s).cores } := by
  rw [finished, stepEnd_rest, updCore_rest]

@[simp] theorem finished_bulk (s : State) (c t : Nat) : (finished c t s).bulk = s.bulk := by rw [finished_rest]
@[simp] theorem finished_recorder (s : State) (c t : Nat) : (finished c t s).recorder = s.recorder := by rw [finished_rest]
@[simp] theorem finished_ints (s : State) (c t : Nat) : (finished c t s).ints = s.ints := by rw [finished_rest]

theorem finished_mem (s : State) (c t : Nat) : (getCore (finished c t s) c).mem = (getCore s c).mem := by
  rw [getCore_finished_same]; rfl

theorem stepped_of_not_running {th : Thread} (h : th.st.state ≠ .running) : stepped th = th := by
  rw [stepped, beq_false_of_ne h, Bool.and_false]; rfl

/-! ## KCALL -/

theorem inJob_eq (s : State) (c t : Nat) : inJob s c t = !(getThread s c t).st.pm := rfl

/-- The state in which a KCALL of job mode enters keeper mode. -/
def kcalled (c t : Nat) (w : Word) (s : State) : State :=
  enterKeeper (drawFree s).2 c t ⟨0x00, field w 7 0, word (drawFree s).1⟩ ((getThread s c t).pc + 8)

theorem kcall_finished (hi : Issues .kcall c t w s) (hj : (getThread s c t).st.pm = false) :
    exec (.kcall c t w) s = .next (finished c t (kcalled c t w s)) := by
  have hjob : inJob s c t = true := by rw [inJob_eq, hj]; rfl
  refine issue_finished hi ⟨rfl, if_pos hjob, rfl⟩ ?_
  simp only [kcallBody, hjob]
  rfl

theorem kcall_of_keeper (hi : Issues .kcall c t w s) (hj : (getThread s c t).st.pm = true) :
    exec (.kcall c t w) s = .next (trapped c t ⟨0x01, 0x06, w⟩ s) := by
  have hjob : inJob s c t = false := by rw [inJob_eq, hj]; rfl
  exact issue_illegal hi rfl (if_neg (by simp [hjob])) rfl

theorem sendEvent_intake {e : Event} (h : s.recorder.intake.length < 64) :
    (sendEvent s e).recorder.intake = s.recorder.intake ++ [e] := by
  rw [sendEvent, if_pos h]

theorem sendEvent_ints (s : State) (e : Event) : (sendEvent s e).ints = s.ints := by
  unfold sendEvent; split <;> rfl

theorem kcalled_clear (hi : Issues .kcall c t w s) (hx : (getThread s c t).st.xact = false) : getThread (kcalled c t w s) c t =
    entered (getCore s c).ctl.kvec t ⟨0x00, field w 7 0, word (drawFree s).1⟩ ((getThread s c t).pc + 8) (getThread s c t) :=
  getThread_enterKeeper_clear (s := (drawFree s).2) hx (by simp [show getThread (drawFree s).2 c t = getThread s c t from rfl, hi.running]) _ _

/-- Settles O16, from the one entry to keeper mode. -/
theorem kcallAndExceptionsEnterKeeperMode : Obligations.KcallAndExceptionsEnterKeeperMode := by
  refine ⟨fun c t w s hi => ⟨fun hj hx => ⟨_, kcall_finished hi hj, word (drawFree s).1, ?_, ?_, ?_, ?_, ?_, ?_, ?_⟩,
    fun hj hx hl => ⟨_, kcall_finished hi hj, ?_, ?_, ?_, ?_, ?_⟩, kcall_of_keeper hi⟩, fun s c t x hr => takeExc_spec s c t x hr⟩
  · rw [getThread_finished_same, kcalled_clear hi hx, entered, hi.noWalk]
    simp [word]
  · exact fun u hu => (getThread_finished_other _ _ hu).trans (getThread_enterKeeper_other _ c _ _ hu)
  · exact fun d hd => (getCore_finished_other _ _ hd).trans (getCore_enterKeeper_other _ t _ _ hd)
  · rw [finished_mem, kcalled, getCore_enterKeeper_same]; rfl
  · rw [finished_bulk]; exact enterKeeper_bulk _ c t _ _
  · rw [finished_recorder, kcalled, enterKeeper_rest (s := (drawFree s).2) hx]; rfl
  · rw [finished_ints, kcalled, enterKeeper_rest (s := (drawFree s).2) hx]; rfl
  · have hk : getThread (kcalled c t w s) c t = _ := getThread_enterKeeper_faulted (s := (drawFree s).2) hx _ _
    rw [getThread_finished_same, hk, stepped_of_not_running (by simp)]
    simp [show getThread (drawFree s).2 c t = getThread s c t from rfl, hi.noWalk]
  · exact fun u hu => (getThread_finished_other _ _ hu).trans (getThread_enterKeeper_other _ c _ _ hu)
  · exact fun d hd => (getCore_finished_other _ _ hd).trans (getCore_enterKeeper_other _ t _ _ hd)
  · rw [finished_recorder, kcalled, enterKeeper_faulted (s := (drawFree s).2) hx]
    refine (sendEvent_intake (s := updThread (drawFree s).2 c t _) hl).trans ?_
    rw [Nat.zero_mul, Nat.add_zero]
    rfl
  · rw [finished_ints, kcalled, enterKeeper_faulted (s := (drawFree s).2) hx]
    exact congrArg (· ++ _) (sendEvent_ints _ _)

/-! ## XRET -/

/-- A return counts one keeper entry less over the loads of its thread in flight. -/
def returned (t : Nat) (q : Req) : Req := if q.thread = t then { q with orphan := q.orphan - 1 } else q

theorem xret_body_good (hm : (getThread s c t).k.xpc.toNat % 8 = 0) (ht : field (getThread s c t).k.xpc 63 56 = 0) :
    xretBody c t s = .done (returnKeeper s c t) := by
  simp [xretBody, hm, ht]

theorem xret_body_bad {xs : List Cand} (hne : xs ≠ [])
    (h : when? ((getThread s c t).k.xpc.toNat % 8 != 0) 0x03 0x02 (getThread s c t).k.xpc ++
      when? (field (getThread s c t).k.xpc 63 56 != 0) 0x05 0x01 (getThread s c t).k.xpc = xs) : xretBody c t s = .raise xs := by
  simp only [xretBody, h]

theorem keeperOnly_of_keeper (h : (getThread s c t).st.pm = true) : keeperOnly s c t = none := by
  simp [keeperOnly, inJob_eq, h]

theorem getCore_returnKeeper_same (s : State) (c t : Nat) : getCore (returnKeeper s c t) c =
    { getCore s c with
      threads := (getCore (returnKeeper s c t) c).threads
      reqs := (getCore s c).reqs.map (returned t) } := by
  rw [returnKeeper, getCore_updCore_same, getCore_updThread_same]
  simp [returned]

/-- Settles O17: XPC passes its checks or XRET traps at itself. -/
theorem xretReturnsFromKeeperMode : Obligations.XretReturnsFromKeeperMode := by
  intro c t w s hi hk
  have hf : Free { priv := keeperOnly s c t, body := xretBody c t } c t s := ⟨rfl, rfl, keeperOnly_of_keeper hk⟩
  dsimp only
  refine ⟨fun hm ht => ⟨_, issue_finished hi hf (xret_body_good hm ((tag_eq_zero _).2 ht)), ?_, ?_, ?_, ?_, ?_⟩, fun hm => ?_, fun hm ht => ?_⟩
  · rw [getThread_finished_same, returnKeeper, getThread_updCore_same]
    exact congrArg stepped (getThread_updThread_same s c t _)
  · intro u hu
    rw [getThread_finished_other _ _ hu, returnKeeper, getThread_updCore_same]
    exact getThread_updThread_thread s c _ hu
  · exact fun d hd => (getCore_finished_other _ _ hd).trans
      ((getCore_updCore_other _ _ hd).trans (getCore_updThread_other s t _ hd))
  · rw [getCore_finished_same, getCore_returnKeeper_same]
    rfl
  · rw [finished_rest]
    rfl
  · have hb : ((getThread s c t).k.xpc.toNat % 8 != 0) = true := bne_iff_ne.2 hm
    cases ht : field (getThread s c t).k.xpc 63 56 != 0
    · exact issue_raised hi hf (xret_body_bad (xs := [cand 0x03 0x02 _]) (by simp) (by rw [hb, ht]; rfl)) rfl
    · exact issue_raised hi hf (xret_body_bad (xs := [cand 0x03 0x02 _, cand 0x05 0x01 _]) (by simp) (by rw [hb, ht]; rfl)) rfl
  · have hb : ((getThread s c t).k.xpc.toNat % 8 != 0) = false := by simp [hm]
    have ht' : (field (getThread s c t).k.xpc 63 56 != 0) = true := bne_iff_ne.2 (mt (tag_eq_zero _).1 ht)
    exact issue_raised hi hf (xret_body_bad (xs := [cand 0x05 0x01 _]) (by simp) (by rw [hb, ht']; rfl)) rfl

end Sys2Proof.Machine
end

section
/-!
PROOFS. Control registers: the layout of their words, RDCR and WRCR (02 R62–R66, R87, R88).
-/

namespace Sys2Proof.Machine

variable {c t : Nat} {w : Word} {s : State}

/-! ## Words of a stated layout -/

theorem field_word {n : Nat} (h : n < 2 ^ 64) (hi lo : Nat) : field (word n) hi lo = n / 2 ^ lo % 2 ^ (hi + 1 - lo) := by
  rw [field, word, BitVec.toNat_ofNat, Nat.mod_eq_of_lt h, fieldN, Nat.shiftRight_eq_div_pow]

theorem bitOf_word {n : Nat} (h : n < 2 ^ 64) (i : Nat) : bitOf (word n) i = (n / 2 ^ i % 2 == 1) := by
  rw [bitOf_eq_field, field_word h, Nat.add_sub_cancel_left, pow_one]

theorem boolN_lt (b : Bool) : boolN b < 2 := by cases b <;> decide

theorem boolN_beq_one (b : Bool) : (boolN b == 1) = b := by cases b <;> rfl

theorem codeN_lt (x : TState) : x.codeN < 6 := by cases x <;> decide

theorem tstatWord_fields (t : Nat) (th : Thread) (ht : t < 16) :
    let v := tstatWord t th
    field v 63 48 = 0 ∧ field v 47 40 = th.st.xsub.toNat ∧ field v 39 32 = th.st.xcode.toNat ∧ field v 31 29 = 0 ∧
    field v 28 24 = th.st.flags.toNat ∧ field v 23 20 = t ∧ field v 19 16 = th.st.state.codeN ∧ bitOf v 15 = th.st.pm ∧
    bitOf v 14 = th.st.xact ∧ bitOf v 13 = th.deferred.isSome ∧ field v 12 6 = 0 ∧ bitOf v 5 = th.st.teIdz ∧
    field v 4 0 = th.st.te.toNat := by
  have hsub := th.st.xsub.isLt
  have hcode := th.st.xcode.isLt
  have hfl := th.st.flags.isLt
  have hte := th.st.te.isLt
  have hst := codeN_lt th.st.state
  have hpm := boolN_lt th.st.pm
  have hxa := boolN_lt th.st.xact
  have hdf := boolN_lt th.deferred.isSome
  have hiz := boolN_lt th.st.teIdz
  intro v
  have hb {x : Nat} (b : Bool) (h : x = boolN b) : (x == 1) = b := by rw [h, boolN_beq_one]
  unfold v tstatWord
  rw [Nat.mod_eq_of_lt ht]
  generalize th.st.xsub.toNat = x1 at *
  generalize th.st.xcode.toNat = x2 at *
  generalize th.st.flags.toNat = x3 at *
  generalize th.st.te.toNat = x4 at *
  generalize th.st.state.codeN = x5 at *
  have hlt : x1 * 2 ^ 40 + x2 * 2 ^ 32 + x3 * 2 ^ 24 + t * 2 ^ 20 + x5 * 2 ^ 16 + boolN th.st.pm * 2 ^ 15 + boolN th.st.xact * 2 ^ 14
    + boolN th.deferred.isSome * 2 ^ 13 + boolN th.st.teIdz * 2 ^ 5 + x4 < 2 ^ 64 := by omega
  simp only [field_word hlt, bitOf_word hlt]
  refine ⟨?_, ?_, ?_, ?_, ?_, ?_, ?_, hb _ ?_, hb _ ?_, hb _ ?_, ?_, hb _ ?_, ?_⟩ <;> omega

theorem twinWord_fields (th : Thread) : field (twinWord th) 63 11 = 0 ∧ field (twinWord th) 10 5 = th.twCount.toNat ∧
    field (twinWord th) 4 0 = th.twBase.toNat := by
  have hn := th.twCount.isLt
  have hb := th.twBase.isLt
  unfold twinWord
  have hlt : th.twCount.toNat * 32 + th.twBase.toNat < 2 ^ 64 := by omega
  simp only [field_word hlt]
  refine ⟨?_, ?_, ?_⟩ <;> omega

theorem dieOf_lt (g : Grid) (c : Nat) : dieOf g c < 4 := by
  unfold dieOf
  split <;> split <;> decide

theorem coreIdWord_fields (s : State) (c : Nat) (hr : rowOf c < 64) :
    let v := coreIdWord s c
    field v 63 32 = 0 ∧ field v 31 30 = dieOf s.grid c ∧ field v 29 24 = rowOf c ∧ field v 23 18 = colOf c ∧
    bitOf v 17 = (c % 2 == 1) ∧ bitOf v 16 = yokeBroken s c ∧ field v 15 0 = 0 := by
  have hd := dieOf_lt s.grid c
  have hc : colOf c < 48 := Nat.mod_lt _ (by decide)
  have he : c % 2 < 2 := Nat.mod_lt _ (by decide)
  have hy := boolN_lt (yokeBroken s c)
  intro v
  have hb {x : Nat} (b : Bool) (h : x = boolN b) : (x == 1) = b := by rw [h, boolN_beq_one]
  unfold v coreIdWord
  generalize dieOf s.grid c = x1 at *
  generalize rowOf c = x2 at *
  generalize colOf c = x3 at *
  generalize c % 2 = x4 at *
  have hlt : x1 * 2 ^ 30 + x2 * 2 ^ 24 + x3 * 2 ^ 18 + x4 * 2 ^ 17 + boolN (yokeBroken s c) * 2 ^ 16 < 2 ^ 64 := by omega
  simp only [field_word hlt, bitOf_word hlt]
  refine ⟨?_, ?_, ?_, ?_, congrArg (· == 1) ?_, hb _ ?_, ?_⟩ <;> omega

/-- The number whose 4-bit digits are f 0, f 1, … -/
def digits (f : Nat → Nat) (n : Nat) : Nat := (List.range n).foldl (fun a t => a + f t * 2 ^ (4 * t)) 0

theorem digits_succ (f : Nat → Nat) (n : Nat) : digits f (n + 1) = digits f n + f n * 2 ^ (4 * n) := by
  rw [digits, List.range_succ, List.foldl_append]; rfl

theorem digits_lt {f : Nat → Nat} (hf : ∀ t, f t < 16) (n : Nat) : digits f n < 2 ^ (4 * n) := by
  induction n with
  | zero => simp [digits]
  | succ n ih =>
    rw [digits_succ, Nat.mul_succ, pow_add]
    have := Nat.mul_le_mul_right (2 ^ (4 * n)) (Nat.le_sub_one_of_lt (hf n))
    omega

theorem digits_digit {f : Nat → Nat} (hf : ∀ t, f t < 16) {n t : Nat} (ht : t < n) : digits f n / 2 ^ (4 * t) % 16 = f t := by
  induction n with
  | zero => omega
  | succ n ih =>
    rw [digits_succ]
    rcases Nat.lt_succ_iff_lt_or_eq.1 ht with h | rfl
    · obtain ⟨k, rfl⟩ := Nat.exists_eq_add_of_lt h
      have hp : f (t + k + 1) * 2 ^ (4 * (t + k + 1)) = 2 ^ (4 * t) * (16 * (f (t + k + 1) * 2 ^ (4 * k))) := by
        rw [show 4 * (t + k + 1) = 4 * t + 4 * k + 4 by omega, pow_add, pow_add]; ring
      rw [hp, Nat.add_mul_div_left _ _ (by positivity), Nat.add_mul_mod_self_left, ih h]
    · rw [Nat.add_mul_div_right _ _ (by positivity), Nat.div_eq_of_lt (digits_lt hf t), Nat.zero_add, Nat.mod_eq_of_lt (hf t)]

theorem thrStateWord_field (k : Core) (t : Nat) (ht : t < 16) :
    field (thrStateWord k) (4 * t + 3) (4 * t) = (k.thread t).st.state.codeN := by
  have hf (t : Nat) : (k.thread t).st.state.codeN < 16 := (codeN_lt _).trans (by decide)
  have hd : thrStateWord k = word (digits (fun t => (k.thread t).st.state.codeN) 16) := rfl
  rw [hd, field_word (digits_lt hf 16), show 4 * t + 3 + 1 - 4 * t = 4 by omega]
  exact digits_digit hf ht

/-! ## RDCR -/

/-- What RDCR reads, by the number of the register. -/
def crRead (s : State) (c t n : Nat) : Word × State := if crCore n then coreReg s c n else (threadReg s c t n, s)

theorem rdcr_finished (hi : Issues .rdcr c t w s) (hr : Ready c t (readsNone w) s)
    (hp : (getThread s c t).st.pm = true ∨ field w 11 0 < 0x10) : exec (.rdcr c t w) s =
    .next (completed c t (updCore (crRead s c t (wCr w)).2 c (fun k => k.writeG t (wGd w) (crRead s c t (wCr w)).1))) := by
  refine issue_finished hi ⟨hr.free, rfl, if_neg ?_⟩ rfl
  rcases hp with hp | hp
  · simp [inJob_eq, hp]
  · simp [crKeeperRead, wCr, show ¬ 16 ≤ field w 11 0 by omega]

/-- A read that leaves the state as it is. -/
theorem rdcr_gives (hi : Issues .rdcr c t w s) (hr : Ready c t (readsNone w) s)
    (hp : (getThread s c t).st.pm = true ∨ field w 11 0 < 0x10) (n : Nat) {v : Word} (hv : crRead s c t n = (v, s)) (hn : field w 11 0 = n) :
    Runs (.rdcr c t w) s (ThreadOnly c t (some (wGd w)) (wroteG (getThread s c t) (wGd w) v) s) := by
  refine ⟨_, rdcr_finished hi hr hp, ?_⟩
  rw [wCr, hn, hv]
  exact threadOnly_writeG s c t _ _

theorem getThread_readCycle (s : State) (c u : Nat) : getThread (readCycle s c).2 c u = getThread s c u := by
  rw [readCycle, getThread_updCore_same]; rfl

theorem getCore_readCycle_other (s : State) {c d : Nat} (h : d ≠ c) : getCore (readCycle s c).2 d = getCore s d := by
  rw [readCycle, getCore_updCore_other _ _ h]; rfl

theorem getCore_readCycle_mem (s : State) (c : Nat) : (getCore (readCycle s c).2 c).mem = (getCore s c).mem := by
  rw [readCycle, getCore_updCore_same]; rfl

theorem getThread_completed_same (s : State) (c t : Nat) :
    getThread (completed c t s) c t = stepped { getThread s c t with pc := (getThread s c t).pc + 8 } := by
  rw [completed, getThread_finished_same, getThread_advance_same]

theorem getThread_completed_other (s : State) (c : Nat) {t u : Nat} (h : u ≠ t) : getThread (completed c t s) c u = getThread s c u := by
  rw [completed, getThread_finished_other _ _ h, getThread_advance_other _ _ h]

theorem getCore_completed_other (s : State) {c d : Nat} (t : Nat) (h : d ≠ c) : getCore (completed c t s) d = getCore s d := by
  rw [completed, getCore_finished_other _ _ h, getCore_advance_other _ _ h]

theorem completed_mem (s : State) (c t : Nat) : (getCore (completed c t s) c).mem = (getCore s c).mem := by
  rw [completed, finished_mem, getCore_advance_same]

theorem completed_rest (s : State) (c t : Nat) : completed c t s = { s with cores := (completed c t s).cores } := by
  rw [completed, finished_rest, advance_rest]

/-- A read of CYCLE moves the counter on by a free number first. -/
theorem rdcr_cycle (hi : Issues .rdcr c t w s) (hr : Ready c t (readsNone w) s)
    (hp : (getThread s c t).st.pm = true ∨ field w 11 0 < 0x10) (hn : field w 11 0 = 0x003) : Runs (.rdcr c t w) s (fun s' =>
      ∃ n : Nat, getThread s' c t = stepped (wroteG (getThread s c t) (wGd w) ((getCore s c).ctl.cycle + word n)) ∧
        (∀ d, d ≠ c → getCore s' d = getCore s d) ∧ (getCore s' c).mem = (getCore s c).mem) := by
  have hv : crRead s c t (wCr w) = readCycle s c := by rw [wCr, hn]; rfl
  refine ⟨_, rdcr_finished hi hr hp, Config.idleCycles s.draws, ?_, fun d hd => ?_, ?_⟩
  · rw [hv, getThread_completed_same, getThread_writeG_same, getThread_readCycle]; rfl
  · rw [hv, getCore_completed_other _ _ hd, getCore_updCore_other _ _ hd, getCore_readCycle_other _ hd]
  · rw [hv, completed_mem, getCore_writeG_same]
    exact getCore_readCycle_mem s c

/-- Settles O13: the layouts field by field, then one read for each register number. -/
theorem rdcrReadsRegistersOfTheStatedLayout : Obligations.RdcrReadsRegistersOfTheStatedLayout := by
  refine ⟨⟨tstatWord_fields, twinWord_fields, coreIdWord_fields, thrStateWord_field⟩, fun c t w s hi hr hp => ?_⟩
  have gives := @rdcr_gives c t w s hi hr hp
  have htwin : crRead s c t 0x001 = (twinWord (getThread s c t), s) := by
    rw [← congrArg (fun s' => twinWord (getThread s' c t)) (settleTwin_none hi.noTwin)]; rfl
  exact ⟨gives 0x000 rfl, gives 0x001 htwin, gives 0x002 rfl, gives 0x004 rfl, gives 0x010 rfl, gives 0x011 rfl, gives 0x012 rfl,
    gives 0x013 rfl, gives 0x014 rfl, gives 0x015 rfl, gives 0x016 rfl, gives 0x020 rfl, gives 0x021 rfl, gives 0x022 rfl,
    gives 0x023 rfl, gives 0x024 rfl, rdcr_cycle hi hr hp⟩

/-! ## WRCR -/

theorem xstatWrite_getLsbD (old v : Word) {i : Nat} (hi : i < 64) : (xstatWrite old v).getLsbD i =
    if i < 6 ∨ i = 14 ∨ (24 ≤ i ∧ i ≤ 28) then v.getLsbD i else old.getLsbD i := by
  unfold xstatWrite
  rw [getLsbD_setField _ _ (by decide) hi, getLsbD_setField _ _ (by decide) hi, getLsbD_setField _ _ (by decide) hi]
  have hf {hi' lo : Nat} (h : lo ≤ i ∧ i ≤ hi') : (field v hi' lo).testBit (i - lo) = v.getLsbD i := by
    rw [field, testBit_fieldN, decide_eq_true (by omega), Bool.true_and, Nat.add_sub_cancel' h.1, BitVec.getLsbD]
  by_cases h5 : 0 ≤ i ∧ i ≤ 5
  · rw [if_pos h5, if_pos (by omega), hf h5]
  · rw [if_neg h5]
    by_cases h14 : 14 ≤ i ∧ i ≤ 14
    · rw [if_pos h14, if_pos (by omega), hf h14]
    · rw [if_neg h14]
      by_cases h28 : 24 ≤ i ∧ i ≤ 28
      · rw [if_pos h28, if_pos (by omega), hf h28]
      · rw [if_neg h28, if_neg (by omega)]

/-- The frame of a WRCR that its mode allows is passed. -/
theorem wrcrForm_free (hr : Ready c t { gIn := [wGa w] } s) (hp : (getThread s c t).st.pm = true ∨ field w 11 0 = 0) :
    Free (wrcrForm c t w s) c t s := by
  refine ⟨hr.free, rfl, if_neg ?_⟩
  rcases hp with hp | hp
  · simp [inJob_eq, hp]
  · simp [wCr, hp]

theorem wrcrBody_writes (hr : Ready c t { gIn := [wGa w] } s) (hn : field w 11 0 ≠ 1) : wrcrBody c t w s =
    .done (advance (crWrite s c t (field w 11 0) (gVal (getThread s c t) (wGa w))) c t) := by
  have hb : (wCr w == 1) = false := beq_false_of_ne hn
  simp only [wrcrBody, hr.clean, hb, Bool.false_and, when?_false, List.append_nil, List.isEmpty_nil, Bool.not_true]
  exact (if_neg (by decide)).trans (if_neg hn)

theorem wrcr_finished (hi : Issues .wrcr c t w s) (hr : Ready c t { gIn := [wGa w] } s)
    (hp : (getThread s c t).st.pm = true ∨ field w 11 0 = 0) (hn : field w 11 0 ≠ 1) : issue .wrcr (wrcrForm c t w s) c t w s =
    .next (completed c t (crWrite s c t (field w 11 0) (gVal (getThread s c t) (wGa w)))) :=
  issue_finished hi (wrcrForm_free hr hp) (wrcrBody_writes hr hn)

/-- The row of a WRCR, and the row of one register where the word names it, are one instruction. -/
theorem exec_wrcrRow {row : Nat → Nat → Word → Instr} {n : Nat} (hrow : ∀ c t w s, exec (row c t w) s = wrcrRow n c t w s)
    (hn : field w 11 0 = n) {i : Instr} (hi : i ∈ [Instr.wrcr c t w, row c t w]) : exec i s = issue .wrcr (wrcrForm c t w s) c t w s := by
  rcases List.mem_cons.1 hi with rfl | hi
  · rfl
  · rw [List.mem_singleton.1 hi, hrow]
    exact if_neg (by simp [wCr, hn])

theorem twinBody_of_ok (hr : Ready c t { gIn := [wGa w] } s) (hn : field w 11 0 = 1)
    (hv : field (gVal (getThread s c t) (wGa w)) 10 5 + field (gVal (getThread s c t) (wGa w)) 4 0 ≤ 32) :
    wrcrBody c t w s = twinBody c t (gVal (getThread s c t) (wGa w)) s := by
  have hok : twinOk (gVal (getThread s c t) (wGa w)) = true := decide_eq_true hv
  simp only [wrcrBody, hr.clean, hok, Bool.not_true, Bool.and_false, when?_false, List.append_nil, List.isEmpty_nil]
  rw [if_neg (by decide), if_pos (by exact hn)]

theorem twinBody_of_bad (hr : Ready c t { gIn := [wGa w] } s) (hn : field w 11 0 = 1)
    (hv : 32 < field (gVal (getThread s c t) (wGa w)) 10 5 + field (gVal (getThread s c t) (wGa w)) 4 0) :
    wrcrBody c t w s = .raise [cand 0x08 0x02 w] := by
  have hok : twinOk (gVal (getThread s c t) (wGa w)) = false := decide_eq_false (by omega)
  have hb : (wCr w == 1) = true := beq_iff_eq.2 hn
  simp only [wrcrBody, hr.clean, hok, hb, Bool.not_false, Bool.and_self, when?_true, List.nil_append, List.isEmpty_cons]
  rfl

theorem updCore_if {p : Core → Bool} {f : Core → Core} (s : State) (c : Nat) :
    updCore s c (fun k => if p k then f k else k) = updCore s c (if p (getCore s c) then f else id) := by
  refine congrArg (setCore s c) ?_
  cases h : p (getCore s c)
  · exact if_neg (by simp [h])
  · exact if_pos h

/-- Settles O14: the one WRCR by the number of the register it names. -/
theorem wrcrWritesTheNamedRegister : Obligations.WrcrWritesTheNamedRegister := by
  refine ⟨fun old v i => xstatWrite_getLsbD old v, fun c t w s hi hr hp => ?_⟩
  intro th v k sets core
  have hw (n : Nat) (h : field w 11 0 = n) (hn : n ≠ 1) : exec (.wrcr c t w) s = .next (completed c t (crWrite s c t n v)) := by
    have := wrcr_finished hi hr hp (h ▸ hn)
    rwa [h] at this
  have hset (n : Nat) (hn : n ≠ 1) {g : Thread → Thread} (hg : crWrite s c t n v = updThread s c t g) (hpc : (g th).pc = th.pc)
      (h : field w 11 0 = n) : sets (g th) :=
    ⟨_, (hw n h hn).trans (by rw [hg]), hpc ▸ threadOnly_completed_updThread s c t g⟩
  refine ⟨?_, ?_, ?_, ?_, ?_, ?_, ?_, ?_, ?_, ?_, ?_, ?_, fun i hm h => ?_, fun i hm h => ?_, fun i hm h => ?_⟩
  · refine hset 0 (by decide) (g := tstatWrite th.st.pm v) ?_ rfl
    show updThread s c t (tstatWrite (!inJob s c t) v) = _
    rw [inJob_eq, Bool.not_not]
  · exact hset 0x010 (by decide) rfl rfl
  · exact hset 0x011 (by decide) rfl rfl
  · exact hset 0x012 (by decide) rfl rfl
  · exact hset 0x013 (by decide) rfl rfl
  · exact hset 0x014 (by decide) rfl rfl
  · exact hset 0x015 (by decide) rfl rfl
  · exact hset 0x016 (by decide) rfl rfl
  · exact hset 0x023 (by decide) rfl rfl
  · exact fun h => hw 0x022 h (by decide)
  · exact fun h => hw 0x024 h (by decide)
  · intro h
    have hs : crWrite s c t (field w 11 0) v = s := by
      simp only [List.mem_cons, List.not_mem_nil, or_false] at h
      rcases h with h | h | h <;> rw [h] <;> rfl
    have hne : field w 11 0 ≠ 1 := by rintro h1; rw [h1] at h; revert h; decide
    exact ⟨_, (hw _ rfl hne).trans (by rw [hs]; rfl), threadOnly_updThread s c t (fun th => { th with pc := th.pc + 8 })⟩
  · have hex : exec i s = .next (completed c t (klimWrite s c v)) := by
      rw [exec_wrcrRow (row := .klimWrite) (fun _ _ _ _ => rfl) h hm, wrcr_finished hi hr hp (by rw [h]; decide), h]
      rfl
    refine ⟨fun hv => ?_, fun hv => ?_⟩
    · refine hex.trans ?_
      rw [klimWrite, updCore_if, if_pos]
      simpa [klimOk, and_assoc] using hv
    · refine hex.trans ?_
      rw [klimWrite, updCore_if, if_neg]
      simpa [klimOk, and_assoc] using hv
  · have hex : exec i s = .next (completed c t (kvecWrite s c v)) := by
      rw [exec_wrcrRow (row := .kvecWrite) (fun _ _ _ _ => rfl) h hm, wrcr_finished hi hr hp (by rw [h]; decide), h]
      rfl
    refine ⟨fun hv => ?_, fun hv => ?_⟩
    · refine hex.trans ?_
      rw [kvecWrite, updCore_if, if_pos]
      simpa [kvecOk, and_assoc] using hv
    · refine hex.trans ?_
      rw [kvecWrite, updCore_if, if_neg]
      simpa [kvecOk, and_assoc] using hv
  · have hex := exec_wrcrRow (row := .twinWrite) (s := s) (fun _ _ _ _ => rfl) h hm
    have hf := wrcrForm_free hr hp
    refine ⟨fun hv hb => ⟨_, hex.trans (issue_finished hi hf ((twinBody_of_ok hr h hv).trans (if_neg (by simp [k, hb])))), ?_⟩,
      fun hv hb => hex.trans (issue_waits hi hf ((twinBody_of_ok hr h hv).trans (if_pos hb))),
      fun hv => hex.trans (issue_raised hi hf (twinBody_of_bad hr h hv) rfl)⟩
    exact threadOnly_completed_updThread s c t
      (fun th => { th with twCount := BitVec.ofNat 6 (field v 10 5), twBase := BitVec.ofNat 5 (field v 4 0) })

end Sys2Proof.Machine
end

section
/-!
PROOFS. Threads under other hands: THR, stops, the watchdogs, deferred exceptions and the debugger (02 R54, R89–R92, R97, R98, R101; 13 R472).
-/

namespace Sys2Proof.Machine

variable {c t u : Nat} {w : Word} {s : State}

/-! ## THR -/

theorem advance_st (s : State) (c t u : Nat) : (getThread (advance s c t) c u).st = (getThread s c u).st := by
  by_cases h : u = t
  · subst h; rw [getThread_advance_same]
  · rw [getThread_advance_other _ _ h]

theorem advance_regs (s : State) (c t u : Nat) : (getThread (advance s c t) c u).regs = (getThread s c u).regs := by
  by_cases h : u = t
  · subst h; rw [getThread_advance_same]
  · rw [getThread_advance_other _ _ h]

/-- The thread that a THR names. -/
def thrTarget (c t : Nat) (w : Word) (s : State) : Nat := field (gVal (getThread s c t) (wGa w)) 3 0

/-- A THR that issues in keeper mode answers what its function makes of the state with the pc past the instruction. -/
theorem thr_finished {m : Mn} {i : Instr} {gb : List Nat} {f : State → Nat → State}
    (hrow : exec i s = issue m (thrForm c t w s gb f) c t w s) (hi : Issues m c t w s) (hk : (getThread s c t).st.pm = true)
    (hr : Ready c t { gIn := wGa w :: gb, gOut := [wGd w] } s) :
    exec i s = .next (finished c t (f (advance s c t) (thrTarget c t w s))) := by
  refine hrow.trans (issue_finished hi ⟨hr.free, rfl, keeperOnly_of_keeper hk⟩ ?_)
  have hclean : ({ gIn := wGa w :: gb } : Uses).poison (getThread s c t) = [] := hr.clean
  simp only [thrForm, hclean]
  rfl

theorem threadOnly_thrAnswer (s : State) (c t : Nat) (w : Word) (v : Nat) :
    ThreadOnly c t (some (wGd w)) (wroteG (getThread s c t) (wGd w) (word v)) s (finished c t (thrAnswer (advance s c t) c t w v)) := by
  refine threadOnly_finished ?_ (fun x hx => ?_) ?_ (fun d hd => ?_) rfl
  · rw [thrAnswer, getThread_writeG_same, getThread_advance_same]; rfl
  · rw [thrAnswer, getThread_writeG_other _ _ _ _ hx, getThread_advance_other _ _ hx]
  · rw [thrAnswer, getCore_writeG_same, getCore_advance_same]
  · rw [thrAnswer, getCore_updCore_other _ _ hd, getCore_advance_other _ _ hd]

theorem thrStart_of_stopped (h : (getThread s c u).st.state = .stopped) : thrStart c t w (advance s c t) u =
    updCore (updThread (advance s c t) c u (fun x => { x with
      pc := gVal (getThread s c t) (wGb w)
      st := { x.st with state := .running, pm := bitOf (gVal (getThread s c t) (wGa w)) 8 } })) c (fun k => k.writeG t (wGd w) 0) := by
  simp only [thrStart, advance_st, h, gVal, advance_regs]
  rfl

theorem thrStart_of_other (h : (getThread s c u).st.state ≠ .stopped) :
    thrStart c t w (advance s c t) u = thrAnswer (advance s c t) c t w 1 := by
  simp only [thrStart, advance_st, h, if_false]

theorem thrStop_of_idle (h : (getThread s c u).st.state ∈ [.stopped, .faulted, .halted]) :
    thrStop c t w (advance s c t) u = thrAnswer (advance s c t) c t w 1 := by
  simp only [List.mem_cons, List.not_mem_nil, or_false] at h
  rcases h with h | h | h <;> simp only [thrStop, advance_st, h]

theorem thrStop_of_held (h : (getThread s c u).st.state = .held) : thrStop c t w (advance s c t) u =
    updCore (updThread (advance s c t) c u (fun x => { x with stopHeld := true })) c (fun k => k.writeG t (wGd w) 0) := by
  simp only [thrStop, advance_st, h]
  rfl

/-- Asking a thread that does not wait only records who asks. -/
theorem askStop_of_not_waiting (h : (getThread s c t).st.state ≠ .waiting) (who : List (Nat × Nat)) :
    askStop s c t who = updThread s c t (fun th => { th with stopReq := some (th.stopReq.getD [] ++ who) }) := by
  rw [askStop, abandonForStop]
  refine if_pos ?_
  rw [getThread_updThread_same]
  exact bne_iff_ne.2 h

/-- The state a THR.STOP of a RUNNING thread leaves: the stop asked for, gd awaiting it. -/
def stopAsked (c t u : Nat) (w : Word) (s : State) : State :=
  updThread (updCore (advance s c t) c (fun k => { k with ctl := { k.ctl with gBusy := k.ctl.gBusy ++ [(t, wGd w)] } })) c u
    (fun th => { th with stopReq := some (th.stopReq.getD [] ++ [(t, wGd w)]) })

theorem thrStop_of_running (h : (getThread s c u).st.state = .running) : thrStop c t w (advance s c t) u = stopAsked c t u w s := by
  simp only [thrStop, advance_st, h]
  refine askStop_of_not_waiting ?_ _
  rw [getThread_updCore_same]
  refine fun hw => ?_
  have hs : (getThread (advance s c t) c u).st.state = .waiting := hw
  rw [advance_st, h] at hs
  cases hs

theorem stepped_keeps (th : Thread) : (stepped th).stopReq = th.stopReq ∧ (stepped th).regs = th.regs ∧ (stepped th).pc = th.pc := by
  unfold stepped
  split <;> exact ⟨rfl, rfl, rfl⟩

theorem finished_keeps (s : State) (c t u : Nat) : (getThread (finished c t s) c u).stopReq = (getThread s c u).stopReq ∧
    (getThread (finished c t s) c u).regs = (getThread s c u).regs := by
  by_cases h : u = t
  · subst h
    rw [getThread_finished_same]
    exact ⟨(stepped_keeps _).1, (stepped_keeps _).2.1⟩
  · rw [getThread_finished_other _ _ h]
    exact ⟨rfl, rfl⟩

theorem stopAsked_spec (c t u : Nat) (w : Word) (s : State) :
    let s' := finished c t (stopAsked c t u w s)
    (getThread s' c u).stopReq.isSome = true ∧ (t, wGd w) ∈ (getThread s' c u).stopReq.getD [] ∧
    (t, wGd w) ∈ (getCore s' c).ctl.gBusy ∧ (getThread s' c u).regs = (getThread s c u).regs := by
  intro s'
  obtain ⟨hstop, hregs⟩ := finished_keeps (stopAsked c t u w s) c t u
  have hk : getThread (stopAsked c t u w s) c u = _ := getThread_updThread_same _ c u _
  refine ⟨?_, ?_, ?_, ?_⟩
  · rw [hstop, hk]; rfl
  · rw [hstop, hk]; simp
  · rw [getCore_finished_same, stopAsked, getCore_updThread_same, getCore_updCore_same]
    simp [Core.noteIssue]
  · rw [hregs, hk, getThread_updCore_same]
    exact advance_regs s c t u

/-! ## The end of a stop -/

/-- An answer to THR.STOP changes registers alone, of a thread. -/
theorem stopAnswer_thread (s : State) (c v : Nat) (x : Nat × Nat) (u : Nat) :
    ((getThread (stopAnswer s c v x) c u).st, (getThread (stopAnswer s c v x) c u).stopReq, (getThread (stopAnswer s c v x) c u).pc) =
      ((getThread s c u).st, (getThread s c u).stopReq, (getThread s c u).pc) := by
  by_cases h : u = x.1
  · subst h
    simp [stopAnswer, getThread, Core.writeG, Core.updThread, Core.setThread, Core.thread]
  · simp [stopAnswer, getThread, Core.writeG, Core.updThread, Core.setThread, Core.thread, h]

theorem stopAnswer_writes (s : State) (c v r : Nat) {n : Nat} (hn : n ≠ 0) :
    (getThread (stopAnswer s c v (r, n)) c r).regs.gGet n = ⟨word v, false⟩ := by
  simp [stopAnswer, getThread, Core.writeG, Core.updThread, Core.setThread, Core.thread, gGet_gSet_same _ _ hn]

theorem stopAnswer_core (s : State) (c v : Nat) (x : Nat × Nat) {d : Nat} (h : d ≠ c) : getCore (stopAnswer s c v x) d = getCore s d :=
  getCore_updCore_other s _ h

theorem stopAnswer_mem (s : State) (c v : Nat) (x : Nat × Nat) : (getCore (stopAnswer s c v x) c).mem = (getCore s c).mem := by
  rw [stopAnswer, getCore_updCore_same]; rfl

/-- The state of a thread once its stop is over, its requesters still to be answered. -/
def stopReached (c t : Nat) (s : State) : State :=
  updThread s c t (fun th =>
    { th with st := { th.st with state := if th.haltReq then .halted else .stopped }, stopReq := none, haltReq := false })

theorem stopComplete_of_ready {who : List (Nat × Nat)} (hq : (getThread s c t).stopReq = some who)
    (hr : (getThread s c t).st.state = .running) (hw : (getThread s c t).walk = none) (hl : loadsPending (getCore s c) t = false)
    (hj : inSwitch (getCore s c) t = false) : stopComplete s c t = who.foldl (fun s x => stopAnswer s c 0 x) (stopReached c t s) := by
  simp only [getThread] at hq hr hw
  simp only [stopComplete, hq, hr, hw, hl, hj]
  rfl

/-- A fold of changes of the cores changes the cores alone. -/
theorem foldl_rest {ι : Type} {step : State → ι → State} (h : ∀ s i, step s i = { s with cores := (step s i).cores }) (l : List ι) (s : State) :
    l.foldl step s = { s with cores := (l.foldl step s).cores } :=
  List.foldlRecOn (motive := fun x => x = { s with cores := x.cores }) l step rfl (fun x hx i _ => by rw [h x i, hx])

theorem answered_keeps (who : List (Nat × Nat)) (s : State) (c u : Nat) :
    (getThread (who.foldl (fun s x => stopAnswer s c 0 x) s) c u).st = (getThread s c u).st ∧
    (getThread (who.foldl (fun s x => stopAnswer s c 0 x) s) c u).stopReq = (getThread s c u).stopReq ∧
    (getThread (who.foldl (fun s x => stopAnswer s c 0 x) s) c u).pc = (getThread s c u).pc := by
  have h := foldl_keeps (fun s => ((getThread s c u).st, (getThread s c u).stopReq, (getThread s c u).pc))
    (fun s x => stopAnswer_thread s c 0 x u) who s
  simpa only [Prod.mk.injEq] using h

/-- The completion of a stop, as 02 R90 states it. -/
theorem threadStopComplete_spec {who : List (Nat × Nat)} (hu : coreUp s c = true) (ht : t < 16)
    (hq : (getThread s c t).stopReq = some who)
    (hr : (getThread s c t).st.state = .running) (hw : (getThread s c t).walk = none) (hl : loadsPending (getCore s c) t = false)
    (hj : inSwitch (getCore s c) t = false) : Runs (.threadStopComplete c t) s (fun s' =>
      (getThread s' c t).st.state = (if (getThread s c t).haltReq then .halted else .stopped) ∧
      (∀ r n, who = [(r, n)] → n ≠ 0 → (getThread s' c r).regs.gGet n = ⟨0, false⟩) ∧
      (getThread s' c t).stopReq = none ∧ (getThread s' c t).pc = (getThread s c t).pc ∧
      (∀ d, d ≠ c → getCore s' d = getCore s d) ∧ (getCore s' c).mem = (getCore s c).mem ∧ s' = { s with cores := s'.cores }) := by
  obtain ⟨hst, hstop, hpc⟩ := answered_keeps who (stopReached c t s) c t
  refine ⟨who.foldl (fun s x => stopAnswer s c 0 x) (stopReached c t s), ?_, ?_, ?_, ?_, ?_, fun d hd => ?_, ?_, ?_⟩
  · show Host.Outcome.next (if coreUp s c && decide (t < 16) then stopComplete s c t else s) = _
    rw [if_pos (by simp [hu, ht]), stopComplete_of_ready hq hr hw hl hj]
  · rw [hst, stopReached, getThread_updThread_same]
  · rintro r n rfl hn
    exact stopAnswer_writes _ c 0 r hn
  · rw [hstop, stopReached, getThread_updThread_same]
  · rw [hpc, stopReached, getThread_updThread_same]
  · exact (foldl_keeps (fun s => getCore s d) (fun s x => stopAnswer_core s c 0 x hd) who _).trans (getCore_updThread_other s t _ hd)
  · refine (foldl_keeps (fun s => (getCore s c).mem) (fun s x => stopAnswer_mem s c 0 x) who _).trans ?_
    rw [stopReached, getCore_updThread_same]
  · exact foldl_rest (fun _ _ => rfl) who (stopReached c t s)

/-- Settles O18: the three rows by the state of the thread they name, and the completion of a stop. -/
theorem thrRowsControlAnotherThread : Obligations.ThrRowsControlAnotherThread := by
  refine ⟨fun c t w s hk => ⟨fun hi hr => ?_, fun hi hr => ?_, fun hi hr => ?_⟩,
    fun c t s who hu ht hq hr hw hl hj => threadStopComplete_spec hu ht hq hr hw hl hj⟩
  · have hd : exec (.thrStart c t w) s = .next (finished c t (thrStart c t w (advance s c t) (thrTarget c t w s))) := thr_finished rfl hi hk hr
    refine ⟨fun hx => ?_, fun hx => ⟨_, ?_, threadOnly_thrAnswer s c t w 1⟩⟩
    · rw [hd, thrStart_of_stopped (u := thrTarget c t w s) hx]; rfl
    · rw [hd, thrStart_of_other (u := thrTarget c t w s) hx]
  · have hd : exec (.thrState c t w) s = .next (finished c t (thrState c t w (advance s c t) (thrTarget c t w s))) := thr_finished rfl hi hk hr
    refine ⟨_, ?_, threadOnly_thrAnswer s c t w _⟩
    rw [hd, thrState, advance_st]; rfl
  · have hd : exec (.thrStop c t w) s = .next (finished c t (thrStop c t w (advance s c t) (thrTarget c t w s))) := thr_finished rfl hi hk hr
    refine ⟨fun hx => ⟨_, ?_, threadOnly_thrAnswer s c t w 1⟩, fun hx => ?_, fun hx => ⟨_, ?_, stopAsked_spec c t (thrTarget c t w s) w s⟩⟩
    · rw [hd, thrStop_of_idle (u := thrTarget c t w s) hx]
    · rw [hd, thrStop_of_held (u := thrTarget c t w s) hx]; rfl
    · rw [hd, thrStop_of_running (u := thrTarget c t w s) hx]

/-! ## BRK, the watchdogs, debug -/

theorem updThread_congr {f g : Thread → Thread} (h : f (getThread s c t) = g (getThread s c t)) : updThread s c t f = updThread s c t g :=
  congrArg (fun th => setCore s c ((getCore s c).setThread t th)) h

theorem coreHeld_of_no_fence (h : s.grid.proc = none) (c : Nat) : coreHeld s c = false := by rw [coreHeld, h]

theorem wakeState_of_no_fence (h : s.grid.proc = none) (c : Nat) : wakeState s c = .running := by
  rw [wakeState, coreHeld_of_no_fence h]; rfl

/-- A command of a core's thread runs where the core works and has such a thread. -/
theorem run_if_up (hu : coreUp s c = true) (ht : t < 16) (s' : State) : (if coreUp s c && decide (t < 16) then s' else s) = s' :=
  if_pos (by simp [hu, ht])

theorem threadWatchdog_expires (hr : (getThread s c t).st.state = .running) (hj : (getThread s c t).st.pm = false)
    (hl : (getCore s c).ctl.twdog ≠ 0) (hd : (getThread s c t).deferred = none) :
    threadWatchdog s c t = takeExc s c t ⟨0x0F, 0x01, (getCore s c).ctl.twdog * 1024⟩ := by
  have hb : ((getCore s c).ctl.twdog != 0) = true := bne_iff_ne.2 hl
  simp only [threadWatchdog, hr, hj, hb, hd]
  rfl

/-- The wait watchdog acts on a WAITING thread by what it waits for. -/
theorem waitWatchdog_expires (hs : (getThread s c t).st.state = .waiting) (hk : (getThread s c t).k.wwdog ≠ 0)
    (hd : (getThread s c t).deferred = none) (hq : (getThread s c t).stopReq = none) :
    (∀ g gen rd sy, (getThread s c t).wait = .gate g gen rd sy → waitWatchdog s c t = takeExc
      (if (getGate s (gateKey (dieOf s.grid c) g)).fabUsed (gateKey (dieOf s.grid c) g) = 0 then s else fabricGateLost s)
      c t ⟨0x0A, 0x10, word g⟩) ∧
    (∀ n rd, (getThread s c t).wait = .reap n rd → waitWatchdog s c t = takeExc s c t ⟨0x0A, 0x30, word n⟩) ∧
    (∀ r, (getThread s c t).wait = .latch r → waitWatchdog s c t = sendCancel s c r .watchdog) := by
  refine ⟨fun g gen rd sy h => ?_, fun n rd h => ?_, fun r h => ?_⟩
  · simp only [waitWatchdog, hs, hk, hd, hq, h, bne_iff_ne, ite_not]
    rfl
  · simp only [waitWatchdog, hs, hk, hd, hq, h]
    rfl
  · simp only [waitWatchdog, hs, hk, hd, hq, h]
    rfl

theorem sendCancel_reqs (s : State) (c r : Nat) (why : CancelWhy) : (getCore (sendCancel s c r why) c).reqs = (getCore s c).reqs.map
    (fun q => if q.id == r && q.cancel.isNone then { q with cancel := some why } else q) := by
  rw [sendCancel, updReq, getCore_updCore_same]
  refine List.map_congr_left (fun q _ => ?_)
  cases q.id == r <;> rfl

theorem deferredException_taken {x : Exc} (hr : (getThread s c t).st.state = .running) (hd : (getThread s c t).deferred = some x)
    (hq : (getThread s c t).stopReq = none) (hj : inSwitch (getCore s c) t = false) :
    deferredException s c t = takeExc (updThread s c t (fun th => { th with deferred := none })) c t x := by
  simp only [deferredException, hr, hd, hq, hj, takeDeferred]
  rfl

/-- A debugger that claims the core and asks for a halt. -/
def haltAsked (c t : Nat) (s : State) : State :=
  updThread (updCore s c (fun k => { k with ctl := { k.ctl with debugClaim := true } })) c t (fun th => { th with haltReq := true })

theorem getThread_haltAsked (s : State) (c t : Nat) : getThread (haltAsked c t s) c t = { getThread s c t with haltReq := true } := by
  rw [haltAsked, getThread_updThread_same, getThread_updCore_same]; rfl

theorem getCore_haltAsked (s : State) (c t : Nat) : getCore (haltAsked c t s) c = { getCore s c with
    threads := (getCore (haltAsked c t s) c).threads, ctl := { (getCore s c).ctl with debugClaim := true } } := by
  rw [haltAsked, getCore_updThread_same, getCore_updCore_same]

theorem debugHalt_of_running (hd : 2 ≤ s.ward.debug) (hr : (getThread s c t).st.state = .running) :
    debugHalt s c t = stopComplete (askStop (haltAsked c t s) c t []) c t := by
  have hmay : mayHalt s = true := decide_eq_true hd
  have hst : (getThread (updCore s c (fun k => { k with ctl := { k.ctl with debugClaim := true } })) c t).st.state = .running := by
    rw [getThread_updCore_same]; exact hr
  rw [debugHalt, if_neg (by simp [hmay])]
  dsimp only
  rw [hst]
  rfl

/-- A debugger halts a RUNNING thread that nothing keeps from stopping. -/
theorem debugHalt_halts (hd : 2 ≤ s.ward.debug) (hr : (getThread s c t).st.state = .running) (hq : (getThread s c t).stopReq = none)
    (hw : (getThread s c t).walk = none) (hl : loadsPending (getCore s c) t = false) (hj : inSwitch (getCore s c) t = false) :
    (getCore (debugHalt s c t) c).ctl.debugClaim = true ∧ getThread (debugHalt s c t) c t =
      { getThread s c t with st := { (getThread s c t).st with state := .halted }, haltReq := false } := by
  have hst : (getThread (haltAsked c t s) c t).st.state ≠ .waiting := by rw [getThread_haltAsked]; simp [hr]
  rw [debugHalt_of_running hd hr, askStop_of_not_waiting hst]
  generalize hs2 : updThread (haltAsked c t s) c t (fun th => { th with stopReq := some (th.stopReq.getD [] ++ []) }) = s2
  have h2 : getThread s2 c t = { getThread s c t with haltReq := true, stopReq := some [] } := by
    rw [← hs2, getThread_updThread_same, getThread_haltAsked]
    simp [hq]
  have hc2 : getCore s2 c = { getCore s c with
      threads := (getCore s2 c).threads, ctl := { (getCore s c).ctl with debugClaim := true } } := by
    rw [← hs2, getCore_updThread_same, getCore_haltAsked]
  rw [stopComplete_of_ready (who := []) (by rw [h2]) (by rw [h2]; exact hr) (by rw [h2]; exact hw) (by rw [hc2]; exact hl)
    (by rw [hc2]; exact hj), List.foldl_nil, stopReached]
  refine ⟨?_, ?_⟩
  · rw [getCore_updThread_same, hc2]
  · rw [getThread_updThread_same, h2]
    simp [hq]

/-- Settles O20, command by command. -/
theorem watchdogsAndDebugMoveThreads : Obligations.WatchdogsAndDebugMoveThreads := by
  refine ⟨fun c t w s hi => ⟨fun h => ?_, fun h => ?_⟩, fun c t s hu ht => ⟨fun hr hj hl hd => ?_, fun hs hk hd hq => ⟨fun g gen rd sy h => ?_,
    fun n rd h => ?_, fun r h => ?_⟩, fun x hr hd hq hj => ?_, fun hd hr hq hw hl hj => ?_, fun single hd hr hp => ?_,
    fun pc keeper hr hp => ?_⟩, fun c s hu hp hr => ?_⟩
  · refine issue_finished hi ⟨rfl, if_pos ?_, rfl⟩ rfl
    simp [mayHalt, h]
  · refine issue_illegal hi rfl (if_neg ?_) rfl
    simpa [mayHalt] using h
  · exact congrArg Host.Outcome.next ((run_if_up hu ht _).trans (threadWatchdog_expires hr hj hl hd))
  · exact congrArg Host.Outcome.next ((run_if_up hu ht _).trans ((waitWatchdog_expires hs hk hd hq).1 g gen rd sy h))
  · exact congrArg Host.Outcome.next ((run_if_up hu ht _).trans ((waitWatchdog_expires hs hk hd hq).2.1 n rd h))
  · exact ⟨_, congrArg Host.Outcome.next ((run_if_up hu ht _).trans ((waitWatchdog_expires hs hk hd hq).2.2 r h)),
      sendCancel_reqs s c r .watchdog⟩
  · exact congrArg Host.Outcome.next ((run_if_up hu ht _).trans (deferredException_taken hr hd hq hj))
  · exact ⟨_, congrArg Host.Outcome.next (run_if_up hu ht _), debugHalt_halts hd hr hq hw hl hj⟩
  · refine congrArg Host.Outcome.next ((run_if_up hu ht _).trans ?_)
    have hmay : mayHalt s = true := decide_eq_true hd
    simp only [debugResume, hmay]
    refine updThread_congr ((if_pos hr).trans ?_)
    rw [wakeState_of_no_fence hp, coreHeld_of_no_fence hp]
  · refine congrArg Host.Outcome.next ((run_if_up hu ht _).trans (updThread_congr ((if_pos hr).trans ?_)))
    rw [wakeState_of_no_fence hp, coreHeld_of_no_fence hp]
  · refine congrArg Host.Outcome.next ((if_pos hu).trans ?_)
    rw [threadZeroRelease, coreHeld_of_no_fence hp]
    exact updThread_congr (if_pos hr)

end Sys2Proof.Machine
end

section
/-!
PROOFS. The checks that come before every instruction's own effect: exception 0x01 by the word, exception 0x02 by the mode, then the
predicate (02 R65, R70, R72, R99).
-/

namespace Sys2Proof.Machine

variable {i : Instr} {m : Mn} {c t : Nat} {w : Word} {s : State}

/-! ## The frame of every command that carries an instruction word -/

/-- The exception 0x02 that an instruction takes in the state it finds. -/
def privOf (m : Mn) (c t : Nat) (w : Word) (s : State) : Option Nat :=
  match m with
  | .ld | .st | .lds | .sts | .take | .peek | .fill | .put | .lclr => memPriv c t w s
  | .tld | .tst | .tlds | .tsts => controlJob s c t (wGa w)
  | .tmmaConv => convPriv c t w s
  | .tdrain => tdrainPriv c t w s
  | .reap => reapPriv c t w s
  | .dpost => dpostPriv c t w s
  | .dstat => ringPriv c t w s
  | .rdcr => if inJob s c t && crKeeperRead (wCr w) && crListed (wCr w) then some 0x02 else none
  | .wrcr => if inJob s c t && wCr w != 0 && crListed (wCr w) then some 0x02 else none
  | .xret | .thrStart | .thrStop | .thrState | .jswitch | .tlbAll | .tlbEntry => keeperOnly s c t
  | _ => none

/-- The exception 0x01 that an instruction takes in the state it finds, its word apart. -/
def illegalOf (m : Mn) (c t : Nat) (s : State) : List Nat :=
  match m with
  | .kcall => if inJob s c t then [] else [0x06]
  | .brk => if mayHalt s && (getCore s c).ctl.debugClaim then [] else [0x05]
  | _ => []

theorem wrcrRow_of_wellFormed {n : Nat} (h : (wordIs .wrcr w && registerFits (some n) w) = true) :
    wrcrRow n c t w s = issue .wrcr (wrcrForm c t w s) c t w s := by
  rw [Bool.and_eq_true] at h
  refine if_neg ?_
  have hr := h.2
  rw [registerFits, Bool.or_eq_true] at hr
  rcases hr with hr | hr
  · rw [bne_iff_ne] at hr; simp [hr]
  · rw [beq_iff_eq] at hr; simp [hr]

/-- Every well-formed command that carries an instruction word is its row's instruction: its registers and its effect over the frame. -/
theorem exec_of_coreCall (hc : i.coreCall = some (m, c, t, w)) (hw : i.wellFormed = true) : ∃ (u : Uses) (b : State → Res),
    exec i s = issue m { uses := u, priv := privOf m c t w s, illegal := illegalOf m c t s, body := b } c t w s := by
  cases i
  case twinWrite | klimWrite | kvecWrite =>
    cases hc
    exact ⟨_, _, (wrcrRow_of_wellFormed hw)⟩
  all_goals cases hc <;> exact ⟨_, _, rfl⟩

theorem busy_of_allReady (h : allReady c t s) (u : Uses) : u.busy (getCore s c) t = false := by
  simp only [Uses.busy, Bool.or_eq_false_iff, List.any_eq_false, Bool.not_eq_true]
  exact ⟨fun n _ => (h n).1, fun n _ => (h n).2⟩

theorem wordIs_of_wellFormed (hc : i.coreCall = some (m, c, t, w)) (hw : i.wellFormed = true) : wordIs m w = true := by
  have hword : i.coreWord = some (m, w) := by rw [Instr.coreWord, hc]; rfl
  simp only [Instr.wellFormed, hword, Bool.and_eq_true] at hw
  exact hw.1

/-! ## Job mode -/

theorem controlJob_of_keeper (h : (getThread s c t).st.pm = true) (n : Nat) : controlJob s c t n = none := by
  simp [controlJob, inJob_eq, h]

theorem ringPriv_of_keeper (h : (getThread s c t).st.pm = true) : ringPriv c t w s = none := by
  simp [ringPriv, h]

theorem privOf_of_keeper (h : (getThread s c t).st.pm = true) (m : Mn) : privOf m c t w s = none := by
  cases m <;> simp only [privOf, memPriv, convPriv, tdrainPriv, reapPriv, dpostPriv, controlJob_of_keeper h, ringPriv_of_keeper h,
    keeperOnly_of_keeper h, inJob_eq, h, Bool.not_true, Bool.false_and, Bool.false_eq_true, if_false, ite_self]

theorem controlJob_of_tag {n : Nat} (hp : ((getThread s c t).regs.gGet n).p = false) :
    controlJob s c t n = if (getThread s c t).st.pm = false ∧ field (gVal (getThread s c t) n) 63 56 = 0x0F then some 3 else none := by
  simp only [controlJob, inJob_eq, hp, addrTag, gVal, Bool.not_false, Bool.and_true, Bool.and_eq_true, Bool.not_eq_true', beq_iff_eq]
  rfl

theorem controlJob_of_other {n : Nat} (h : field (gVal (getThread s c t) n) 63 56 ≠ 0x0F) : controlJob s c t n = none := by
  have hb : (addrTag ((getThread s c t).regs.gGet n).v == 0x0F) = false := beq_false_of_ne h
  simp [controlJob, hb]

theorem privOf_of_never (h : neverPrivileged m = true) : privOf m c t w s = none := by
  cases m <;> simp [neverPrivileged] at h
  all_goals rfl

theorem privOf_of_formsAddress (h : formsAddress m = true) : privOf m c t w s = controlJob s c t (wGa w) := by
  cases m <;> simp [formsAddress] at h
  all_goals rfl

theorem illegalOf_of_formsAddress (h : formsAddress m = true) : illegalOf m c t s = [] := by
  cases m <;> simp [formsAddress] at h
  all_goals rfl

/-- What is permitted takes neither exception. -/
theorem permitted_free (h : Permitted m c t w s) : privOf m c t w s = none ∧ illegalOf m c t s = [] := by
  obtain ⟨hmode, hkcall, hbrk⟩ := h
  refine ⟨?_, ?_⟩
  · rcases hmode with h | h | rfl | rfl | ⟨h, ht⟩
    · exact privOf_of_keeper h m
    · exact privOf_of_never h
    · rfl
    · rfl
    · exact (privOf_of_formsAddress h).trans (controlJob_of_other ht)
  · cases m with
    | kcall => simp [illegalOf, inJob_eq, hkcall rfl]
    | brk => simp [illegalOf, mayHalt, hbrk rfl]
    | _ => rfl

/-- A permitted instruction whose predicate is false is counted and passed, and nothing else happens. -/
theorem skipped (hc : i.coreCall = some (m, c, t, w)) (hw : i.wellFormed = true) (ho : Offered c t s) (hr : allReady c t s)
    (hl : illegalSubs w = []) (hp : Permitted m c t w s) (hpred : predicated w = true) (hn : predHolds (getThread s c t) w = false) :
    Runs i s (ThreadOnly c t none { getThread s c t with pc := (getThread s c t).pc + 8 } s) := by
  obtain ⟨u, b, hex⟩ := exec_of_coreCall (s := s) hc hw
  obtain ⟨hpriv, hill⟩ := permitted_free hp
  refine ⟨_, hex.trans ((issue_of_wordIs (wordIs_of_wellFormed hc hw)).trans ?_), threadOnly_skipped s c t⟩
  rw [issueStep_skipped ho (busy_of_allReady hr _) ?_ hpred hn]
  simp [Form.cands, hl, hpriv, hill]

/-! ## Illegal words -/

/-- The sub-codes of a word are listed lowest first, and are at most 4. -/
theorem illegalSubs_lowest {n : Nat} {l : List Nat} (h : illegalSubs w = n :: l) : n ≤ 4 ∧ ∀ k ∈ l, n ≤ k := by
  unfold illegalSubs at h
  split at h
  · split at h <;> split at h <;> split at h <;> simp at h <;> obtain ⟨rfl, rfl⟩ := h <;> simp
  · split at h
    · split at h <;> simp at h <;> obtain ⟨rfl, rfl⟩ := h <;> simp
    · simp at h
      obtain ⟨rfl, rfl⟩ := h
      simp

theorem illegalOf_ge {k : Nat} (h : k ∈ illegalOf m c t s) : 5 ≤ k := by
  unfold illegalOf at h
  split at h
  · split at h <;> simp at h; omega
  · split at h <;> simp at h; omega
  · simp at h

/-- An illegal word takes exception 0x01 with its lowest sub-code, before everything else. -/
theorem firstCand_illegal {f : Form} {n : Nat} {l : List Nat} (h : illegalSubs w = n :: l) (hf : ∀ k ∈ f.illegal, 5 ≤ k) :
    firstCand (f.cands w) = some ⟨0x01, n, w⟩ := by
  obtain ⟨h4, hl⟩ := illegalSubs_lowest h
  rw [Form.cands, h, List.cons_append, List.map_cons, List.cons_append]
  refine firstCand_head (fun y hy => ?_)
  rcases List.mem_append.1 hy with hy | hy
  · obtain ⟨k, hk, rfl⟩ := List.mem_map.1 hy
    have hle : n ≤ k := by
      rcases List.mem_append.1 hk with hk | hk
      · exact hl k hk
      · exact h4.trans ((by decide : 4 ≤ 5).trans (hf k hk))
    simp [beats, cand, excRank, hle]
  · obtain ⟨k, -, rfl⟩ := List.mem_map.1 hy
    simp [beats, cand, excRank]

theorem illegal_traps {n : Nat} {l : List Nat} (hc : i.coreCall = some (m, c, t, w)) (hw : i.wellFormed = true) (ho : Offered c t s)
    (hr : allReady c t s) (h : illegalSubs w = n :: l) : exec i s = .next (trapped c t ⟨0x01, n, w⟩ s) := by
  obtain ⟨u, b, hex⟩ := exec_of_coreCall (s := s) hc hw
  rw [hex, issue_of_wordIs (wordIs_of_wellFormed hc hw), issueStep_trapped ho (busy_of_allReady hr _)]
  exact firstCand_illegal h (fun k hk => illegalOf_ge hk)

/-- Settles O12: a false predicate, an illegal word, and the words of unassigned opcode 0 and 0xFF. -/
theorem issueChecksComeFirst : Obligations.IssueChecksComeFirst := by
  refine ⟨fun i m c t w s hc hw ho hr _ hl hp hpred hn => skipped hc hw ho hr hl hp hpred hn,
    fun i m c t w s n l hc hw ho hr h => illegal_traps hc hw ho hr h, by decide, fun w hw => ?_⟩
  have hnone : coreMnemonic w = none := by rw [coreMnemonic, hw]; rfl
  simp [illegalSubs, hnone, opcodeAssigned, hw]

/-! ## Operations of keeper mode -/

/-- A legal word that job mode may not issue, whatever its row. -/
theorem privileged_traps {n : Nat} (hc : i.coreCall = some (m, c, t, w)) (hw : i.wellFormed = true) (ho : Offered c t s)
    (hr : allReady c t s) (hl : illegalSubs w = []) (hi : illegalOf m c t s = []) (hp : privOf m c t w s = some n) :
    exec i s = .next (trapped c t ⟨0x02, n, w⟩ s) := by
  obtain ⟨u, b, hex⟩ := exec_of_coreCall (s := s) hc hw
  rw [hex]
  exact issue_denied ho (wordIs_of_wellFormed hc hw) hl (busy_of_allReady hr _) hi hp

/-- A legal RDCR or WRCR names a register that exists. -/
theorem crListed_of_legal (hm : coreMnemonic w = some m) (hl : illegalSubs w = []) (h : m = .rdcr ∨ m = .wrcr) : crListed (wCr w) = true := by
  have hu : unassignedField m w = false := by
    simp only [illegalSubs, hm, List.append_eq_nil_iff] at hl
    simpa using hl.1.2
  rcases h with rfl | rfl <;> simpa [unassignedField, wCr] using hu

/-- Settles O15: the exception 0x02 of each instruction in job mode. -/
theorem keeperOperationsTrapInJobMode : Obligations.KeeperOperationsTrapInJobMode := by
  intro i m c t w s hc hw ho hr hm hl hj
  have hjob : inJob s c t = true := by rw [inJob_eq, hj]; rfl
  have hkeep : keeperOnly s c t = some 0x01 := by rw [keeperOnly, hjob]; rfl
  refine ⟨?_, ?_, ?_, fun hf hp ht => ?_⟩
  · rintro rfl hn
    refine privileged_traps hc hw ho hr hl rfl ?_
    have hcr : (wCr w != 0) = true := bne_iff_ne.2 hn
    simp [privOf, hjob, hcr, crListed_of_legal hm hl (.inr rfl)]
  · rintro rfl hn
    refine privileged_traps hc hw ho hr hl rfl ?_
    have hcr : crKeeperRead (wCr w) = true := decide_eq_true hn
    simp [privOf, hjob, hcr, crListed_of_legal hm hl (.inl rfl)]
  · intro hmem
    simp only [List.mem_cons, List.not_mem_nil, or_false] at hmem
    rcases hmem with rfl | rfl | rfl | rfl | rfl | rfl | rfl <;> exact privileged_traps hc hw ho hr hl rfl hkeep
  · have hctl : controlJob s c t (wGa w) = some 3 := by rw [controlJob_of_tag hp, if_pos ⟨hj, ht⟩]
    exact privileged_traps hc hw ho hr hl (illegalOf_of_formsAddress hf) ((privOf_of_formsAddress hf).trans hctl)

end Sys2Proof.Machine
end

section
/-!
PROOFS. The address that a memory instruction forms, its size (02 R80), and what reset leaves (02 R59, R62, R101).
-/

namespace Sys2Proof.Machine

/-! ## Addresses -/

theorem memAddr_offset_lt (x : Nat) : x % 2 ^ 56 < 2 ^ 56 := Nat.mod_lt _ (by positivity)

theorem memAddr_fields (th : Thread) (w : Word) : field (memAddr th w) 63 56 = field (gVal th (wGa w)) 63 56 ∧
    field (memAddr th w) 55 0 = (field (gVal th (wGa w)) 55 0 + field (gVal th (wGb w)) 55 0 * 2 ^ field w 33 32 +
      wrapInt 56 (signedN 32 (field w 31 0))) % 2 ^ 56 := by
  have htag : field (gVal th (wGa w)) 63 56 < 2 ^ 8 := field_lt _ 63 56
  unfold memAddr
  dsimp only
  generalize field (gVal th (wGa w)) 55 0 + field (gVal th (wGb w)) 55 0 * 2 ^ field w 33 32 + wrapInt 56 (signedN 32 (field w 31 0)) = x
  have hoff := memAddr_offset_lt x
  generalize x % 2 ^ 56 = y at hoff
  generalize field (gVal th (wGa w)) 63 56 = z at htag
  have hlt : z * 2 ^ 56 + y < 2 ^ 64 := by omega
  rw [field_word hlt, field_word hlt]
  omega

theorem wrapInt_cast (k : Nat) (i : Int) : (wrapInt k i : Int) = i % 2 ^ k := by
  rw [wrapInt, Int.toNat_of_nonneg (Int.emod_nonneg _ (by positivity))]
  push_cast
  rfl

theorem signed_offset (w : Word) : signedN 32 (field w 31 0) = (w.extractLsb' 0 32).toInt := by
  rw [field_eq_extract]
  exact signedN_toNat (by decide) _

theorem memAddr_offset (th : Thread) (w : Word) : (field (memAddr th w) 55 0 : Int) =
    ((field (gVal th (wGa w)) 55 0 : Int) + (field (gVal th (wGb w)) 55 0 : Int) * 2 ^ field w 33 32 +
      (w.extractLsb' 0 32).toInt) % 2 ^ 56 := by
  rw [(memAddr_fields th w).2, ← signed_offset]
  push_cast
  rw [wrapInt_cast]
  exact Int.add_emod_emod ..

theorem wSize_eq (w : Word) : wSize w =
    (if field w 36 34 = 0 ∨ field w 36 34 = 4 then 1 else if field w 36 34 = 1 ∨ field w 36 34 = 5 then 2
      else if field w 36 34 = 2 ∨ field w 36 34 = 6 then 4 else 8) := by
  have h : field w 36 34 < 8 := field_lt w 36 34
  unfold wSize wSZ
  generalize field w 36 34 = z at h
  interval_cases z <;> rfl

theorem wSize_mem (w : Word) : wSize w ∈ [1, 2, 4, 8] := by
  rw [wSize_eq]
  split_ifs <;> simp

/-! ## Extension of what is loaded -/

theorem sextWord_of_lt {k v : Nat} (h : v < 2 ^ (k - 1)) : sextWord k v = word v := by
  have hv : v < 2 ^ k := h.trans_le (Nat.pow_le_pow_right (by decide) (Nat.sub_le k 1))
  rw [sextWord, signedN, Nat.mod_eq_of_lt hv, if_pos h, BitVec.ofInt_natCast, word]

theorem sextWord_of_ge {k v : Nat} (hk : k ≤ 64) (h : 2 ^ (k - 1) ≤ v) (hv : v < 2 ^ k) : sextWord k v = word (v + 2 ^ 64 - 2 ^ k) := by
  have hle : 2 ^ k ≤ 2 ^ 64 := Nat.pow_le_pow_right (by decide) hk
  rw [sextWord, signedN, Nat.mod_eq_of_lt hv, if_neg (by omega)]
  refine BitVec.eq_of_toInt_eq ?_
  rw [BitVec.toInt_ofInt, word, ← BitVec.ofInt_natCast, BitVec.toInt_ofInt, Nat.cast_sub (by omega)]
  push_cast
  rw [add_sub_right_comm]
  exact (Int.add_bmod_right ..).symm

theorem extend_eq (w : Word) {v : Nat} (h : v < 2 ^ (8 * wSize w)) : extend (wSize w) (wSigned w) v =
    if 4 ≤ field w 36 34 ∧ v ≥ 2 ^ (8 * wSize w - 1) ∧ wSize w < 8 then word (v + 2 ^ 64 - 2 ^ (8 * wSize w)) else word v := by
  have hk : 8 * wSize w ≤ 64 := by
    have := wSize_mem w
    simp only [List.mem_cons, List.not_mem_nil, or_false] at this
    omega
  unfold extend wSigned wSZ
  by_cases hs : 4 ≤ field w 36 34
  · rw [if_pos (by simpa using hs)]
    by_cases hg : v ≥ 2 ^ (8 * wSize w - 1)
    · rw [sextWord_of_ge hk hg h]
      by_cases h8 : wSize w < 8
      · rw [if_pos ⟨hs, hg, h8⟩]
      · rw [if_neg (fun hn => h8 hn.2.2), show 8 * wSize w = 64 by omega, Nat.add_sub_cancel]
    · rw [if_neg (fun hn => hg hn.2.1), sextWord_of_lt (by omega)]
  · rw [if_neg (by simpa using hs), if_neg (fun hn => hs hn.1), Nat.mod_eq_of_lt h]

/-- Settles O21: the fields of the word that is formed. -/
theorem addressesFormAsStated : Obligations.AddressesFormAsStated :=
  fun th w => ⟨(memAddr_fields th w).1, memAddr_offset th w, wSize_eq w, fun _ h => extend_eq w h⟩

/-! ## Reset -/

theorem getThread_reset (c t : Nat) : getThread State.reset c t = threadReset t := rfl

theorem regs_reset (n : Nat) : ({} : Regs).gGet n = {} ∧ (n ≠ 0 → ({} : Regs).mGet n = {}) ∧ ({} : Regs).sGet n = {} :=
  ⟨ite_self _, fun h => if_neg h, rfl⟩

theorem preds_reset {n : Nat} (h : 0 < n) : ({} : Regs).pGet n = false := by
  simp [Regs.pGet, h.ne']

theorem levelLegal_reset : LevelLegal State.reset where
  steps := by decide
  codes := by simp [State.reset]
  level := by decide
  lowered := by simp [State.reset]

/-- Settles O59: the reset state, read field by field. -/
theorem resetLeavesTheStatedState : Obligations.ResetLeavesTheStatedState := by
  refine ⟨fun c t _ => ?_, fun c a => ⟨rfl, rfl, rfl, rfl⟩, fun c => ⟨rfl, rfl, rfl⟩, fun k => ⟨rfl, rfl⟩, fun n => rfl, rfl, rfl, rfl, rfl,
    rfl, rfl, rfl, levelLegal_reset⟩
  simp only [getThread_reset]
  by_cases h : t = 0
  · subst h
    exact ⟨rfl, rfl, rfl, rfl, rfl, rfl, rfl, rfl, rfl, rfl, rfl, rfl, rfl, rfl, rfl, rfl, rfl, rfl, regs_reset, fun n hn _ => preds_reset hn⟩
  · rw [threadReset, if_neg h, if_neg h, if_neg h]
    exact ⟨rfl, (beq_false_of_ne h).symm, rfl, rfl, rfl, rfl, rfl, rfl, rfl, rfl, rfl, rfl, rfl, rfl, rfl, rfl, rfl, rfl, regs_reset,
      fun n hn _ => preds_reset hn⟩

end Sys2Proof.Machine
end

section
/-!
PROOFS. The address exceptions of loads, stores and latch operations, in their order (02 R61, R66, R81, R82, R99).
-/

namespace Sys2Proof.Machine

variable {i : Instr} {m : Mn} {c t : Nat} {w : Word} {s : State} {acc : Acc} {store : Bool} {n : Nat} {x : Exc}

/-! ## What the instructions that form an address share -/

/-- The kind of access of a memory instruction. -/
def accOf (m : Mn) : Acc :=
  match m with
  | .lds | .sts => .scale
  | .take | .peek | .fill | .put | .lclr => .latch
  | _ => .plain

/-- Whether a memory instruction needs to write its page. -/
def storeOf (m : Mn) : Bool :=
  match m with
  | .st | .sts | .fill | .put | .lclr => true
  | _ => false

/-- The bytes of a memory instruction. -/
def memBytes (m : Mn) (w : Word) : Nat :=
  match m with
  | .lds | .sts => 128
  | .take | .peek | .fill | .put | .lclr => 8
  | _ => wSize w

theorem loadBody_raises {kind : ReqKind} (hs : slotFree (getCore s c) t = true) {y : Cand} {ys : List Cand}
    (h : addressChecks s c t acc false n w = y :: ys) : loadBody c t w n kind acc s = .raise (y :: ys) := by
  rw [loadBody, if_neg (by simp [hs]), h]

theorem storeBody_raises {data : Thread → Nat × Bool} (hs : slotFree (getCore s c) t = true) {y : Cand} {ys : List Cand}
    (h : addressChecks s c t acc true n w = y :: ys) : storeBody c t w n acc data s = .raise (y :: ys) := by
  rw [storeBody, if_neg (by simp [hs]), h]

/-- Whether a latch operation needs to write its page. -/
def latchStores (kind : ReqKind) : Bool :=
  match kind with
  | .take _ | .peek _ => false
  | _ => true

theorem latchBody_raises {kind : ReqKind} (hs : slotFree (getCore s c) t = true) {y : Cand} {ys : List Cand}
    (h : addressChecks s c t .latch (latchStores kind) 8 w = y :: ys) : latchBody c t w kind s = .raise (y :: ys) := by
  unfold latchBody
  rw [if_neg (by simp [hs])]
  cases kind <;> simp only [latchStores] at h <;> simp only [h]

/-- A memory instruction whose address fails a check raises what its checks give. -/
theorem exec_of_formsAddress (hc : i.coreCall = some (m, c, t, w)) (hf : formsAddress m = true) :
    ∃ (u : Uses) (b : State → Res), exec i s = issue m { uses := u, priv := memPriv c t w s, body := b } c t w s ∧
      (allReady c t s → slotFree (getCore s c) t = true → ∀ y ys,
        addressChecks s c t (accOf m) (storeOf m) (memBytes m w) w = y :: ys → b s = .raise (y :: ys)) := by
  cases i
  case ld | lds =>
    cases hc
    exact ⟨_, _, rfl, fun _ hs _ _ h => loadBody_raises hs h⟩
  case st =>
    cases hc
    exact ⟨_, _, rfl, fun _ hs _ _ h => storeBody_raises hs h⟩
  case sts =>
    cases hc
    exact ⟨_, _, rfl, fun hr hs _ _ h => (if_neg (by simp [(hr _).2])).trans (storeBody_raises hs h)⟩
  case ldTake | ldPeek | stFill | stPut | lclr =>
    cases hc
    exact ⟨_, _, rfl, fun _ hs _ _ h => latchBody_raises hs h⟩
  all_goals cases hc <;> exact absurd hf (by decide)

/-- A memory instruction traps with the first of the conditions of its address. -/
theorem address_traps (hc : i.coreCall = some (m, c, t, w)) (hi : Issues m c t w s) (hr : allReady c t s) (hf : formsAddress m = true)
    (hs : slotFree (getCore s c) t = true) (hp : memPriv c t w s = none)
    (hx : firstCand (addressChecks s c t (accOf m) (storeOf m) (memBytes m w) w) = some x) : exec i s = .next (trapped c t x s) := by
  obtain ⟨u, b, hex, hb⟩ := exec_of_formsAddress (s := s) hc hf
  cases hl : addressChecks s c t (accOf m) (storeOf m) (memBytes m w) w with
  | nil => rw [hl] at hx; cases hx
  | cons y ys => exact hex.trans (issue_raised hi ⟨busy_of_allReady hr _, rfl, hp⟩ (hb hr hs y ys hl) (hl ▸ hx))

/-! ## The checks, in their order -/

theorem mem_when? {b : Bool} {code sub : Nat} {info : Word} {y : Cand} (h : y ∈ when? b code sub info) : y = cand code sub info := by
  cases b
  · cases h
  · exact List.mem_singleton.1 h

theorem addressChecks_clean (ha : ((getThread s c t).regs.gGet (wGa w)).p = false) (hb : ((getThread s c t).regs.gGet (wGb w)).p = false) :
    addressChecks s c t acc store n w =
      when? ((memAddr (getThread s c t) w).toNat % n != 0) 0x03 0x01 (memAddr (getThread s c t) w) ++
        spaceChecks acc store n (memAddr (getThread s c t) w) ++ rangeChecks s c (inJob s c t) n (memAddr (getThread s c t) w) := by
  have hp : addrPoison (getThread s c t) [wGa w, wGb w] = [] :=
    addrPoison_eq_nil (fun k hk => by
      simp only [List.mem_cons, List.not_mem_nil, or_false] at hk
      rcases hk with rfl | rfl <;> assumption)
  rw [addressChecks, hp]

theorem firstCand_base_poisoned (ha : ((getThread s c t).regs.gGet (wGa w)).p = true) :
    firstCand (addressChecks s c t acc store n w) = some ⟨0x06, 0x01, word (wGa w)⟩ := by
  cases hb : ((getThread s c t).regs.gGet (wGb w)).p <;> simp [addressChecks, addrPoison, ha, hb, firstCand]

theorem firstCand_index_poisoned (ha : ((getThread s c t).regs.gGet (wGa w)).p = false)
    (hb : ((getThread s c t).regs.gGet (wGb w)).p = true) :
    firstCand (addressChecks s c t acc store n w) = some ⟨0x06, 0x01, word (wGb w)⟩ := by
  simp [addressChecks, addrPoison, ha, hb, firstCand]

theorem six_le_rank {code sub : Nat} {info : Word} (h : 6 ≤ (cand code sub 0).rank) : 6 ≤ (cand code sub info).rank := h

theorem spaceChecks_rank {a : Word} {y : Cand} (h : y ∈ spaceChecks acc store n a) : 6 ≤ y.rank := by
  unfold spaceChecks at h
  split at h
  case h_5 | h_6 => rw [mem_when? h]; exact six_le_rank (by decide)
  all_goals rw [List.mem_singleton.1 h]; exact six_le_rank (by decide)

theorem rangeChecks_rank {job : Bool} {a : Word} {y : Cand} (h : y ∈ rangeChecks s c job n a) : 6 ≤ y.rank := by
  have hwhen {b : Bool} {code sub : Nat} {info : Word} (hr : 6 ≤ (cand code sub 0).rank) (h : y ∈ when? b code sub info) : 6 ≤ y.rank := by
    rw [mem_when? h]; exact six_le_rank hr
  have hone {code sub : Nat} {info : Word} (hr : 6 ≤ (cand code sub 0).rank) (h : y ∈ [cand code sub info]) : 6 ≤ y.rank := by
    rw [List.mem_singleton.1 h]; exact six_le_rank hr
  unfold rangeChecks at h
  dsimp only at h
  split at h
  case h_8 => cases h
  case h_1 | h_3 | h_4 | h_7 =>
    split at h
    · exact hone (by decide) h
    · exact hwhen (by decide) h
  all_goals exact hwhen (by decide) h

/-- A misaligned access takes 0x03 before any other condition of its address. -/
theorem firstCand_misaligned {job : Bool} {a : Word} (h : a.toNat % n ≠ 0) :
    firstCand (when? (a.toNat % n != 0) 0x03 0x01 a ++ spaceChecks acc store n a ++ rangeChecks s c job n a) = some ⟨0x03, 0x01, a⟩ := by
  have hb : (a.toNat % n != 0) = true := bne_iff_ne.2 h
  rw [hb, when?_true, List.append_assoc, List.singleton_append]
  refine firstCand_head (fun y hy => ?_)
  have hrank : 6 ≤ y.rank := by
    rcases List.mem_append.1 hy with hy | hy
    · exact spaceChecks_rank hy
    · exact rangeChecks_rank hy
  have h1 : ¬ y.rank < 5 := by omega
  have h2 : (y.rank == 5) = false := beq_false_of_ne (by omega)
  simp [beats, cand, excRank, h1, h2]

/-- The checks of an aligned access, by its space. -/
theorem when?_aligned {a : Word} (h : a.toNat % n = 0) : when? (a.toNat % n != 0) 0x03 0x01 a = [] := by
  simp [h]

theorem spaceChecks_absent {a : Word} (h : field a 63 56 = 5 ∨ (6 < field a 63 56 ∧ field a 63 56 ≠ 0x0F)) :
    spaceChecks acc store n a = [cand 0x05 0x01 a] := by
  unfold spaceChecks
  split
  case h_6 => exact if_pos (by simp only [Bool.or_eq_true, beq_iff_eq, decide_eq_true_eq]; omega)
  all_goals omega

theorem rangeChecks_absent {job : Bool} {a : Word} (h : field a 63 56 = 5 ∨ (6 < field a 63 56 ∧ field a 63 56 ≠ 0x0F)) :
    rangeChecks s c job n a = [] := by
  unfold rangeChecks
  dsimp only
  split
  case h_8 => rfl
  all_goals omega

theorem spaceChecks_local {a : Word} (h : field a 63 56 = 0) : spaceChecks acc store n a = [] := by
  unfold spaceChecks; rw [h]; cases acc <;> rfl

theorem spaceChecks_gran {a : Word} (h : field a 63 56 = 1) : spaceChecks acc store n a = [] := by
  unfold spaceChecks; rw [h]; cases acc <;> rfl

theorem spaceChecks_latch {a : Word} (h : field a 63 56 = 0x04 ∨ field a 63 56 = 0x06 ∨ field a 63 56 = 0x0F) :
    spaceChecks .latch store n a = [cand 0x09 0x01 a] := by
  unfold spaceChecks
  rcases h with h | h | h <;> rw [h] <;> rfl

theorem spaceChecks_scale_host {a : Word} (h : field a 63 56 = 0x06) : spaceChecks .scale store n a = [cand 0x05 0x01 a] := by
  unfold spaceChecks; rw [h]; rfl

/-- BULK and HOST addresses: the spaces allow all but latch operations, and scale-vector accesses to HOST. -/
theorem spaceChecks_virtual {a : Word} (h : field a 63 56 = 0x04 ∨ (field a 63 56 = 0x06 ∧ acc ≠ .scale)) :
    spaceChecks acc store n a = if acc = .latch then [cand 0x09 0x01 a] else [] := by
  unfold spaceChecks
  rcases h with h | ⟨h, ha⟩
  · rw [h]; cases acc <;> rfl
  · rw [h]
    cases acc with
    | scale => exact absurd rfl ha
    | plain | latch => rfl

theorem rangeChecks_virtual {job : Bool} {a : Word} (h : field a 63 56 = 0x04 ∨ field a 63 56 = 0x06) :
    rangeChecks s c job n a = when? (field a 55 48 != 0) 0x05 0x02 a := by
  unfold rangeChecks
  rcases h with h | h <;> rw [h] <;> rfl

theorem rangeChecks_local {job : Bool} {a : Word} (h : field a 63 56 = 0) : rangeChecks s c job n a =
    if localEnd < field a 55 0 + n then [cand 0x05 0x02 a]
    else when? (job && (getCore s c).ctl.klim.toNat < field a 55 0 + n) 0x05 0x03 a := by
  unfold rangeChecks; rw [h]; rfl

theorem rangeChecks_gran {job : Bool} {a : Word} (h : field a 63 56 = 1) : rangeChecks s c job n a =
    when? (granEnd (getCore s c) < field a 55 0 + n) 0x05 0x02 a := by
  unfold rangeChecks; rw [h]; rfl

/-! ## The statement -/

theorem wSize_of_legal (hm : coreMnemonic w = some m) (hl : illegalSubs w = []) (h : accOf m ≠ .plain) : wSize w = 8 := by
  have hu : unassignedField m w = false := by
    simp only [illegalSubs, hm, List.append_eq_nil_iff] at hl
    simpa using hl.1.2
  have hsz : field w 36 34 = 3 := by
    cases m <;> simp [accOf] at h <;> simpa [unassignedField] using hu
  rw [wSize, wSZ, hsz]
  rfl

theorem memBytes_eq (hf : formsAddress m = true) (hm : coreMnemonic w = some m) (hl : illegalSubs w = []) :
    (if m = .lds ∨ m = .sts then 128 else wSize w) = memBytes m w := by
  have h8 := wSize_of_legal hm hl
  cases m <;> simp [formsAddress] at hf <;> simp [memBytes, accOf] at h8 ⊢ <;> exact h8

theorem accOf_scale_iff (hf : formsAddress m = true) :
    accOf m = .scale ↔ memBytes m w = 128 := by
  have hw := wSize_mem w
  simp only [List.mem_cons, List.not_mem_nil, or_false] at hw
  cases m <;> simp [formsAddress] at hf <;> simp [memBytes, accOf] <;> omega

theorem accOf_latch_of_mem (h : m ∈ [Mn.take, .peek, .fill, .put, .lclr]) : accOf m = .latch ∧ ∀ w, memBytes m w = 8 := by
  simp only [List.mem_cons, List.not_mem_nil, or_false] at h
  rcases h with rfl | rfl | rfl | rfl | rfl <;> exact ⟨rfl, fun _ => rfl⟩

/-- Settles O27: the first of the conditions of the address, space by space. -/
theorem badAddressesTakeTheirExceptions : Obligations.BadAddressesTakeTheirExceptions := by
  intro i m c t w s hc _ hi hr hf hs
  dsimp only
  rw [memBytes_eq hf hi.spells hi.legal]
  intro hmode
  have hpriv : memPriv c t w s = none := by
    rcases hmode with h | h
    · exact controlJob_of_keeper h _
    · exact controlJob_of_other h
  have traps {x : Exc} := address_traps (x := x) hc hi hr hf hs hpriv
  refine ⟨fun ha => traps (firstCand_base_poisoned ha), fun ha hb => traps (firstCand_index_poisoned ha hb), fun ha hb => ?_⟩
  have haddr := addressChecks_clean (acc := accOf m) (store := storeOf m) (n := memBytes m w) ha hb
  have hscale := accOf_scale_iff (w := w) hf
  generalize memAddr (getThread s c t) w = a at *
  refine ⟨fun hn => traps (haddr ▸ firstCand_misaligned hn), fun hn => ?_⟩
  rw [when?_aligned hn, List.nil_append] at haddr
  refine ⟨fun htag => traps ?_, fun hlat htag hrange => traps ?_, fun htag hres => traps ?_, fun htag hend => traps ?_,
    fun htag hend hj hk => traps ?_, fun htag hend => traps ?_⟩
  · rcases htag with h | h | ⟨h, h128⟩
    · rw [haddr, spaceChecks_absent (.inl h), rangeChecks_absent (.inl h)]; rfl
    · rw [haddr, spaceChecks_absent (.inr h), rangeChecks_absent (.inr h)]; rfl
    · rw [haddr, hscale.2 h128, spaceChecks_scale_host h, rangeChecks_virtual (.inr h)]
      cases field a 55 48 != 0 <;> rfl
  · obtain ⟨hacc, h8⟩ := accOf_latch_of_mem (of_decide_eq_true hlat)
    rw [haddr, hacc, h8, spaceChecks_latch htag, inJob_eq, hrange]
    rfl
  · have hv : field a 63 56 = 0x04 ∨ field a 63 56 = 0x06 := htag.imp_right And.left
    have hr' : (field a 55 48 != 0) = true := bne_iff_ne.2 hres
    rw [haddr, spaceChecks_virtual (htag.imp_right (fun h => ⟨h.1, mt hscale.1 h.2⟩)), rangeChecks_virtual hv, hr']
    split <;> rfl
  · rw [haddr, spaceChecks_local htag, rangeChecks_local htag, if_pos (show localEnd < _ from hend)]; rfl
  · have hb : (inJob s c t && decide ((getCore s c).ctl.klim.toNat < field a 55 0 + memBytes m w)) = true := by simp [inJob_eq, hj, hk]
    rw [haddr, spaceChecks_local htag, rangeChecks_local htag, if_neg (by simpa [localEnd] using hend), hb]; rfl
  · rw [haddr, spaceChecks_gran htag, rangeChecks_gran htag, decide_eq_true (by exact hend)]; rfl

end Sys2Proof.Machine
end


section
/-!
PROOFS. The fences, CACHE and TLBINV.
-/

namespace Sys2Proof.Machine

variable {c t : Nat} {w : Word} {s : State}

/-! ## Fences -/

/-- A fence waits while an access it covers is outstanding; then its effect takes place. -/
theorem fence_issues {m : Mn} {effect : State → State} (hi : Issues m c t w s) :
    issue m { body := fenceBody c t m effect } c t w s =
      .next (if fencePending (getCore s c) t m then s else completed c t (effect s)) := by
  have hfree : Free { body := fenceBody c t m effect } c t s := ⟨rfl, rfl, rfl⟩
  by_cases h : fencePending (getCore s c) t m = true
  · have hb : fenceBody c t m effect s = .wait := if_pos h
    rw [issue_waits hi hfree hb, if_pos h]
  · have hb : fenceBody c t m effect s = .done (advance (effect s) c t) := if_neg h
    rw [issue_finished hi hfree hb, if_neg h]
    rfl

/-! ## CACHE -/

theorem l1Drop_all (s : State) (c : Nat) :
    l1Drop s c (fun _ => true) = updCore s c (fun k => { k with mem := { k.mem with l1 := [] } }) := by
  have h : (getCore s c).mem.l1.filter (fun _ => !true) = [] := by simp
  rw [l1Drop, h, setL1]

theorem cacheLineBody_of_place {space owner off : Nat} (hp : ({ gIn := [wGa w] } : Uses).poison (getThread s c t) = [])
    (ha : l1Place s c t (gVal (getThread s c t) (wGa w)) = (some (space, owner, off), s)) :
    cacheLineBody c t w s = .done (advance (l1Kill s c space owner off) c t) := by
  unfold cacheLineBody; simp only [hp, ha]

theorem cacheLineBody_of_no_place (hp : ({ gIn := [wGa w] } : Uses).poison (getThread s c t) = [])
    (ha : l1Place s c t (gVal (getThread s c t) (wGa w)) = (none, s)) : cacheLineBody c t w s = .done (advance s c t) := by
  unfold cacheLineBody; simp only [hp, ha]

theorem l1Place_granary {a : Word} (h : field a 63 56 = 1) : l1Place s c t a = (some (1, c, field a 55 0), s) := by
  unfold l1Place; rw [h]; rfl

theorem l1Place_core_granary {a : Word} (h : field a 63 56 = 3) :
    l1Place s c t a = (some (1, aCore a.toNat, a.toNat % 2 ^ 36), s) := by
  unfold l1Place; rw [h]; rfl

theorem l1Place_local {a : Word} (h : field a 63 56 = 0) : l1Place s c t a = (none, s) := by
  unfold l1Place; rw [h]; rfl

/-! ## TLBINV -/

theorem tlbDrop_all (s : State) (c : Nat) :
    tlbDrop s c (fun _ => true) = updCore s c (fun k => { k with mem := { k.mem with tlb := [], wcache := [] } }) := by
  have h (l : List TlbEntry) : l.filter (fun _ => !true) = [] := by simp
  simp only [tlbDrop, h]

theorem tlbEntryBody_of_clean (hp : ({ gIn := [wGa w] } : Uses).poison (getThread s c t) = []) :
    tlbEntryBody c t w s = .done (advance (tlbDrop s c
      (tlbCovers (field (gVal (getThread s c t) (wGa w)) 63 56) (field (gVal (getThread s c t) (wGa w)) 47 0))) c t) := by
  unfold tlbEntryBody; simp only [hp]

/-! ## The statement -/

/-- Settles O19: a fence by what is outstanding, CACHE.INV_LINE by the space of its address, TLBINV in keeper mode. -/
theorem fencesCachesAndTranslationsInvalidate : Obligations.FencesCachesAndTranslationsInvalidate := by
  refine ⟨fun c t w s => ⟨fence_issues, fence_issues, fence_issues, fence_issues⟩, fun c t w s => ⟨fun hi => ?_,
    fun hi hr => ⟨fun ha => ?_, fun ha => ?_, fun ha => ?_⟩, fun hi hk => ?_, fun hi hk hr => ?_⟩⟩
  · exact (issue_finished hi ⟨rfl, rfl, rfl⟩ rfl).trans (by rw [l1Drop_all]; rfl)
  · exact issue_finished hi (.of_ready hr) (cacheLineBody_of_place hr.2 (l1Place_granary ha))
  · exact issue_finished hi (.of_ready hr) (cacheLineBody_of_place hr.2 (l1Place_core_granary ha))
  · exact issue_finished hi (.of_ready hr) (cacheLineBody_of_no_place hr.2 (l1Place_local ha))
  · exact (issue_finished hi ⟨rfl, rfl, keeperOnly_of_keeper hk⟩ rfl).trans (by rw [tlbDrop_all]; rfl)
  · exact issue_finished hi ⟨hr.1, rfl, keeperOnly_of_keeper hk⟩ (tlbEntryBody_of_clean hr.2)

end Sys2Proof.Machine
end

section
/-!
PROOFS. What a read and a write of a memory leave of its bytes and marks (07 R261, R274).
-/

namespace Sys2Proof.Machine

variable {m : Mem} {p : Bool} {a n : Nat} {bs : List Byte}

/-! ## Bytes and numbers -/

@[simp] theorem toBytes_length (n v : Nat) : (toBytes n v).length = n := by
  induction n generalizing v with
  | zero => rfl
  | succ n ih => simp [toBytes, ih]

theorem toBytes_getElem {n i : Nat} (v : Nat) (h : i < (toBytes n v).length) : (toBytes n v)[i] = BitVec.ofNat 8 (v / 256 ^ i) := by
  induction n generalizing v i with
  | zero => exact absurd h (Nat.not_lt_zero i)
  | succ n ih =>
    cases i with
    | zero => simp [toBytes]
    | succ i =>
      simp only [toBytes, List.getElem_cons_succ]
      rw [ih, Nat.div_div_eq_div_mul, Nat.pow_succ']

theorem getBytes_congr {m' : Mem} (h : ∀ x, m'.byte x = m.byte x) (a n : Nat) : m'.getBytes a n = m.getBytes a n := by
  induction n generalizing a with
  | zero => rfl
  | succ n ih => simp only [Mem.getBytes, h, ih]

/-! ## Reads -/

theorem probe_byte (m : Mem) (w x : Nat) : (m.probe w).1.byte x = m.byte x := by rw [Mem.byte, probe_bytes]; rfl

theorem probe_readable {w : Nat} (h : (m.mark w).ecc ≠ .unc) : m.probe w = (m, false) := if_neg h

theorem probe_found (m : Mem) (w : Nat) : (m.probe w).2 = decide ((m.mark w).ecc = .unc) := by
  unfold Mem.probe; split <;> simp [*]

theorem probes_byte (m : Mem) (w n x : Nat) : (m.probes w n).1.byte x = m.byte x := by
  induction n generalizing m w with
  | zero => rfl
  | succ n ih => exact (ih (m.probe w).1 (w + 1)).trans (probe_byte m w x)

theorem probes_mark (m : Mem) (w n x : Nat) :
    (m.probes w n).1.mark x = if w ≤ x ∧ x < w + n then probedMark (m.mark x) else m.mark x := by
  induction n generalizing m w with
  | zero => rw [if_neg (by omega)]; rfl
  | succ n ih =>
    have h : (m.probes w (n + 1)).1 = ((m.probe w).1.probes (w + 1) n).1 := rfl
    rw [h, ih, probe_mark]
    by_cases hx : x = w
    · rw [if_neg (by omega), if_pos hx, if_pos (by omega)]
    · by_cases hr : w + 1 ≤ x ∧ x < w + 1 + n
      · rw [if_pos hr, if_neg hx, if_pos (by omega)]
      · rw [if_neg hr, if_neg hx, if_neg (by omega)]

theorem probedMark_poison (k : Mark) : (probedMark k).poison = (k.poison || k.ecc == .unc) := by
  by_cases h : k.ecc = .unc <;> simp [probedMark, h]

/-- The poison of each word read. -/
theorem probes_poison (m : Mem) (w n : Nat) :
    (m.probes w n).2.1 = (List.range n).map (fun i => (m.mark (w + i)).poison || (m.mark (w + i)).ecc == .unc) := by
  induction n generalizing m w with
  | zero => rfl
  | succ n ih =>
    have h : (m.probes w (n + 1)).2.1 = ((m.probe w).1.mark w).poison :: ((m.probe w).1.probes (w + 1) n).2.1 := rfl
    rw [h, ih, List.range_succ_eq_map, List.map_cons, List.map_map, probe_mark, if_pos rfl, probedMark_poison]
    refine congrArg (List.cons _) (List.map_congr_left (fun i _ => ?_))
    have hi : w + 1 + i = w + (i + 1) := by omega
    simp only [probe_mark, Function.comp_apply, hi, Nat.succ_eq_add_one]
    rw [if_neg (by omega)]

/-- The words a read found uncorrectable were so, and are in its range. -/
theorem mem_probes_found {w : Nat} (h : a ∈ (m.probes w n).2.2) : ∃ x, a = 8 * x ∧ w ≤ x ∧ x < w + n ∧ (m.mark x).ecc = .unc := by
  induction n generalizing m w with
  | zero => exact absurd h List.not_mem_nil
  | succ n ih =>
    have hf : (m.probes w (n + 1)).2.2 =
        if (m.probe w).2 then 8 * w :: ((m.probe w).1.probes (w + 1) n).2.2 else ((m.probe w).1.probes (w + 1) n).2.2 := rfl
    have tail (ht : a ∈ ((m.probe w).1.probes (w + 1) n).2.2) : ∃ x, a = 8 * x ∧ w ≤ x ∧ x < w + (n + 1) ∧ (m.mark x).ecc = .unc := by
      obtain ⟨x, hx, hl, hu, he⟩ := ih ht
      rw [probe_mark, if_neg (by omega)] at he
      exact ⟨x, hx, by omega, by omega, he⟩
    rw [hf, probe_found] at h
    split at h
    · rename_i hu
      rcases List.mem_cons.1 h with rfl | ht
      · exact ⟨w, rfl, le_refl w, by omega, of_decide_eq_true hu⟩
      · exact tail ht
    · exact tail h

/-- A read of words that can be read changes nothing. -/
theorem probes_readable {w : Nat} (h : ∀ i < n, (m.mark (w + i)).ecc ≠ .unc) : (m.probes w n).1 = m ∧ (m.probes w n).2.2 = [] := by
  induction n generalizing w with
  | zero => exact ⟨rfl, rfl⟩
  | succ n ih =>
    have hp : m.probe w = (m, false) := probe_readable (h 0 (by omega))
    obtain ⟨h1, h2⟩ := ih (w := w + 1) (fun i hi => by rw [show w + 1 + i = w + (i + 1) by omega]; exact h _ (by omega))
    have e1 : (m.probes w (n + 1)).1 = ((m.probe w).1.probes (w + 1) n).1 := rfl
    have e2 : (m.probes w (n + 1)).2.2 =
        if (m.probe w).2 then 8 * w :: ((m.probe w).1.probes (w + 1) n).2.2 else ((m.probe w).1.probes (w + 1) n).2.2 := rfl
    rw [e1, e2, hp]
    exact ⟨h1, h2⟩

theorem read_byte (m : Mem) (a n x : Nat) : (m.read a n).mem.byte x = m.byte x := probes_byte m _ _ x

theorem read_data (m : Mem) (a n : Nat) : (m.read a n).data = m.getBytes a n := getBytes_congr (read_byte m a n) a n

/-! ## Writes of a part of a word -/

/-- Poisoned data makes its word poison and changes no byte. -/
theorem writeWord_poisoned (m : Mem) (a : Nat) (bs : List Byte) : (m.writeWord true true a bs).1 =
    (m.probe (a / 8)).1.setMark (a / 8) { probedMark (m.mark (a / 8)) with poison := true, ecc := .clean } := by
  have h := probe_mark m (a / 8) (a / 8)
  rw [if_pos rfl] at h
  unfold Mem.writeWord
  simp [h]

/-- Unpoisoned data lands where it is a whole word or its word is clean. -/
theorem writeWord_lands (h : bs.length = 8 ∨ (probedMark (m.mark (a / 8))).poison = false) : (m.writeWord true false a bs).1 =
    ((m.probe (a / 8)).1.setBytes a bs).setMark (a / 8) { probedMark (m.mark (a / 8)) with poison := false, ecc := .clean } := by
  have hk := probe_mark m (a / 8) (a / 8)
  rw [if_pos rfl] at hk
  unfold Mem.writeWord
  rcases h with h | h
  · simp [hk, h]
  · by_cases h8 : bs.length = 8
    · simp [hk, h8]
    · simp only [Bool.true_or, if_true, hk, Bool.false_eq_true, if_false, beq_false_of_ne h8, h]

/-- A part of a poisoned word stays as it is. -/
theorem writeWord_kept (hb : bs.length ≠ 8) (h : (probedMark (m.mark (a / 8))).poison = true) :
    (m.writeWord true false a bs).1 = (m.probe (a / 8)).1 := by
  have hk := probe_mark m (a / 8) (a / 8)
  rw [if_pos rfl] at hk
  unfold Mem.writeWord
  simp [hk, hb, h]

theorem writeWord_found (m : Mem) (p : Bool) (a : Nat) (bs : List Byte) :
    (m.writeWord true p a bs).2 = if (m.mark (a / 8)).ecc = .unc then [8 * (a / 8)] else [] := by
  unfold Mem.writeWord
  by_cases h : (m.mark (a / 8)).ecc = .unc <;> simp [Mem.probe, h]

/-- The three things that a write inside one word can do. -/
theorem writeWord_cases (m : Mem) (p : Bool) (a : Nat) (bs : List Byte) :
    (m.writeWord true p a bs).1 = (m.probe (a / 8)).1 ∨ ∃ q, (m.writeWord true p a bs).1 =
      (if p then (m.probe (a / 8)).1 else (m.probe (a / 8)).1.setBytes a bs).setMark (a / 8)
        { probedMark (m.mark (a / 8)) with poison := q, ecc := .clean } := by
  cases p with
  | true => exact .inr ⟨true, writeWord_poisoned m a bs⟩
  | false =>
    by_cases h : bs.length = 8 ∨ (probedMark (m.mark (a / 8))).poison = false
    · exact .inr ⟨false, writeWord_lands h⟩
    · rw [not_or, Bool.not_eq_false] at h
      exact .inl (writeWord_kept h.1 h.2)

theorem writeWord_byte_outside (m : Mem) (p : Bool) (a : Nat) (bs : List Byte) {x : Nat} (h : x < a ∨ a + bs.length ≤ x) :
    (m.writeWord true p a bs).1.byte x = m.byte x := by
  rcases writeWord_cases m p a bs with he | ⟨q, he⟩
  · rw [he, probe_byte]
  · rw [he, setMark_byte]
    cases p with
    | true => exact probe_byte m _ x
    | false => exact (setBytes_byte_outside _ a bs h).trans (probe_byte m _ x)

theorem writeWord_mark_other (m : Mem) (p : Bool) (a : Nat) (bs : List Byte) {x : Nat} (h : x ≠ a / 8) :
    (m.writeWord true p a bs).1.mark x = m.mark x := by
  rcases writeWord_cases m p a bs with he | ⟨q, he⟩
  · rw [he, probe_mark, if_neg h]
  · rw [he, setMark_mark_other _ _ h]
    cases p <;> simp [probe_mark, h]

/-- The word written can be read afterwards, and is full where it was or could not be read before. -/
theorem writeWord_mark_same (m : Mem) (p : Bool) (a : Nat) (bs : List Byte) :
    ((m.writeWord true p a bs).1.mark (a / 8)).full = (probedMark (m.mark (a / 8))).full ∧
      ((m.writeWord true p a bs).1.mark (a / 8)).ecc ≠ .unc := by
  have hp : (probedMark (m.mark (a / 8))).ecc ≠ .unc := by
    by_cases h : (m.mark (a / 8)).ecc = .unc <;> simp [probedMark, h]
  rcases writeWord_cases m p a bs with he | ⟨q, he⟩
  · rw [he, probe_mark, if_pos rfl]; exact ⟨rfl, hp⟩
  · rw [he, setMark_mark_same]; exact ⟨rfl, nofun⟩

/-! ## Writes of any length -/

/-- One step of a write: the part in its first word, then the rest. -/
theorem writeFrom_step {k : Nat} (hb : bs ≠ []) (m : Mem) (p : Bool) (a : Nat) : Mem.writeFrom true p (k + 1) m a bs =
    ((Mem.writeFrom true p k (m.writeWord true p a (bs.take (8 - a % 8))).1 (a + (8 - a % 8)) (bs.drop (8 - a % 8))).1,
      (m.writeWord true p a (bs.take (8 - a % 8))).2 ++
        (Mem.writeFrom true p k (m.writeWord true p a (bs.take (8 - a % 8))).1 (a + (8 - a % 8)) (bs.drop (8 - a % 8))).2) := by
  rw [Mem.writeFrom, if_neg (by simpa using hb)]

@[simp] theorem writeFrom_nil (k : Nat) (m : Mem) (p : Bool) (a : Nat) : Mem.writeFrom true p k m a [] = (m, []) := by
  cases k <;> simp [Mem.writeFrom]

/-- A write inside one word is one step. -/
theorem writeFrom_oneWord {k : Nat} (hb : bs ≠ []) (hr : bs.length ≤ 8 - a % 8) (m : Mem) (p : Bool) :
    Mem.writeFrom true p (k + 1) m a bs = m.writeWord true p a bs := by
  rw [writeFrom_step hb, List.take_of_length_le hr, List.drop_of_length_le hr, writeFrom_nil]
  simp

theorem writeFrom_byte_outside {k x : Nat} (m : Mem) (p : Bool) (h : x < a ∨ a + bs.length ≤ x) :
    (Mem.writeFrom true p k m a bs).1.byte x = m.byte x := by
  induction k generalizing m a bs with
  | zero => rfl
  | succ k ih =>
    by_cases hb : bs = []
    · rw [hb, writeFrom_nil]
    · rw [writeFrom_step hb]
      refine (ih _ ?_).trans (writeWord_byte_outside m p a _ ?_)
      · rw [List.length_drop]; omega
      · rw [List.length_take]; omega

theorem writeFrom_mark_outside {k x : Nat} (m : Mem) (p : Bool) (h : x < a / 8 ∨ (a + bs.length - 1) / 8 < x) :
    (Mem.writeFrom true p k m a bs).1.mark x = m.mark x := by
  induction k generalizing m a bs with
  | zero => rfl
  | succ k ih =>
    by_cases hb : bs = []
    · rw [hb, writeFrom_nil]
    · have hlen : 0 < bs.length := List.length_pos_of_ne_nil hb
      rw [writeFrom_step hb]
      by_cases hr : bs.length ≤ 8 - a % 8
      · rw [List.drop_of_length_le hr, writeFrom_nil]
        exact writeWord_mark_other m p a _ (by omega)
      · refine (ih _ ?_).trans (writeWord_mark_other m p a _ (by omega))
        rw [List.length_drop]; omega

theorem write_byte_outside (m : Mem) (p : Bool) (a : Nat) (bs : List Byte) {x : Nat} (h : x < a ∨ a + bs.length ≤ x) :
    (m.write true p a bs).mem.byte x = m.byte x := writeFrom_byte_outside (k := bs.length + 1) m p h

theorem write_mark_outside (m : Mem) (p : Bool) (a : Nat) (bs : List Byte) {x : Nat} (h : x < a / 8 ∨ (a + bs.length - 1) / 8 < x) :
    (m.write true p a bs).mem.mark x = m.mark x := writeFrom_mark_outside (k := bs.length + 1) m p h

/-- A mark at which a latch operation has nothing to wait for: full, and readable. -/
def Mark.settled (k : Mark) : Prop := k.full = true ∧ k.ecc ≠ .unc

theorem writeWord_settled {p : Bool} {x : Nat} (h : (m.mark x).settled) : ((m.writeWord true p a bs).1.mark x).settled := by
  by_cases hx : x = a / 8
  · obtain ⟨hf, he⟩ := writeWord_mark_same m p a bs
    subst hx
    exact ⟨by rw [hf, probedMark, if_neg h.2]; exact h.1, he⟩
  · rw [writeWord_mark_other _ _ _ _ hx]; exact h

theorem writeFrom_settled {k x : Nat} (h : (m.mark x).settled) : ((Mem.writeFrom true p k m a bs).1.mark x).settled := by
  induction k generalizing m a bs with
  | zero => exact h
  | succ k ih =>
    by_cases hb : bs = []
    · rw [hb, writeFrom_nil]; exact h
    · rw [writeFrom_step hb]; exact ih (writeWord_settled h)

theorem writeWord_unc {x : Nat} (h : ((m.writeWord true p a bs).1.mark x).ecc = .unc) : (m.mark x).ecc = .unc := by
  by_cases hx : x = a / 8
  · subst hx; exact absurd h (writeWord_mark_same m p a bs).2
  · rwa [writeWord_mark_other _ _ _ _ hx] at h

/-- The words a write found uncorrectable were so, and are full and readable after it. -/
theorem mem_writeFrom_found {k y : Nat} (h : y ∈ (Mem.writeFrom true p k m a bs).2) :
    ∃ x, y = 8 * x ∧ (m.mark x).ecc = .unc ∧ ((Mem.writeFrom true p k m a bs).1.mark x).settled := by
  induction k generalizing m a bs with
  | zero => exact absurd h List.not_mem_nil
  | succ k ih =>
    by_cases hb : bs = []
    · rw [hb, writeFrom_nil] at h; exact absurd h List.not_mem_nil
    · rw [writeFrom_step hb] at h ⊢
      rcases List.mem_append.1 h with h | h
      · rw [writeWord_found] at h
        split at h
        · rename_i hu
          refine ⟨a / 8, List.mem_singleton.1 h, hu, writeFrom_settled ?_⟩
          obtain ⟨hf, he⟩ := writeWord_mark_same m p a (bs.take (8 - a % 8))
          exact ⟨by rw [hf, probedMark, if_pos hu], he⟩
        · exact absurd h List.not_mem_nil
      · obtain ⟨x, hx, hu, hs⟩ := ih h
        exact ⟨x, hx, writeWord_unc hu, hs⟩

/-! ## Writes of whole words -/

/-- A write of k whole words: unpoisoned, every byte lands and every word is clean. -/
theorem writeFrom_words {k f : Nat} (ha : a % 8 = 0) (hb : bs.length = 8 * k) (hf : k ≤ f) (m : Mem) :
    (∀ i, (h : i < bs.length) → (Mem.writeFrom true false f m a bs).1.byte (a + i) = bs[i]) ∧
      ∀ i < k, ((Mem.writeFrom true false f m a bs).1.mark (a / 8 + i)).poison = false := by
  induction k generalizing m a bs f with
  | zero => exact ⟨fun i h => by omega, fun i h => by omega⟩
  | succ k ih =>
    obtain ⟨f, rfl⟩ : ∃ g, f = g + 1 := ⟨f - 1, by omega⟩
    have hne : bs ≠ [] := List.ne_nil_of_length_pos (by omega)
    have hroom : 8 - a % 8 = 8 := by omega
    have hlen : (bs.take 8).length = 8 := by rw [List.length_take]; omega
    have hdrop : (bs.drop 8).length = 8 * k := by rw [List.length_drop]; omega
    obtain ⟨ihb, ihm⟩ := ih (a := a + 8) (bs := bs.drop 8) (f := f) (by omega) hdrop (by omega) (m.writeWord true false a (bs.take 8)).1
    rw [writeFrom_step hne, hroom]
    refine ⟨fun i h => ?_, fun i h => ?_⟩
    · by_cases hi : i < 8
      · rw [writeFrom_byte_outside _ _ (.inl (by omega)), writeWord_lands (.inl hlen), setMark_byte,
          setBytes_byte_inside _ _ _ (by omega), List.getElem_take]
      · have hj : i - 8 < (bs.drop 8).length := by omega
        have := ihb (i - 8) hj
        rw [show a + 8 + (i - 8) = a + i by omega] at this
        rw [this, List.getElem_drop]
        exact getElem_congr_idx (by omega)
    · by_cases hi : i = 0
      · subst hi
        rw [writeFrom_mark_outside _ _ (.inl (by omega)), writeWord_lands (.inl hlen)]
        simp
      · have := ihm (i - 1) (by omega)
        rwa [show (a + 8) / 8 + (i - 1) = a / 8 + i by omega] at this

/-- A poisoned write of k whole words makes each of them poison. -/
theorem writeFrom_words_poisoned {k f : Nat} (ha : a % 8 = 0) (hb : bs.length = 8 * k) (hf : k ≤ f) (m : Mem) :
    ∀ i < k, ((Mem.writeFrom true true f m a bs).1.mark (a / 8 + i)).poison = true := by
  induction k generalizing m a bs f with
  | zero => exact fun i h => by omega
  | succ k ih =>
    intro i h
    obtain ⟨f, rfl⟩ : ∃ g, f = g + 1 := ⟨f - 1, by omega⟩
    have hne : bs ≠ [] := List.ne_nil_of_length_pos (by omega)
    have hroom : 8 - a % 8 = 8 := by omega
    have hdrop : (bs.drop 8).length = 8 * k := by rw [List.length_drop]; omega
    rw [writeFrom_step hne, hroom]
    by_cases hi : i = 0
    · subst hi
      rw [writeFrom_mark_outside _ _ (.inl (by omega)), writeWord_poisoned]
      simp
    · have := ih (a := a + 8) (bs := bs.drop 8) (f := f) (by omega) hdrop (by omega) (m.writeWord true true a (bs.take 8)).1 (i - 1)
        (by omega)
      rwa [show (a + 8) / 8 + (i - 1) = a / 8 + i by omega] at this

end Sys2Proof.Machine
end

section
/-!
PROOFS. Loads and stores of a core's own LOCAL memory (02 R80–R84; 07 R261, R274).
-/

namespace Sys2Proof.Machine

variable {s s1 : State} {c t : Nat} {w : Word} {gran store : Bool} {acc : Acc} {n : Nat} {kind : ReqKind}

/-! ## What an access to a core's memory leaves -/

/-- Bulk memory and the counters of OD 0B, which an access to a core's memory leaves alone. -/
def besideCores (s : State) : Mem × OD := (s.bulk, s.od)

theorem besideCores_setCoreMem (s : State) (gran : Bool) (c : Nat) (m : Mem) : besideCores (setCoreMem s gran c m) = besideCores s := by
  cases gran <;> rfl

theorem sendEvent_od (s : State) (e : Event) : (sendEvent s e).od = s.od := by
  unfold sendEvent; split <;> rfl

theorem besideCores_sendEvent (s : State) (e : Event) : besideCores (sendEvent s e) = besideCores s := by
  rw [besideCores, sendEvent_bulk, sendEvent_od]; rfl

theorem besideCores_reportUncorr (s : State) (gran : Bool) (source : Nat) (l : List Nat) :
    besideCores (reportUncorr s (boolN gran) source l) = besideCores s := by
  induction l generalizing s with
  | nil => rfl
  | cons a l ih =>
    have hk : boolN gran ≠ 2 := by cases gran <;> decide
    rw [reportUncorr, ih, if_neg hk, besideCores_sendEvent]
    rfl

theorem besideCores_wordProbe (s : State) (gran : Bool) (c x : Nat) : besideCores (wordProbe s gran c x).1 = besideCores s := by
  simp only [wordProbe]
  split <;> simp only [besideCores_reportUncorr, besideCores_setCoreMem]

theorem besideCores_setWaiters (s : State) (c : Nat) (l : List Waiter) : besideCores (setWaiters s c l) = besideCores s := rfl

theorem besideCores_answerReq (s : State) (c id v : Nat) (p : Bool) : besideCores (answerReq s c id v p) = besideCores s := rfl

theorem besideCores_serveWord (gran : Bool) (c x n : Nat) (s : State) : besideCores (serveWord gran c x n s) = besideCores s := by
  induction n generalizing s with
  | zero => rfl
  | succ n ih =>
    have hp := besideCores_wordProbe s gran c x
    have hpeeks (l : List Waiter) (v : Nat) (p : Bool) :
        besideCores (l.foldl (fun s x => answerReq s x.core x.req v p) (wordProbe s gran c x).1) = besideCores s :=
      (foldl_keeps besideCores (fun _ _ => besideCores_answerReq _ _ _ _ _) l _).trans hp
    unfold serveWord
    dsimp only
    split
    · split
      · rw [besideCores_setWaiters, hpeeks]
      · rw [ih, latchSet, besideCores_setCoreMem, besideCores_answerReq, besideCores_setWaiters, hpeeks]
    · split
      · exact hp
      · rw [ih, latchWrite, besideCores_setCoreMem, besideCores_answerReq, besideCores_setWaiters, hp]

theorem besideCores_serve (s : State) (gran : Bool) (c x : Nat) : besideCores (serve s gran c x) = besideCores s :=
  besideCores_serveWord gran c x _ s

theorem besideCores_countCorrCore (s : State) (c n : Nat) : besideCores (countCorrCore s c n) = besideCores s := by
  unfold countCorrCore; split <;> rfl

theorem countCorrCore_recorder (s : State) (c n : Nat) : (countCorrCore s c n).recorder = s.recorder := by
  unfold countCorrCore; split <;> rfl

theorem besideCores_coreAccess (s : State) (gran : Bool) (c k : Nat) (r : MemAcc) :
    besideCores (coreAccess s gran c k r) = besideCores s := by
  rw [coreAccess, serveFound, foldl_keeps besideCores (fun _ _ => besideCores_serve _ _ _ _), besideCores_countCorrCore,
    besideCores_reportUncorr, besideCores_setCoreMem]

theorem besideCores_coreRead (s : State) (gran : Bool) (c a n : Nat) : besideCores (coreRead s gran c a n).st = besideCores s :=
  besideCores_coreAccess s gran c _ _

theorem besideCores_coreWrite (s : State) (gran : Bool) (c : Nat) (p : Bool) (a : Nat) (bs : List Byte) :
    besideCores (coreWrite s gran c p a bs) = besideCores s := besideCores_coreAccess s gran c _ _

/-- An access whose words found uncorrectable are full and readable after it, and await no latch operation, replaces the memory. -/
theorem getCore_coreAccess {k : Nat} {r : MemAcc} (hq : quietMem s gran c)
    (hf : ∀ y ∈ r.found, ∃ x, y = 8 * x ∧ ((coreMem s gran c).mark x).ecc = .unc ∧ (r.mem.mark x).settled) (d : Nat) :
    getCore (coreAccess s gran c k r) d = getCore (setCoreMem s gran c r.mem) d := by
  have hcore (d : Nat) : getCore (countCorrCore (reportUncorr (setCoreMem s gran c r.mem) (boolN gran) (srcCore c) r.found) c k) d =
      getCore (setCoreMem s gran c r.mem) d := by simp only [getCore, countCorrCore_cores, reportUncorr_cores]
  rw [coreAccess, getCore_serveFound_idle (fun y hy => ?_), hcore]
  obtain ⟨x, rfl, hu, hs⟩ := hf y hy
  rw [Nat.mul_div_cancel_left x (by decide : 0 < 8)]
  have hm : ∀ s', (∀ d, getCore s' d = getCore (setCoreMem s gran c r.mem) d) → coreMem s' gran c = r.mem := fun s' h => by
    rw [coreMem, h, ← coreMem, coreMem_setCoreMem_same]
  refine ⟨?_, ?_, fun z hz => ?_⟩
  · rw [hm _ hcore]; exact hs.1
  · rw [hm _ hcore]; exact hs.2
  · rw [hcore, latch_setCoreMem] at hz
    by_contra hw
    simp only [sameWord, Bool.and_eq_true, beq_iff_eq, Bool.not_eq_false] at hw
    exact hq z hz hw.1 (hw.2 ▸ hu)

theorem getCore_coreRead (hq : quietMem s gran c) (a n d : Nat) :
    getCore (coreRead s gran c a n).st d = getCore (setCoreMem s gran c ((coreMem s gran c).read a n).mem) d := by
  refine getCore_coreAccess hq (fun y hy => ?_) d
  obtain ⟨x, hx, hl, hu, he⟩ := mem_probes_found hy
  have hm : ((coreMem s gran c).read a n).mem.mark x = probedMark ((coreMem s gran c).mark x) :=
    (probes_mark _ _ _ _).trans (if_pos ⟨hl, hu⟩)
  refine ⟨x, hx, he, ?_⟩
  rw [hm, probedMark, if_pos he]
  exact ⟨rfl, nofun⟩

theorem getCore_coreWrite (hq : quietMem s gran c) (p : Bool) (a : Nat) (bs : List Byte) (d : Nat) :
    getCore (coreWrite s gran c p a bs) d = getCore (setCoreMem s gran c ((coreMem s gran c).write true p a bs).mem) d :=
  getCore_coreAccess hq (fun _ hy => mem_writeFrom_found (k := bs.length + 1) (m := coreMem s gran c) hy) d

theorem coreRead_bulk (s : State) (gran : Bool) (c a n : Nat) : (coreRead s gran c a n).st.bulk = s.bulk :=
  congrArg Prod.fst (besideCores_coreRead s gran c a n)

theorem coreWrite_bulk (s : State) (gran : Bool) (c : Nat) (p : Bool) (a : Nat) (bs : List Byte) :
    (coreWrite s gran c p a bs).bulk = s.bulk := congrArg Prod.fst (besideCores_coreWrite s gran c p a bs)

theorem coreWrite_od (s : State) (gran : Bool) (c : Nat) (p : Bool) (a : Nat) (bs : List Byte) :
    (coreWrite s gran c p a bs).od = s.od := congrArg Prod.snd (besideCores_coreWrite s gran c p a bs)

theorem coreRead_value (s : State) (gran : Bool) (c a n : Nat) :
    (coreRead s gran c a n).value = ofBytes ((coreMem s gran c).getBytes a n) := congrArg ofBytes (read_data _ a n)

/-- Whether a word that n bytes at an address touch is poisoned or cannot be read. -/
def badRun (m : Mem) (a n : Nat) : Bool :=
  (List.range (wordSpan a n)).any (fun i => (m.mark (a / 8 + i)).poison || (m.mark (a / 8 + i)).ecc == .unc)

theorem coreRead_poison (s : State) (gran : Bool) (c a n : Nat) : (coreRead s gran c a n).poison = badRun (coreMem s gran c) a n := by
  have h : (coreRead s gran c a n).poison = ((coreMem s gran c).probes (a / 8) (wordSpan a n)).2.1.any id := rfl
  rw [h, probes_poison, List.any_map]
  rfl

/-- A read of words that are neither poisoned nor uncorrectable changes no byte and no mark, and records nothing. -/
theorem coreRead_clean (h : badRun (coreMem s gran c) a n = false) :
    ((coreMem s gran c).read a n).mem = coreMem s gran c ∧ (coreRead s gran c a n).st.recorder = s.recorder := by
  have hr : ∀ i < wordSpan a n, ((coreMem s gran c).mark (a / 8 + i)).ecc ≠ .unc := by
    intro i hi hu
    have := List.any_eq_false.1 h i (List.mem_range.2 hi)
    rw [hu] at this
    simp at this
  obtain ⟨hm, hf⟩ := probes_readable hr
  refine ⟨hm, ?_⟩
  have hst : (coreRead s gran c a n).st = countCorrCore (setCoreMem s gran c ((coreMem s gran c).read a n).mem) c
      ((coreMem s gran c).corrected (a / 8) (wordSpan a n)) := by
    have hf' : ((coreMem s gran c).read a n).found = [] := hf
    unfold coreRead coreAccess
    dsimp only
    rw [hf']
    rfl
  rw [hst, countCorrCore_recorder]
  cases gran <;> rfl

/-! ## A request added -/

theorem getCore_addReq_same (s : State) (c : Nat) (q : Nat → Req) : getCore (addReq s c q).2 c =
    { getCore s c with reqs := (getCore s c).reqs ++ [q (getCore s c).nextReq], nextReq := (getCore s c).nextReq + 1 } :=
  getCore_setCore_same _ _ _

theorem getCore_addReq_other (s : State) {c d : Nat} (q : Nat → Req) (h : d ≠ c) : getCore (addReq s c q).2 d = getCore s d :=
  getCore_setCore_other _ _ h

/-- The state after a memory instruction that made s1 of s and then added a request: its pc is past it, and it awaits a response. -/
def requested (c t : Nat) (q : Nat → Req) (s1 : State) : State := completed c t (addReq s1 c q).2

theorem getCore_completed_same (s : State) (c t : Nat) :
    getCore (completed c t s) c = { (getCore s c).noteIssue t with threads := (getCore (completed c t s) c).threads } := by
  rw [completed, getCore_finished_same, getCore_advance_same]; rfl

theorem requested_mem (s1 : State) (c t : Nat) (q : Nat → Req) : (getCore (requested c t q s1) c).mem = (getCore s1 c).mem := by
  rw [requested, completed_mem, getCore_addReq_same]

theorem requested_recorder (s1 : State) (c t : Nat) (q : Nat → Req) : (requested c t q s1).recorder = s1.recorder := by
  rw [requested, completed_rest]; rfl

/-- A change of the core's memories, and then a request. -/
theorem requested_of_mem (q : Nat → Req) (hc : getCore s1 c = { getCore s c with mem := (getCore s1 c).mem })
    (hg : (getCore s1 c).mem.gran = (getCore s c).mem.gran) (hd : ∀ d, d ≠ c → getCore s1 d = getCore s d) (hb : s1.bulk = s.bulk) :
    Requested c t (q (getCore s c).nextReq) s (requested c t q s1) where
  reqs := by rw [requested, getCore_completed_same, getCore_addReq_same, hc]; rfl
  thread := by
    rw [requested, getThread_completed_same]
    simp only [getThread, getCore_addReq_same]
    rw [hc]; rfl
  threads u hu := by
    rw [requested, getThread_completed_other _ _ hu]
    simp only [getThread, getCore_addReq_same]
    rw [hc]; rfl
  cores d h := by rw [requested, getCore_completed_other _ _ h, getCore_addReq_other _ _ h, hd d h]
  gran := by rw [requested_mem, hg]
  bulk := by rw [requested, completed_rest]; exact hb

/-! ## The checks of an address in LOCAL -/

theorem addressChecks_local (h : LocalAccess c t w store n s) : addressChecks s c t acc store n w = [] := by
  have hend : ¬ localEnd < field (memAddr (getThread s c t) w) 55 0 + n := Nat.not_lt.2 h.range
  have hk : (inJob s c t && decide ((getCore s c).ctl.klim.toNat < field (memAddr (getThread s c t) w) 55 0 + n)) = false := by
    rw [inJob_eq]
    rcases h.area with hp | hp
    · simp [hp]
    · simp [Nat.not_lt.2 hp]
  rw [addressChecks_clean h.base h.index, when?_aligned h.aligned, spaceChecks_local h.space, rangeChecks_local h.space, if_neg hend, hk]
  rfl

theorem translate_of_real {a : Word} (h : isVirtual a = false) : translate s c t store a = .none := by
  unfold translate; rw [h]; rfl

theorem isVirtual_local {a : Word} (h : field a 63 56 = 0) : isVirtual a = false := by rw [isVirtual, h]; rfl

theorem memPriv_of_tag {k : Nat} (h : field (memAddr (getThread s c t) w) 63 56 = k) (hk : k ≠ 15) : memPriv c t w s = none :=
  controlJob_of_other (by rw [← (memAddr_fields _ _).1, h]; exact hk)

theorem loadNow_local {a : Word} (h : field a 63 56 = 0) (leaf : Option TlbEntry) :
    loadNow s c t n a leaf = (coreRead s false c (field a 55 0) n).answer := by
  unfold loadNow
  rw [h]
  rfl

theorem storeNow_local {a : Word} (h : field a 63 56 = 0) (leaf : Option TlbEntry) (bs : List Byte) (p : Bool) :
    storeNow s c t a leaf bs p = (coreWrite s false c p (field a 55 0) bs, .done) := by
  unfold storeNow
  rw [h]
  rfl

/-- A load in LOCAL is answered at issue. -/
theorem loadBody_local {a : Word} (h : LocalAccess c t w false n s) (ha : memAddr (getThread s c t) w = a) :
    loadBody c t w n kind acc s =
      .done (advance (addReq (coreRead s false c (field a 55 0) n).st c
        (newReq t kind a c (field a 55 0) (inJob s c t) [] false .done (coreRead s false c (field a 55 0) n).value
          (coreRead s false c (field a 55 0) n).poison .own)).2 c t) := by
  have htag : field a 63 56 = 0 := ha ▸ h.space
  have ho : mustFollow s c t (0 == 1) false (field a 55 0) n = false := ha ▸ h.order
  unfold loadBody
  rw [addressChecks_local h, h.slot, ha]
  dsimp only
  rw [translate_of_real (isVirtual_local htag), htag, ho]
  simp only [loadNow_local htag]
  rfl

/-- A store in LOCAL is made at issue. -/
theorem storeBody_local {data : Thread → Nat × Bool} {a : Word} (h : LocalAccess c t w true n s)
    (ha : memAddr (getThread s c t) w = a) : storeBody c t w n acc data s =
      .done (advance (addReq (coreWrite s false c (data (getThread s c t)).2 (field a 55 0) (toBytes n (data (getThread s c t)).1)) c
        (newReq t .store a c (field a 55 0) (inJob s c t) (toBytes n (data (getThread s c t)).1) (data (getThread s c t)).2 .done
          0 false .own)).2 c t) := by
  have htag : field a 63 56 = 0 := ha ▸ h.space
  have ho : mustFollow s c t (0 == 1) true (field a 55 0) n = false := ha ▸ h.order
  unfold storeBody
  rw [addressChecks_local h, h.slot]
  obtain ⟨addr, haddr⟩ : ∃ addr, memAddr = addr := ⟨_, rfl⟩
  rw [haddr] at ha ⊢
  dsimp only
  rw [ha, translate_of_real (isVirtual_local htag), htag, ho]
  simp only [storeNow_local htag]
  rfl

end Sys2Proof.Machine
end

section
/-!
PROOFS. The statements of loads from and stores to LOCAL (02 R80, R84; 07 R261).
-/

namespace Sys2Proof.Machine

variable {s : State} {c t : Nat} {w a : Word} {n : Nat} {kind : ReqKind}

/-! ## One core's local memory replaced -/

/-- A core with another local memory. -/
def Core.withLocal (k : Core) (m : Mem) : Core := { k with mem := { k.mem with localMem := m } }

theorem getCore_setLocal_same (s : State) (c : Nat) (m : Mem) : getCore (setCoreMem s false c m) c = (getCore s c).withLocal m :=
  getCore_setCore_same _ _ _

theorem getCore_setLocal_other (s : State) {c d : Nat} (m : Mem) (h : d ≠ c) : getCore (setCoreMem s false c m) d = getCore s d :=
  getCore_setCore_other _ _ h

/-- An access that replaces the local memory, and then a request. -/
theorem requested_of_local {s1 : State} {m : Mem} (t : Nat) (q : Nat → Req) (h : ∀ d, getCore s1 d = getCore (setCoreMem s false c m) d)
    (hb : s1.bulk = s.bulk) : Requested c t (q (getCore s c).nextReq) s (requested c t q s1) ∧
      (getCore (requested c t q s1) c).mem.localMem = m := by
  have hc : getCore s1 c = (getCore s c).withLocal m := (h c).trans (getCore_setLocal_same s c m)
  refine ⟨requested_of_mem q ?_ ?_ (fun d hd => (h d).trans (getCore_setLocal_other s m hd)) hb, ?_⟩
  · rw [hc]; rfl
  · rw [hc]; rfl
  · rw [requested_mem, hc]; rfl

/-! ## Loads -/

/-- The request that a load of n bytes at an address in the core's local memory adds. -/
def localLoad (s : State) (c t : Nat) (a : Word) (n : Nat) (kind : ReqKind) : Nat → Req :=
  newReq t kind a c (field a 55 0) (inJob s c t) [] false .done (coreRead s false c (field a 55 0) n).value
    (coreRead s false c (field a 55 0) n).poison .own

/-- The state after such a load. -/
def loadedLocal (s : State) (c t : Nat) (a : Word) (n : Nat) (kind : ReqKind) : State :=
  requested c t (localLoad s c t a n kind) (coreRead s false c (field a 55 0) n).st

theorem load_local {m : Mn} {uses : Uses} {acc : Acc} (hi : Issues m c t w s) (hr : Ready c t uses s)
    (ha : memAddr (getThread s c t) w = a) (h : LocalAccess c t w false n s) :
    issue m { uses := uses, priv := memPriv c t w s, body := loadBody c t w n kind acc } c t w s = .next (loadedLocal s c t a n kind) := by
  have hb : loadBody c t w n kind acc s =
      .done (advance (addReq (coreRead s false c (field a 55 0) n).st c (localLoad s c t a n kind)).2 c t) := loadBody_local h ha
  generalize loadBody c t w n kind acc = body at hb ⊢
  rw [loadedLocal, requested, completed]
  exact issue_finished hi ⟨hr.free, rfl, memPriv_of_tag h.space (by decide)⟩ hb

theorem coreMem_local (s : State) (c : Nat) : coreMem s false c = (getCore s c).mem.localMem := rfl

theorem localLoad_fields (s : State) (c t : Nat) (a : Word) (n : Nat) (kind : ReqKind) (id : Nat) : let q := localLoad s c t a n kind id
    q.thread = t ∧ q.kind = kind ∧ q.stage = .done ∧ q.resp = (coreRead s false c (field a 55 0) n).value ∧
      q.respPoison = (coreRead s false c (field a 55 0) n).poison ∧ q.orphan = 0 ∧ q.cancel = none :=
  ⟨rfl, rfl, rfl, rfl, rfl, rfl, rfl⟩

/-- What a load from local memory leaves: its request holds the bytes read, and no byte has changed. -/
theorem load_local_effect (hq : quietWords (getCore s c)) (t : Nat) (a : Word) (n : Nat) (kind : ReqKind) :
    ∃ q : Req, Requested c t q s (loadedLocal s c t a n kind) ∧ q.thread = t ∧ q.kind = kind ∧ q.stage = .done ∧
      q.resp = ofBytes ((getCore s c).mem.localMem.getBytes (field a 55 0) n) ∧
      q.respPoison = badRun (getCore s c).mem.localMem (field a 55 0) n ∧ q.orphan = 0 ∧ q.cancel = none ∧
      (∀ x, (getCore (loadedLocal s c t a n kind) c).mem.localMem.byte x = (getCore s c).mem.localMem.byte x) ∧
      (badRun (getCore s c).mem.localMem (field a 55 0) n = false →
        (getCore (loadedLocal s c t a n kind) c).mem.localMem = (getCore s c).mem.localMem ∧
        (loadedLocal s c t a n kind).recorder = s.recorder) := by
  have hcore := getCore_coreRead (quietMem_of_quietWords hq false) (field a 55 0) n
  obtain ⟨hreq, hmem⟩ := requested_of_local t (localLoad s c t a n kind) hcore (coreRead_bulk s false c (field a 55 0) n)
  obtain ⟨h1, h2, h3, h4, h5, h6, h7⟩ := localLoad_fields s c t a n kind (getCore s c).nextReq
  rw [coreRead_value, coreMem_local] at h4
  rw [coreRead_poison, coreMem_local] at h5
  rw [← loadedLocal] at hreq
  rw [coreMem_local, ← loadedLocal] at hmem
  refine ⟨_, hreq, h1, h2, h3, h4, h5, h6, h7, fun x => ?_, fun hb => ?_⟩
  · rw [hmem, read_byte]
  · obtain ⟨hm, hrec⟩ := coreRead_clean (s := s) (gran := false) (c := c) hb
    rw [hmem]
    exact ⟨hm, by rw [loadedLocal, requested_recorder, hrec]⟩

/-- Settles O22: the access is made at issue, and its value is held in the request. -/
theorem loadsFromLocalReadTheirBytes : Obligations.LoadsFromLocalReadTheirBytes := by
  unfold Obligations.LoadsFromLocalReadTheirBytes
  intro c t w s
  obtain ⟨addr, haddr⟩ : ∃ addr, memAddr = addr := ⟨_, rfl⟩
  rw [haddr]
  intro th m off hq bad reads
  have ha : memAddr (getThread s c t) w = addr (getThread s c t) w := by rw [haddr]
  exact ⟨fun hi hr h => ⟨_, load_local hi hr ha h, load_local_effect hq t _ _ _⟩,
    fun hi hr h => ⟨_, load_local hi hr ha h, load_local_effect hq t _ _ _⟩⟩

/-! ## Stores -/

/-- The request that a store to the core's local memory adds. -/
def localStore (s : State) (c t : Nat) (a : Word) (n : Nat) (d : Nat × Bool) : Nat → Req :=
  newReq t .store a c (field a 55 0) (inJob s c t) (toBytes n d.1) d.2 .done 0 false .own

/-- The state after such a store. -/
def storedLocal (s : State) (c t : Nat) (a : Word) (n : Nat) (d : Nat × Bool) : State :=
  requested c t (localStore s c t a n d) (coreWrite s false c d.2 (field a 55 0) (toBytes n d.1))

theorem store_local {m : Mn} {uses : Uses} {acc : Acc} {data : Thread → Nat × Bool} {body : State → Res} (hi : Issues m c t w s)
    (hr : Ready c t uses s) (ha : memAddr (getThread s c t) w = a) (h : LocalAccess c t w true n s)
    (hb : body s = storeBody c t w n acc data s) :
    issue m { uses := uses, priv := memPriv c t w s, body := body } c t w s =
      .next (storedLocal s c t a n (data (getThread s c t))) := by
  rw [storedLocal, requested, completed]
  exact issue_finished hi ⟨hr.free, rfl, memPriv_of_tag h.space (by decide)⟩ (hb.trans (storeBody_local h ha))

theorem localStore_fields (s : State) (c t : Nat) (a : Word) (n : Nat) (d : Nat × Bool) (id : Nat) : let q := localStore s c t a n d id
    q.thread = t ∧ q.kind = .store ∧ q.stage = .done := ⟨rfl, rfl, rfl⟩

/-- What a store to local memory leaves: bytes and marks outside it as before, and of the memory what the write makes of it. -/
theorem store_local_effect (hq : quietWords (getCore s c)) (t : Nat) (a : Word) (n : Nat) (d : Nat × Bool) {p : Mem → Prop}
    (hp : p ((getCore s c).mem.localMem.write true d.2 (field a 55 0) (toBytes n d.1)).mem) :
    ∃ q : Req, Requested c t q s (storedLocal s c t a n d) ∧ q.thread = t ∧ q.kind = .store ∧ q.stage = .done ∧
      (∀ x, x < field a 55 0 ∨ field a 55 0 + n ≤ x →
        (getCore (storedLocal s c t a n d) c).mem.localMem.byte x = (getCore s c).mem.localMem.byte x) ∧
      (∀ x, x < field a 55 0 / 8 ∨ (field a 55 0 + n - 1) / 8 < x →
        (getCore (storedLocal s c t a n d) c).mem.localMem.mark x = (getCore s c).mem.localMem.mark x) ∧
      p (getCore (storedLocal s c t a n d) c).mem.localMem := by
  have hcore := getCore_coreWrite (quietMem_of_quietWords hq false) d.2 (field a 55 0) (toBytes n d.1)
  obtain ⟨hreq, hmem⟩ := requested_of_local t (localStore s c t a n d) hcore (coreWrite_bulk s false c d.2 (field a 55 0) _)
  obtain ⟨h1, h2, h3⟩ := localStore_fields s c t a n d (getCore s c).nextReq
  rw [← storedLocal] at hreq
  rw [coreMem_local, ← storedLocal] at hmem
  rw [hmem]
  refine ⟨_, hreq, h1, h2, h3, fun x hx => ?_, fun x hx => ?_, hp⟩
  · exact write_byte_outside _ _ _ _ (by rwa [toBytes_length n d.1])
  · exact write_mark_outside _ _ _ _ (by rwa [toBytes_length n d.1])

theorem offset_of_local (h : field a 63 56 = 0) : field a 55 0 = a.toNat := by
  have hf (hi lo : Nat) : field a hi lo = a.toNat / 2 ^ lo % 2 ^ (hi + 1 - lo) := by
    simp [field, fieldN, Nat.shiftRight_eq_div_pow]
  rw [hf] at h ⊢
  have hlt := a.isLt
  omega

/-- The bytes of an aligned store of at most a word are in one word. -/
theorem store_oneWord (h : field a 63 56 = 0) (hal : a.toNat % wSize w = 0) : 0 < wSize w ∧ wSize w ≤ 8 - field a 55 0 % 8 := by
  rw [offset_of_local h]
  have hw := wSize_mem w
  simp only [List.mem_cons, List.not_mem_nil, or_false] at hw
  rcases hw with hw | hw | hw | hw <;> rw [hw] at hal ⊢ <;> omega

/-- What a store of n bytes of v inside one word of memory m makes of it, m', by the poison rule (07 R261). -/
def PartStored (m : Mem) (off n : Nat) (v : Nat) (p : Bool) (m' : Mem) : Prop :=
  (p = true → (m'.mark (off / 8)).poison = true) ∧
  (p = false → n = 8 ∨ ((m.mark (off / 8)).poison = false ∧ (m.mark (off / 8)).ecc ≠ .unc) →
    (∀ i, i < n → m'.byte (off + i) = BitVec.ofNat 8 (v / 256 ^ i)) ∧
    (m'.mark (off / 8)).poison = false ∧ ((m.mark (off / 8)).ecc ≠ .unc → (m'.mark (off / 8)).full = (m.mark (off / 8)).full)) ∧
  (p = false → n < 8 → (m.mark (off / 8)).poison = true → (m.mark (off / 8)).ecc ≠ .unc → m' = m)

theorem write_oneWord (m : Mem) {off n : Nat} (v : Nat) (p : Bool) (hn : 0 < n) (hr : n ≤ 8 - off % 8) :
    PartStored m off n v p (m.write true p off (toBytes n v)).mem := by
  have hw : (m.write true p off (toBytes n v)).mem = (m.writeWord true p off (toBytes n v)).1 :=
    congrArg Prod.fst (writeFrom_oneWord (List.ne_nil_of_length_pos (by rwa [toBytes_length])) (by rwa [toBytes_length]) m p)
  have hread (hu : (m.mark (off / 8)).ecc ≠ .unc) : probedMark (m.mark (off / 8)) = m.mark (off / 8) := if_neg hu
  rw [hw]
  refine ⟨fun hp => ?poisoned, fun hp hl => ?lands, fun hp h8 ho hu => ?kept⟩ <;> subst hp
  case poisoned => rw [writeWord_poisoned, setMark_mark_same]
  case lands =>
    have hland : (toBytes n v).length = 8 ∨ (probedMark (m.mark (off / 8))).poison = false := by
      rw [toBytes_length]
      exact hl.imp_right (fun h => by rw [hread h.2]; exact h.1)
    rw [writeWord_lands hland, setMark_mark_same]
    refine ⟨fun i hi => ?_, rfl, fun hu => by rw [hread hu]⟩
    have hi' : i < (toBytes n v).length := by rwa [toBytes_length]
    rw [setMark_byte, setBytes_byte_inside _ _ _ hi', toBytes_getElem]
  case kept =>
    rw [writeWord_kept (by rw [toBytes_length]; omega) (by rw [hread hu]; exact ho), probe_readable hu]

/-- What a store of k whole words of v to a memory makes of it (07 R261). -/
def WordsStored (off k : Nat) (v : Nat) (p : Bool) (m' : Mem) : Prop :=
  (p = true → ∀ i, i < k → (m'.mark (off / 8 + i)).poison = true) ∧
  (p = false → (∀ i, i < 8 * k → m'.byte (off + i) = BitVec.ofNat 8 (v / 256 ^ i)) ∧
    ∀ i, i < k → (m'.mark (off / 8 + i)).poison = false)

theorem write_words (m : Mem) {off k : Nat} (v : Nat) (p : Bool) (ha : off % 8 = 0) :
    WordsStored off k v p (m.write true p off (toBytes (8 * k) v)).mem := by
  have hlen : (toBytes (8 * k) v).length = 8 * k := toBytes_length _ _
  have hfuel : k ≤ (toBytes (8 * k) v).length + 1 := by omega
  obtain ⟨hbyte, hmark⟩ := writeFrom_words ha hlen hfuel m
  refine ⟨fun hp => ?_, fun hp => ?_⟩ <;> subst hp
  · exact writeFrom_words_poisoned ha hlen hfuel m
  · exact ⟨fun i hi => (hbyte i (by omega)).trans (toBytes_getElem v _), hmark⟩

/-- The scale vector that STS stores, and its poison. -/
def scaleData (w : Word) (th : Thread) : Nat × Bool := ((th.regs.sGet (wGd w % 4)).v.toNat, (th.regs.sGet (wGd w % 4)).p)

/-- Settles O23: the store is made at issue; a store of at most a word by the poison rule of its word, STS as sixteen whole words. -/
theorem storesToLocalWriteTheirBytes : Obligations.StoresToLocalWriteTheirBytes := by
  unfold Obligations.StoresToLocalWriteTheirBytes
  intro c t w s
  obtain ⟨addr, haddr⟩ : ∃ addr, memAddr = addr := ⟨_, rfl⟩
  rw [haddr]
  intro th m off hq stored r v old
  have ha : memAddr (getThread s c t) w = addr (getThread s c t) w := by rw [haddr]
  refine ⟨fun hi hr h => ⟨_, store_local hi hr ha h rfl, ?_⟩, fun hi hr hb h => ⟨_, store_local (data := scaleData w) hi hr ha h (if_neg (by simp [hb])), ?_⟩⟩
  · have hsp := h.space
    have hal := h.aligned
    rw [ha] at hsp hal
    obtain ⟨hpos, hroom⟩ := store_oneWord hsp hal
    have hw : PartStored m off (wSize w) r.v.toNat r.p (m.write true (gData w th).2 off (toBytes (wSize w) (gData w th).1)).mem :=
      write_oneWord m r.v.toNat r.p hpos hroom
    obtain ⟨q, hq, ht, hk, hs, hbyte, hmark, hpois, hland, hkept⟩ :=
      store_local_effect hq t (addr (getThread s c t) w) (wSize w) (gData w (getThread s c t)) (p := PartStored m off (wSize w) r.v.toNat r.p) hw
    exact ⟨q, hq, ht, hk, hs, hbyte, hmark, hpois, hland, hkept⟩
  · have hsp := h.space
    have hal := h.aligned
    rw [ha] at hsp hal
    have h8 : off % 8 = 0 := by rw [show off = (addr (getThread s c t) w).toNat from offset_of_local hsp]; omega
    have hw : WordsStored off 16 v.v.toNat v.p (m.write true (scaleData w th).2 off (toBytes (8 * 16) (scaleData w th).1)).mem :=
      write_words m v.v.toNat v.p h8
    obtain ⟨q, hq, ht, hk, hs, hbyte, hmark, hpois, hland⟩ :=
      store_local_effect hq t (addr (getThread s c t) w) 128 (scaleData w (getThread s c t)) (p := WordsStored off 16 v.v.toNat v.p) hw
    exact ⟨q, hq, ht, hk, hs, hbyte, hmark, hpois, hland⟩

end Sys2Proof.Machine
end

section
/-!
PROOFS. Responses of loads and acknowledgements of stores (02 R84, R90, R96; 14 R507).
-/

namespace Sys2Proof.Machine

variable {s s' : State} {c id u : Nat} {q : Req}

/-! ## A slot freed -/

/-- Core c's request id is gone; of the rest of the state, requests and thread u alone may differ. -/
structure Freed (c u id : Nat) (s s' : State) : Prop where
  gone : findReq s' c id = none
  cores : ∀ d, d ≠ c → getCore s' d = getCore s d
  threads : ∀ v, v ≠ u → getThread s' c v = getThread s c v
  mem : (getCore s' c).mem = (getCore s c).mem
  rest : s' = { s with cores := s'.cores }

theorem freed_freeReq (s : State) (c u id : Nat) : Freed c u id s (freeReq s c id) where
  gone := by simp [findReq, freeReq]
  cores d h := by simp [freeReq, h]
  threads v _ := by simp [freeReq, getThread]; rfl
  mem := by simp [freeReq]
  rest := rfl

theorem getThread_freeReq (s : State) (c id u : Nat) : getThread (freeReq s c id) c u = getThread s c u := by
  simp [freeReq, getThread]; rfl

theorem getThread_writeLoad_same (s : State) (c : Nat) (q : Req) (f : Regs → Regs) : getThread (writeLoad s c q f) c q.thread =
    { getThread s c q.thread with regs := f (getThread s c q.thread).regs } := by
  simp [writeLoad, getThread, Core.updThread, Core.setThread, Core.thread]

theorem getThread_writeLoad_other (s : State) (c : Nat) (q : Req) (f : Regs → Regs) {v : Nat} (h : v ≠ q.thread) :
    getThread (writeLoad s c q f) c v = getThread s c v := by
  simp [writeLoad, getThread, Core.updThread, Core.setThread, Core.thread, h]

theorem find_map_superseded (l : List Req) (p : Req → Bool) (id : Nat) (h : l.find? (fun q => q.id == id) = none) :
    (l.map (fun x => if p x then { x with superseded := true } else x)).find? (fun q => q.id == id) = none := by
  simp only [List.find?_eq_none, List.mem_map, forall_exists_index, and_imp, forall_apply_eq_imp_iff₂] at h ⊢
  intro x hx
  split <;> exact h x hx

/-- The registers of a load's thread written. -/
theorem Freed.writeLoad (h : Freed c q.thread id s s') (f : Regs → Regs) : Freed c q.thread id s (writeLoad s' c q f) where
  gone := by
    have hg := h.gone
    simp only [findReq] at hg
    simp only [findReq, Machine.writeLoad, getCore_updCore_same]
    exact find_map_superseded _ _ id hg
  cores d hd := by simp [Machine.writeLoad, hd, h.cores d hd]
  threads v hv := by rw [getThread_writeLoad_other _ _ _ _ hv, h.threads v hv]
  mem := by
    rw [← h.mem]
    simp [Machine.writeLoad, Core.updThread, Core.setThread]
  rest := by rw [Machine.writeLoad, updCore_rest, h.rest]

theorem Freed.updThread (h : Freed c u id s s') (f : Thread → Thread) : Freed c u id s (updThread s' c u f) where
  gone := by
    have hg := h.gone
    rw [findReq] at hg ⊢
    rw [getCore_updThread_same]
    exact hg
  cores d hd := by rw [getCore_updThread_other _ _ _ hd, h.cores d hd]
  threads v hv := by rw [getThread_updThread_thread _ _ _ hv, h.threads v hv]
  mem := by rw [getCore_updThread_same]; exact h.mem
  rest := by rw [updThread_rest, h.rest]

/-! ## The end of a latch wait -/

/-- A thread whose latch wait is over, its core not held. -/
def wokenThread (th : Thread) : Thread :=
  { th with pc := th.pc + 8, st := { th.st with state := .running }, wait := .none, fenceHeld := false }

theorem latchDone_of_waiting (hw : (getThread s c q.thread).wait = .latch q.id) : latchDone s c q =
    updThread (wakeThread s c q.thread) c q.thread (fun th => { th with pc := th.pc + 8 }) := if_pos hw

theorem getThread_latchDone (hw : (getThread s c q.thread).wait = .latch q.id) (hp : s.grid.proc = none)
    (hs : (getThread s c q.thread).step = false) : getThread (latchDone s c q) c q.thread = wokenThread (getThread s c q.thread) := by
  rw [latchDone_of_waiting hw, getThread_updThread_same, wakeThread, getThread_updThread_same, hs, wakeState_of_no_fence hp,
    coreHeld_of_no_fence hp]
  generalize getThread s c q.thread = th at hs
  cases th
  subst hs
  rfl

theorem Freed.latchDone (h : Freed c q.thread id s s') (hw : (getThread s' c q.thread).wait = .latch q.id) :
    Freed c q.thread id s (latchDone s' c q) := by
  rw [latchDone_of_waiting hw]
  exact (h.updThread _).updThread _

/-! ## The commands -/

/-- An answer that can be taken: it has been given, is not cancelled, and comes in the order of its channel. -/
structure Answers (s : State) (c id : Nat) (q : Req) : Prop where
  found : findReq s c id = some q
  stage : q.stage = .done
  kept : q.cancel = none
  here : answerHere s c q = true

/-- The state once the slot is free and the words of bad parity are reported. -/
def slotFreed (s : State) (c id : Nat) (q : Req) (bad : List Nat) : State := responseParity (freeReq s c id) c q (badWords q bad)

/-- The poison of an answer: its own, or a word of bad parity. -/
def answerPoison (q : Req) (bad : List Nat) : Bool := q.respPoison || !(badWords q bad).isEmpty

@[simp] theorem slotFreed_nil (s : State) (c id : Nat) (q : Req) : slotFreed s c id q [] = freeReq s c id := rfl
@[simp] theorem answerPoison_nil (q : Req) : answerPoison q [] = q.respPoison := Bool.or_false _

theorem loadResponse_load {rd n : Nat} {sg : Bool} (h : Answers s c id q) (hk : q.kind = .load rd n sg) (bad : List Nat) :
    loadResponse s c id bad = if q.superseded then slotFreed s c id q bad
      else writeLoadG (slotFreed s c id q bad) c q rd (extend n sg q.resp) (answerPoison q bad) := by
  unfold loadResponse
  simp only [h.found, h.stage, h.kept, h.here, hk]
  rfl

theorem loadResponse_loadS {sd : Nat} (h : Answers s c id q) (hk : q.kind = .loadS sd) (bad : List Nat) :
    loadResponse s c id bad = if q.superseded then slotFreed s c id q bad
      else writeLoad (slotFreed s c id q bad) c q (fun r => r.sSet sd ⟨BitVec.ofNat 1024 q.resp, answerPoison q bad⟩) := by
  unfold loadResponse
  simp only [h.found, h.stage, h.kept, h.here, hk]
  rfl

theorem loadResponse_latch {rd : Nat} (h : Answers s c id q) (hk : q.kind = .take rd ∨ q.kind = .peek rd) (bad : List Nat) :
    loadResponse s c id bad = latchDone (writeLoadG (slotFreed s c id q bad) c q rd (word q.resp) (answerPoison q bad)) c q := by
  unfold loadResponse
  rcases hk with hk | hk <;> simp only [h.found, h.stage, h.kept, h.here, hk] <;> rfl

theorem storeAck_frees (h : Answers s c id q) (hk : q.kind ∈ [.store, .put, .clear]) : storeAck s c id = freeReq s c id := by
  simp only [List.mem_cons, List.not_mem_nil, or_false] at hk
  unfold storeAck
  rcases hk with hk | hk | hk <;> simp only [h.found, h.stage, h.kept, h.here, hk] <;> rfl

theorem storeAck_fill (h : Answers s c id q) (hk : q.kind = .fill) : storeAck s c id = latchDone (freeReq s c id) c q := by
  unfold storeAck
  simp only [h.found, h.stage, h.kept, h.here, hk]
  rfl

/-! ## Words of bad parity -/

theorem xqReport_cores (s : State) (reader : Nat) (latch : Bool) (l : List Nat) : (xqReport s reader latch l).cores = s.cores := by
  induction l generalizing s with
  | nil => rfl
  | cons x l ih => rw [xqReport, ih, sendEvent_cores]

/-- Every word reported is counted. -/
theorem xqReport_parity (s : State) (reader : Nat) (latch : Bool) {l : List Nat} (h : l ≠ []) :
    (xqReport s reader latch l).od.xqParity = (s.od.xqParity + l.length) % 2 ^ 64 := by
  induction l generalizing s with
  | nil => exact absurd rfl h
  | cons x l ih =>
    by_cases hl : l = []
    · subst hl
      simp only [xqReport, sendEvent_od, List.length_cons, List.length_nil]
    · rw [xqReport, ih _ hl, sendEvent_od, List.length_cons]
      dsimp only
      omega

theorem slotFreed_bad {bad : List Nat} (h : badWords q bad ≠ []) : slotFreed s c id q bad =
    xqReport (l1Drop (freeReq s c id) c (fun _ => true)) c q.kind.isLatch (badWords q bad) := by
  rw [slotFreed, responseParity, if_neg (by simpa using h)]

/-- A response with words of bad parity frees the slot and counts them. -/
theorem slotFreed_bad_effect {bad : List Nat} (h : badWords q bad ≠ []) : findReq (slotFreed s c id q bad) c id = none ∧
    (slotFreed s c id q bad).od.xqParity = (s.od.xqParity + (badWords q bad).length) % 2 ^ 64 := by
  rw [slotFreed_bad h]
  refine ⟨?_, xqReport_parity _ _ _ h⟩
  have hf := (freed_freeReq s c 0 id).gone
  rw [findReq] at hf ⊢
  rw [getCore, xqReport_cores, ← getCore, l1Drop, setL1, getCore_updCore_same]
  exact hf

theorem findReq_writeLoad (f : Regs → Regs) (h : findReq s c id = none) : findReq (writeLoad s c q f) c id = none :=
  ((Freed.mk (s := s) (u := q.thread) h (fun _ _ => rfl) (fun _ _ => rfl) rfl rfl).writeLoad f).gone

/-- The slot of an answered load is free, and its registers written unless an instruction has superseded it. -/
theorem freed_written (s : State) (c id : Nat) (q : Req) (f : Regs → Regs) :
    Freed c q.thread id s (if q.superseded then freeReq s c id else writeLoad (freeReq s c id) c q f) ∧
      getThread (if q.superseded then freeReq s c id else writeLoad (freeReq s c id) c q f) c q.thread =
        if q.superseded then getThread s c q.thread
        else { getThread s c q.thread with regs := f (getThread s c q.thread).regs } := by
  have hfree := freed_freeReq s c q.thread id
  by_cases h : q.superseded = true
  · simp only [if_pos h]
    exact ⟨hfree, getThread_freeReq s c id q.thread⟩
  · simp only [if_neg h]
    refine ⟨hfree.writeLoad f, ?_⟩
    rw [getThread_writeLoad_same, getThread_freeReq]

/-! ## The statement -/

/-- Settles O25: the slot is freed, then the register written or the wait ended by the kind of the request. -/
theorem responsesWriteRegistersAndFreeSlots : Obligations.ResponsesWriteRegistersAndFreeSlots := by
  intro c id s q hf hs hk hh th freed
  have ha : Answers s c id q := ⟨hf, hs, hk, hh⟩
  have hfree := freed_freeReq s c q.thread id
  have hth : getThread (freeReq s c id) c q.thread = th := getThread_freeReq s c id q.thread
  have done {s' : State} (h : Freed c q.thread id s s') : freed s' := ⟨h.gone, h.cores, h.threads, h.mem, h.rest⟩
  refine ⟨fun rd n sg hkind => ⟨_, rfl, ?load⟩, fun sd hkind => ⟨_, rfl, ?loadS⟩, fun rd hkind hw hid hp hst => ⟨_, rfl, ?latch⟩,
    fun hkind => ⟨_, rfl, ?ack⟩, fun hkind hw hid hp hst => ⟨_, rfl, ?fill⟩, fun rd n sg bad hkind hsup hbad => ⟨_, rfl, ?bad⟩⟩
  case load =>
    rw [loadResponse_load ha hkind, slotFreed_nil, answerPoison_nil, writeLoadG]
    obtain ⟨hfreed, hwritten⟩ := freed_written s c id q (fun r => r.gSet rd ⟨extend n sg q.resp, q.respPoison⟩)
    exact ⟨done hfreed, hwritten⟩
  case loadS =>
    rw [loadResponse_loadS ha hkind, slotFreed_nil, answerPoison_nil]
    obtain ⟨hfreed, hwritten⟩ := freed_written s c id q (fun r => r.sSet sd ⟨BitVec.ofNat 1024 q.resp, q.respPoison⟩)
    exact ⟨done hfreed, hwritten⟩
  case latch =>
    have hwrite := getThread_writeLoad_same (freeReq s c id) c q (fun r => r.gSet rd ⟨word q.resp, q.respPoison⟩)
    rw [hth] at hwrite
    have hwait : (getThread (writeLoadG (freeReq s c id) c q rd (word q.resp) q.respPoison) c q.thread).wait = .latch q.id := by
      rw [writeLoadG, hwrite, hid]; exact hw
    have hwoken := getThread_latchDone hwait hp (by rw [writeLoadG, hwrite]; exact hst)
    rw [writeLoadG, hwrite] at hwoken
    rw [loadResponse_latch ha hkind, slotFreed_nil, answerPoison_nil, writeLoadG]
    refine ⟨done ((hfree.writeLoad _).latchDone hwait), ?_⟩
    rw [hwoken]
    exact ⟨rfl, rfl, rfl, fun h0 => gGet_gSet_same _ _ h0⟩
  case ack =>
    rw [storeAck_frees ha hkind]
    exact ⟨done hfree, hth⟩
  case fill =>
    have hwait : (getThread (freeReq s c id) c q.thread).wait = .latch q.id := by rw [hth, hid]; exact hw
    rw [storeAck_fill ha hkind]
    refine ⟨done (hfree.latchDone hwait), ?_⟩
    rw [getThread_latchDone hwait hp (by rw [hth]; exact hst), hth]
    rfl
  case bad =>
    obtain ⟨hgone, hpar⟩ := slotFreed_bad_effect (s := s) (c := c) (id := id) hbad
    have hpois : answerPoison q bad = true := by simp [answerPoison, hbad]
    rw [loadResponse_load ha hkind, hsup, hpois, if_neg (by decide)]
    refine ⟨findReq_writeLoad _ hgone, fun h0 => ?_, hpar⟩
    rw [writeLoadG, getThread_writeLoad_same]
    exact gGet_gSet_same _ _ h0

end Sys2Proof.Machine
end

section
/-!
PROOFS. Table walks: the wait at issue, and the walk's end (02 R83; 07 R266–R269).
-/

namespace Sys2Proof.Machine

variable {s : State} {c t space va n : Nat} {w a : Word} {store : Bool}

/-! ## The wait for a walk -/

theorem addressChecks_bulk (ha : memAddr (getThread s c t) w = a) (hga : ((getThread s c t).regs.gGet (wGa w)).p = false)
    (hgb : ((getThread s c t).regs.gGet (wGb w)).p = false) (hs : field a 63 56 = 4) (hr : field a 55 48 = 0) (hal : a.toNat % n = 0) :
    addressChecks s c t .plain store n w = [] := by
  rw [addressChecks_clean hga hgb, ha, when?_aligned hal, spaceChecks_virtual (.inl hs), rangeChecks_virtual (.inl hs), hr]
  rfl

theorem translate_of_miss (hs : field a 63 56 = 4) (hm : ∀ e ∈ (getCore s c).mem.tlb, tlbCovers 4 (field a 47 0) e = false) :
    translate s c t store a = .walk := by
  have hv : isVirtual a = true := by rw [isVirtual, hs]; rfl
  have hf : tlbFind (getCore s c) 4 (field a 47 0) = none := List.find?_eq_none.2 (fun e he => by simp [hm e he])
  unfold translate lookup
  rw [hv, hs, hf]
  rfl

theorem loadBody_walks {kind : ReqKind} (ha : memAddr (getThread s c t) w = a) (hslot : slotFree (getCore s c) t = true)
    (hc : addressChecks s c t .plain false n w = []) (hw : translate s c t false a = .walk) :
    loadBody c t w n kind .plain s = needWalk s c t false a := by
  unfold loadBody
  rw [hc, hslot, ha]
  dsimp only
  rw [hw]
  rfl

theorem storeBody_walks {data : Thread → Nat × Bool} (ha : memAddr (getThread s c t) w = a) (hslot : slotFree (getCore s c) t = true)
    (hc : addressChecks s c t .plain true n w = []) (hw : translate s c t true a = .walk) :
    storeBody c t w n .plain data s = needWalk s c t true a := by
  unfold storeBody
  rw [hc, hslot]
  obtain ⟨addr, haddr⟩ : ∃ addr, memAddr = addr := ⟨_, rfl⟩
  rw [haddr] at ha ⊢
  dsimp only
  rw [ha, hw]
  rfl

/-! ## What a walk leaves -/

/-- Core c's threads and translation entries. -/
def walkView (c : Nat) (s : State) : Sparse Thread × List TlbEntry := ((getCore s c).threads, (getCore s c).mem.tlb)

theorem countCorrBulk_cores (s : State) (i n : Nat) : (countCorrBulk s i n).cores = s.cores := by
  unfold countCorrBulk; split <;> rfl

theorem bulkRead_cores (s : State) (pa n : Nat) : (bulkRead s pa n).st.cores = s.cores := by
  simp only [bulkRead, countCorrBulk_cores, reportUncorr_cores]

theorem bulkWrite_cores (s : State) (p : Bool) (pa : Nat) (bs : List Byte) : (bulkWrite s p pa bs).cores = s.cores := by
  simp only [bulkWrite, countCorrBulk_cores, reportUncorr_cores]

theorem walkView_of_cores {s' : State} (h : s'.cores = s.cores) : walkView c s' = walkView c s := by simp only [walkView, getCore, h]

theorem walkFrom_view (c space va k table : Nat) (s : State) : walkView c (walkFrom c space va k table s).2 = walkView c s := by
  induction k generalizing table s with
  | zero => rfl
  | succ k ih =>
    have hread (pa : Nat) : walkView c (bulkRead s pa 8).st = walkView c s := walkView_of_cores (bulkRead_cores s pa 8)
    rw [walkFrom]
    dsimp only
    generalize (getCore s c).mem.wcache.find? _ = held
    cases held with
    | some e =>
      simp only [Option.isSome, Bool.false_eq_true, if_true, if_false]
      split_ifs
      · rfl
      · rfl
      · rfl
      · rfl
      · exact ih _ _
    | none =>
      simp only [Option.isSome, Bool.false_eq_true, if_false]
      split_ifs
      · exact hread _
      · exact hread _
      · exact hread _
      · exact hread _
      · exact hread _
      · rw [ih]
        simp only [walkView, getCore_updCore_same]
        exact hread _

theorem walk_view (c space va : Nat) (s : State) : walkView c (walk s c space va).2 = walkView c s := by
  unfold walk
  dsimp only
  split
  · exact walkFrom_view c space va 4 _ s
  · rfl

/-- The entry as the walk leaves it: A set, and D where asked. -/
def markedLeaf (w : Word) (dirty : Bool) : Word := w ||| word (2 ^ 49) ||| (if dirty then word (2 ^ 48) else 0)

theorem markLeaf_eq (s : State) (pa : Nat) (dirty : Bool) (w : Word) : markLeaf s pa dirty w =
    if markedLeaf w dirty = w then (w, s)
    else (markedLeaf w dirty, if (bulkRead s pa 8).poison then (bulkRead s pa 8).st
      else bulkWrite (bulkRead s pa 8).st false pa (toBytes 8 (markedLeaf (word (bulkRead s pa 8).value) dirty).toNat)) := rfl

theorem markLeaf_word (s : State) (pa : Nat) (dirty : Bool) (w : Word) : (markLeaf s pa dirty w).1 = markedLeaf w dirty := by
  rw [markLeaf_eq]
  split
  · rename_i h; exact h.symm
  · rfl

theorem markLeaf_view (c : Nat) (s : State) (pa : Nat) (dirty : Bool) (w : Word) :
    walkView c (markLeaf s pa dirty w).2 = walkView c s := by
  have hread := walkView_of_cores (c := c) (bulkRead_cores s pa 8)
  rw [markLeaf_eq]
  split
  · rfl
  · split
    · exact hread
    · exact (walkView_of_cores (bulkWrite_cores _ _ _ _)).trans hread

theorem bitOf_getLsbD (w : Word) (i : Nat) : bitOf w i = w.getLsbD i := rfl

theorem markedLeaf_accessed (w : Word) (dirty : Bool) : bitOf (markedLeaf w dirty) 49 = true := by
  rw [bitOf_getLsbD, markedLeaf, BitVec.getLsbD_or, BitVec.getLsbD_or]
  simp [word]

theorem markedLeaf_dirty (w : Word) (dirty : Bool) : bitOf (markedLeaf w dirty) 48 = (bitOf w 48 || dirty) := by
  rw [bitOf_getLsbD, bitOf_getLsbD, markedLeaf, BitVec.getLsbD_or, BitVec.getLsbD_or]
  cases dirty <;> simp [word]

/-- A mark leaves every field that holds neither A nor D. -/
theorem markedLeaf_field (w : Word) (dirty : Bool) {hi lo : Nat} (h : (hi, lo) = (47, 0) ∨ (hi, lo) = (63, 50)) :
    field (markedLeaf w dirty) hi lo = field w hi lo := by
  rw [field_eq_extract, field_eq_extract, markedLeaf, BitVec.extractLsb'_or, BitVec.extractLsb'_or]
  have hA : (word (2 ^ 49)).extractLsb' lo (hi + 1 - lo) = 0 := by
    rcases h with h | h <;> cases h <;> decide
  have hD : (if dirty then word (2 ^ 48) else 0).extractLsb' lo (hi + 1 - lo) = 0 := by
    rcases h with h | h <;> cases h <;> cases dirty <;> decide
  rw [hA, hD]
  simp

/-! ## The end of a walk -/

theorem getThread_of_walkView {s s' : State} (h : walkView c s' = walkView c s) (t : Nat) : getThread s' c t = getThread s c t := by
  have ht : (getCore s' c).threads = (getCore s c).threads := congrArg Prod.fst h
  simp only [getThread, Core.thread, ht]

/-- A walk that finds a leaf loads its entry, marked, and the thread goes on. -/
theorem walkEnd_leaf {r : WalkReq} {l pa : Nat} {lw : Word} {s1 : State} (hr : (getThread s c t).walk = some r)
    (hw : walk s c (r.va / 2 ^ 56) (r.va % 2 ^ 48) = (.leaf l lw pa, s1)) :
    let dirty := r.write && (pageSubs lw r.write (inJob s c t)).isEmpty
    walkEnd s c t = updThread (tlbInsert (markLeaf s1 pa dirty lw).2 c
      { space := r.va / 2 ^ 56, level := l, vpn := (r.va % 2 ^ 48) >>> lvlShift l, leaf := markedLeaf lw dirty }) c t
      (fun th => { th with walk := none }) := by
  unfold walkEnd demandWalk
  simp only [hr, hw, markLeaf_word]

/-- A walk that fails makes the thread take exception 0x04. -/
theorem walkEnd_fault {r : WalkReq} {sub : Nat} {s1 : State} (hr : (getThread s c t).walk = some r)
    (hw : walk s c (r.va / 2 ^ 56) (r.va % 2 ^ 48) = (.fault sub, s1)) :
    walkEnd s c t = takeExc (updThread s1 c t (fun th => { th with walk := none })) c t ⟨0x04, sub, word r.va⟩ := by
  unfold walkEnd demandWalk
  simp only [hr, hw]

theorem getThread_tlbInsert (s : State) (c t : Nat) (e : TlbEntry) : getThread (tlbInsert s c e) c t = getThread s c t := by
  simp [tlbInsert, getThread]
  rfl

theorem tlbInsert_head (s : State) (c : Nat) (e : TlbEntry) : (getCore (tlbInsert s c e) c).mem.tlb.head? = some e := by
  simp [tlbInsert]

theorem getThread_takeExc_clear (h : (getThread s c t).st.xact = false) (x : Exc) :
    getThread (takeExc s c t x) c t = enteredFrom s c t x (getThread s c t).pc (getThread s c t) := by
  rw [takeExc, enterKeeper_clear h, getThread, getCore_setCore_same]
  exact thread_setThread_same (getCore s c) t _

theorem takeExc_mem (s : State) (c t : Nat) (x : Exc) : (getCore (takeExc s c t x) c).mem = (getCore s c).mem := by
  rw [takeExc, getCore_enterKeeper_same]

/-- Settles O29: the access waits at issue; the walk ends by what it found. -/
theorem translationWalksLoadOrTrap : Obligations.TranslationWalksLoadOrTrap := by
  unfold Obligations.TranslationWalksLoadOrTrap
  refine ⟨?issue, ?ends⟩
  case issue =>
    intro c t w s
    obtain ⟨addr, haddr⟩ : ∃ addr, memAddr = addr := ⟨_, rfl⟩
    rw [haddr]
    intro th a hga hgb hspace hres hal hslot hmiss waits
    have ha : memAddr (getThread s c t) w = a := by rw [haddr]
    have htag : field (memAddr (getThread s c t) w) 63 56 = 4 := by rw [ha]; exact hspace
    have hpriv : memPriv c t w s = none := memPriv_of_tag htag (by decide)
    clear_value a
    refine ⟨fun hi hr => ?_, fun hi hr => ?_⟩
    · have hb : loadBody c t w (wSize w) (.load (wGd w) (wSize w) (wSigned w)) .plain s = .hold (waits false) :=
        loadBody_walks ha hslot (addressChecks_bulk ha hga hgb hspace hres hal) (translate_of_miss hspace hmiss)
      exact issue_holds hi ⟨hr.free, rfl, hpriv⟩ hb
    · have hb : storeBody c t w (wSize w) .plain (gData w) s = .hold (waits true) :=
        storeBody_walks ha hslot (addressChecks_bulk ha hga hgb hspace hres hal) (translate_of_miss hspace hmiss)
      exact issue_holds hi ⟨hr.free, rfl, hpriv⟩ hb
  case ends =>
    intro c t s r hu ht hr th space va
    have hexec : exec (.translationWalk c t) s = .next (walkEnd s c t) := congrArg Host.Outcome.next (run_if_up hu ht _)
    refine ⟨fun l lw pa s1 hw => ⟨_, hexec, ?leaf⟩, fun sub s1 hw hx => ⟨_, hexec, ?fault⟩, fun h => if_neg (by rw [h]; decide)⟩
    case leaf =>
      have hview : walkView c s1 = walkView c s := by rw [← walk_view c space va s, hw]
      have hend := walkEnd_leaf hr hw
      rw [inJob_eq] at hend
      rw [hend]
      generalize hd : (r.write && (pageSubs lw r.write (!(getThread s c t).st.pm)).isEmpty) = dirty
      have hmark : walkView c (markLeaf s1 pa dirty lw).2 = walkView c s := (markLeaf_view c s1 pa dirty lw).trans hview
      have hdirty := markedLeaf_dirty lw dirty
      rw [← hd] at hdirty
      refine ⟨?thread, ⟨space, l, va >>> lvlShift l, markedLeaf lw dirty⟩, ?head, rfl, rfl, rfl, markedLeaf_accessed _ _, ?dirty,
        markedLeaf_field _ _ (.inl rfl), markedLeaf_field _ _ (.inr rfl)⟩
      case thread => rw [getThread_updThread_same, getThread_tlbInsert, getThread_of_walkView hmark]
      case head => rw [getCore_updThread_same]; exact tlbInsert_head _ c _
      case dirty => rw [← hd]; exact hdirty
    case fault =>
      have hview : walkView c s1 = walkView c s := by rw [← walk_view c space va s, hw]
      have hth : getThread (updThread s1 c t (fun th => { th with walk := none })) c t = { th with walk := none } := by
        rw [getThread_updThread_same, getThread_of_walkView hview]
      have htlb : (getCore s1 c).mem.tlb = (getCore s c).mem.tlb := congrArg Prod.snd hview
      rw [walkEnd_fault hr hw]
      dsimp only
      rw [getThread_takeExc_clear (by rw [hth]; exact hx), takeExc_mem, hth, getCore_updThread_same]
      exact ⟨rfl, rfl, rfl, rfl, rfl, rfl, htlb⟩

end Sys2Proof.Machine
end

section
/-!
PROOFS. Loads and stores of CORE addresses: the request at issue, and its arrival (02 R66, R81, R84; 14 R507).
-/

namespace Sys2Proof.Machine

variable {s : State} {c t n id : Nat} {w a : Word} {kind : ReqKind} {store : Bool} {q : Req}

/-! ## At issue -/

theorem spaceChecks_core (h : field a 63 56 = 2) : spaceChecks .plain store n a = [] := by
  unfold spaceChecks; rw [h]; rfl

theorem addressChecks_far (h : FarAccess c t w n s) (ha : memAddr (getThread s c t) w = a) :
    addressChecks s c t .plain store n w = [] := by
  obtain ⟨hga, hgb, hsp, hal, hres, hrange, hgrid, hcore, -⟩ := h
  rw [ha] at hsp hal hres hrange hgrid hcore
  have hend : decide (localEnd < a.toNat % 2 ^ 36 + n) = false := decide_eq_false (Nat.not_lt.2 hrange)
  rw [addressChecks_clean hga hgb, ha, when?_aligned hal, spaceChecks_core hsp]
  unfold rangeChecks
  rw [hsp]
  simp only [hres, hend, hgrid, hcore, bne_self_eq_false, Bool.not_true, Bool.or_self, Bool.false_eq_true, if_false, when?, List.append_nil]

theorem isVirtual_core (h : field a 63 56 = 2) : isVirtual a = false := by rw [isVirtual, h]; rfl

/-- The request of a load or store that leaves for another core. -/
def farReq (s : State) (c t : Nat) (a : Word) (kind : ReqKind) (data : List Byte) (p : Bool) : Nat → Req :=
  newReq t kind a (aCore a.toNat) (a.toNat % 2 ^ 36) (inJob s c t) data p .sent 0 false (coreRoute s c (aCore a.toNat))

theorem loadBody_far (h : FarAccess c t w n s) (ha : memAddr (getThread s c t) w = a) :
    loadBody c t w n kind .plain s = .done (advance (addReq s c (farReq s c t a kind [] false)).2 c t) := by
  have htag : field a 63 56 = 2 := ha ▸ h.space
  unfold loadBody
  rw [addressChecks_far h ha, h.slot, ha]
  dsimp only
  rw [translate_of_real (isVirtual_core htag), htag]
  rfl

theorem storeBody_far {data : Thread → Nat × Bool} (h : FarAccess c t w n s) (ha : memAddr (getThread s c t) w = a) :
    storeBody c t w n .plain data s = .done (advance (addReq s c
      (farReq s c t a .store (toBytes n (data (getThread s c t)).1) (data (getThread s c t)).2)).2 c t) := by
  have htag : field a 63 56 = 2 := ha ▸ h.space
  unfold storeBody
  rw [addressChecks_far h ha, h.slot]
  obtain ⟨addr, haddr⟩ : ∃ addr, memAddr = addr := ⟨_, rfl⟩
  rw [haddr] at ha ⊢
  dsimp only
  rw [ha, translate_of_real (isVirtual_core htag), htag]
  rfl

theorem farReq_fields (s : State) (c t : Nat) (a : Word) (kind : ReqKind) (data : List Byte) (p : Bool) (id : Nat) :
    let q := farReq s c t a kind data p id
    q.thread = t ∧ q.kind = kind ∧ q.stage = .sent ∧ q.target = aCore a.toNat ∧ q.route = coreRoute s c (aCore a.toNat) ∧
      q.off = a.toNat % 2 ^ 36 ∧ q.job = inJob s c t ∧ q.data = data ∧ q.poison = p :=
  ⟨rfl, rfl, rfl, rfl, rfl, rfl, rfl, rfl, rfl⟩

/-- A request added to a state that is otherwise as it was. -/
theorem requested_self (s : State) (c t : Nat) (q : Nat → Req) : Requested c t (q (getCore s c).nextReq) s (requested c t q s) :=
  requested_of_mem q rfl rfl (fun _ _ => rfl) rfl

theorem far_issues {m : Mn} {uses : Uses} {body : State → Res} {data : List Byte} {p : Bool} (hi : Issues m c t w s)
    (hr : Ready c t uses s) (htag : field (memAddr (getThread s c t) w) 63 56 = 2)
    (hb : body s = .done (advance (addReq s c (farReq s c t a kind data p)).2 c t)) :
    issue m { uses := uses, priv := memPriv c t w s, body := body } c t w s =
      .next (requested c t (farReq s c t a kind data p) s) := by
  rw [requested, completed]
  exact issue_finished hi ⟨hr.free, rfl, memPriv_of_tag htag (by decide)⟩ hb

/-- What leaves at issue: one request, and no memory. -/
theorem far_effect (s : State) (c t : Nat) (a : Word) (kind : ReqKind) (data : List Byte) (p : Bool) : ∃ q : Req,
    Requested c t q s (requested c t (farReq s c t a kind data p) s) ∧ q.thread = t ∧ q.kind = kind ∧ q.stage = .sent ∧
      q.target = aCore a.toNat ∧ q.route = coreRoute s c q.target ∧ q.off = a.toNat % 2 ^ 36 ∧ q.job = !(getThread s c t).st.pm ∧
      (getCore (requested c t (farReq s c t a kind data p) s) c).mem = (getCore s c).mem ∧ q.data = data ∧ q.poison = p := by
  obtain ⟨h1, h2, h3, h4, h5, h6, h7, h8, h9⟩ := farReq_fields s c t a kind data p (getCore s c).nextReq
  exact ⟨_, requested_self s c t _, h1, h2, h3, h4, by rw [h5, h4], h6, by rw [h7, inJob_eq], requested_mem _ _ _ _, h8, h9⟩

/-! ## Arrival -/

/-- An answer given to a request. -/
def answered (s : State) (c : Nat) (q : Req) (v : Nat) (p : Bool) : Req :=
  { q with stage := .done, resp := v, respPoison := p, ans := (getCore s c).nextAns }

theorem find_map_of_id {l : List Req} {id : Nat} {f : Req → Req} (hf : ∀ q, (f q).id = q.id) :
    (l.map f).find? (fun q => q.id == id) = (l.find? (fun q => q.id == id)).map f := by
  rw [List.find?_map]
  congr 2
  funext q
  simp [hf]

theorem findReq_answerReq (h : findReq s c id = some q) (v : Nat) (p : Bool) :
    findReq (answerReq s c id v p) c id = some (answered s c q v p) := by
  have hid : q.id = id := by simpa using List.find?_some (show (getCore s c).reqs.find? (fun q => q.id == id) = some q from h)
  unfold findReq at h ⊢
  rw [answerReq, getCore_updCore_same]
  rw [find_map_of_id (fun q => by split <;> rfl), h]
  simp [hid, answered]

theorem getCore_answerReq_other (s : State) {c d : Nat} (id v : Nat) (p : Bool) (h : d ≠ c) :
    getCore (answerReq s c id v p) d = getCore s d := getCore_updCore_other _ _ h

theorem getThread_answerReq (s : State) (c id v t : Nat) (p : Bool) : getThread (answerReq s c id v p) c t = getThread s c t := by
  simp [answerReq, getThread]; rfl

/-- A request that can arrive at another core's LOCAL memory. -/
structure Arrives (s : State) (c id : Nat) (q : Req) : Prop where
  found : findReq s c id = some q
  stage : q.stage = .sent
  route : q.route ≠ .cut
  order : behind (getCore s c) q = false
  space : q.va / 2 ^ 56 = 2

theorem remoteArrive_refused {sub : Nat} (h : Arrives s c id q) (hk : q.kind.isLatch = false) (hr : targetRefuses s q = some sub) :
    remoteArrive s c id [] = deliverDeferred (answerReq s c id 0 true) c q.thread ⟨0x05, sub, word q.va⟩ := by
  have hroute : (q.route == .cut) = false := beq_false_of_ne h.route
  have hbad : (if q.kind.carries then badWords q [] else []) = [] := ite_self _
  unfold remoteArrive
  simp only [h.found, h.stage, hroute, h.order, hk, hbad, xqReport, hr]
  rfl

theorem remoteArrive_load {rd n : Nat} {sg : Bool} (h : Arrives s c id q) (hk : q.kind = .load rd n sg) (hr : targetRefuses s q = none) :
    remoteArrive s c id [] = answerReq (coreRead s false q.target q.off n).st c id (coreRead s false q.target q.off n).value
      (coreRead s false q.target q.off n).poison := by
  have hl : (ReqKind.load rd n sg).isLatch = false := rfl
  have hc : (ReqKind.load rd n sg).carries = false := rfl
  have hroute : (q.route == .cut) = false := beq_false_of_ne h.route
  unfold remoteArrive
  simp only [h.found, h.stage, hroute, h.order, hk, h.space, hl, hc, Bool.false_eq_true, if_false, xqReport, hr]
  rfl

/-- The state once the words of bad parity of an arriving store are reported. -/
def storeReported (s : State) (q : Req) (bad : List Nat) : State := xqReport s q.target false (badWords q bad)

theorem remoteArrive_store {bad : List Nat} (h : Arrives s c id q) (hk : q.kind = .store)
    (hr : targetRefuses (storeReported s q bad) q = none) : remoteArrive s c id bad =
      if (badWords q bad).isEmpty then
        answerReq (coreWrite (storeReported s q bad) false q.target q.poison q.off q.data) c id 0 false
      else answerReq (writeRun (fun s p a x => coreWrite s false q.target (q.poison || p) a x) q.off q.data
        (badMarks q (badWords q bad)) (storeReported s q bad)) c id 0 false := by
  have hroute : (q.route == .cut) = false := beq_false_of_ne h.route
  have hl : ReqKind.store.isLatch = false := rfl
  have hc : ReqKind.store.carries = true := rfl
  rw [storeReported] at hr
  unfold remoteArrive
  simp only [h.found, h.stage, hroute, h.order, hk, h.space, hl, hc, if_true, hr]
  rfl

theorem targetRefuses_core (h : q.va / 2 ^ 56 = 2) : targetRefuses s q =
    if q.job && (getCore s q.target).ctl.klim.toNat < q.off + reqSpan q then some 0x03 else none := by
  unfold targetRefuses
  simp only [h]
  rfl

theorem targetRefuses_keeper (h : q.va / 2 ^ 56 = 2) (hj : q.job = true)
    (hk : (getCore s q.target).ctl.klim.toNat < q.off + reqSpan q) : targetRefuses s q = some 0x03 := by
  rw [targetRefuses_core h, if_pos (by simp [hj, hk])]

theorem targetRefuses_free (h : q.va / 2 ^ 56 = 2)
    (hj : q.job = false ∨ q.off + reqSpan q ≤ (getCore s q.target).ctl.klim.toNat) : targetRefuses s q = none := by
  rw [targetRefuses_core h, if_neg]
  rcases hj with hj | hj <;> simp [hj]

/-- A refusal: the answer is poison, the target is as it was, and the thread receives a deferred exception. -/
theorem refused_effect (h : Arrives s c id q) (hk : q.kind.isLatch = false) (hj : q.job = true)
    (hl : (getCore s q.target).ctl.klim.toNat < q.off + reqSpan q) (hd : (getThread s c q.thread).deferred = none) (hc : c ≠ q.target) :
    findReq (remoteArrive s c id []) c id = some (answered s c q 0 true) ∧
      getCore (remoteArrive s c id []) q.target = getCore s q.target ∧
      (getThread (remoteArrive s c id []) c q.thread).deferred = some ⟨0x05, 0x03, word q.va⟩ := by
  have hdel : (getThread (answerReq s c id 0 true) c q.thread).deferred = none := by rw [getThread_answerReq]; exact hd
  rw [remoteArrive_refused h hk (targetRefuses_keeper h.space hj hl), deliverDeferred, hdel]
  dsimp only
  refine ⟨?_, ?_, ?_⟩
  · rw [← findReq_answerReq h.found 0 true]
    simp only [findReq]
    rw [getCore_updThread_same]
  · rw [getCore_updThread_other _ _ _ hc.symm, getCore_answerReq_other _ _ _ _ hc.symm]
  · rw [getThread_updThread_same]

theorem findReq_congr {s' : State} (h : getCore s' c = getCore s c) (id : Nat) : findReq s' c id = findReq s c id := by
  simp only [findReq, h]

theorem answered_congr {s' : State} (h : getCore s' c = getCore s c) (q : Req) (v : Nat) (p : Bool) :
    answered s' c q v p = answered s c q v p := by simp only [answered, h]

/-- A load that arrives: it is answered with the target's bytes, none of which changes. -/
theorem load_arrives {rd n : Nat} {sg : Bool} (h : Arrives s c id q) (hk : q.kind = .load rd n sg) (hr : targetRefuses s q = none)
    (hc : c ≠ q.target) (hq : quietWords (getCore s q.target)) :
    findReq (remoteArrive s c id []) c id = some (answered s c q (ofBytes ((getCore s q.target).mem.localMem.getBytes q.off n))
      (coreRead s false q.target q.off n).poison) ∧
    ∀ x, (getCore (remoteArrive s c id []) q.target).mem.localMem.byte x = (getCore s q.target).mem.localMem.byte x := by
  have hcore := getCore_coreRead (quietMem_of_quietWords hq false) q.off n
  have hsame : getCore (coreRead s false q.target q.off n).st c = getCore s c := (hcore c).trans (getCore_setLocal_other s _ hc)
  have hmem := (hcore q.target).trans (getCore_setLocal_same s q.target _)
  rw [remoteArrive_load h hk hr]
  refine ⟨?_, fun x => ?_⟩
  · rw [findReq_answerReq ((findReq_congr hsame id).trans h.found), answered_congr hsame, coreRead_value, coreMem_local]
  · rw [getCore_answerReq_other _ _ _ _ hc.symm, hmem]
    exact read_byte _ _ _ x

/-- A store that arrives in sound words: it changes no byte outside its own. -/
theorem store_arrives (h : Arrives s c id q) (hk : q.kind = .store) (hr : targetRefuses s q = none) (hc : c ≠ q.target)
    (hq : quietWords (getCore s q.target)) : findReq (remoteArrive s c id []) c id = some (answered s c q 0 false) ∧
      ∀ x, x < q.off ∨ q.off + q.data.length ≤ x →
        (getCore (remoteArrive s c id []) q.target).mem.localMem.byte x = (getCore s q.target).mem.localMem.byte x := by
  have hcore := getCore_coreWrite (quietMem_of_quietWords hq false) q.poison q.off q.data
  have hsame : getCore (coreWrite s false q.target q.poison q.off q.data) c = getCore s c :=
    (hcore c).trans (getCore_setLocal_other s _ hc)
  have hmem := (hcore q.target).trans (getCore_setLocal_same s q.target _)
  have harrive : remoteArrive s c id [] = answerReq (coreWrite s false q.target q.poison q.off q.data) c id 0 false :=
    (remoteArrive_store (bad := []) h hk hr).trans (if_pos rfl)
  rw [harrive]
  refine ⟨?_, fun x hx => ?_⟩
  · rw [findReq_answerReq ((findReq_congr hsame id).trans h.found), answered_congr hsame]
  · rw [getCore_answerReq_other _ _ _ _ hc.symm, hmem]
    exact write_byte_outside _ _ _ _ hx

/-! ## Words of bad parity -/

theorem writeRun_word {put : State → Bool → Nat → List Byte → State} {a : Nat} {bs : List Byte} (ha : a % 8 = 0) (hb : bs.length = 8)
    (p : Bool) (s : State) : writeRun put a bs [p] s = put s p a bs := by
  have htake : bs.take 8 = bs := List.take_of_length_le (by omega)
  simp [writeRun, hb, wordCuts, ha, htake]

/-- An aligned word of which a part has bad parity is poisoned. -/
theorem badMarks_word {bad : List Nat} (ha : q.off % 8 = 0) (hs : reqSpan q = 8) (hb : badWords q bad ≠ []) :
    badMarks q (badWords q bad) = [true] := by
  obtain ⟨j, l, hl⟩ := List.exists_cons_of_ne_nil hb
  have hj : j ∈ badWords q bad := by rw [hl]; exact List.mem_cons_self
  have hlt : j < 2 := by
    have hm : j ∈ bad.filter (fun j => decide (j < (q.off % 4 + reqSpan q + 3) / 4)) := List.mem_eraseDups.1 hj
    have := of_decide_eq_true (List.mem_filter.1 hm).2
    rw [hs] at this
    omega
  have hany : (badWords q bad).any (fun j => (q.off / 4 + j) / 2 == q.off / 8 + 0) = true :=
    List.any_eq_true.2 ⟨j, hj, beq_iff_eq.2 (by omega)⟩
  have hone : (q.off % 8 + reqSpan q + 7) / 8 = 1 := by omega
  rw [badMarks, hone]
  exact congrArg (fun b => [b]) hany

theorem getCore_storeReported (s : State) (q : Req) (bad : List Nat) (d : Nat) : getCore (storeReported s q bad) d = getCore s d := by
  rw [getCore, storeReported, xqReport_cores]; rfl

/-- A store of an aligned word of which a part has bad parity makes the word poison, and each such part is counted. -/
theorem store_arrives_bad {bad : List Nat} (h : Arrives s c id q) (hk : q.kind = .store) (hl : q.data.length = 8) (ha : q.off % 8 = 0)
    (hb : badWords q bad ≠ []) (hj : q.job = false ∨ q.off + 8 ≤ (getCore s q.target).ctl.klim.toNat) (hc : c ≠ q.target)
    (hq : quietWords (getCore s q.target)) :
    ((getCore (remoteArrive s c id bad) q.target).mem.localMem.mark (q.off / 8)).poison = true ∧
      (remoteArrive s c id bad).od.xqParity = (s.od.xqParity + (badWords q bad).length) % 2 ^ 64 := by
  have hspan : reqSpan q = 8 := by rw [reqSpan, hk]; exact hl
  have hr : targetRefuses (storeReported s q bad) q = none :=
    targetRefuses_free h.space (by rwa [getCore_storeReported, hspan])
  have hq' : quietWords (getCore (storeReported s q bad) q.target) := by rwa [getCore_storeReported]
  have hmem := (getCore_coreWrite (quietMem_of_quietWords hq' false) true q.off q.data q.target).trans (getCore_setLocal_same _ q.target _)
  rw [remoteArrive_store h hk hr, if_neg (by simpa using hb), badMarks_word ha hspan hb, writeRun_word ha hl, Bool.or_true]
  refine ⟨?_, ?_⟩
  · rw [getCore_answerReq_other _ _ _ _ hc.symm, hmem]
    exact writeFrom_words_poisoned (k := 1) (f := q.data.length + 1) ha hl (by omega) _ 0 Nat.one_pos
  · have hod : (coreWrite (storeReported s q bad) false q.target true q.off q.data).od = (storeReported s q bad).od := coreWrite_od ..
    change (coreWrite (storeReported s q bad) false q.target true q.off q.data).od.xqParity = _
    rw [hod, storeReported, xqReport_parity _ _ _ hb]

/-! ## The statement -/

/-- Settles O24: the request at issue, then its arrival by its kind and by what the target refuses. -/
theorem farAccessesLeaveAsRequests : Obligations.FarAccessesLeaveAsRequests := by
  unfold Obligations.FarAccessesLeaveAsRequests
  refine ⟨?issue, ?arrival⟩
  case issue =>
    intro c t w s
    obtain ⟨addr, haddr⟩ : ∃ addr, memAddr = addr := ⟨_, rfl⟩
    rw [haddr]
    intro th a leaves
    have ha : memAddr (getThread s c t) w = a := by rw [haddr]
    clear_value a
    refine ⟨fun hi hr h => ⟨_, far_issues hi hr h.space (loadBody_far h ha), ?_⟩,
      fun hi hr h => ⟨_, far_issues hi hr h.space (storeBody_far h ha), ?_⟩⟩
    · obtain ⟨q, hq, h1, h2, h3, h4, h5, h6, h7, h8, -⟩ := far_effect s c t a (.load (wGd w) (wSize w) (wSigned w)) [] false
      exact ⟨q, hq, h1, h2, h3, h4, h5, h6, h7, h8, nofun⟩
    · obtain ⟨q, hq, h1, h2, h3, h4, h5, h6, h7, h8, h9, h10⟩ :=
        far_effect s c t a .store (toBytes (wSize w) (gData w (getThread s c t)).1) (gData w (getThread s c t)).2
      exact ⟨q, hq, h1, h2, h3, h4, h5, h6, h7, h8, fun _ => ⟨h9, h10⟩⟩
  case arrival =>
    intro c id s q hf hs hroute hb hv hc hq k m ans
    have h : Arrives s c id q := ⟨hf, hs, hroute, hb, hv⟩
    refine ⟨fun rd n sg hk => ⟨fun hj hl hd => ⟨_, rfl, ?_⟩, fun hj => ⟨_, rfl, ?_⟩⟩,
      fun hk => ⟨fun hj hl hd => ⟨_, rfl, ?_⟩, fun hj => ⟨_, rfl, ?_⟩, fun bad h8 hal hbad hj => ⟨_, rfl, ?_⟩⟩⟩
    · exact refused_effect h (by rw [hk]; rfl) hj (by rwa [reqSpan, hk]) hd hc
    · obtain ⟨hans, hbyte⟩ := load_arrives h hk (targetRefuses_free hv (by rwa [reqSpan, hk])) hc hq
      exact ⟨_, hans, hbyte⟩
    · exact refused_effect h (by rw [hk]; rfl) hj (by rwa [reqSpan, hk]) hd hc
    · exact store_arrives h hk (targetRefuses_free hv (by rwa [reqSpan, hk])) hc hq
    · exact store_arrives_bad h hk h8 hal hbad hj hc hq

end Sys2Proof.Machine
end

section
/-!
PROOFS. Whole words written to a core's local memory one by one, as a run with no poison is (07 R261; 08 R286).
-/

namespace Sys2Proof.Machine

variable {s s1 s2 : State} {c : Nat} {m m1 m2 : Mem} {bs : List Byte}

/-! ## The words of an aligned run -/

/-- k words of bs from byte i on put at address a. -/
def putWords (put : State → Bool → Nat → List Byte → State) (bs : List Byte) : Nat → Nat → Nat → State → State
  | 0, _, _, s => s
  | k + 1, a, i, s => putWords put bs k (a + 8) (i + 8) (put s false a ((bs.drop i).take 8))

theorem wordCuts_succ {f a k : Nat} (ha : a % 8 = 0) : wordCuts (f + 1) a (8 * (k + 1)) = (a, 8) :: wordCuts f (a + 8) (8 * k) := by
  have hmin : min (8 * (k + 1)) (8 - a % 8) = 8 := by omega
  rw [wordCuts, if_neg (by omega)]
  simp only [hmin]
  congr 2

@[simp] theorem wordCuts_zero (f a : Nat) : wordCuts f a 0 = [] := by cases f <;> rfl

theorem writeRun_fold {put : State → Bool → Nat → List Byte → State} {f k a i : Nat} {ps : List Bool} (ha : a % 8 = 0) (hf : k ≤ f)
    (hp : ∀ p ∈ ps, p = false) (hl : k ≤ ps.length) (s : State) :
    ((wordCuts f a (8 * k)).zip ps).foldl (fun (x : State × Nat) c =>
      (put x.1 c.2 c.1.1 ((bs.drop x.2).take c.1.2), x.2 + c.1.2)) (s, i) = (putWords put bs k a i s, i + 8 * k) := by
  induction k generalizing f a i ps s with
  | zero => simp [putWords]
  | succ k ih =>
    obtain ⟨f, rfl⟩ : ∃ g, f = g + 1 := ⟨f - 1, by omega⟩
    obtain ⟨p, ps, rfl⟩ := List.exists_cons_of_length_pos (l := ps) (by omega)
    have hp0 : p = false := hp p List.mem_cons_self
    rw [wordCuts_succ ha, List.zip_cons_cons, List.foldl_cons, ih (by omega) (by omega)
      (fun q hq => hp q (List.mem_cons_of_mem _ hq)) (by simpa using hl), hp0, putWords]
    exact Prod.ext rfl (by dsimp only; omega)

/-- A run of whole words with no poison is put word by word. -/
theorem writeRun_words {put : State → Bool → Nat → List Byte → State} {k a : Nat} {ps : List Bool} (ha : a % 8 = 0)
    (hb : bs.length = 8 * k) (hp : ∀ p ∈ ps, p = false) (s : State) : writeRun put a bs ps s = putWords put bs k a 0 s := by
  have hcuts (f a k : Nat) (ha : a % 8 = 0) (hf : k ≤ f) : (wordCuts f a (8 * k)).length = k := by
    induction k generalizing f a with
    | zero => simp
    | succ k ih =>
      obtain ⟨f, rfl⟩ : ∃ g, f = g + 1 := ⟨f - 1, by omega⟩
      rw [wordCuts_succ ha, List.length_cons, ih f (a + 8) (by omega) (by omega)]
  have hall : ∀ p ∈ ps ++ List.replicate (wordCuts (bs.length + 1) a bs.length).length false, p = false := by
    intro p hm
    rcases List.mem_append.1 hm with hm | hm
    · exact hp p hm
    · exact List.eq_of_mem_replicate hm
  have hlen : k ≤ (ps ++ List.replicate (wordCuts (bs.length + 1) a bs.length).length false).length := by
    rw [List.length_append, List.length_replicate, hb, hcuts _ a k ha (by omega)]
    omega
  unfold writeRun
  dsimp only
  generalize ps ++ List.replicate (wordCuts (bs.length + 1) a bs.length).length false = l at hall hlen
  rw [hb, writeRun_fold ha (by omega) hall hlen]

/-! ## One core's local memory, changed in several steps -/

/-- s1 is s but for core c's local memory, which is m, and for what the memory's errors report. -/
structure LocalNow (s : State) (c : Nat) (m : Mem) (s1 : State) : Prop where
  core : getCore s1 c = (getCore s c).withLocal m
  cores : ∀ d, d ≠ c → getCore s1 d = getCore s d
  beside : besideCores s1 = besideCores s

theorem LocalNow.trans (h : LocalNow s c m1 s1) (h' : LocalNow s1 c m2 s2) : LocalNow s c m2 s2 where
  core := by rw [h'.core, h.core]; rfl
  cores d hd := by rw [h'.cores d hd, h.cores d hd]
  beside := by rw [h'.beside, h.beside]

theorem LocalNow.local_eq (h : LocalNow s c m s1) : coreMem s1 false c = m := by rw [coreMem_local, h.core]; rfl

theorem localNow_coreRead (hq : quietMem s false c) (a n : Nat) :
    LocalNow s c ((coreMem s false c).read a n).mem (coreRead s false c a n).st where
  core := (getCore_coreRead hq a n c).trans (getCore_setLocal_same s c _)
  cores d hd := (getCore_coreRead hq a n d).trans (getCore_setLocal_other s _ hd)
  beside := besideCores_coreRead s false c a n

theorem localNow_coreWrite (hq : quietMem s false c) (p : Bool) (a : Nat) (bs : List Byte) :
    LocalNow s c ((coreMem s false c).write true p a bs).mem (coreWrite s false c p a bs) where
  core := (getCore_coreWrite hq p a bs c).trans (getCore_setLocal_same s c _)
  cores d hd := (getCore_coreWrite hq p a bs d).trans (getCore_setLocal_other s _ hd)
  beside := besideCores_coreWrite s false c p a bs

/-- Words that no latch operation awaits are still so where no word became uncorrectable. -/
theorem LocalNow.quiet (h : LocalNow s c m s1) (hq : quietMem s false c)
    (hu : ∀ x, (m.mark x).ecc = .unc → ((coreMem s false c).mark x).ecc = .unc) : quietMem s1 false c := by
  intro x hx hg
  rw [h.local_eq]
  rw [h.core] at hx
  exact fun he => hq x hx hg (hu x.word he)

theorem writeFrom_unc {p : Bool} {k a x : Nat} (h : ((Mem.writeFrom true p k m a bs).1.mark x).ecc = .unc) : (m.mark x).ecc = .unc := by
  induction k generalizing m a bs with
  | zero => exact h
  | succ k ih =>
    by_cases hb : bs = []
    · rwa [hb, writeFrom_nil] at h
    · rw [writeFrom_step hb] at h
      exact writeWord_unc (ih h)

theorem write_unc {p : Bool} {a x : Nat} (h : ((m.write true p a bs).mem.mark x).ecc = .unc) : (m.mark x).ecc = .unc :=
  writeFrom_unc (k := bs.length + 1) h

/-- Words put one by one to a core's local memory: it holds their bytes, and every other byte it held. -/
theorem putWords_local {k a i : Nat} (ha : a % 8 = 0) (hb : i + 8 * k ≤ bs.length) (hq : quietMem s false c) :
    ∃ m, LocalNow s c m (putWords (fun s p a b => coreWrite s false c p a b) bs k a i s) ∧
      (∀ j, (h : i + j < bs.length) → j < 8 * k → m.byte (a + j) = bs[i + j]) ∧
      ∀ x, x < a ∨ a + 8 * k ≤ x → m.byte x = (coreMem s false c).byte x := by
  induction k generalizing s a i with
  | zero => exact ⟨coreMem s false c, ⟨rfl, fun _ _ => rfl, rfl⟩, fun j _ hj => absurd hj (Nat.not_lt_zero j), fun _ _ => rfl⟩
  | succ k ih =>
    have hone := localNow_coreWrite hq false a ((bs.drop i).take 8)
    have hq1 := hone.quiet hq (fun x => write_unc)
    have hlen : ((bs.drop i).take 8).length = 8 := by rw [List.length_take, List.length_drop]; omega
    obtain ⟨hword, -⟩ := writeFrom_words (k := 1) (f := ((bs.drop i).take 8).length + 1) ha (by omega) (by omega) (coreMem s false c)
    obtain ⟨m, hm, hin, hout⟩ := ih (a := a + 8) (i := i + 8) (by omega) (by omega) hq1
    rw [hone.local_eq] at hout
    refine ⟨m, hone.trans hm, fun j h hj => ?_, fun x hx => ?_⟩
    · by_cases hj8 : j < 8
      · rw [hout _ (.inl (by omega))]
        refine (hword j (by omega)).trans ?_
        rw [List.getElem_take, List.getElem_drop]
      · have := hin (j - 8) (by omega) (by omega)
        rw [show a + 8 + (j - 8) = a + j by omega] at this
        rw [this]
        exact getElem_congr_idx (by omega)
    · rw [hout x (by omega)]
      exact write_byte_outside _ _ _ _ (by omega)

end Sys2Proof.Machine
end

section
/-!
PROOFS. DPOST and DSTAT (02 R65, R99; 08 R286–R288).
-/

namespace Sys2Proof.Machine

variable {s : State} {c t : Nat} {w : Word} {x : Exc}

/-! ## The checks of DPOST -/

/-- The address DPOST names. -/
def dpostArg (s : State) (c t : Nat) (w : Word) : Word := gVal (getThread s c t) (wGa w)

/-- The conditions of the address of a descriptor. -/
def dpostAddr (s : State) (c t : Nat) (a : Word) : List Cand :=
  when? (field a 63 56 != 0) 0x05 0x01 a ++ when? (a.toNat % 2 ^ 56 % 64 != 0) 0x03 0x01 a ++
    when? (field a 63 56 == 0 && localEnd ≤ a.toNat % 2 ^ 56) 0x05 0x02 a ++
    when? (!(getThread s c t).st.pm && field a 63 56 == 0 && (getCore s c).ctl.klim.toNat < a.toNat % 2 ^ 56 + 64) 0x05 0x03 a

/-- The condition of the ring. -/
def dpostRing (s : State) (c n : Nat) : List Cand :=
  when? (!ringOn (getCore s c) (getRing s c n) || (getRing s c n).error) 0x0D 0x40 (word n)

/-- The slot of the descriptor written with 64 bytes at an address. -/
def dpostCopied (s : State) (c n off : Nat) : State :=
  let g := coreRead s false c off 64
  writeRun (fun s p a b => coreWrite s false c p a b) (slotAddr (getRing s c n) (getRing s c n).tail) g.data g.pois g.st

/-- A ring with one more descriptor posted by a thread of a core. -/
def ringPosted (r : Ring) (k : Core) (t : Nat) : Ring :=
  { r with tail := (r.tail + 1) % 2 ^ 32, posted := r.posted ++ [postedOf k t r.tail] }

/-- What DPOST does to the state but for passing itself. -/
def dposted (s : State) (c t n rd off : Nat) : State :=
  let r := getRing s c n
  let s1 := dpostCopied s c n off
  updCore (setRing s1 c n (ringPosted r (getCore s1 c) t)) c (fun k => k.writeG t rd (word r.tail))

theorem dpostBody_of_clean (hp : ((getThread s c t).regs.gGet (wGa w)).p = false) {a : Word} (ha : dpostArg s c t w = a) :
    dpostBody c t w s =
      let xs := dpostAddr s c t a ++ dpostRing s c (wRing w)
      let r := getRing s c (wRing w)
      if !xs.isEmpty then .raise xs
      else if r.slots ≤ (r.tail + 2 ^ 32 - r.done) % 2 ^ 32 || mustFollow s c t false false (a.toNat % 2 ^ 56) 64 then .wait
      else .done (advance (dposted s c t (wRing w) (wGd w) (a.toNat % 2 ^ 56)) c t) := by
  subst ha
  have hp' : ¬ (((getCore s c).thread t).regs.gGet (wGa w)).p = true := by
    rw [← getThread, hp]; decide
  unfold dpostBody
  dsimp only
  rw [if_neg hp']
  rfl

theorem offset_eq (a : Word) : field a 55 0 = a.toNat % 2 ^ 56 := by simp [field, fieldN]

theorem offset_mod (a : Word) : a.toNat % 2 ^ 56 % 64 = a.toNat % 64 := Nat.mod_mod_of_dvd _ (by decide)

theorem offset_mod_eight {a : Word} (h : a.toNat % 64 = 0) : field a 55 0 % 8 = 0 := by
  have := offset_mod a
  rw [offset_eq]
  omega

theorem firstCand_dpost_misaligned {a : Word} (h : a.toNat % 64 ≠ 0) (n : Nat) :
    firstCand (dpostAddr s c t a ++ dpostRing s c n) = some ⟨0x03, 0x01, a⟩ := by
  have hmis : (a.toNat % 2 ^ 56 % 64 != 0) = true := by rw [offset_mod]; exact bne_iff_ne.2 h
  rw [dpostAddr, hmis, when?_true, List.append_assoc, List.append_assoc, List.append_assoc, List.singleton_append]
  refine firstCand_of_best (fun y hy => ?_) (fun y hy => ?_)
  · rw [mem_when? hy]; rfl
  · simp only [List.mem_append] at hy
    rcases hy with hy | hy | hy <;> rw [mem_when? hy] <;> rfl

theorem firstCand_dpost_space {a : Word} (hal : a.toNat % 64 = 0) (h : field a 63 56 ≠ 0) (n : Nat) :
    firstCand (dpostAddr s c t a ++ dpostRing s c n) = some ⟨0x05, 0x01, a⟩ := by
  have hmis : (a.toNat % 2 ^ 56 % 64 != 0) = false := by rw [offset_mod, hal]; rfl
  have hsp : (field a 63 56 != 0) = true := bne_iff_ne.2 h
  have hloc : (field a 63 56 == 0) = false := beq_false_of_ne h
  rw [dpostAddr, hmis, hsp, hloc, Bool.and_false, Bool.false_and, Bool.false_and, when?_true, when?_false, when?_false, when?_false]
  refine firstCand_head (fun y hy => ?_)
  rw [mem_when? hy]; rfl

/-- The address is aligned, in LOCAL, and allowed in the thread's mode. -/
structure Placed (s : State) (c t : Nat) (a : Word) : Prop where
  space : field a 63 56 = 0
  aligned : a.toNat % 64 = 0
  range : field a 55 0 < 0xC0000
  area : (getThread s c t).st.pm = true ∨ field a 55 0 + 64 ≤ (getCore s c).ctl.klim.toNat

theorem dpostAddr_placed {a : Word} (h : Placed s c t a) : dpostAddr s c t a = [] := by
  obtain ⟨hs, hal, hr, harea⟩ := h
  rw [offset_eq] at hr harea
  have hmis : (a.toNat % 2 ^ 56 % 64 != 0) = false := by rw [offset_mod, hal]; rfl
  have hend : decide (localEnd ≤ a.toNat % 2 ^ 56) = false := decide_eq_false (Nat.not_le.2 hr)
  have hk : (!(getThread s c t).st.pm && field a 63 56 == 0 && decide ((getCore s c).ctl.klim.toNat < a.toNat % 2 ^ 56 + 64)) = false := by
    rcases harea with hp | hp
    · rw [hp]; rfl
    · rw [decide_eq_false (Nat.not_lt.2 hp), Bool.and_false]
  rw [dpostAddr, hmis, hend, hk, hs, Bool.and_false]
  rfl

theorem dpostRing_on {n : Nat} (he : (getRing s c n).en = true) (hv : ringValid (getCore s c) (getRing s c n) = true)
    (hr : (getRing s c n).error = false) : dpostRing s c n = [] := by
  rw [dpostRing, ringOn, he, hv, hr]; rfl

theorem dpostRing_off {n : Nat} (h : ¬ ((getRing s c n).en = true ∧ ringValid (getCore s c) (getRing s c n) = true ∧
    (getRing s c n).error = false)) : dpostRing s c n = [cand 0x0D 0x40 (word n)] := by
  have hb : (!ringOn (getCore s c) (getRing s c n) || (getRing s c n).error) = true := by
    by_contra hf
    exact h (by simpa [ringOn, and_assoc] using hf)
  rw [dpostRing, hb]; rfl

/-! ## The mode -/

theorem dpostPriv_control (hp : ((getThread s c t).regs.gGet (wGa w)).p = false) (hm : (getThread s c t).st.pm = false)
    (ha : field (dpostArg s c t w) 63 56 = 0x0F) : dpostPriv c t w s = some 3 := by
  rw [dpostPriv, controlJob_of_tag hp, if_pos ⟨hm, ha⟩]

theorem dpostPriv_other (hp : ((getThread s c t).regs.gGet (wGa w)).p = false)
    (h : ¬ ((getThread s c t).st.pm = false ∧ field (dpostArg s c t w) 63 56 = 0x0F)) : dpostPriv c t w s = ringPriv c t w s := by
  rw [dpostArg] at h
  rw [dpostPriv, controlJob_of_tag hp, if_neg h]

theorem ringPriv_allowed (h : (getThread s c t).st.pm = true ∨ (getRing s c (wRing w)).job = true) : ringPriv c t w s = none := by
  rcases h with h | h <;> simp [ringPriv, h]

theorem ringPriv_denied (h : ¬ ((getThread s c t).st.pm = true ∨ (getRing s c (wRing w)).job = true)) : ringPriv c t w s = some 4 := by
  rw [not_or, Bool.not_eq_true, Bool.not_eq_true] at h
  simp [ringPriv, h.1, h.2]

/-! ## What DPOST leaves -/

theorem getBytes_length (m : Mem) (a n : Nat) : (m.getBytes a n).length = n := by
  induction n generalizing a with
  | zero => rfl
  | succ n ih => rw [Mem.getBytes, List.length_cons, ih]

theorem getBytes_getElem (m : Mem) (a n : Nat) {i : Nat} (h : i < (m.getBytes a n).length) : (m.getBytes a n)[i] = m.byte (a + i) := by
  induction n generalizing a i with
  | zero => exact absurd h (Nat.not_lt_zero i)
  | succ n ih =>
    cases i with
    | zero => rfl
    | succ i =>
      simp only [Mem.getBytes, List.getElem_cons_succ]
      rw [ih, show a + 1 + i = a + (i + 1) by omega]

/-- A run of words none of which is marked is clean. -/
theorem badRun_of_unmarked {m : Mem} {a n : Nat} (h : ∀ i, i < wordSpan a n → m.mark (a / 8 + i) = Mark.none) : badRun m a n = false := by
  refine List.any_eq_false.2 (fun i hi => ?_)
  rw [h i (List.mem_range.1 hi)]
  decide

theorem coreRead_pois_clean {a n : Nat} (h : badRun (coreMem s false c) a n = false) : ∀ p ∈ (coreRead s false c a n).pois, p = false := by
  have hp : (coreRead s false c a n).pois.any id = false := (coreRead_poison s false c a n).trans h
  intro p hm
  simpa using List.any_eq_false.1 hp p hm

theorem coreRead_data (s : State) (c a n : Nat) : (coreRead s false c a n).data = (getCore s c).mem.localMem.getBytes a n :=
  read_data _ a n

/-- The 64 bytes copied to the slot: it holds them, and every other byte of the local memory stays. -/
theorem dpostCopied_local {n off : Nat} (hal : off % 8 = 0) (hq : quietWords (getCore s c))
    (hm : ∀ i, i < 8 → (getCore s c).mem.localMem.mark (off / 8 + i) = Mark.none) :
    ∃ m, LocalNow s c m (dpostCopied s c n off) ∧
      (∀ j, j < 64 → m.byte (slotAddr (getRing s c n) (getRing s c n).tail + j) = (getCore s c).mem.localMem.byte (off + j)) ∧
      ∀ x, x < slotAddr (getRing s c n) (getRing s c n).tail ∨ slotAddr (getRing s c n) (getRing s c n).tail + 64 ≤ x →
        m.byte x = (getCore s c).mem.localMem.byte x := by
  have hspan : wordSpan off 64 = 8 := by rw [wordSpan, if_neg (by decide)]; omega
  have hbad : badRun (coreMem s false c) off 64 = false := badRun_of_unmarked (fun i hi => hm i (by omega))
  obtain ⟨hsame, -⟩ := coreRead_clean hbad
  have hread := localNow_coreRead (quietMem_of_quietWords hq false) off 64
  rw [hsame] at hread
  have hquiet := hread.quiet (quietMem_of_quietWords hq false) (fun _ h => h)
  have hslot : slotAddr (getRing s c n) (getRing s c n).tail % 8 = 0 := by rw [slotAddr]; omega
  have hlen : (coreRead s false c off 64).data.length = 8 * 8 := by rw [coreRead_data, getBytes_length]
  obtain ⟨m, hnow, hin, hout⟩ := putWords_local (i := 0) (k := 8) hslot (by omega) hquiet (bs := (coreRead s false c off 64).data)
  refine ⟨m, ?_, fun j hj => ?_, fun x hx => ?_⟩
  · rw [dpostCopied, writeRun_words hslot hlen (coreRead_pois_clean hbad)]
    exact hread.trans hnow
  · rw [hin j (by omega) hj]
    simp only [coreRead_data, getBytes_getElem, Nat.zero_add]
  · rw [hout x hx, hread.local_eq, coreMem_local]

theorem getThread_dposted_same {m : Mem} {n off : Nat} (h : LocalNow s c m (dpostCopied s c n off)) (t rd : Nat) :
    getThread (dposted s c t n rd off) c t =
      { getThread s c t with regs := (getThread s c t).regs.gSet rd ⟨word (getRing s c n).tail, false⟩ } := by
  have hth (v : Ring) : getThread (setRing (dpostCopied s c n off) c n v) c t = getThread s c t := by
    rw [getThread, setRing, getCore_updCore_same, h.core]; rfl
  rw [dposted, getThread_writeG_same, hth]

theorem getCore_dposted_other {m : Mem} {n off d : Nat} (h : LocalNow s c m (dpostCopied s c n off)) (t rd : Nat) (hd : d ≠ c) :
    getCore (dposted s c t n rd off) d = getCore s d := by
  rw [dposted, getCore_updCore_other _ _ hd, setRing, getCore_updCore_other _ _ hd, h.cores d hd]

theorem mem_dposted {m : Mem} {n off : Nat} (h : LocalNow s c m (dpostCopied s c n off)) (t rd : Nat) :
    (getCore (dposted s c t n rd off) c).mem = ((getCore s c).withLocal m).mem := by
  rw [dposted, getCore_writeG_same, setRing, getCore_updCore_same, h.core]

theorem getRing_dposted (s : State) (c t n rd off : Nat) :
    getRing (dposted s c t n rd off) c n = ringPosted (getRing s c n) (getCore (dpostCopied s c n off) c) t := by
  rw [getRing, dposted, getCore_writeG_same, setRing, getCore_updCore_same]
  exact spGet_set_same _ _ _ _

theorem bulk_dposted {m : Mem} {n off : Nat} (h : LocalNow s c m (dpostCopied s c n off)) (t rd : Nat) :
    (dposted s c t n rd off).bulk = s.bulk := congrArg Prod.fst h.beside

theorem getRing_completed (s : State) (c t n : Nat) : getRing (completed c t s) c n = getRing s c n := by
  rw [getRing, getCore_completed_same]; rfl

/-- A DPOST that is taken: the thread, its ring, the memories and the other cores. -/
theorem dpost_effect {n off : Nat} (t rd : Nat) (hal : off % 8 = 0) (hq : quietWords (getCore s c))
    (hm : ∀ i, i < 8 → (getCore s c).mem.localMem.mark (off / 8 + i) = Mark.none) :
    let s' := completed c t (dposted s c t n rd off)
    let slot := slotAddr (getRing s c n) (getRing s c n).tail
    getThread s' c t = stepped (wroteG (getThread s c t) rd (word (getRing s c n).tail)) ∧
      (∃ k, getRing s' c n = ringPosted (getRing s c n) k t) ∧
      (∀ j, j < 64 → (getCore s' c).mem.localMem.byte (slot + j) = (getCore s c).mem.localMem.byte (off + j)) ∧
      (∀ x, x < slot ∨ slot + 64 ≤ x → (getCore s' c).mem.localMem.byte x = (getCore s c).mem.localMem.byte x) ∧
      (getCore s' c).mem.gran = (getCore s c).mem.gran ∧ s'.bulk = s.bulk ∧ ∀ d, d ≠ c → getCore s' d = getCore s d := by
  obtain ⟨m, hnow, hin, hout⟩ := dpostCopied_local hal hq hm (n := n)
  have hmem : (getCore (completed c t (dposted s c t n rd off)) c).mem = ((getCore s c).withLocal m).mem :=
    (completed_mem _ c t).trans (mem_dposted hnow t rd)
  dsimp only
  rw [hmem]
  refine ⟨?_, ⟨_, (getRing_completed _ c t n).trans (getRing_dposted s c t n rd off)⟩, hin, hout, rfl, ?_, fun d hd => ?_⟩
  · rw [getThread_completed_same, getThread_dposted_same hnow]; rfl
  · rw [completed_rest]; exact bulk_dposted hnow t rd
  · rw [getCore_completed_other _ _ hd, getCore_dposted_other hnow t rd hd]

/-! ## DPOST and DSTAT issue -/

/-- The form of DPOST. -/
def dpostForm (c t : Nat) (w : Word) (s : State) : Form := { uses := readsA w, priv := dpostPriv c t w s, body := dpostBody c t w }

/-- The ring takes descriptors, and is not full. -/
structure Takes (s : State) (c n : Nat) : Prop where
  en : (getRing s c n).en = true
  valid : ringValid (getCore s c) (getRing s c n) = true
  sound : (getRing s c n).error = false

theorem dpost_raises {a : Word} (hi : Issues .dpost c t w s) (hr : Ready c t (readsA w) s) (ha : dpostArg s c t w = a)
    (hp : dpostPriv c t w s = none) (hx : firstCand (dpostAddr s c t a ++ dpostRing s c (wRing w)) = some x) :
    exec (.dpost c t w) s = .next (trapped c t x s) := by
  have hclean := gGet_clean_of_poison_nil hr.clean (n := wGa w) (by simp [readsA])
  have hb : dpostBody c t w s = .raise (dpostAddr s c t a ++ dpostRing s c (wRing w)) := by
    rw [dpostBody_of_clean hclean ha]
    dsimp only
    generalize dpostAddr s c t a ++ dpostRing s c (wRing w) = xs at hx ⊢
    cases xs with
    | nil => cases hx
    | cons y ys => rfl
  exact issue_raised (f := dpostForm c t w s) hi ⟨hr.free, rfl, hp⟩ hb hx

theorem dpost_waits {a : Word} (hi : Issues .dpost c t w s) (hr : Ready c t (readsA w) s) (ha : dpostArg s c t w = a)
    (hp : dpostPriv c t w s = none) (hpl : Placed s c t a) (ht : Takes s c (wRing w))
    (hf : 2 ^ (getRing s c (wRing w)).logn ≤
      ((getRing s c (wRing w)).tail + 2 ^ 32 - (getRing s c (wRing w)).done) % 2 ^ 32) : exec (.dpost c t w) s = .next s := by
  have hclean := gGet_clean_of_poison_nil hr.clean (n := wGa w) (by simp [readsA])
  have hb : dpostBody c t w s = .wait := by
    rw [dpostBody_of_clean hclean ha, dpostAddr_placed hpl, dpostRing_on ht.en ht.valid ht.sound]
    dsimp only
    rw [if_neg (by decide), if_pos]
    rw [decide_eq_true (show (getRing s c (wRing w)).slots ≤ _ from hf), Bool.true_or]
  exact issue_waits (f := dpostForm c t w s) hi ⟨hr.free, rfl, hp⟩ hb

theorem dpost_posts {a : Word} (hi : Issues .dpost c t w s) (hr : Ready c t (readsA w) s) (ha : dpostArg s c t w = a)
    (hp : dpostPriv c t w s = none) (hpl : Placed s c t a) (ht : Takes s c (wRing w))
    (hf : ¬ 2 ^ (getRing s c (wRing w)).logn ≤
      ((getRing s c (wRing w)).tail + 2 ^ 32 - (getRing s c (wRing w)).done) % 2 ^ 32)
    (hm : mustFollow s c t false false (field a 55 0) 64 = false) :
    exec (.dpost c t w) s = .next (completed c t (dposted s c t (wRing w) (wGd w) (field a 55 0))) := by
  have hclean := gGet_clean_of_poison_nil hr.clean (n := wGa w) (by simp [readsA])
  rw [offset_eq] at hm
  have hb : dpostBody c t w s = .done (advance (dposted s c t (wRing w) (wGd w) (field a 55 0)) c t) := by
    rw [dpostBody_of_clean hclean ha, dpostAddr_placed hpl, dpostRing_on ht.en ht.valid ht.sound, offset_eq]
    dsimp only
    rw [if_neg (by decide), if_neg]
    rw [decide_eq_false (show ¬ (getRing s c (wRing w)).slots ≤ _ from hf), hm]
    decide
  exact issue_finished (f := dpostForm c t w s) hi ⟨hr.free, rfl, hp⟩ hb

theorem dstat_finished (hi : Issues .dstat c t w s) (hr : Ready c t (readsNone w) s)
    (hp : (getThread s c t).st.pm = true ∨ (getRing s c (wRing w)).job = true) : exec (.dstat c t w) s =
      .next (completed c t (updCore s c (fun k => k.writeG t (wGd w) (drstatWord (getRing s c (wRing w)))))) :=
  issue_finished hi ⟨hr.free, rfl, ringPriv_allowed hp⟩ rfl

theorem threadOnly_completed_writeG (s : State) (c t n : Nat) (v : Word) :
    ThreadOnly c t (some n) (wroteG (getThread s c t) n v) s (completed c t (updCore s c (fun k => k.writeG t n v))) :=
  threadOnly_completed (getThread_writeG_same s c t n v) (fun _ hu => getThread_writeG_other s c n v hu) (getCore_writeG_same s c t n v)
    (fun _ hd => getCore_updCore_other _ _ hd) rfl

/-- Settles O34: the mode first, then the address and the ring in their order, then the post. -/
theorem drillPostsAndStatus : Obligations.DrillPostsAndStatus := by
  unfold Obligations.DrillPostsAndStatus
  intro c t w s th n r a m control allowed on placed full
  have ha : dpostArg s c t w = a := rfl
  have hclean (hr : Ready c t (readsA w) s) : ((getThread s c t).regs.gGet (wGa w)).p = false :=
    gGet_clean_of_poison_nil hr.clean (by simp [readsA])
  have hplace (h : placed) : Placed s c t a := ⟨h.1, h.2.1, h.2.2.1, h.2.2.2⟩
  have htake (h : on) : Takes s c (wRing w) := ⟨h.1, h.2.1, h.2.2⟩
  refine ⟨fun hi hr hc => ?control, fun hi hr hal hc => ?allowed, fun hi hr hal => ⟨_, dstat_finished hi hr hal, ?dstat⟩,
    fun hal => ⟨fun hi hr hc => ?denied, fun hi hr => ?deniedStat⟩⟩
  case control =>
    exact issue_denied (f := dpostForm c t w s) hi.toOffered (wordIs_of_spells hi.spells) hi.legal hr.free rfl
      (dpostPriv_control (hclean hr) hc.1 hc.2)
  case allowed =>
    have hp : dpostPriv c t w s = none := (dpostPriv_other (hclean hr) hc).trans (ringPriv_allowed hal)
    refine ⟨fun hpl ho hf => dpost_waits hi hr ha hp (hplace hpl) (htake ho) hf, fun hpl ho hf hm hq hmark =>
      ⟨_, dpost_posts hi hr ha hp (hplace hpl) (htake ho) hf hm, ?_⟩, fun hpl ho => ?_, fun hmis => ?_, fun hal hsp => ?_⟩
    · have h8 : field a 55 0 % 8 = 0 := offset_mod_eight hpl.2.1
      obtain ⟨hth, ⟨k, hring⟩, hin, hout, -, -, hcores⟩ := dpost_effect t (wGd w) (n := wRing w) h8 hq hmark
      refine ⟨hth, ?_, ?_, ?_, hin, hout, hcores⟩ <;> rw [show getRing _ c n = _ from hring]
      · rfl
      · rfl
      · exact List.map_append
    · refine dpost_raises hi hr ha hp ?_
      rw [dpostAddr_placed (hplace hpl), dpostRing_off (n := wRing w) ho]
      rfl
    · exact dpost_raises hi hr ha hp (firstCand_dpost_misaligned hmis _)
    · exact dpost_raises hi hr ha hp (firstCand_dpost_space hal hsp _)
  case dstat => exact threadOnly_completed_writeG s c t (wGd w) _
  case denied =>
    exact issue_denied (f := dpostForm c t w s) hi.toOffered (wordIs_of_spells hi.spells) hi.legal hr.free rfl
      ((dpostPriv_other (hclean hr) hc).trans (ringPriv_denied hal))
  case deniedStat =>
    exact issue_denied hi.toOffered (wordIs_of_spells hi.spells) hi.legal hr.free rfl (ringPriv_denied hal)

end Sys2Proof.Machine
end

section
/-!
PROOFS. REAP and RWAIT of a thread without a result area (09 R345–R349).
-/

namespace Sys2Proof.Machine

variable {s s' s1 : State} {c t : Nat} {w : Word}

/-! ## What leaves every byte as it was -/

/-- No byte of core c's memories or of bulk memory, and no other core, has changed. -/
def SameBytes (s : State) (c : Nat) (s' : State) : Prop :=
  (∀ x, (getCore s' c).mem.localMem.byte x = (getCore s c).mem.localMem.byte x ∧
    (getCore s' c).mem.gran.byte x = (getCore s c).mem.gran.byte x) ∧
  s'.bulk = s.bulk ∧ ∀ d, d ≠ c → getCore s' d = getCore s d

theorem sameBytes_of_mem (hm : (getCore s' c).mem = (getCore s c).mem) (hb : s'.bulk = s.bulk)
    (hd : ∀ d, d ≠ c → getCore s' d = getCore s d) : SameBytes s c s' :=
  ⟨fun x => by rw [hm]; exact ⟨rfl, rfl⟩, hb, hd⟩

theorem sameBytes_finished (t : Nat) (h : SameBytes s c s1) : SameBytes s c (finished c t s1) := by
  obtain ⟨hx, hb, hd⟩ := h
  refine ⟨fun x => by rw [finished_mem]; exact hx x, (finished_bulk s1 c t).trans hb, fun d hne => ?_⟩
  rw [getCore_finished_other _ _ hne, hd d hne]

theorem sameBytes_completed (t : Nat) (h : SameBytes s c s1) : SameBytes s c (completed c t s1) := by
  refine sameBytes_finished t ?_
  obtain ⟨hx, hb, hd⟩ := h
  refine ⟨fun x => by rw [getCore_advance_same]; exact hx x, hb, fun d hne => ?_⟩
  rw [getCore_advance_other _ _ hne, hd d hne]

theorem sameBytes_writeG (t n : Nat) (v : Word) (h : SameBytes s c s1) :
    SameBytes s c (updCore s1 c (fun k => k.writeG t n v)) := by
  obtain ⟨hx, hb, hd⟩ := h
  refine ⟨fun x => by rw [getCore_writeG_same]; exact hx x, hb, fun d hne => ?_⟩
  rw [getCore_updCore_other _ _ hne, hd d hne]

/-! ## A read of unmarked words -/

theorem corrected_of_unmarked {m : Mem} {x n : Nat} (h : ∀ i, i < n → m.mark (x + i) = Mark.none) : m.corrected x n = 0 := by
  rw [Mem.corrected, List.length_eq_zero_iff, List.filter_eq_nil_iff]
  intro i hi
  rw [h i (List.mem_range.1 hi)]
  decide

/-- A read of unmarked words stores the memory it read, and does nothing else. -/
theorem coreRead_unmarked {a n : Nat} (h : ∀ i, i < wordSpan a n → (coreMem s false c).mark (a / 8 + i) = Mark.none) :
    (coreRead s false c a n).st = setCoreMem s false c (coreMem s false c) := by
  have hr : ∀ i < wordSpan a n, ((coreMem s false c).mark (a / 8 + i)).ecc ≠ .unc := fun i hi => by rw [h i hi]; decide
  obtain ⟨hm, hf⟩ := probes_readable hr
  have hm' : ((coreMem s false c).read a n).mem = coreMem s false c := hm
  have hf' : ((coreMem s false c).read a n).found = [] := hf
  unfold coreRead coreAccess
  dsimp only
  rw [hf', hm', corrected_of_unmarked h]
  rfl

/-! ## A contribution that is not the last -/

/-- The context a REAP or RWAIT names. -/
def reapOf (s : State) (c : Nat) (w : Word) : ReapCtx := getReap s (reapKey (dieOf s.grid c) (wCtx w))

/-- Bytes of a contribution area. -/
def ReapCtx.span (r : ReapCtx) : Nat := r.lanes * 4 + r.lanes / 8

/-- A contribution of core c noted, with the round not combined. -/
def contributed (s : State) (c n : Nat) (who : ReapWho) (lanes : List Nat) (flags : Nat) : State :=
  let key := reapKey (dieOf s.grid c) n
  let r := getReap s key
  setReap (setOuts s c ((getCore s c).sync.reapOut ++ [{ ctx := n, who := who, round := r.round + 1, result := none, ended := none }]))
    key { r with ins := r.ins ++ [{ core := c, lanes := lanes, flags := flags }] }

/-- The round waits for a member that has not contributed. -/
theorem reapCombine_waits {key d : Nat} (hh : reapHole s (getReap s key) = none)
    (hd : d ∈ members s (getReap s key).rows (getReap s key).cols) (hn : ∀ i ∈ (getReap s key).ins, i.core ≠ d) :
    reapCombine s key = s := by
  have hall : ((members s (getReap s key).rows (getReap s key).cols).all
      fun c => (getReap s key).ins.any fun i => i.core == c) = false := by
    refine List.all_eq_false.2 ⟨d, hd, ?_⟩
    rw [Bool.not_eq_true]
    exact List.any_eq_false.2 (fun i hi => by simpa using hn i hi)
  unfold reapCombine
  dsimp only
  rw [hh]
  dsimp only
  rw [hall]
  rfl

theorem reapHole_of_grid (h : s'.grid = s.grid) (r : ReapCtx) : reapHole s' r = reapHole s r := by
  simp only [reapHole, allCores, isHole, fenceOf, h]

theorem members_of_grid (h : s'.grid = s.grid) (rows cols : BitVec 48) : members s' rows cols = members s rows cols := by
  simp only [members, allCores, isHole, fenceOf, holeComing, h]

theorem reapContribute_waits {n d : Nat} (who : ReapWho) (lanes : List Nat) (flags : Nat)
    (hh : reapHole s (getReap s (reapKey (dieOf s.grid c) n)) = none)
    (hd : d ∈ members s (getReap s (reapKey (dieOf s.grid c) n)).rows (getReap s (reapKey (dieOf s.grid c) n)).cols) (hdc : d ≠ c)
    (hn : ∀ i ∈ (getReap s (reapKey (dieOf s.grid c) n)).ins, i.core ≠ d) :
    reapContribute s c n who lanes flags =
      ((getReap s (reapKey (dieOf s.grid c) n)).round + 1, contributed s c n who lanes flags) := by
  have hget : getReap (contributed s c n who lanes flags) (reapKey (dieOf s.grid c) n) =
      { getReap s (reapKey (dieOf s.grid c) n) with
        ins := (getReap s (reapKey (dieOf s.grid c) n)).ins ++ [{ core := c, lanes := lanes, flags := flags }] } :=
    spGet_set_same _ _ _ _
  have hgrid : (contributed s c n who lanes flags).grid = s.grid := rfl
  have hwait : reapCombine (contributed s c n who lanes flags) (reapKey (dieOf s.grid c) n) = contributed s c n who lanes flags := by
    refine reapCombine_waits (d := d) ?_ ?_ ?_ <;> rw [hget]
    · rw [reapHole_of_grid hgrid]; exact hh
    · rw [members_of_grid hgrid]; exact hd
    · intro i hi
      rcases List.mem_append.1 hi with hi | hi
      · exact hn i hi
      · rw [List.mem_singleton.1 hi]; exact Ne.symm hdc
  exact congrArg (Prod.mk _) hwait

/-! ## REAP -/

/-- The condition of the contribution area: aligned, in LOCAL, and allowed in the thread's mode. -/
structure AreaFits (s : State) (c t : Nat) (a : Word) (span : Nat) : Prop where
  space : field a 63 56 = 0
  aligned : a.toNat % 128 = 0
  range : field a 55 0 + span ≤ 0xC0000
  area : (getThread s c t).st.pm = true ∨ field a 55 0 + span ≤ (getCore s c).ctl.klim.toNat

theorem areaChecks_fits {a : Word} {span : Nat} (h : AreaFits s c t a span) (gran : Bool) :
    areaChecks s c t gran a span (a.toNat % 128 != 0) = [] := by
  obtain ⟨hs, hal, hr, hk⟩ := h
  have hend : decide (localEnd < addrOff a + span) = false := decide_eq_false (Nat.not_lt.2 hr)
  have hkeep : (inJob s c t && decide ((getCore s c).ctl.klim.toNat < addrOff a + span)) = false := by
    rw [inJob_eq]
    rcases hk with hp | hp
    · rw [hp]; rfl
    · rw [decide_eq_false (show ¬ _ < addrOff a + span from Nat.not_lt.2 hp), Bool.and_false]
  unfold areaChecks
  dsimp only
  rw [if_pos (show addrTag a = 0 from hs), hend, hkeep, hal]
  rfl

/-- A member's REAP finds an area and a context it may use, and no contribution of its own outstanding. -/
structure MayReap (s : State) (c t : Nat) (w : Word) : Prop where
  single : wGb w = 0
  clean : ((getThread s c t).regs.gGet (wGa w)).p = false
  area : AreaFits s c t (gVal (getThread s c t) (wGa w)) (reapOf s c w).span
  free : mustFollow s c t false false (field (gVal (getThread s c t) (wGa w)) 55 0) (reapOf s c w).span = false
  en : (reapOf s c w).en = true
  member : named (reapOf s c w).rows (reapOf s c w).cols c = true
  none : findOut s c (wCtx w) = none

/-- The read of the contribution area. -/
def areaRead (s : State) (c t : Nat) (w : Word) : Got :=
  coreRead s false c (field (gVal (getThread s c t) (wGa w)) 55 0) (reapOf s c w).span

theorem reapBody_contributes (h : MayReap s c t w) : reapBody c t w s =
    let x := reapArea (reapOf s c w) (areaRead s c t w)
    let y := reapContribute (areaRead s c t w).st c (wCtx w) (.thread t none) x.1 x.2
    .done (advance (updCore y.2 c (fun k => k.writeG t (wGd w) (word y.1.toNat))) c t) := by
  obtain ⟨hb, hp, harea, hfree, hen, hmem, hout⟩ := h
  have hp0 : ((getThread s c t).regs.gGet 0).p = false := rfl
  have hpois : reapBody.addrPoison? w (getThread s c t) = [] := by
    simp only [reapBody.addrPoison?, hb, List.filter_cons, hp, hp0]; rfl
  have hck := areaChecks_fits harea false
  rw [reapOf] at hen hmem
  simp only [reapOf, ReapCtx.span] at hfree hck
  unfold reapBody
  dsimp only
  simp only [hpois, hb, hp, hck, hen, hmem, hout]
  change (if mustFollow s c t false false (field (gVal (getThread s c t) (wGa w)) 55 0) _ = true then _ else _) = _
  rw [hfree]
  rfl

/-- The state with the contribution of a member's REAP noted. -/
def reaped (s : State) (c t : Nat) (w : Word) : State :=
  let x := reapArea (reapOf s c w) (areaRead s c t w)
  contributed (areaRead s c t w).st c (wCtx w) (.thread t none) x.1 x.2

theorem getCore_setReap (s : State) (key : Nat) (r : ReapCtx) (d : Nat) : getCore (setReap s key r) d = getCore s d := rfl

theorem getCore_contributed_same (s : State) (c n : Nat) (who : ReapWho) (lanes : List Nat) (flags : Nat) :
    getCore (contributed s c n who lanes flags) c = { getCore s c with sync := { (getCore s c).sync with
      reapOut := (getCore s c).sync.reapOut ++
        [{ ctx := n, who := who, round := (getReap s (reapKey (dieOf s.grid c) n)).round + 1, result := none, ended := none }] } } := by
  rw [contributed, getCore_setReap, setOuts, getCore_updCore_same]

theorem getCore_contributed_other (s : State) {c d : Nat} (n : Nat) (who : ReapWho) (lanes : List Nat) (flags : Nat) (h : d ≠ c) :
    getCore (contributed s c n who lanes flags) d = getCore s d := by
  rw [contributed, getCore_setReap, setOuts, getCore_updCore_other _ _ h]

/-- No word of the contribution area is marked. -/
def areaUnmarked (s : State) (c t : Nat) (w : Word) : Prop :=
  ∀ i, i < wordSpan (field (gVal (getThread s c t) (wGa w)) 55 0) (reapOf s c w).span →
    (getCore s c).mem.localMem.mark (field (gVal (getThread s c t) (wGa w)) 55 0 / 8 + i) = Mark.none

theorem areaRead_unmarked (h : areaUnmarked s c t w) : (areaRead s c t w).st = setCoreMem s false c (coreMem s false c) :=
  coreRead_unmarked h

theorem getCore_reaped_same (h : areaUnmarked s c t w) :
    getCore (reaped s c t w) c = { getCore s c with sync := { (getCore s c).sync with reapOut := (getCore s c).sync.reapOut ++
      [{ ctx := wCtx w, who := .thread t none, round := (reapOf s c w).round + 1, result := none, ended := none }] } } := by
  rw [reaped, getCore_contributed_same, areaRead_unmarked h, getCore_setCoreMem_self]
  rfl

theorem sameBytes_reaped (h : areaUnmarked s c t w) : SameBytes s c (reaped s c t w) := by
  refine sameBytes_of_mem (by rw [getCore_reaped_same h]) (coreRead_bulk s false c _ _) (fun d hd => ?_)
  rw [reaped, getCore_contributed_other _ _ _ _ _ hd, areaRead_unmarked h, getCore_setCoreMem_self]

/-- The form of REAP. -/
def reapForm (c t : Nat) (w : Word) (s : State) : Form :=
  { uses := { gIn := [wGa w, wGb w], gOut := [wGd w] }, priv := reapPriv c t w s, body := reapBody c t w }

/-- The result of a member's REAP while another has still to contribute. -/
def reapedBy (s : State) (c t : Nat) (w : Word) : State :=
  completed c t (updCore (reaped s c t w) c (fun k => k.writeG t (wGd w) (word ((reapOf s c w).round + 1).toNat)))

theorem reap_contributes {d : Nat} (hi : Issues .reap c t w s) (hr : Ready c t { gIn := [wGa w, wGb w], gOut := [wGd w] } s)
    (hm : MayReap s c t w) (hu : areaUnmarked s c t w) (hh : reapHole s (reapOf s c w) = none)
    (hd : d ∈ members s (reapOf s c w).rows (reapOf s c w).cols) (hdc : d ≠ c) (hn : ∀ i ∈ (reapOf s c w).ins, i.core ≠ d) :
    exec (.reap c t w) s = .next (reapedBy s c t w) := by
  have hpriv : reapPriv c t w s = none := by
    have hctl : controlJob s c t (wGa w) = none := controlJob_of_other (by rw [hm.area.space]; decide)
    simp [reapPriv, hctl, hm.single]
  have hgrid : (areaRead s c t w).st.grid = s.grid := by rw [areaRead_unmarked hu]; rfl
  have hget : getReap (areaRead s c t w).st (reapKey (dieOf (areaRead s c t w).st.grid c) (wCtx w)) = reapOf s c w := by
    rw [hgrid, areaRead_unmarked hu]; rfl
  have hwait (lanes : List Nat) (flags : Nat) : reapContribute (areaRead s c t w).st c (wCtx w) (.thread t none) lanes flags =
      ((reapOf s c w).round + 1, contributed (areaRead s c t w).st c (wCtx w) (.thread t none) lanes flags) := by
    rw [reapContribute_waits (d := d) _ _ _ ?hole ?member hdc ?missing] <;> rw [hget]
    case hole => rw [reapHole_of_grid hgrid]; exact hh
    case member => rw [members_of_grid hgrid]; exact hd
    case missing => exact hn
  have hb : reapBody c t w s = .done (advance
      (updCore (reaped s c t w) c (fun k => k.writeG t (wGd w) (word ((reapOf s c w).round + 1).toNat))) c t) := by
    rw [reapBody_contributes hm]
    dsimp only
    rw [hwait]
    rfl
  rw [reapedBy, completed]
  exact issue_finished (f := reapForm c t w s) hi ⟨hr.free, rfl, hpriv⟩ hb

theorem findOut_completed (s : State) (c t n : Nat) : findOut (completed c t s) c n = findOut s c n := by
  rw [findOut, getCore_completed_same]; rfl

theorem findOut_writeG (s : State) (c t rd n : Nat) (v : Word) :
    findOut (updCore s c (fun k => k.writeG t rd v)) c n = findOut s c n := by
  rw [findOut, getCore_writeG_same]; rfl

theorem findOut_append {l : List ReapOut} {n : Nat} (h : l.find? (fun o => o.ctx == n) = none) (o : ReapOut) (ho : o.ctx = n) :
    (l ++ [o]).find? (fun o => o.ctx == n) = some o := by
  rw [List.find?_append, h, Option.none_or, List.find?_cons_of_pos (by simpa using ho)]

theorem reapedBy_effect (h : areaUnmarked s c t w) (hout : findOut s c (wCtx w) = none) :
    SameBytes s c (reapedBy s c t w) ∧
    getThread (reapedBy s c t w) c t = stepped (wroteG (getThread s c t) (wGd w) (word ((reapOf s c w).round + 1).toNat)) ∧
    (findOut (reapedBy s c t w) c (wCtx w)).map (·.round) = some ((reapOf s c w).round + 1) ∧
    (getReap (reapedBy s c t w) (reapKey (dieOf s.grid c) (wCtx w))).ins.map (·.core) = (reapOf s c w).ins.map (·.core) ++ [c] := by
  refine ⟨sameBytes_completed t (sameBytes_writeG t _ _ (sameBytes_reaped h)), ?_, ?_, ?_⟩
  · rw [reapedBy, getThread_completed_same, getThread_writeG_same, getThread, getCore_reaped_same h]
    rfl
  · rw [reapedBy, findOut_completed, findOut_writeG, findOut, getCore_reaped_same h, findOut_append hout _ rfl]
    rfl
  · have hreaps : (reapedBy s c t w).reaps = (reaped s c t w).reaps := by rw [reapedBy, completed_rest]; rfl
    have hget : getReap (reaped s c t w) (reapKey (dieOf s.grid c) (wCtx w)) = { reapOf s c w with ins := (reapOf s c w).ins ++
        [{ core := c, lanes := (reapArea (reapOf s c w) (areaRead s c t w)).1, flags := (reapArea (reapOf s c w) (areaRead s c t w)).2 }] } := by
      rw [reaped, areaRead_unmarked h]
      exact spGet_set_same _ _ _ _
    rw [getReap, hreaps, ← getReap, hget]
    exact List.map_append

/-! ## RWAIT -/

/-- The form of RWAIT. -/
def rwaitForm (c t : Nat) (w : Word) : Form := { uses := { gOut := [wGd w] }, body := rwaitBody c t w }

/-- A result that is there is collected, with no area to write. -/
def collected (s : State) (c t : Nat) (w : Word) (o : ReapOut) : State :=
  completed c t (updCore (dropOut s c (wCtx w)) c (fun k => k.writeG t (wGd w) (word o.round.toNat)))

/-- A thread that waits for the result of a reap. -/
def reapWaiter (th : Thread) (n rd : Nat) : Thread := { th with st := { th.st with state := .waiting }, wait := .reap n rd }

variable {o : ReapOut} {u : Nat}

theorem rwait_collects (hi : Issues .rwait c t w s) (hr : Ready c t { gOut := [wGd w] } s) (ho : findOut s c (wCtx w) = some o)
    (hw : o.who = .thread u none) (hres : o.result.isSome = true) : exec (.rwait c t w) s = .next (collected s c t w o) := by
  obtain ⟨⟨lanes, flags⟩, hl⟩ := Option.isSome_iff_exists.1 hres
  have hc : reapCollect s c (wCtx w) = dropOut s c (wCtx w) := by
    unfold reapCollect
    simp only [ho, hw, hl]
    rfl
  have hb : rwaitBody c t w s =
      .done (advance (updCore (dropOut s c (wCtx w)) c (fun k => k.writeG t (wGd w) (word o.round.toNat))) c t) := by
    unfold rwaitBody
    simp only [ho, hw, hl, hc]
    rfl
  rw [collected, completed]
  exact issue_finished (f := rwaitForm c t w) hi ⟨hr.free, rfl, rfl⟩ hb

theorem rwait_waits (hi : Issues .rwait c t w s) (hr : Ready c t { gOut := [wGd w] } s) (ho : findOut s c (wCtx w) = some o)
    (hw : o.who = .thread u none) (hres : o.result.isSome = false) :
    exec (.rwait c t w) s = .next (finished c t (updThread s c t (fun th => reapWaiter th (wCtx w) (wGd w)))) := by
  have hb : rwaitBody c t w s = .done (updThread s c t (fun th => reapWaiter th (wCtx w) (wGd w))) := by
    unfold rwaitBody
    simp only [ho, hw, hres]
    rfl
  exact issue_finished (f := rwaitForm c t w) hi ⟨hr.free, rfl, rfl⟩ hb

theorem findOut_dropOut (s : State) (c n : Nat) : findOut (dropOut s c n) c n = none := by
  rw [findOut, dropOut, setOuts, getCore_updCore_same, List.find?_eq_none]
  intro o ho
  have := (List.mem_filter.1 ho).2
  simpa using this

theorem collected_effect (s : State) (c t : Nat) (w : Word) (o : ReapOut) :
    SameBytes s c (collected s c t w o) ∧ findOut (collected s c t w o) c (wCtx w) = none ∧
    getThread (collected s c t w o) c t = stepped (wroteG (getThread s c t) (wGd w) (word o.round.toNat)) := by
  refine ⟨sameBytes_completed t (sameBytes_writeG t _ _ (sameBytes_of_mem ?_ rfl (fun d hd => ?_))), ?_, ?_⟩
  · rw [dropOut, setOuts, getCore_updCore_same]
  · rw [dropOut, setOuts, getCore_updCore_other _ _ hd]
  · rw [collected, findOut_completed, findOut_writeG, findOut_dropOut]
  · have hth : getThread (dropOut s c (wCtx w)) c t = getThread s c t := by
      rw [getThread, dropOut, setOuts, getCore_updCore_same]; rfl
    rw [collected, getThread_completed_same, getThread_writeG_same, hth]
    rfl

theorem reapWaiter_effect (s : State) (c t n rd : Nat) :
    SameBytes s c (finished c t (updThread s c t (fun th => reapWaiter th n rd))) ∧
    findOut (finished c t (updThread s c t (fun th => reapWaiter th n rd))) c n = findOut s c n ∧
    getThread (finished c t (updThread s c t (fun th => reapWaiter th n rd))) c t = reapWaiter (getThread s c t) n rd := by
  refine ⟨sameBytes_finished t (sameBytes_of_mem ?_ rfl (fun d hd => getCore_updThread_other s t _ hd)), ?_, ?_⟩
  · rw [getCore_updThread_same]
  · rw [findOut, getCore_finished_same, getCore_updThread_same]; rfl
  · rw [getThread_finished_same, getThread_updThread_same, stepped_of_not_running (show TState.waiting ≠ .running by decide)]

end Sys2Proof.Machine
end

section
/-!
PROOFS. JSWITCH of a core at rest: its beginning (02 R91).
-/

namespace Sys2Proof.Machine

variable {s s' : State} {c t u : Nat} {w : Word}

/-! ## A core at rest -/

/-- Every thread but t is STOPPED, FAULTED or HALTED, and the rings, the engines and the drain have nothing to do. -/
structure AtRest (s : State) (c t : Nat) : Prop where
  others : ∀ u, u < 16 → u ≠ t → (getThread s c u).st.state ∈ [TState.stopped, .faulted, .halted]
  rings : ringsIdle (getCore s c) = true
  engines : enginesIdle (getCore s c) = true
  jobs : (getCore s c).drain.jobs = []

theorem foldl_fixed_of_mem {σ ι : Type} {step : σ → ι → σ} {x : σ} {l : List ι} (h : ∀ i ∈ l, step x i = x) : l.foldl step x = x := by
  induction l with
  | nil => rfl
  | cons i l ih =>
    rw [List.foldl_cons, h i List.mem_cons_self]
    exact ih (fun j hj => h j (List.mem_cons_of_mem i hj))

theorem state_cases (h : (getThread s c u).st.state ∈ [TState.stopped, .faulted, .halted]) :
    (getThread s c u).st.state = .stopped ∨ (getThread s c u).st.state = .faulted ∨ (getThread s c u).st.state = .halted := by
  simpa using h

theorem stopForSwitch_at_rest (h : (getThread s c u).st.state ∈ [TState.stopped, .faulted, .halted]) : stopForSwitch s c u = s := by
  rcases state_cases h with h | h | h <;> simp only [stopForSwitch, h]

theorem stopComplete_at_rest (h : (getThread s c u).st.state ∈ [TState.stopped, .faulted, .halted]) : stopComplete s c u = s := by
  have hne : ((getThread s c u).st.state != .running) = true := by rcases state_cases h with h | h | h <;> rw [h] <;> rfl
  rw [getThread] at hne
  unfold stopComplete
  dsimp only
  split
  · rfl
  · rw [hne]; rfl

theorem stopComplete_not_asked (h : (getThread s c u).stopReq = none) : stopComplete s c u = s := by
  rw [getThread] at h
  simp only [stopComplete, h]

theorem settleStops_at_rest (h : AtRest s c t) (ht : (getThread s c t).stopReq = none) : settleStops s c = s := by
  refine foldl_fixed_of_mem (fun u hu => ?_)
  by_cases hut : u = t
  · subst hut; exact stopComplete_not_asked ht
  · exact stopComplete_at_rest (h.others u (List.mem_range.1 hu) hut)

theorem jswitchDrains_at_rest (h : (getCore s c).drain.jobs = []) : jswitchDrains s c = s := by
  rw [jswitchDrains, h]; rfl

theorem jswitchEngines_at_rest (h : enginesIdle (getCore s c) = true) : jswitchEngines s c = s := by
  obtain ⟨hh, hw⟩ : (getCore s c).eng.harrow.cmd = none ∧ (getCore s c).eng.winnow.cmd = none := by
    simpa [enginesIdle] using h
  have hcmd (b : Bool) : (getEng s c b).cmd = none := by cases b <;> assumption
  refine foldl_fixed_of_mem (fun b _ => ?_)
  rw [hcmd b]

theorem othersStopped_at_rest (h : AtRest s c t) : othersStopped (getCore s c) (some t) = true := by
  refine List.all_eq_true.2 (fun u hu => ?_)
  by_cases hut : u = t
  · subst hut; simp
  · rcases state_cases (h.others u (List.mem_range.1 hu) hut) with h | h | h <;> rw [getThread] at h <;> rw [h] <;> simp

/-! ## Idle rings -/

/-- A ring with no descriptor. -/
def Ring.idle (r : Ring) : Prop := r.cur = none ∧ r.posted = []

theorem ringsIdle_iff (k : Core) : ringsIdle k = true ↔ ∀ p ∈ k.rings, p.2.idle := by
  simp [ringsIdle, Ring.idle, List.all_eq_true]

/-- A place of a sparse table holds the default or is listed. -/
theorem spGet_default_or_mem {α : Type} (d : α) (m : Sparse α) (k : Nat) : spGet d m k = d ∨ (k, spGet d m k) ∈ m := by
  induction m with
  | nil => exact Or.inl rfl
  | cons p r ih =>
    obtain ⟨j, v⟩ := p
    rw [spGet]
    split
    · next h => subst h; exact Or.inr List.mem_cons_self
    · exact ih.imp_right (List.mem_cons_of_mem _)

theorem mem_spSet {α : Type} [DecidableEq α] {d : α} {m : Sparse α} {k : Nat} {v : α} {p : Nat × α} (h : p ∈ spSet d m k v) :
    p = (k, v) ∨ p ∈ m := by
  unfold spSet at h
  split at h
  · exact Or.inr (List.mem_of_mem_filter h)
  · exact mem_insert h

theorem getRing_idle (h : ringsIdle (getCore s c) = true) (n : Nat) : (getRing s c n).idle := by
  rcases spGet_default_or_mem ({} : Ring) (getCore s c).rings n with hd | hm
  · rw [getRing, hd]; exact ⟨rfl, rfl⟩
  · exact (ringsIdle_iff _).1 h _ hm

/-- s' is s but for core c's rings, which are idle. -/
structure RingsOnly (c : Nat) (s s' : State) : Prop where
  core : getCore s' c = { getCore s c with rings := (getCore s' c).rings }
  idle : ringsIdle (getCore s' c) = true
  cores : ∀ d, d ≠ c → getCore s' d = getCore s d
  rest : s' = { s with cores := s'.cores }

/-- The end of an idle ring's descriptors writes nothing. -/
theorem jswitchRing_idle {n : Nat} (h : (getRing s c n).idle) : jswitchRing s c n =
    setRing s c n { getRing s c n with posted := [], done := ((getRing s c n).done + (getRing s c n).posted.length) % 2 ^ 32 } := by
  obtain ⟨hcur, hposted⟩ := h
  have ha : abortRunning s c n = s := by simp only [abortRunning, hcur, hposted]
  rw [jswitchRing, ha]
  rfl

theorem ringsOnly_jswitchRing (h : RingsOnly c s s') (n : Nat) : RingsOnly c s (jswitchRing s' c n) := by
  obtain ⟨hcore, hidle, hcores, hrest⟩ := h
  have hn := getRing_idle hidle n
  rw [jswitchRing_idle hn, setRing]
  refine ⟨?_, ?_, fun d hd => (getCore_updCore_other _ _ hd).trans (hcores d hd), ?_⟩
  · rw [getCore_updCore_same, hcore]
  · rw [getCore_updCore_same, ringsIdle_iff]
    intro p hp
    rcases mem_spSet hp with rfl | hp
    · exact ⟨hn.1, rfl⟩
    · exact (ringsIdle_iff _).1 hidle p hp
  · rw [updCore_rest, hrest]

theorem ringsOnly_jswitchRings (h : ringsIdle (getCore s c) = true) (l : List Nat) :
    RingsOnly c s (l.foldl (fun s r => jswitchRing s c r) s) :=
  List.foldlRecOn (motive := RingsOnly c s) l _ ⟨rfl, h, fun _ _ => rfl, rfl⟩ (fun _ hx n _ => ringsOnly_jswitchRing hx n)

theorem RingsOnly.atRest (h : RingsOnly c s s') (hr : AtRest s c t) : AtRest s' c t := by
  obtain ⟨ho, -, he, hj⟩ := hr
  refine ⟨fun u hu hut => ?_, h.idle, ?_, ?_⟩
  · have : getThread s' c u = getThread s c u := by rw [getThread, h.core]; rfl
    rw [this]; exact ho u hu hut
  · rw [h.core]; exact he
  · rw [h.core]; exact hj

/-! ## The beginning of a JSWITCH -/

/-- The rings of a core that begins a JSWITCH. -/
def ringsEnded (s : State) (c : Nat) : State := (List.range 16).foldl (fun s r => jswitchRing s c r) s

/-- A JSWITCH that thread t began. -/
def draining (t : Nat) : JSwitch := { thread := some t, phase := .draining, newSplit := none }

/-- The state of the core's JSWITCH set. -/
def setSwitch (s : State) (c : Nat) (j : JSwitch) : State := updCore s c (fun k => { k with sync := { k.sync with jsw := some j } })

theorem ringsEnded_only (h : AtRest s c t) : RingsOnly c s (ringsEnded s c) := ringsOnly_jswitchRings h.rings _

theorem switchBegin_at_rest (h : AtRest s c t) : switchBegin s c (draining t) = setSwitch (ringsEnded s c) c (draining t) := by
  have hstop : (allThreads.filter (fun u => some u != (draining t).thread)).foldl (fun s u => stopForSwitch s c u) s = s := by
    refine foldl_fixed_of_mem (fun u hu => ?_)
    obtain ⟨hu, hne⟩ := List.mem_filter.1 hu
    exact stopForSwitch_at_rest (h.others u (List.mem_range.1 hu) (by rintro rfl; simp [draining] at hne))
  have hrest := (ringsEnded_only h).atRest h
  unfold switchBegin
  dsimp only
  rw [hstop, ← ringsEnded, jswitchDrains_at_rest hrest.jobs, jswitchEngines_at_rest hrest.engines]
  rfl

/-- A JSWITCH has begun in a core at rest, and nothing but its idle rings has changed. -/
def begun (s : State) (c t : Nat) : State := setSwitch (ringsEnded s c) c (draining t)

theorem getCore_setSwitch_same (s : State) (c : Nat) (j : JSwitch) :
    getCore (setSwitch s c j) c = { getCore s c with sync := { (getCore s c).sync with jsw := some j } } := getCore_updCore_same _ _ _

theorem getThread_setSwitch (s : State) (c d u : Nat) (j : JSwitch) : getThread (setSwitch s c j) d u = getThread s d u := by
  by_cases h : d = c
  · subst h; rw [getThread, getCore_setSwitch_same]; rfl
  · exact getThread_updCore_other s u _ h

theorem AtRest.setSwitch (h : AtRest s c t) (j : JSwitch) : AtRest (setSwitch s c j) c t where
  others u hu hut := by rw [getThread_setSwitch]; exact h.others u hu hut
  rings := by rw [getCore_setSwitch_same]; exact h.rings
  engines := by rw [getCore_setSwitch_same]; exact h.engines
  jobs := by rw [getCore_setSwitch_same]; exact h.jobs

theorem begun_atRest (h : AtRest s c t) : AtRest (begun s c t) c t := ((ringsEnded_only h).atRest h).setSwitch _

theorem getCore_begun_same (h : AtRest s c t) : getCore (begun s c t) c = { getCore s c with
    rings := (getCore (begun s c t) c).rings, sync := { (getCore s c).sync with jsw := some (draining t) } } := by
  rw [begun, getCore_setSwitch_same, (ringsEnded_only h).core]

theorem getCore_begun_other (h : AtRest s c t) {d : Nat} (hd : d ≠ c) : getCore (begun s c t) d = getCore s d := by
  rw [begun, setSwitch, getCore_updCore_other _ _ hd, (ringsEnded_only h).cores d hd]

theorem begun_rest (h : AtRest s c t) : begun s c t = { s with cores := (begun s c t).cores } := by
  rw [begun, setSwitch, updCore_rest, (ringsEnded_only h).rest]

theorem getThread_begun (h : AtRest s c t) (u : Nat) : getThread (begun s c t) c u = getThread s c u := by
  rw [getThread, getCore_begun_same h]; rfl

theorem sameBytes_begun (h : AtRest s c t) : SameBytes s c (begun s c t) :=
  sameBytes_of_mem (by rw [getCore_begun_same h]) (by rw [begun_rest h]) (fun _ hd => getCore_begun_other h hd)

/-- While requests are in flight the JSWITCH goes on draining. -/
theorem settleWhileDraining_begun (h : AtRest s c t) (ht : (getThread s c t).stopReq = none) :
    settleWhileDraining (begun s c t) c = begun s c t := by
  have hrest := begun_atRest h
  have hjsw : (getCore (begun s c t) c).sync.jsw = some (draining t) := by rw [getCore_begun_same h]
  simp only [settleWhileDraining, hjsw]
  rw [if_pos (show (draining t).phase = .draining from rfl), settleSwitch, settleStops_at_rest hrest (by rw [getThread_begun h]; exact ht),
    jswitchDrains_at_rest hrest.jobs, jswitchEngines_at_rest hrest.engines]

end Sys2Proof.Machine
end

section
/-!
PROOFS. JSWITCH of a core at rest: its end (02 R91; 06 R246; 09 R351).
-/

namespace Sys2Proof.Machine

variable {s s' : State} {c t u : Nat} {w : Word}

/-! ## Step 3: resets and latch bits -/

/-- No gate and no reap that is enabled names the core. -/
structure Unnamed (s : State) (c : Nat) : Prop where
  gates : ∀ p ∈ s.gates, p.2.en = false ∨ named p.2.rows p.2.cols c = false
  reaps : ∀ p ∈ s.reaps, p.2.en = false ∨ named p.2.rows p.2.cols c = false

theorem sendResets_unnamed (h : Unnamed s c) : sendResets s c = s := by
  have hg : s.gates.filter (fun p => p.2.en && named p.2.rows p.2.cols c) = [] :=
    List.filter_eq_nil_iff.2 (fun p hp => by rcases h.gates p hp with h | h <;> simp [h])
  have hr : s.reaps.filter (fun p => p.2.en && named p.2.rows p.2.cols c) = [] :=
    List.filter_eq_nil_iff.2 (fun p hp => by rcases h.reaps p hp with h | h <;> simp [h])
  unfold sendResets
  dsimp only
  rw [hg, hr]
  simp

theorem full_clearLatches (m : Mem) (x : Nat) : (m.clearLatches.1.mark x).full = false := by
  rcases spGet_default_or_mem Mark.none m.clearLatches.1.marks x with hd | hm
  · rw [Mem.mark, hd]; rfl
  · obtain ⟨p, -, hp⟩ := List.mem_map.1 (List.mem_of_mem_filter hm)
    have hv := (Prod.ext_iff.1 hp).2
    dsimp only at hv
    rw [Mem.mark, ← hv]
    split <;> rfl

theorem byte_clearLatches (m : Mem) (x : Nat) : m.clearLatches.1.byte x = m.byte x := rfl

/-- A core with every latch bit empty and its engines at slot 0. -/
def Core.latchesCleared (k : Core) : Core :=
  { k with
    mem := { k.mem with localMem := k.mem.localMem.clearLatches.1, gran := k.mem.gran.clearLatches.1, latch := [] }
    eng := k.eng.rewound }

theorem clearCoreLatches_alone (h : (getCore s c).mem.latch = []) : clearCoreLatches s c =
    reportUncorr (reportUncorr (setCore s c (getCore s c).latchesCleared) 0 (srcCore c) (getCore s c).mem.localMem.clearLatches.2)
      1 (srcCore c) (getCore s c).mem.gran.clearLatches.2 := by
  unfold clearCoreLatches
  dsimp only
  rw [h]
  rfl

theorem getCore_reportUncorr (s : State) (kind source : Nat) (l : List Nat) (d : Nat) :
    getCore (reportUncorr s kind source l) d = getCore s d := by rw [getCore, reportUncorr_cores]; rfl

theorem getCore_clearCoreLatches_same (h : (getCore s c).mem.latch = []) :
    getCore (clearCoreLatches s c) c = (getCore s c).latchesCleared := by
  rw [clearCoreLatches_alone h, getCore_reportUncorr, getCore_reportUncorr, getCore_setCore_same]

theorem getCore_clearCoreLatches_other (h : (getCore s c).mem.latch = []) {d : Nat} (hd : d ≠ c) :
    getCore (clearCoreLatches s c) d = getCore s d := by
  rw [clearCoreLatches_alone h, getCore_reportUncorr, getCore_reportUncorr, getCore_setCore_other _ _ hd]

theorem clearCoreLatches_bulk (h : (getCore s c).mem.latch = []) : (clearCoreLatches s c).bulk = s.bulk := by
  rw [clearCoreLatches_alone h, reportUncorr_bulk, reportUncorr_bulk]; rfl

/-! ## Steps 4 and 5 -/

/-- The registers of every thread but t cleared. -/
def clearOther (t u : Nat) (th : Thread) : Thread := if u = t then th else { th with regs := {}, twCount := 0 }

theorem clearOther_idem (t u : Nat) (th : Thread) : clearOther t u (clearOther t u th) = clearOther t u th := by
  by_cases h : u = t <;> simp [clearOther, h]

theorem mapThreads_rest (k : Core) (f : Nat → Thread → Thread) : k.mapThreads f = { k with threads := (k.mapThreads f).threads } := by
  unfold Core.mapThreads
  induction allThreads generalizing k with
  | nil => rfl
  | cons u l ih => exact ih (k.updThread u (f u))

theorem thread_clearOthers (k : Core) (t : Nat) {u : Nat} (hu : u < 16) :
    (k.mapThreads (clearOther t)).thread u = clearOther t u (k.thread u) := by
  rw [thread_mapThreads k (clearOther_idem t), if_pos hu]

/-- A core whose JSWITCH has ended, the threads apart. -/
def Core.switchDone (k : Core) : Core :=
  { k with mem := { k.mem with l1 := [], tlb := [], wcache := [] }, sync := { k.sync with jsw := none } }

theorem latchPutsHeld_none (h : (getCore s c).mem.puts = []) :
    latchPutsHeld s c = updCore s c (fun k => { k with mem := { k.mem with puts := [] } }) := by
  unfold latchPutsHeld
  dsimp only
  rw [h]
  rfl

/-- The state of a core whose JSWITCH ends, before the puts held are made. -/
def switchOver (s : State) (c t : Nat) : State :=
  updCore (updCore (reseed s c) c Core.switchDone) c (fun k => k.mapThreads (clearOther t))

theorem switchEnd_eq (s : State) (c t : Nat) : switchEnd s c t = latchPutsHeld (switchOver s c t) c := rfl

theorem getCore_switchOver_same (s : State) (c t : Nat) :
    getCore (switchOver s c t) c = ((getCore (reseed s c) c).switchDone).mapThreads (clearOther t) := by
  rw [switchOver, getCore_updCore_same, getCore_updCore_same]

theorem switchOver_puts (h : (getCore s c).mem.puts = []) : (getCore (switchOver s c t) c).mem.puts = [] := by
  rw [getCore_switchOver_same, mapThreads_rest, getCore_reseed_same]
  exact h

/-- What the end of a JSWITCH leaves of a core k for which no put is held: the threads apart, and a new seed. -/
theorem getCore_switchEnd_same (h : (getCore s c).mem.puts = []) : ∃ threads seed, getCore (switchEnd s c t) c =
    { (getCore s c).switchDone with threads := threads, seed := seed } := by
  refine ⟨(getCore (switchEnd s c t) c).threads, (getCore (switchEnd s c t) c).seed, ?_⟩
  rw [switchEnd_eq, latchPutsHeld_none (switchOver_puts h), getCore_updCore_same, getCore_switchOver_same, mapThreads_rest,
    getCore_reseed_same, Core.switchDone, ← h]
  rfl

theorem getThread_switchEnd (h : (getCore s c).mem.puts = []) (hu : u < 16) :
    getThread (switchEnd s c t) c u = clearOther t u (getThread s c u) := by
  have hk : (getCore (switchOver s c t) c).thread u = clearOther t u (getThread s c u) := by
    rw [getCore_switchOver_same, thread_clearOthers _ _ hu, getCore_reseed_same]
    rfl
  rw [switchEnd_eq, latchPutsHeld_none (switchOver_puts h), getThread_updCore_same]
  exact hk

theorem getCore_switchEnd_other (h : (getCore s c).mem.puts = []) {d : Nat} (hd : d ≠ c) :
    getCore (switchEnd s c t) d = getCore s d := by
  rw [switchEnd_eq, latchPutsHeld_none (switchOver_puts h), getCore_updCore_other _ _ hd, switchOver, getCore_updCore_other _ _ hd,
    getCore_updCore_other _ _ hd, getCore_reseed_other _ hd]

theorem switchEnd_bulk (h : (getCore s c).mem.puts = []) : (switchEnd s c t).bulk = s.bulk := by
  rw [switchEnd_eq, latchPutsHeld_none (switchOver_puts h)]
  change (reseed s c).bulk = s.bulk
  unfold reseed
  split <;> rfl

/-! ## JSWITCH goes on, or ends -/

/-- The state when the core has drained and its latch bits are to be cleared. -/
def resetting (s : State) (c t : Nat) : State := setSwitch (begun s c t) c { draining t with phase := .resetting }

theorem switchDrained_begun (h : AtRest s c t) : switchDrained (begun s c t) c (some t) = (getCore s c).reqs.isEmpty := by
  have hrest := begun_atRest h
  unfold switchDrained
  dsimp only
  rw [othersStopped_at_rest hrest, hrest.rings, hrest.engines, getCore_begun_same h]
  simp

/-- Step 3 begins once the core has drained. -/
def switchSends (s : State) (c t : Nat) (j : JSwitch) : State :=
  if j.phase = .draining && switchDrained s c (some t) then sendResets (setSwitch s c { j with phase := .resetting }) c else s

/-- Whether the core's resets have all reached their cores. -/
def switchReady (s : State) (c : Nat) : Bool :=
  (match (getCore s c).sync.jsw with
    | some j => j.phase == .resetting
    | none => false) && !s.resets.any (fun m => m.origin == c)

theorem jswitchGo_eq {j : JSwitch} (h : (getCore (settleWhileDraining s c) c).sync.jsw = some j) : jswitchGo s c t =
    let s := switchSends (settleWhileDraining s c) c t j
    if switchReady s c then (switchEnd (clearCoreLatches s c) c t, true) else (s, false) := by
  unfold jswitchGo
  simp only [h]
  rfl

theorem switchReady_phase {j : JSwitch} (h : (getCore s c).sync.jsw = some j) :
    switchReady s c = (j.phase == .resetting && !s.resets.any (fun m => m.origin == c)) := by
  rw [switchReady, h]

theorem jswitchGo_drains (h : AtRest s c t) (ht : (getThread s c t).stopReq = none) (hq : (getCore s c).reqs ≠ []) :
    jswitchGo (begun s c t) c t = (begun s c t, false) := by
  have hjsw : (getCore (begun s c t) c).sync.jsw = some (draining t) := by rw [getCore_begun_same h]
  have hdr : switchDrained (begun s c t) c (some t) = false := by rw [switchDrained_begun h]; simpa using hq
  have hset := settleWhileDraining_begun h ht
  have hstay : switchSends (begun s c t) c t (draining t) = begun s c t := by
    rw [switchSends, hdr, Bool.and_false, if_neg (by decide)]
  rw [jswitchGo_eq (by rw [hset]; exact hjsw), hset, hstay]
  dsimp only
  rw [switchReady_phase hjsw]
  rfl

theorem resetting_unnamed (h : AtRest s c t) (hn : Unnamed s c) : Unnamed (resetting s c t) c := by
  rw [resetting, setSwitch, updCore_rest, begun_rest h]
  exact ⟨hn.gates, hn.reaps⟩

theorem jswitchGo_ends (h : AtRest s c t) (ht : (getThread s c t).stopReq = none) (hq : (getCore s c).reqs = [])
    (hn : Unnamed s c) (hx : ∀ x ∈ s.resets, x.origin ≠ c) :
    jswitchGo (begun s c t) c t = (switchEnd (clearCoreLatches (resetting s c t) c) c t, true) := by
  have hjsw : (getCore (begun s c t) c).sync.jsw = some (draining t) := by rw [getCore_begun_same h]
  have hdr : switchDrained (begun s c t) c (some t) = true := by rw [switchDrained_begun h, hq]; rfl
  have hsent : switchSends (begun s c t) c t (draining t) = resetting s c t := by
    rw [switchSends, hdr]
    exact sendResets_unnamed (resetting_unnamed h hn)
  have hjsw' : (getCore (resetting s c t) c).sync.jsw = some { draining t with phase := .resetting } := by
    rw [resetting, getCore_setSwitch_same]
  have hres : (resetting s c t).resets.any (fun m => m.origin == c) = false := by
    have hr : (resetting s c t).resets = s.resets := by rw [resetting, setSwitch, updCore_rest, begun_rest h]
    rw [hr]
    exact List.any_eq_false.2 (fun x hm => by simpa using hx x hm)
  have hset := settleWhileDraining_begun h ht
  rw [jswitchGo_eq (by rw [hset]; exact hjsw), hset, hsent]
  dsimp only
  rw [switchReady_phase hjsw', hres]
  rfl

end Sys2Proof.Machine
end

section
/-!
PROOFS. JSWITCH, DPOST, DSTAT, REAP and RWAIT complete (02 R91; 08 R287, R288; 09 R348, R349, R351).
-/

namespace Sys2Proof.Machine

variable {s s' : State} {c t u : Nat} {w : Word}

/-! ## What a JSWITCH that ends leaves -/

/-- The state when a JSWITCH has ended, its own instruction apart. -/
def switched (s : State) (c t : Nat) : State := switchEnd (clearCoreLatches (resetting s c t) c) c t

theorem getCore_resetting_same (h : AtRest s c t) : ∃ rings sync, getCore (resetting s c t) c =
    { getCore s c with rings := rings, sync := sync } := by
  refine ⟨(getCore (resetting s c t) c).rings, (getCore (resetting s c t) c).sync, ?_⟩
  rw [resetting, getCore_setSwitch_same, getCore_begun_same h]

theorem getCore_resetting_other (h : AtRest s c t) {d : Nat} (hd : d ≠ c) : getCore (resetting s c t) d = getCore s d := by
  rw [resetting, setSwitch, getCore_updCore_other _ _ hd, getCore_begun_other h hd]

/-- The latch unit holds neither a waiter nor a put. -/
structure LatchUnitEmpty (s : State) (c : Nat) : Prop where
  latch : (getCore s c).mem.latch = []
  puts : (getCore s c).mem.puts = []

theorem LatchUnitEmpty.resetting (h : AtRest s c t) (he : LatchUnitEmpty s c) : LatchUnitEmpty (resetting s c t) c := by
  obtain ⟨rings, sync, hk⟩ := getCore_resetting_same h
  exact ⟨by rw [hk]; exact he.latch, by rw [hk]; exact he.puts⟩

theorem cleared_puts (h : LatchUnitEmpty s c) : (getCore (clearCoreLatches s c) c).mem.puts = [] := by
  rw [getCore_clearCoreLatches_same h.latch]; exact h.puts

theorem getCore_switched_same (h : AtRest s c t) (he : LatchUnitEmpty s c) : ∃ threads seed rings sync, sync.jsw = none ∧
    getCore (switched s c t) c = { (getCore s c).latchesCleared.switchDone with
      threads := threads, seed := seed, rings := rings, sync := sync } := by
  have her := he.resetting h
  obtain ⟨rings, sync, hk⟩ := getCore_resetting_same h
  obtain ⟨threads, seed, hend⟩ := getCore_switchEnd_same (t := t) (cleared_puts her)
  refine ⟨threads, seed, rings, { sync with jsw := none }, rfl, ?_⟩
  rw [switched, hend, getCore_clearCoreLatches_same her.latch, hk]
  rfl

theorem getCore_switched_other (h : AtRest s c t) (he : LatchUnitEmpty s c) {d : Nat} (hd : d ≠ c) :
    getCore (switched s c t) d = getCore s d := by
  have her := he.resetting h
  rw [switched, getCore_switchEnd_other (cleared_puts her) hd, getCore_clearCoreLatches_other her.latch hd, getCore_resetting_other h hd]

theorem switched_bulk (h : AtRest s c t) (he : LatchUnitEmpty s c) : (switched s c t).bulk = s.bulk := by
  have her := he.resetting h
  rw [switched, switchEnd_bulk (cleared_puts her), clearCoreLatches_bulk her.latch, resetting, setSwitch, updCore_rest, begun_rest h]

theorem getThread_switched (h : AtRest s c t) (he : LatchUnitEmpty s c) (hu : u < 16) :
    getThread (switched s c t) c u = clearOther t u (getThread s c u) := by
  have her := he.resetting h
  have hk : getThread (clearCoreLatches (resetting s c t) c) c u = getThread s c u := by
    obtain ⟨rings, sync, hr⟩ := getCore_resetting_same h
    rw [getThread, getCore_clearCoreLatches_same her.latch, hr]
    rfl
  rw [switched, getThread_switchEnd (cleared_puts her) hu, hk]

theorem sameBytes_switched (h : AtRest s c t) (he : LatchUnitEmpty s c) : SameBytes s c (switched s c t) := by
  obtain ⟨threads, seed, rings, sync, -, hk⟩ := getCore_switched_same h he
  refine ⟨fun x => ?_, switched_bulk h he, fun d hd => getCore_switched_other h he hd⟩
  rw [hk]
  exact ⟨byte_clearLatches _ x, byte_clearLatches _ x⟩

/-! ## JSWITCH issues -/

/-- The form of JSWITCH. -/
def jswitchForm (c t : Nat) (s : State) : Form := { priv := keeperOnly s c t, body := jswitchBody c t }

theorem jswitchForm_free (hp : (getThread s c t).st.pm = true) : Free (jswitchForm c t s) c t s := ⟨rfl, rfl, keeperOnly_of_keeper hp⟩

/-- A JSWITCH that is offered first begins. -/
theorem switchBegin_draining (h : AtRest s c t) : switchBegin s c { thread := some t, phase := .draining, newSplit := none } = begun s c t :=
  switchBegin_at_rest h

theorem jswitchBody_over (h : AtRest s c t) (hn : (getCore s c).sync.jsw = none) (hg : jswitchGo (begun s c t) c t = (s', true)) :
    jswitchBody c t s = .done (advance s' c t) := by
  unfold jswitchBody
  simp only [hn, switchBegin_draining h, hg]

theorem jswitchBody_held (h : AtRest s c t) (hn : (getCore s c).sync.jsw = none) (hg : jswitchGo (begun s c t) c t = (s', false)) :
    jswitchBody c t s = .hold s' := by
  unfold jswitchBody
  simp only [hn, switchBegin_draining h, hg]

theorem jswitch_ends (hi : Issues .jswitch c t w s) (hp : (getThread s c t).st.pm = true) (h : AtRest s c t)
    (hq : (getCore s c).reqs = []) (hn : Unnamed s c) (hx : ∀ x ∈ s.resets, x.origin ≠ c) :
    exec (.jswitch c t w) s = .next (completed c t (switched s c t)) := by
  have hb : jswitchBody c t s = .done (advance (switched s c t) c t) := 
    jswitchBody_over h hi.noSwitch (jswitchGo_ends h hi.noStop hq hn hx)
  rw [completed]
  exact issue_finished (f := jswitchForm c t s) hi (jswitchForm_free hp) hb

theorem jswitch_drains (hi : Issues .jswitch c t w s) (hp : (getThread s c t).st.pm = true) (h : AtRest s c t)
    (hq : (getCore s c).reqs ≠ []) : exec (.jswitch c t w) s = .next (begun s c t) := by
  have hb : jswitchBody c t s = .hold (begun s c t) := 
    jswitchBody_held h hi.noSwitch (jswitchGo_drains h hi.noStop hq)
  exact issue_holds (f := jswitchForm c t s) hi (jswitchForm_free hp) hb

theorem begun_effect (h : AtRest s c t) : SameBytes s c (begun s c t) ∧ getThread (begun s c t) c t = getThread s c t ∧
    (getCore (begun s c t) c).sync.jsw = some (draining t) :=
  ⟨sameBytes_begun h, getThread_begun h t, by rw [getCore_begun_same h]⟩

/-- The other threads' registers, the caches, the latch bits and the engines after a JSWITCH. -/
theorem switched_effect (h : AtRest s c t) (he : LatchUnitEmpty s c) (ht : t < 16) :
    let s' := completed c t (switched s c t)
    SameBytes s c s' ∧ getThread s' c t = stepped { getThread s c t with pc := (getThread s c t).pc + 8 } ∧
      (∀ u, u < 16 → u ≠ t → getThread s' c u = { getThread s c u with regs := {}, twCount := 0 }) ∧
      (getCore s' c).mem.l1 = [] ∧ (getCore s' c).mem.tlb = [] ∧ (getCore s' c).tile = (getCore s c).tile ∧
      (getCore s' c).sync.jsw = none ∧ (getCore s' c).eng.harrow.head = 0 ∧ (getCore s' c).eng.winnow.head = 0 ∧
      ∀ x, ((getCore s' c).mem.localMem.mark x).full = false ∧ ((getCore s' c).mem.gran.mark x).full = false := by
  obtain ⟨threads, seed, rings, sync, hjsw, hk⟩ := getCore_switched_same h he
  dsimp only
  refine ⟨sameBytes_completed t (sameBytes_switched h he), ?_, fun u hu hut => ?_, ?_⟩
  · rw [getThread_completed_same, getThread_switched h he ht, clearOther, if_pos rfl]
  · rw [getThread_completed_other _ _ hut, getThread_switched h he hu, clearOther, if_neg hut]
  · rw [getCore_completed_same, hk]
    exact ⟨rfl, rfl, rfl, hjsw, rfl, rfl, fun x => ⟨full_clearLatches _ x, full_clearLatches _ x⟩⟩

/-! ## DPOST and DSTAT -/

/-- Where the bytes of the local memory come from after the 64 bytes at off have been copied to the slot. -/
theorem byte_copied {m m' : Mem} {slot off : Nat} (hin : ∀ j, j < 64 → m'.byte (slot + j) = m.byte (off + j))
    (hout : ∀ x, x < slot ∨ slot + 64 ≤ x → m'.byte x = m.byte x) (x : Nat) :
    m'.byte x = m.byte (if slot ≤ x ∧ x < slot + 64 then off + (x - slot) else x) := by
  split
  · next h =>
    have := hin (x - slot) (by omega)
    rwa [Nat.add_sub_cancel' h.1] at this
  · exact hout x (by omega)

theorem sameBytes_dstat (s : State) (c t n : Nat) (v : Word) :
    SameBytes s c (completed c t (updCore s c (fun k => k.writeG t n v))) :=
  sameBytes_completed t (sameBytes_writeG t n v ⟨fun _ => ⟨rfl, rfl⟩, rfl, fun _ _ => rfl⟩)

theorem getRing_writeG (s : State) (c t n rd : Nat) (v : Word) :
    getRing (updCore s c (fun k => k.writeG t rd v)) c n = getRing s c n := by
  rw [getRing, getCore_writeG_same]; rfl

/-- Settles O37: each instruction's own effect, from the rules of its unit. -/
theorem jswitchDpostDstatReapAndRwaitComplete : Obligations.JswitchDpostDstatReapAndRwaitComplete := by
  unfold Obligations.JswitchDpostDstatReapAndRwaitComplete
  intro c t w s th k m a off quiet same
  refine ⟨fun hi hp ho hr he hj hlatch hputs hgates hreaps hresets => ?jswitch, ?rings, ?reaps⟩
  case jswitch =>
    have hrest : AtRest s c t := ⟨ho, hr, he, hj⟩
    refine ⟨fun hq => ⟨_, jswitch_ends hi hp hrest hq ⟨hgates, hreaps⟩ hresets, ?_⟩,
      fun hq => ⟨_, jswitch_drains hi hp hrest hq, ?_⟩⟩
    · obtain ⟨hsame, hth, hothers, hl1, htlb, htile, hjsw, hh, hw, hfull⟩ := switched_effect hrest ⟨hlatch, hputs⟩ hi.thread
      exact ⟨hsame, hth, hothers, hl1, htlb, htile, hjsw, hh, hw, hfull⟩
    · obtain ⟨hsame, hth, hjsw⟩ := begun_effect hrest
      exact ⟨hsame, hth, hjsw⟩
  case rings =>
    intro n r slot
    refine ⟨fun hi hready hal hspace hmis hrange harea hen hv herr hroom hfree hquiet hmark => ?dpost, fun hi hready hal =>
      ⟨_, dstat_finished hi hready hal, ?dstat⟩⟩
    case dpost =>
      have hclean : ((getThread s c t).regs.gGet (wGa w)).p = false := gGet_clean_of_poison_nil hready.clean (by simp)
      have hpriv : dpostPriv c t w s = none := by
        refine (dpostPriv_other hclean (fun h => ?_)).trans (ringPriv_allowed hal)
        rw [show field (dpostArg s c t w) 63 56 = 0 from hspace] at h
        exact absurd h.2 (by decide)
      refine ⟨_, dpost_posts (a := a) hi hready rfl hpriv ⟨hspace, hmis, hrange, harea⟩ ⟨hen, hv, herr⟩ (Nat.not_le.2 hroom) hfree, ?_⟩
      obtain ⟨hth, ⟨k', hring⟩, hin, hout, hgran, hbulk, hcores⟩ :=
        dpost_effect t (wGd w) (n := wRing w) (offset_mod_eight hmis) hquiet hmark
      refine ⟨hth, ?_, hbulk, hcores, fun x => ?_, fun x => byte_copied hin hout x⟩
      · rw [show getRing _ c n = _ from hring]; rfl
      · rw [hgran]
    case dstat =>
      refine ⟨sameBytes_dstat s c t (wGd w) _, ?_, ?_⟩
      · rw [getRing_completed, getRing_writeG]
      · rw [getThread_completed_same, getThread_writeG_same]; rfl
  case reaps =>
    intro n key r span
    refine ⟨fun hi hready hb hspace hmis hrange harea hfree hen hnamed hout hhole ⟨d, hd, hdc, hins⟩ hmark => ?reap,
      fun o u hi hready hout hwho => ?rwait⟩
    case reap =>
      have hclean : ((getThread s c t).regs.gGet (wGa w)).p = false := gGet_clean_of_poison_nil hready.clean (by simp)
      have hmay : MayReap s c t w := ⟨hb, hclean, ⟨hspace, hmis, hrange, harea⟩, hfree, hen, hnamed, hout⟩
      obtain ⟨hsame, hth, hround, hcontrib⟩ := reapedBy_effect (s := s) (t := t) hmark hout
      exact ⟨_, reap_contributes hi hready hmay hmark hhole hd hdc hins, hsame, hth, hround, hcontrib⟩
    case rwait =>
      by_cases hres : o.result.isSome = true
      · obtain ⟨hsame, hnone, hth⟩ := collected_effect s c t w o
        refine ⟨_, rwait_collects hi hready hout hwho hres, hsame, ?_, ?_⟩
        · rw [if_pos hres]; exact hnone
        · rw [if_pos hres]; exact hth
      · obtain ⟨hsame, hkept, hth⟩ := reapWaiter_effect s c t (wCtx w) (wGd w)
        refine ⟨_, rwait_waits hi hready hout hwho (Bool.not_eq_true _ ▸ hres), hsame, ?_, ?_⟩
        · rw [if_neg hres]; exact hkept.trans hout
        · rw [if_neg hres]; exact hth

end Sys2Proof.Machine
end

section
/-!
PROOFS. The tile unit of a core: what its shared operations leave (03 R105, R106), and the checks that every instruction on it makes (03
R106, R119).
-/

namespace Sys2Proof.Machine

variable {s s1 s2 : State} {c t : Nat} {w : Word} {u u1 : TileUnit}

/-! ## One core's tile unit replaced -/

/-- s1 is s but for core c's tile unit, which is u. -/
structure TileNow (s : State) (c : Nat) (u : TileUnit) (s1 : State) : Prop where
  core : getCore s1 c = { getCore s c with tile := u }
  cores : ∀ d, d ≠ c → getCore s1 d = getCore s d
  rest : s1 = { s with cores := s1.cores }

theorem tileNow_refl (s : State) (c : Nat) : TileNow s c (getCore s c).tile s := ⟨rfl, fun _ _ => rfl, rfl⟩

theorem tileNow_updTileUnit (s : State) (c : Nat) (f : TileUnit → TileUnit) : TileNow s c (f (getCore s c).tile) (updTileUnit s c f) where
  core := getCore_updCore_same s c _
  cores _ hd := getCore_updCore_other s _ hd
  rest := rfl

theorem TileNow.trans (h : TileNow s c u1 s1) (h' : TileNow s1 c u s2) : TileNow s c u s2 where
  core := by rw [h'.core, h.core]
  cores d hd := by rw [h'.cores d hd, h.cores d hd]
  rest := by rw [h'.rest, h.rest]

theorem TileNow.tile (h : TileNow s c u s1) : (getCore s1 c).tile = u := by rw [h.core]

/-- A further change of the same unit. -/
theorem TileNow.upd (h : TileNow s c u1 s1) (f : TileUnit → TileUnit) : TileNow s c (f u1) (updTileUnit s1 c f) := by
  have hf := tileNow_updTileUnit s1 c f
  rw [h.tile] at hf
  exact h.trans hf

theorem TileNow.setTile (h : TileNow s c u s1) (p : Nat) (r : TileReg) :
    TileNow s c { u with regs := spSet {} u.regs p r, opCache := u.opCache.filter (· != p) } (setTile s1 c p r) :=
  h.upd (fun u => { u with regs := spSet {} u.regs p r, opCache := u.opCache.filter (· != p) })

theorem TileNow.vFlags (h : TileNow s c u s1) (x y z : Bool) :
    TileNow s c { u with vnan := u.vnan || x, vinf := u.vinf || y, viov := u.viov || z } (vFlags s1 c x y z) :=
  h.upd (fun u => { u with vnan := u.vnan || x, vinf := u.vinf || y, viov := u.viov || z })

theorem TileNow.thread (h : TileNow s c u s1) (x : Nat) : getThread s1 c x = getThread s c x := by
  rw [getThread, h.core]; rfl

theorem TileNow.mem (h : TileNow s c u s1) : (getCore s1 c).mem = (getCore s c).mem := by rw [h.core]

/-! ## Tile registers -/

theorem getTile_eq (h : getCore s1 c = getCore s c) (p : Nat) : getTile s1 c p = getTile s c p := by rw [getTile, h]; rfl

theorem TileNow.reg (h : TileNow s c u s1) (p : Nat) : getTile s1 c p = spGet {} u.regs p := by rw [getTile, h.tile]

theorem getTile_setTile_same (s : State) (c p : Nat) (r : TileReg) : getTile (setTile s c p r) c p = r :=
  ((tileNow_updTileUnit s c _).reg p).trans (spGet_set_same _ _ _ _)

theorem getTile_setTile_other (s : State) (c : Nat) {p x : Nat} (r : TileReg) (h : x ≠ p) : getTile (setTile s c p r) c x = getTile s c x :=
  ((tileNow_updTileUnit s c _).reg x).trans (spGet_set_other _ _ _ _ h)

theorem getCore_setTile_other (s : State) {c d : Nat} (p : Nat) (r : TileReg) (h : d ≠ c) : getCore (setTile s c p r) d = getCore s d :=
  getCore_updCore_other s _ h

/-! ## An instruction whose effect is on the tile unit -/

/-- The thread after an instruction of the tile unit, which may write one general register. -/
def tilePassed (th : Thread) (dest : Option (Nat × Word)) : Thread :=
  match dest with
  | some (n, v) => wroteG th n v
  | none => { th with pc := th.pc + 8 }

/-- An effect on one core's tile unit, a general register and the scale vectors awaited, then the pc passed and the issue's counters. -/
theorem tileOnly_completed {dest : Option (Nat × Word)} {sb : List (Nat × Nat)}
    (hth : { getThread s1 c t with pc := (getThread s1 c t).pc + 8 } = tilePassed (getThread s c t) dest)
    (ho : ∀ x, x ≠ t → getThread s1 c x = getThread s c x)
    (hc : getCore s1 c = { getCore s c with
      threads := (getCore s1 c).threads, tile := u, reqs := (getCore s c).reqs.map (supersedes t (dest.map (·.1)))
      ctl := { (getCore s c).ctl with sBusy := sb ++ (getCore s c).ctl.sBusy } })
    (hd : ∀ d, d ≠ c → getCore s1 d = getCore s d) (hr : s1 = { s with cores := s1.cores }) :
    TileOnly c t dest sb u s (completed c t s1) where
  thread := by
    rw [getThread_completed_same, hth]
    rcases dest with _ | ⟨n, v⟩ <;> rfl
  threads x hx := by rw [getThread_completed_other _ _ hx, ho x hx]
  core := by rw [getCore_completed_same, hc]; rfl
  cores d h := by rw [getCore_completed_other _ _ h, hd d h]
  rest := by rw [completed_rest, hr]

/-- An instruction that changes the tile unit alone. -/
theorem tileOnly_of_tileNow (t : Nat) (h : TileNow s c u s1) : TileOnly c t none [] u s (completed c t s1) := by
  refine tileOnly_completed ?_ (fun x _ => h.thread x) ?_ h.cores h.rest
  · rw [h.thread]; rfl
  · rw [Option.map_none, supersedes_none, h.core]; rfl

/-- An instruction that writes a general register and changes the tile unit. -/
theorem tileOnly_of_writeG {n : Nat} {v : Word} (h : TileNow (updCore s c (fun k => k.writeG t n v)) c u s1) :
    TileOnly c t (some (n, v)) [] u s (completed c t s1) := by
  refine tileOnly_completed ?_ (fun x hx => ?_) ?_ (fun d hd => ?_) ?_
  · rw [h.thread, getThread_writeG_same]; rfl
  · rw [h.thread, getThread_writeG_other _ _ _ _ hx]
  · rw [h.core, getCore_writeG_same]; rfl
  · rw [h.cores d hd, getCore_updCore_other _ _ hd]
  · rw [h.rest, updCore_rest]

/-- A command that is an instruction's row and whose body completes. -/
theorem runs_of_done {i : Instr} {m : Mn} {f : Form} {p : State → Prop} (hex : exec i s = issue m f c t w s) (hi : Issues m c t w s)
    (hf : Free f c t s) (hb : f.body s = .done (advance s1 c t)) (hp : p (completed c t s1)) : Runs i s p :=
  ⟨_, hex.trans (issue_finished hi hf hb), hp⟩

/-! ## The window -/

theorem winReg_isNone (th : Thread) (i : Nat) : (winReg th i).isNone = decide (¬ i < th.twCount.toNat) := by
  unfold winReg; split <;> simp [*]

theorem winReg_outside {th : Thread} {i : Nat} (h : ¬ inWindow th [i]) : (winReg th i).isSome = false := by
  have : ¬ i < th.twCount.toNat := fun hi => h (fun j hj => by rwa [List.mem_singleton.1 hj])
  simp [winReg, this]

theorem winChecks_inside {th : Thread} {l : List Nat} (h : inWindow th l) : winChecks th w l = [] := by
  have : l.any (fun i => (winReg th i).isNone) = false :=
    List.any_eq_false.2 (fun i hi => by rw [winReg_isNone]; simp [h i hi])
  rw [winChecks, this, when?_false]

theorem winChecks_outside {th : Thread} {l : List Nat} (h : ¬ inWindow th l) : winChecks th w l = [cand 0x08 0x01 w] := by
  have : l.any (fun i => (winReg th i).isNone) = true := by
    simp only [inWindow, not_forall] at h
    obtain ⟨i, hi, hlt⟩ := h
    exact List.any_eq_true.2 ⟨i, hi, by rw [winReg_isNone]; simpa using hlt⟩
  rw [winChecks, this, when?_true]

/-- A condition of a higher rank does not take the place of one that ranks before it. -/
theorem beats_of_rank {y a : Cand} (h : a.rank < y.rank) : beats y a = false := by
  simp only [beats, Bool.or_eq_false_iff, decide_eq_false_iff_not, Bool.and_eq_false_iff, beq_eq_false_iff_ne]
  omega

theorem rank_of_when? {b : Bool} {code sub : Nat} {a : Word} {y : Cand} (hs : 3 < (cand code sub 0).rank) (h : y ∈ when? b code sub a) :
    3 < y.rank := by rw [mem_when? h]; exact hs

/-- An index outside the window is taken before every condition that ranks after it. -/
theorem firstCand_window {l : List Cand} (h : ∀ y ∈ l, 3 < y.rank) : firstCand (cand 0x08 0x01 w :: l) = some ⟨0x08, 0x01, w⟩ :=
  firstCand_head (fun y hy => beats_of_rank (h y hy))

/-- A command whose index lies outside the window, whatever else its body raises. -/
theorem traps_of_window {i : Instr} {m : Mn} {f : Form} {l : List Cand} (hex : exec i s = issue m f c t w s) (hi : Issues m c t w s)
    (hf : Free f c t s) (hb : f.body s = .raise (cand 0x08 0x01 w :: l)) (hl : ∀ y ∈ l, 3 < y.rank) :
    exec i s = .next (trapped c t ⟨0x08, 0x01, w⟩ s) := hex.trans (issue_raised hi hf hb (firstCand_window hl))

/-! ## The area of a move -/

theorem areaChecks_local {a : Word} {n : Nat} (gran : Bool) (ht : field a 63 56 = 0) (hr : field a 55 0 + n ≤ 0xC0000)
    (hk : (getThread s c t).st.pm = true ∨ field a 55 0 + n ≤ (getCore s c).ctl.klim.toNat) :
    areaChecks s c t gran a n false = [] := by
  have hend : decide (localEnd < addrOff a + n) = false := decide_eq_false (Nat.not_lt.2 hr)
  have hkeep : (inJob s c t && decide ((getCore s c).ctl.klim.toNat < addrOff a + n)) = false := by
    rw [inJob_eq]
    rcases hk with hp | hp
    · rw [hp]; rfl
    · rw [decide_eq_false (show ¬ _ < addrOff a + n from Nat.not_lt.2 hp), Bool.and_false]
  unfold areaChecks
  dsimp only
  rw [if_pos (show addrTag a = 0 from ht), hend, hkeep]
  rfl

theorem areaChecks_free {a : Word} {n : Nat} (h : areaFree s c t a n) : areaChecks s c t true a n false = [] := by
  rcases h with ⟨ht, hr, hk⟩ | ⟨ht, hr⟩
  · exact areaChecks_local true ht hr hk
  · have htag : addrTag a = 1 := ht
    have hend : decide (granEnd (getCore s c) < addrOff a + n) = false := decide_eq_false (Nat.not_lt.2 hr)
    unfold areaChecks
    dsimp only
    rw [htag, hend]
    rfl

theorem areaChecks_rank {a : Word} {n : Nat} {gran bad : Bool} {y : Cand} (h : y ∈ areaChecks s c t gran a n bad) : 3 < y.rank := by
  unfold areaChecks at h
  dsimp only at h
  split at h
  · simp only [List.mem_append] at h
    rcases h with (h | h) | h <;> exact rank_of_when? (by decide) h
  · split at h <;> simp only [List.mem_append] at h <;> rcases h with h | h <;> exact rank_of_when? (by decide) h

theorem areaFree_tag {a : Word} {n : Nat} (h : areaFree s c t a n) : field a 63 56 ≠ 0x0F := by
  rcases h with ⟨ht, -⟩ | ⟨ht, -⟩ <;> rw [ht] <;> decide

end Sys2Proof.Machine
end

section
/-!
PROOFS. Tile moves at issue (03 R118–R122).
-/

namespace Sys2Proof.Machine

variable {s s1 : State} {c t : Nat} {w : Word} {store : Bool}

/-! ## The move that joins the queue -/

theorem tileNow_queueMove (s : State) (c : Nat) (m : Nat → TileMove) : TileNow s c
    { (getCore s c).tile with
      moves := (getCore s c).tile.moves ++ [m (getCore s c).tile.nextId], nextId := (getCore s c).tile.nextId + 1 }
    (queueMove s c m) :=
  (tileNow_updTileUnit s c (fun u => { u with nextId := u.nextId + 1 })).upd
    (fun u => { u with moves := u.moves ++ [m (getCore s c).tile.nextId] })

/-- The move that TLD or TST queues under a number. -/
def rowsMove (s : State) (c t : Nat) (w : Word) (store : Bool) (id : Nat) : TileMove :=
  { id := id, thread := t, store := store, side := false, reg := phys (getThread s c t) (tmT w)
    gran := addrTag (gVal (getThread s c t) (wGa w)) == 1, base := addrOff (gVal (getThread s c t) (wGa w))
    pitch := tmPitch (getThread s c t) w, rows := tmRows w, grans := tmGrans w, fmt := tmFmt w, skew := tmSkew w }

/-- The move that TLDS or TSTS queues under a number. -/
def bandMove (s : State) (c t : Nat) (w : Word) (store : Bool) (id : Nat) : TileMove :=
  { id := id, thread := t, store := store, side := true, reg := phys (getThread s c t) (tmT w)
    gran := addrTag (gVal (getThread s c t) (wGa w)) == 1, base := addrOff (gVal (getThread s c t) (wGa w))
    pitch := 0, rows := 1, grans := 8, fmt := 15, skew := false }

/-- A load waits as a writer of its register, a store as a reader. -/
def moveWaits (s : State) (c p : Nat) (store : Bool) : Bool :=
  tileWait s c (if store then [p] else []) (if store then [] else [p])

/-- The alignment of TLD and TST, in a slot's order or packed. -/
def rowsMisaligned (th : Thread) (w : Word) : Bool :=
  if tmSkew w then (gVal th (wGa w)).toNat % 64 != 0 || tmPitch th w % 64 != 0
  else (gVal th (wGa w)).toNat % 8 != 0 || tmPitch th w % 8 != 0

/-! ## The checks -/

/-- The conditions of TLD and TST. -/
def rowsConds (s : State) (c t : Nat) (w : Word) (store : Bool) : List Cand :=
  winChecks (getThread s c t) w [tmT w] ++ when? (tmSkew w && tmGrans w != 8) 0x07 0x08 w ++
    (if store && (winReg (getThread s c t) (tmT w)).isSome then
      tstTag (getTile s c (phys (getThread s c t) (tmT w))) w else []) ++
    areaChecks s c t true (gVal (getThread s c t) (wGa w)) (tmSpan (getThread s c t) w) (rowsMisaligned (getThread s c t) w)

/-- The conditions of TLDS and TSTS. -/
def bandConds (s : State) (c t : Nat) (w : Word) : List Cand :=
  winChecks (getThread s c t) w [tmT w] ++
    areaChecks s c t true (gVal (getThread s c t) (wGa w)) 128 ((gVal (getThread s c t) (wGa w)).toNat % 128 != 0)

/-- Two instructions with the same shape at issue: what the body of a move answers from its conditions. -/
def moveAnswer (s : State) (c t : Nat) (w : Word) (store : Bool) (xs : List Cand) (m : Nat → TileMove) : Res :=
  if (winReg (getThread s c t) (tmT w)).isSome && moveWaits s c (phys (getThread s c t) (tmT w)) store then .wait
  else if 4 ≤ queueLen (getCore s c) then .wait
  else if !xs.isEmpty then .raise xs
  else if moveFollows s c (m 0) then .wait
  else .done (advance (queueMove s c m) c t)

theorem moveBody_of_clean (h : addrPoison (getThread s c t) [wGa w, wGb w] = []) :
    moveBody c t w store s = moveAnswer s c t w store (rowsConds s c t w store) (rowsMove s c t w store) := by
  rw [getThread] at h
  unfold moveBody
  dsimp only
  rw [h]
  rfl

theorem sideBody_of_clean (h : addrPoison (getThread s c t) [wGa w] = []) :
    sideBody c t w store s = moveAnswer s c t w store (bandConds s c t w) (bandMove s c t w store) := by
  rw [getThread] at h
  unfold sideBody
  dsimp only
  rw [h]
  rfl

theorem addrPoison_of_ready {u : Uses} (h : Ready c t u s) {l : List Nat} (hl : ∀ n ∈ l, n ∈ u.gIn) :
    addrPoison (getThread s c t) l = [] :=
  addrPoison_eq_nil (fun n hn => gGet_clean_of_poison_nil h.clean (hl n hn))

/-- Every condition holds off, and the queue has a place. -/
theorem moveAnswer_queues {xs : List Cand} {m : Nat → TileMove} (hw : moveWaits s c (phys (getThread s c t) (tmT w)) store = false)
    (hq : queueLen (getCore s c) < 4) (hx : xs = []) (hf : moveFollows s c (m 0) = false) :
    moveAnswer s c t w store xs m = .done (advance (queueMove s c m) c t) := by
  rw [moveAnswer, hw, Bool.and_false, if_neg (by decide), if_neg (by omega), hx, hf]
  rfl

theorem moveAnswer_outside {xs : List Cand} {m : Nat → TileMove} (ho : ¬ inWindow (getThread s c t) [tmT w])
    (hq : queueLen (getCore s c) < 4) (hx : xs ≠ []) : moveAnswer s c t w store xs m = .raise xs := by
  rw [moveAnswer, winReg_outside ho, Bool.false_and, if_neg (by decide), if_neg (by omega),
    if_pos (by cases xs <;> simp_all)]

/-- What TST finds in its register's tag. -/
def tagFits (r : TileReg) (w : Word) : Prop :=
  r.fmt ≠ fmtNone ∧ r.fmt = tmFmt w ∧ tmRows w ≤ r.nrows + 1 ∧ tmGrans w ≤ r.gran + 1

theorem tstTag_fits {r : TileReg} (h : tagFits r w) : tstTag r w = [] := by
  obtain ⟨hn, hf, hr, hg⟩ := h
  have hb : (r.fmt != tmFmt w || decide (r.nrows + 1 < tmRows w) || decide (r.gran + 1 < tmGrans w)) = false := by
    simp only [Bool.or_eq_false_iff, bne_eq_false_iff_eq, decide_eq_false_iff_not, not_lt]
    exact ⟨⟨hf, hr⟩, hg⟩
  rw [tstTag, if_neg hn, hb, when?_false]

/-- The alignment that the statement of TLD and TST asks for. -/
def rowsAligned (th : Thread) (w : Word) : Prop :=
  if tmSkew w then (gVal th (wGa w)).toNat % 64 = 0 ∧ tmPitch th w % 64 = 0 ∧ tmGrans w = 8
  else (gVal th (wGa w)).toNat % 8 = 0 ∧ tmPitch th w % 8 = 0

theorem rowsMisaligned_of_aligned {th : Thread} (h : rowsAligned th w) :
    rowsMisaligned th w = false ∧ (tmSkew w && tmGrans w != 8) = false := by
  unfold rowsAligned at h
  unfold rowsMisaligned
  cases hs : tmSkew w <;> rw [hs] at h
  · obtain ⟨ha, hp⟩ := h
    simp [ha, hp]
  · obtain ⟨ha, hp, hg⟩ := h
    simp [ha, hp, hg]

theorem rowsConds_clear (hw : inWindow (getThread s c t) [tmT w]) (hal : rowsAligned (getThread s c t) w)
    (hf : areaFree s c t (gVal (getThread s c t) (wGa w)) (tmSpan (getThread s c t) w))
    (ht : store = true → tagFits (getTile s c (phys (getThread s c t) (tmT w))) w) : rowsConds s c t w store = [] := by
  obtain ⟨hmis, hskew⟩ := rowsMisaligned_of_aligned hal
  rw [rowsConds, winChecks_inside hw, hskew, when?_false, hmis, areaChecks_free hf]
  cases store with
  | false => rfl
  | true => rw [tstTag_fits (ht rfl), ite_self]; rfl

theorem bandConds_clear (hw : inWindow (getThread s c t) [tmT w]) (hal : (gVal (getThread s c t) (wGa w)).toNat % 128 = 0)
    (hf : areaFree s c t (gVal (getThread s c t) (wGa w)) 128) : bandConds s c t w = [] := by
  rw [bandConds, winChecks_inside hw, hal, show ((0 : Nat) != 0) = false from rfl, areaChecks_free hf]
  rfl

/-- Outside the window, only conditions that rank after it stand beside it. -/
theorem rowsConds_outside (h : ¬ inWindow (getThread s c t) [tmT w]) :
    ∃ l, rowsConds s c t w store = cand 0x08 0x01 w :: l ∧ ∀ y ∈ l, 3 < y.rank := by
  refine ⟨_, by rw [rowsConds, winChecks_outside h, winReg_outside h, Bool.and_false]; rfl, fun y hy => ?_⟩
  simp only [List.nil_append, List.append_eq, List.mem_append] at hy
  rcases hy with (hy | hy) | hy
  · exact rank_of_when? (by decide) hy
  · cases hy
  · exact areaChecks_rank hy

theorem bandConds_outside (h : ¬ inWindow (getThread s c t) [tmT w]) :
    ∃ l, bandConds s c t w = cand 0x08 0x01 w :: l ∧ ∀ y ∈ l, 3 < y.rank :=
  ⟨_, by rw [bandConds, winChecks_outside h]; rfl, fun _ hy => areaChecks_rank hy⟩

/-! ## The instructions -/

variable {i : Instr} {m : Mn} {f : Form} {xs : List Cand} {mv : Nat → TileMove}

theorem move_queues (hex : exec i s = issue m f c t w s) (hi : Issues m c t w s) (hf : Free f c t s)
    (hb : f.body s = moveAnswer s c t w store xs mv) (hq : queueLen (getCore s c) < 4)
    (hw : moveWaits s c (phys (getThread s c t) (tmT w)) store = false) (hx : xs = []) (hfol : moveFollows s c (mv 0) = false) :
    Runs i s (TileOnly c t none [] { (getCore s c).tile with
      moves := (getCore s c).tile.moves ++ [mv (getCore s c).tile.nextId], nextId := (getCore s c).tile.nextId + 1 } s) :=
  runs_of_done hex hi hf (hb.trans (moveAnswer_queues hw hq hx hfol)) (tileOnly_of_tileNow t (tileNow_queueMove s c mv))

theorem move_traps (hex : exec i s = issue m f c t w s) (hi : Issues m c t w s) (hf : Free f c t s)
    (hb : f.body s = moveAnswer s c t w store xs mv) (hq : queueLen (getCore s c) < 4)
    (ho : ¬ inWindow (getThread s c t) [tmT w]) (hx : ∃ l, xs = cand 0x08 0x01 w :: l ∧ ∀ y ∈ l, 3 < y.rank) :
    exec i s = .next (trapped c t ⟨0x08, 0x01, w⟩ s) := by
  obtain ⟨l, rfl, hl⟩ := hx
  exact traps_of_window hex hi hf (hb.trans (moveAnswer_outside ho hq (List.cons_ne_nil _ _))) hl

theorem moveForm_body (hr : Ready c t { gIn := [wGa w, wGb w] } s) :
    (moveForm c t s w store).body s = moveAnswer s c t w store (rowsConds s c t w store) (rowsMove s c t w store) :=
  moveBody_of_clean (addrPoison_of_ready hr (fun _ h => h))

theorem sideForm_body (hr : Ready c t { gIn := [wGa w] } s) :
    (sideForm c t s w store).body s = moveAnswer s c t w store (bandConds s c t w) (bandMove s c t w store) :=
  sideBody_of_clean (addrPoison_of_ready hr (fun _ h => h))

theorem moveForm_free (hr : Ready c t { gIn := [wGa w, wGb w] } s) (hp : controlJob s c t (wGa w) = none) :
    Free (moveForm c t s w store) c t s := ⟨hr.free, rfl, hp⟩

theorem sideForm_free (hr : Ready c t { gIn := [wGa w] } s) (hp : controlJob s c t (wGa w) = none) :
    Free (sideForm c t s w store) c t s := ⟨hr.free, rfl, hp⟩

end Sys2Proof.Machine
end

section
/-!
PROOFS. The retirement of a tile move to or from LOCAL (03 R114, R120–R122, R136).
-/

namespace Sys2Proof.Machine

variable {s s1 s2 : State} {c : Nat} {m : TileMove} {mem : Mem} {a n : Nat}

/-! ## Reads of a memory without marks -/

theorem coreMem_congr (h : getCore s1 c = getCore s c) : coreMem s1 false c = coreMem s false c := by rw [coreMem_local, coreMem_local, h]

theorem badRun_unmarked (h : ∀ x, mem.mark x = Mark.none) (a n : Nat) : badRun mem a n = false :=
  List.any_eq_false.2 (fun i _ => by rw [h]; decide)

theorem getCore_coreRead_unmarked (h : ∀ x, (coreMem s false c).mark x = Mark.none) (a n d : Nat) :
    getCore (coreRead s false c a n).st d = getCore s d := by
  rw [coreRead_unmarked (fun i _ => h _), getCore_setCoreMem_self]

/-- What a TLD reads of a memory for row i. -/
def loadRow (mem : Mem) (m : TileMove) (i : Nat) : Nat :=
  ofBytes (if m.skew then unskewRow i (mem.getBytes (m.base + i * m.pitch) 64) else mem.getBytes (m.base + i * m.pitch) (8 * m.grans))

/-- One step of a TLD's reads. -/
def loadStep (c : Nat) (m : TileMove) (x : State × List (Option (Nat × Bool))) (i : Nat) : State × List (Option (Nat × Bool)) :=
  let n := if m.skew then 64 else 8 * m.grans
  let g := coreRead x.1 m.gran c (m.base + i * m.pitch) n
  let bytes := if m.skew then unskewRow i g.data else g.data
  (g.st, x.2 ++ [some (ofBytes bytes, g.poison)])

theorem loadStep_unmarked (hg : m.gran = false) (hm : ∀ x, (coreMem s false c).mark x = Mark.none)
    (rows : List (Option (Nat × Bool))) (i : Nat) :
    (∀ d, getCore (loadStep c m (s, rows) i).1 d = getCore s d) ∧
      (loadStep c m (s, rows) i).2 = rows ++ [some (loadRow (coreMem s false c) m i, false)] := by
  unfold loadStep
  dsimp only
  rw [hg]
  refine ⟨getCore_coreRead_unmarked hm _ _, ?_⟩
  rw [coreRead_poison, badRun_unmarked hm, show ∀ k, (coreRead s false c (m.base + i * m.pitch) k).data = _ from fun k => read_data _ _ k,
    loadRow]
  cases m.skew <;> rfl

/-- The reads of a TLD leave every core as it was and give each row what the memory holds. -/
theorem loadSteps_unmarked (hg : m.gran = false) (hm : ∀ x, (coreMem s false c).mark x = Mark.none) (l : List Nat)
    (rows : List (Option (Nat × Bool))) :
    (∀ d, getCore (l.foldl (loadStep c m) (s, rows)).1 d = getCore s d) ∧
      (l.foldl (loadStep c m) (s, rows)).2 = rows ++ l.map (fun i => some (loadRow (coreMem s false c) m i, false)) := by
  induction l generalizing s rows with
  | nil => exact ⟨fun _ => rfl, (List.append_nil rows).symm⟩
  | cons i l ih =>
    obtain ⟨hcore, hrows⟩ := loadStep_unmarked hg hm rows i
    have hmem := coreMem_congr (hcore c)
    obtain ⟨ihc, ihr⟩ := ih (s := (loadStep c m (s, rows) i).1) (fun x => by rw [hmem]; exact hm x) (loadStep c m (s, rows) i).2
    rw [List.foldl_cons]
    refine ⟨fun d => (ihc d).trans (hcore d), ihr.trans ?_⟩
    rw [hmem, hrows, List.map_cons, List.append_assoc, List.singleton_append]

/-! ## Writes of rows -/

/-- The bytes that a TST writes for row i. -/
def storeRow (m : TileMove) (r : TileReg) (i : Nat) : List Byte :=
  let bytes := toBytes (if m.skew then 64 else 8 * m.grans) (r.row i).toNat
  if m.skew then skewRow i bytes else bytes

theorem storeRow_length (m : TileMove) (r : TileReg) (i : Nat) : (storeRow m r i).length = if m.skew then 64 else 8 * m.grans := by
  unfold storeRow
  cases hs : m.skew <;> simp [skewRow]

/-- A memory after a TST's write of row i. -/
def storeStep (m : TileMove) (r : TileReg) (mem : Mem) (i : Nat) : Mem :=
  (mem.write true (r.prow.getLsbD i) (m.base + i * m.pitch) (storeRow m r i)).mem

/-- A core's state after a TST's write of row i. -/
def storeCoreStep (c : Nat) (m : TileMove) (r : TileReg) (s : State) (i : Nat) : State :=
  let a := m.base + i * m.pitch
  let s := coreWrite s m.gran c (r.prow.getLsbD i) a (storeRow m r i)
  if m.gran then l1KillGran s c a (storeRow m r i).length else s

theorem retireStore_eq (s : State) (c : Nat) (m : TileMove) :
    retireStore s c m = (List.range m.rows).foldl (storeCoreStep c m (getTile s c m.reg)) s := rfl

theorem localNow_refl (s : State) (c : Nat) : LocalNow s c (coreMem s false c) s := ⟨rfl, fun _ _ => rfl, rfl⟩

theorem storeSteps_local (hg : m.gran = false) (r : TileReg) (l : List Nat) (hq : quietMem s false c) :
    LocalNow s c (l.foldl (storeStep m r) (coreMem s false c)) (l.foldl (storeCoreStep c m r) s) := by
  induction l generalizing s with
  | nil => exact localNow_refl s c
  | cons i l ih =>
    have hone : LocalNow s c (storeStep m r (coreMem s false c) i) (storeCoreStep c m r s i) := by
      unfold storeCoreStep
      rw [hg]
      exact localNow_coreWrite hq _ _ _
    have hrest := ih (hone.quiet hq (fun x => write_unc))
    rw [hone.local_eq] at hrest
    exact hone.trans hrest

theorem storeSteps_outside (r : TileReg) (l : List Nat) {x : Nat}
    (h : ∀ i ∈ l, x < m.base + i * m.pitch ∨ m.base + i * m.pitch + (if m.skew then 64 else 8 * m.grans) ≤ x) :
    (l.foldl (storeStep m r) mem).byte x = mem.byte x :=
  List.foldlRecOn (motive := fun k => k.byte x = mem.byte x) l _ rfl
    (fun k hk i hi => (write_byte_outside k _ _ _ (by rw [storeRow_length]; exact h i hi)).trans hk)

/-! ## What a retired move leaves -/

/-- The move is gone from the queue, its register holds r and the core's local memory is mem; no other register and no other core has
changed. -/
structure MoveRetired (s : State) (c : Nat) (m : TileMove) (r : TileReg) (mem : Mem) (s' : State) : Prop where
  moves : (getCore s' c).tile.moves = (getCore s c).tile.moves.filter (fun b => b.id != m.id)
  reg : getTile s' c m.reg = r
  regs : ∀ x, x ≠ m.reg → getTile s' c x = getTile s c x
  cores : ∀ d, d ≠ c → getCore s' d = getCore s d
  mem : (getCore s' c).mem.localMem = mem

/-- The state without the move in its queue. -/
def unqueued (s : State) (c : Nat) (m : TileMove) : State :=
  updTileUnit s c (fun u => { u with moves := u.moves.filter (fun b => b.id != m.id) })

theorem tileNow_unqueued (s : State) (c : Nat) (m : TileMove) : TileNow s c
    { (getCore s c).tile with moves := (getCore s c).tile.moves.filter (fun b => b.id != m.id) } (unqueued s c m) :=
  tileNow_updTileUnit s c (fun u => { u with moves := u.moves.filter (fun b => b.id != m.id) })

theorem coreMem_unqueued (s : State) (c : Nat) (m : TileMove) : coreMem (unqueued s c m) false c = (getCore s c).mem.localMem := by
  rw [coreMem_local, (tileNow_unqueued s c m).mem]

/-- A load: the cores but for the queue are as they were when the register is written. -/
theorem moveRetired_load (h : ∀ d, getCore s1 d = getCore (unqueued s c m) d) (r : TileReg) :
    MoveRetired s c m r (getCore s c).mem.localMem (setTile s1 c m.reg r) := by
  have hu := tileNow_unqueued s c m
  have hw := tileNow_updTileUnit s1 c (fun u => { u with regs := spSet {} u.regs m.reg r, opCache := u.opCache.filter (· != m.reg) })
  refine ⟨?_, getTile_setTile_same s1 c m.reg r, fun x hx => ?_, fun d hd => ?_, ?_⟩
  · exact (congrArg TileUnit.moves hw.tile).trans (by rw [h c, hu.tile])
  · rw [getTile_setTile_other s1 c r hx, getTile, h c, hu.tile]; rfl
  · rw [getCore_setTile_other s1 m.reg r hd, h d, hu.cores d hd]
  · rw [show (getCore (setTile s1 c m.reg r) c).mem = _ from hw.mem, h c, hu.mem]

/-- A store: the local memory is replaced. -/
theorem moveRetired_store (h : LocalNow (unqueued s c m) c mem s1) : MoveRetired s c m (getTile s c m.reg) mem s1 := by
  have hu := tileNow_unqueued s c m
  have hregs (x : Nat) : getTile s1 c x = getTile s c x := by
    rw [getTile, h.core]
    exact hu.reg x
  refine ⟨?_, hregs m.reg, fun x _ => hregs x, fun d hd => ?_, ?_⟩
  · rw [h.core]; exact congrArg TileUnit.moves hu.tile
  · rw [h.cores d hd, hu.cores d hd]
  · rw [h.core]; rfl

theorem quietMem_of_unmarked (h : ∀ x, (coreMem s false c).mark x = Mark.none) : quietMem s false c :=
  fun x _ _ => by rw [h]; decide

/-! ## The four moves -/

theorem unmarked_unqueued (m : TileMove) (hm : ∀ x, (getCore s c).mem.localMem.mark x = Mark.none) (x : Nat) :
    (coreMem (unqueued s c m) false c).mark x = Mark.none := by
  rw [coreMem_unqueued]; exact hm x

section
variable (hg : m.gran = false) (hm : ∀ x, (getCore s c).mem.localMem.mark x = Mark.none)
include hg hm

theorem retireLoad_local : MoveRetired s c m
    ((getTile s c m.reg).write m.fmt m.rows m.grans
      ((List.range m.rows).map (fun i => some (loadRow (getCore s c).mem.localMem m i, false))))
    (getCore s c).mem.localMem (retireLoad (unqueued s c m) c m) := by
  obtain ⟨hcore, hrows⟩ := loadSteps_unmarked hg (unmarked_unqueued m hm) (List.range m.rows) []
  have heq : retireLoad (unqueued s c m) c m =
      setTile ((List.range m.rows).foldl (loadStep c m) (unqueued s c m, [])).1 c m.reg
        ((getTile ((List.range m.rows).foldl (loadStep c m) (unqueued s c m, [])).1 c m.reg).write m.fmt m.rows m.grans
          ((List.range m.rows).foldl (loadStep c m) (unqueued s c m, [])).2) := rfl
  rw [heq, hrows, coreMem_unqueued, getTile_eq (hcore c), (tileNow_unqueued s c m).reg]
  exact moveRetired_load hcore _

theorem retireStore_local : MoveRetired s c m (getTile s c m.reg)
    ((List.range m.rows).foldl (storeStep m (getTile s c m.reg)) (getCore s c).mem.localMem) (retireStore (unqueued s c m) c m) := by
  have hl := storeSteps_local hg (getTile (unqueued s c m) c m.reg) (List.range m.rows)
    (quietMem_of_unmarked (unmarked_unqueued m hm))
  rw [coreMem_unqueued, (tileNow_unqueued s c m).reg] at hl
  rw [retireStore_eq, (tileNow_unqueued s c m).reg]
  exact moveRetired_store hl

theorem retireSide_load (hs : m.store = false) : MoveRetired s c m
    { getTile s c m.reg with
      side := BitVec.ofNat 1024 (ofBytes ((getCore s c).mem.localMem.getBytes m.base 128)), spois := false }
    (getCore s c).mem.localMem (retireSide (unqueued s c m) c m) := by
  have hum := unmarked_unqueued m hm
  unfold retireSide
  dsimp only
  rw [hs, hg, if_neg (by decide), coreRead_value, coreRead_poison, badRun_unmarked hum, coreMem_unqueued, (tileNow_unqueued s c m).reg]
  exact moveRetired_load (getCore_coreRead_unmarked hum _ _) _

theorem retireSide_store (hs : m.store = true) : MoveRetired s c m (getTile s c m.reg)
    ((getCore s c).mem.localMem.write true (getTile s c m.reg).spois m.base (toBytes 128 (getTile s c m.reg).side.toNat)).mem
    (retireSide (unqueued s c m) c m) := by
  have hl := localNow_coreWrite (quietMem_of_unmarked (unmarked_unqueued m hm)) (getTile s c m.reg).spois m.base
    (toBytes 128 (getTile s c m.reg).side.toNat)
  rw [coreMem_unqueued] at hl
  unfold retireSide
  dsimp only
  rw [hs, hg, if_pos rfl, if_neg (by decide), (tileNow_unqueued s c m).reg]
  exact moveRetired_store hl

end

/-! ## The retirement -/

/-- The oldest move of a path, which nothing blocks, retires. -/
theorem moveRetire_of_oldest {store : Bool} (hf : (getCore s c).tile.moves.find? (fun x => x.store == store) = some m)
    (hb : moveBlocked ((getCore s c).tile.moves.takeWhile (fun b => b.id != m.id)) m = false) (hd : afterDrains (getCore s c) m = false) :
    moveRetire s c store = if m.side then retireSide (unqueued s c m) c m
      else if store then retireStore (unqueued s c m) c m else retireLoad (unqueued s c m) c m := by
  unfold moveRetire
  dsimp only
  rw [hf]
  dsimp only
  rw [hb, hd]
  rfl

/-- A byte outside the runs of a store is as it was. -/
theorem storeSteps_byte_outside (r : TileReg) (hs : m.side = false) {x : Nat} (h : ∀ run ∈ moveRuns m, x < run.1 ∨ run.1 + run.2 ≤ x) :
    ((List.range m.rows).foldl (storeStep m r) mem).byte x = mem.byte x := by
  refine storeSteps_outside r _ (fun i hi => h (m.base + i * m.pitch, if m.skew then 64 else 8 * m.grans) ?_)
  rw [moveRuns, hs, if_neg (by decide)]
  exact List.mem_map_of_mem hi

/-- One row of clean data stands at the base. -/
theorem storeSteps_one_row (r : TileReg) (h8 : m.base % 8 = 0) (hk : m.skew = false) (h1 : m.rows = 1) (hp : r.prow.getLsbD 0 = false)
    {j : Nat} (hj : j < 8 * m.grans) :
    ((List.range m.rows).foldl (storeStep m r) mem).byte (m.base + j) = BitVec.ofNat 8 ((r.row 0).toNat / 256 ^ j) := by
  have hstep : (List.range m.rows).foldl (storeStep m r) mem = (mem.write true false m.base (toBytes (8 * m.grans) (r.row 0).toNat)).mem := by
    rw [h1, show List.range 1 = [0] from rfl, List.foldl_cons, List.foldl_nil, storeStep, hp, storeRow, hk]
    simp
  rw [hstep]
  exact ((write_words mem (k := m.grans) (r.row 0).toNat false h8).2 rfl).1 j hj

theorem side_byte_outside (p : Bool) (v : Nat) (hs : m.side = true) {x : Nat}
    (h : ∀ run ∈ moveRuns m, x < run.1 ∨ run.1 + run.2 ≤ x) : (mem.write true p m.base (toBytes 128 v)).mem.byte x = mem.byte x := by
  rw [moveRuns, hs, if_pos rfl] at h
  exact write_byte_outside _ _ _ _ (by rw [toBytes_length]; exact h _ (List.mem_singleton_self _))

/-! ## The statement -/

/-- Settles O38: at issue every check of the move holds off; at retirement its rows or its sideband are read or written once. -/
theorem tileMovesQueueAndRetire : Obligations.TileMovesQueueAndRetire := by
  unfold Obligations.TileMovesQueueAndRetire
  refine ⟨fun c t w s => ?issue, fun c store s m => ?retire⟩
  case issue =>
    intro th u i p a pitch n aligned gran r queued plain side traps hq
    have free {n : Nat} (hf : areaFree s c t a n) : controlJob s c t (wGa w) = none := controlJob_of_other (areaFree_tag hf)
    have keeper (hk : th.st.pm = true) : controlJob s c t (wGa w) = none := controlJob_of_keeper hk _
    refine ⟨fun hi hr => ⟨fun hw hwait hfol hal hf => ?tld, fun ho hk => ?tldOut⟩,
      fun hi hr => ⟨fun hw hwait hfol hal hf hn hfmt hrows hgrans => ?tst, fun ho hk => ?tstOut⟩,
      fun hi hr => ⟨fun hw hwait hfol hal hf => ?tlds, fun ho hk => ?tldsOut⟩,
      fun hi hr => ⟨fun hw hwait hfol hal hf => ?tsts, fun ho hk => ?tstsOut⟩⟩
    case tld =>
      exact move_queues rfl hi (moveForm_free hr (free hf)) (moveForm_body hr) hq hwait (rowsConds_clear hw hal hf nofun) hfol
    case tst =>
      exact move_queues rfl hi (moveForm_free hr (free hf)) (moveForm_body hr) hq hwait
        (rowsConds_clear hw hal hf (fun _ => ⟨hn, hfmt, hrows, hgrans⟩)) hfol
    case tldOut | tstOut =>
      exact move_traps rfl hi (moveForm_free hr (keeper hk)) (moveForm_body hr) hq ho (rowsConds_outside ho)
    case tlds | tsts =>
      exact move_queues rfl hi (sideForm_free hr (free hf)) (sideForm_body hr) hq hwait (bandConds_clear hw hal hf) hfol
    case tldsOut | tstsOut =>
      exact move_traps rfl hi (sideForm_free hr (keeper hk)) (sideForm_body hr) hq ho (bandConds_outside ho)
  case retire =>
    intro u hf hb hd hg hm h8 _ mem r
    have hst : m.store = store := by simpa using List.find?_some hf
    have hret := moveRetire_of_oldest hf hb hd
    refine ⟨_, congrArg Host.Outcome.next hret, ?_⟩
    cases hs : m.side <;> cases store <;> simp only [Bool.false_eq_true, if_true, if_false]
    case false.false =>
      obtain ⟨hmoves, hreg, hregs, hcores, hmem⟩ := retireLoad_local hg hm
      refine ⟨hmoves, hregs, hcores, fun x _ => by rw [hmem], fun _ _ hk => ?_, nofun, nofun, nofun, nofun⟩
      rw [hreg]
      simp only [loadRow, hk, Bool.false_eq_true, if_false]
      rfl
    case false.true =>
      obtain ⟨hmoves, hreg, hregs, hcores, hmem⟩ := retireStore_local hg hm
      refine ⟨hmoves, hregs, hcores, fun x hx => ?_, nofun, nofun, fun _ => hreg, fun _ _ hk h1 hp j hj => ?_, nofun⟩
      · rw [hmem]
        exact storeSteps_byte_outside _ hs (hx.resolve_right nofun)
      · rw [hmem]
        exact storeSteps_one_row _ h8 hk h1 hp hj
    case true.false =>
      obtain ⟨hmoves, hreg, hregs, hcores, hmem⟩ := retireSide_load hg hm hst
      exact ⟨hmoves, hregs, hcores, fun x _ => by rw [hmem], nofun, fun _ _ => hreg, nofun, nofun, nofun⟩
    case true.true =>
      obtain ⟨hmoves, hreg, hregs, hcores, hmem⟩ := retireSide_store hg hm hst
      refine ⟨hmoves, hregs, hcores, fun x hx => ?_, nofun, nofun, fun _ => hreg, nofun, fun _ _ hp j hj => ?_⟩
      · rw [hmem]
        exact side_byte_outside _ _ hs (hx.resolve_right nofun)
      · rw [hmem, hp]
        exact ((write_words _ (k := 16) _ false h8).2 rfl).1 j hj

end Sys2Proof.Machine
end

section
/-!
PROOFS. Copies, the yoke transfer and the status reads of the tile unit (03 R106, R108, R123–R125, R136).
-/

namespace Sys2Proof.Machine

variable {s s1 : State} {c t : Nat} {w : Word}

/-! ## Instructions that write a general register and the tile unit -/

theorem tile_writeG (s : State) (c t n : Nat) (v : Word) : (getCore (updCore s c (fun k => k.writeG t n v)) c).tile = (getCore s c).tile := by
  rw [getCore_writeG_same]

theorem tileOnly_writeG (s : State) (c t n : Nat) (v : Word) : TileOnly c t (some (n, v)) [] (getCore s c).tile s
    (completed c t (updCore s c (fun k => k.writeG t n v))) := by
  have h := tileNow_refl (updCore s c (fun k => k.writeG t n v)) c
  rw [tile_writeG] at h
  exact tileOnly_of_writeG h

theorem tileOnly_writeG_upd (s : State) (c t n : Nat) (v : Word) (f : TileUnit → TileUnit) :
    TileOnly c t (some (n, v)) [] (f (getCore s c).tile) s
      (completed c t (updTileUnit (updCore s c (fun k => k.writeG t n v)) c f)) := by
  have h := tileNow_updTileUnit (updCore s c (fun k => k.writeG t n v)) c f
  rw [tile_writeG] at h
  exact tileOnly_of_writeG h

theorem tileOnly_upd (s : State) (c t : Nat) (f : TileUnit → TileUnit) :
    TileOnly c t none [] (f (getCore s c).tile) s (completed c t (updTileUnit s c f)) :=
  tileOnly_of_tileNow t (tileNow_updTileUnit s c f)

theorem tileOnly_setTile (s : State) (c t p : Nat) (r : TileReg) : TileOnly c t none []
    { (getCore s c).tile with
      regs := spSet {} (getCore s c).tile.regs p r, opCache := (getCore s c).tile.opCache.filter (· != p) } s
    (completed c t (setTile s c p r)) :=
  tileOnly_upd s c t (fun u => { u with regs := spSet {} u.regs p r, opCache := u.opCache.filter (· != p) })

/-- A command whose indices lie outside the window, beside conditions that rank after that. -/
theorem traps_outside {i : Instr} {m : Mn} {f : Form} {l : List Nat} {xs : List Cand} (hex : exec i s = issue m f c t w s)
    (hi : Issues m c t w s) (hf : Free f c t s) (ho : ¬ inWindow (getThread s c t) l)
    (hb : winChecks (getThread s c t) w l ≠ [] → f.body s = .raise (winChecks (getThread s c t) w l ++ xs))
    (hx : ∀ y ∈ xs, 3 < y.rank) :
    exec i s = .next (trapped c t ⟨0x08, 0x01, w⟩ s) := by
  rw [winChecks_outside ho] at hb
  exact traps_of_window hex hi hf (hb (List.cons_ne_nil _ _)) hx

/-! ## TMOV and TZERO -/

theorem tmovBody_done (hw : inWindow (getThread s c t) [tmT w, field w 50 46])
    (ht : tileWait s c [phys (getThread s c t) (field w 50 46)] [phys (getThread s c t) (tmT w)] = false) :
    tmovBody c t w s = .done (advance (setTile s c (phys (getThread s c t) (tmT w))
      (getTile s c (phys (getThread s c t) (field w 50 46)))) c t) := by
  unfold tmovBody
  dsimp only
  rw [winChecks_inside hw, ht]
  rfl

theorem tmovBody_outside (h : winChecks (getThread s c t) w [tmT w, field w 50 46] ≠ []) :
    tmovBody c t w s = .raise (winChecks (getThread s c t) w [tmT w, field w 50 46] ++ []) := by
  rw [List.append_nil]
  exact if_pos (by simpa using h)

/-- The register that TZERO leaves. -/
def zeroed (r : TileReg) (w : Word) : TileReg :=
  { r.write (tmFmt w) (tmRows w) (tmGrans w) (List.replicate (tmRows w) (some (0, false))) with side := sideOnes, spois := false }

theorem tzeroBody_done (hw : inWindow (getThread s c t) [tmT w])
    (ht : tileWait s c [] [phys (getThread s c t) (tmT w)] = false) :
    tzeroBody c t w s = .done (advance (setTile s c (phys (getThread s c t) (tmT w))
      (zeroed (getTile s c (phys (getThread s c t) (tmT w))) w)) c t) := by
  unfold tzeroBody
  dsimp only
  rw [winChecks_inside hw, ht]
  rfl

theorem tzeroBody_outside (h : winChecks (getThread s c t) w [tmT w] ≠ []) :
    tzeroBody c t w s = .raise (winChecks (getThread s c t) w [tmT w] ++ []) := by
  rw [List.append_nil]
  exact if_pos (by simpa using h)

/-! ## TXFER -/

theorem partner_ne (c : Nat) : partner c ≠ c := by unfold partner; split <;> omega

theorem yokeChecks_whole (h : yokeBroken s c = false) : yokeChecks s c = [] := by rw [yokeChecks, h]; rfl

theorem yokeChecks_broken (h : yokeBroken s c = true) : yokeChecks s c = [cand 0x0C 0x02 (holeInfo (partner c))] := by
  rw [yokeChecks, h]; rfl

/-- The conditions of TXFER. -/
def txferConds (s : State) (c t : Nat) (w : Word) : List Cand :=
  winChecks (getThread s c t) w [tmT w, field w 50 46] ++ yokeChecks s c

theorem txferBody_raises (h : txferConds s c t w ≠ []) : txferBody c t w s = .raise (txferConds s c t w) :=
  if_pos (by rw [txferConds] at h; simpa using h)

theorem txferConds_inside (h : inWindow (getThread s c t) [tmT w, field w 50 46]) : txferConds s c t w = yokeChecks s c := by
  rw [txferConds, winChecks_inside h]; rfl

/-- The link is free: no transfer of the core is on it, and no pass of the partner reads over it. -/
theorem txferBody_done (hx : txferConds s c t w = []) (hr : tileWait s c [phys (getThread s c t) (field w 50 46)] [] = false)
    (hp : tileWait s (partner c) [] [phys (getThread s c t) (tmT w)] = false) (hl : (getCore s c).tile.xfers = [])
    (hy : ∀ x ∈ (getCore s (partner c)).tile.passes, x.yk = true → x.started = false) :
    txferBody c t w s = .done (advance (updTileUnit (nextTileId s c).2 c (fun u => { u with xfers := u.xfers ++
      [{ id := (getCore s c).tile.nextId, thread := t, src := phys (getThread s c t) (field w 50 46)
         dst := phys (getThread s c t) (tmT w) }] })) c t) := by
  have hyk : (getCore s (partner c)).tile.passes.any (fun p => p.yk && p.started) = false :=
    List.any_eq_false.2 (fun x hx => by
      cases hk : x.yk
      · simp
      · simp [hy x hx hk])
  rw [txferConds] at hx
  unfold txferBody
  dsimp only
  rw [hx, hr, hp, hl, hyk]
  rfl

theorem tileOnly_txfer (hl : (getCore s c).tile.xfers = []) (x : Xfer) : TileOnly c t none []
    { (getCore s c).tile with xfers := [x], nextId := (getCore s c).tile.nextId + 1 } s
    (completed c t (updTileUnit (nextTileId s c).2 c (fun u => { u with xfers := u.xfers ++ [x] }))) := by
  have h := (tileNow_updTileUnit s c (fun u => { u with nextId := u.nextId + 1 })).upd (fun u => { u with xfers := u.xfers ++ [x] })
  dsimp only at h
  rw [hl] at h
  exact tileOnly_of_tileNow t h

/-- The arrival of the oldest transfer of a core. -/
theorem xferArrive_effect {x : Xfer} {rest : List Xfer} (h : (getCore s c).tile.xfers = x :: rest) :
    (getCore (xferArrive s c) c).tile.xfers = rest ∧ getTile (xferArrive s c) (partner c) x.dst = getTile s c x.src ∧
    (∀ y, y ≠ x.dst → getTile (xferArrive s c) (partner c) y = getTile s (partner c) y) ∧
    (∀ d, d ≠ c → d ≠ partner c → getCore (xferArrive s c) d = getCore s d) ∧
    ∀ y, getTile (xferArrive s c) c y = getTile s c y := by
  have hu := tileNow_updTileUnit s c (fun u => { u with xfers := rest })
  have heq : xferArrive s c = setTile (updTileUnit s c (fun u => { u with xfers := rest })) (partner c) x.dst (getTile s c x.src) := by
    unfold xferArrive
    rw [h]
    dsimp only
    rw [hu.reg]
    rfl
  have hc := getCore_setTile_other (updTileUnit s c (fun u => { u with xfers := rest })) x.dst (getTile s c x.src) (partner_ne c).symm
  rw [heq]
  refine ⟨?_, getTile_setTile_same _ _ _ _, fun y hy => ?_, fun d hd hp => ?_, fun y => ?_⟩
  · rw [hc, hu.tile]
  · rw [getTile_setTile_other _ _ _ hy]
    exact getTile_eq (hu.cores _ (partner_ne c)) y
  · rw [getCore_setTile_other _ _ _ hp, hu.cores d hd]
  · rw [getTile_eq hc, hu.reg]; rfl

/-! ## TTAG and TASTAT -/

theorem ttagBody_done (hw : inWindow (getThread s c t) [field w 50 46])
    (ht : tileWait s c [phys (getThread s c t) (field w 50 46)] [] = false) :
    ttagBody c t w s = .done (advance (updCore s c (fun k => k.writeG t (wGd w)
      (tagWord (getTile s c (phys (getThread s c t) (field w 50 46)))))) c t) := by
  unfold ttagBody
  dsimp only
  rw [winChecks_inside hw, ht]
  rfl

theorem ttagBody_outside (h : winChecks (getThread s c t) w [field w 50 46] ≠ []) :
    ttagBody c t w s = .raise (winChecks (getThread s c t) w [field w 50 46] ++ []) := by
  rw [List.append_nil]
  exact if_pos (by simpa using h)

/-- A bank with its sticky flags clear. -/
def flagsCleared (a : AccBank) : AccBank := { a with nan := false, inf := false, iov := false }

/-- A unit with a bank replaced. -/
def bankSet (b : Nat) (a : AccBank) (u : TileUnit) : TileUnit := if b = 0 then { u with acc0 := a } else { u with acc1 := a }

theorem setBank_eq (s : State) (c b : Nat) (a : AccBank) : setBank s c b a = updTileUnit s c (bankSet b a) := rfl

/-- A unit with the vector unit's sticky flags clear. -/
def vectorCleared (u : TileUnit) : TileUnit := { u with vnan := false, vinf := false, viov := false }

/-- The vector unit's sticky flags as TASTAT gives them. -/
def vectorWord (u : TileUnit) : Word := word (boolN u.viov * 4 + boolN u.vinf * 2 + boolN u.vnan)

/-- The state after TASTAT has written the word v: f clears the flags it has read, where its word says so. -/
def tastatDone (s : State) (c t : Nat) (w v : Word) (f : TileUnit → TileUnit) : State :=
  if bitOf w 27 then updTileUnit (updCore s c (fun k => k.writeG t (wGd w) v)) c f else updCore s c (fun k => k.writeG t (wGd w) v)

theorem tileOnly_tastat (s : State) (c t : Nat) (w v : Word) (f : TileUnit → TileUnit) : TileOnly c t (some (wGd w, v)) []
    (if bitOf w 27 then f (getCore s c).tile else (getCore s c).tile) s (completed c t (tastatDone s c t w v f)) := by
  unfold tastatDone
  cases bitOf w 27
  · exact tileOnly_writeG s c t (wGd w) v
  · exact tileOnly_writeG_upd s c t (wGd w) v f

theorem tastatBody_bank (hb : field w 29 28 ≠ 2) (hw : bankBusy (getCore s c) (field w 29 28) = false) :
    tastatBody c t w s = .done (advance (tastatDone s c t w (bankWord (getBank (getCore s c) (field w 29 28)))
      (bankSet (field w 29 28) (flagsCleared (getBank (getCore s c) (field w 29 28))))) c t) := by
  unfold tastatBody
  dsimp only
  rw [if_neg hb, hw]
  rfl

theorem tastatBody_vector (hb : field w 29 28 = 2) (hw : (getCore s c).tile.vecs = []) :
    tastatBody c t w s = .done (advance (tastatDone s c t w (vectorWord (getCore s c).tile) vectorCleared) c t) := by
  unfold tastatBody
  dsimp only
  rw [if_pos hb, hw]
  rfl

/-! ## The statement -/

/-- Settles O39: each instruction's one effect on the tile unit, and the arrival at the partner. -/
theorem tileCopiesAndReads : Obligations.TileCopiesAndReads := by
  unfold Obligations.TileCopiesAndReads
  refine ⟨fun c t w s => ?_, fun c s x rest h => ⟨_, rfl, xferArrive_effect h⟩⟩
  intro th k u i j p q put r zero bank b clears fine outside
  refine ⟨fun hi => ⟨fun hw ht => ?tmov, fun ho => ?tmovOut⟩, fun hi => ⟨fun hw ht => ?tzero, fun ho => ?tzeroOut⟩,
    fun hi => ⟨fun hw hy hr hp hl hk => ?txfer, fun ho => ?txferOut, fun hw hy => ?txferBroken⟩,
    fun hi hr => ⟨fun hw ht => ?ttag, fun ho => ?ttagOut⟩,
    fun hi hr => ⟨fun hb hw => ?tastatBank, fun hb hw => ?tastatVector⟩⟩
  case tmov => exact runs_of_done rfl hi ⟨rfl, rfl, rfl⟩ (tmovBody_done hw ht) (tileOnly_setTile s c t _ _)
  case tmovOut => exact traps_outside rfl hi ⟨rfl, rfl, rfl⟩ ho tmovBody_outside nofun
  case tzero => exact runs_of_done rfl hi ⟨rfl, rfl, rfl⟩ (tzeroBody_done hw ht) (tileOnly_setTile s c t _ _)
  case tzeroOut => exact traps_outside rfl hi ⟨rfl, rfl, rfl⟩ ho tzeroBody_outside nofun
  case txfer =>
    have hx : txferConds s c t w = [] := (txferConds_inside hw).trans (yokeChecks_whole hy)
    exact runs_of_done rfl hi ⟨rfl, rfl, rfl⟩ (txferBody_done hx hr hp hl hk) (tileOnly_txfer hl _)
  case txferOut =>
    exact traps_outside rfl hi ⟨rfl, rfl, rfl⟩ ho (fun hne => txferBody_raises (List.append_ne_nil_of_left_ne_nil hne _))
      (fun y hy => rank_of_when? (by decide) hy)
  case txferBroken =>
    have hx : txferConds s c t w = [cand 0x0C 0x02 (holeInfo (partner c))] := (txferConds_inside hw).trans (yokeChecks_broken hy)
    exact issue_raised hi ⟨rfl, rfl, rfl⟩ (txferBody_raises (by rw [hx]; nofun)) (by rw [hx]; rfl)
  case ttag => exact runs_of_done rfl hi ⟨hr.free, rfl, rfl⟩ (ttagBody_done hw ht) (tileOnly_writeG s c t _ _)
  case ttagOut => exact traps_outside rfl hi ⟨hr.free, rfl, rfl⟩ ho ttagBody_outside nofun
  case tastatBank =>
    exact runs_of_done rfl hi ⟨hr.free, rfl, rfl⟩ (tastatBody_bank hb hw)
      (tileOnly_tastat s c t w (bankWord (getBank k bank)) (bankSet bank (flagsCleared (getBank k bank))))
  case tastatVector =>
    exact runs_of_done rfl hi ⟨hr.free, rfl, rfl⟩ (tastatBody_vector hb hw)
      (tileOnly_tastat s c t w (vectorWord u) vectorCleared)

end Sys2Proof.Machine
end

section
/-!
PROOFS. Vector-on-tile instructions at issue (03 R148, R150).
-/

namespace Sys2Proof.Machine

variable {s : State} {c t : Nat} {w : Word} {r : TileReg}

/-! ## The rows of the opcode table -/

/-- The rows that queue a vector-on-tile operation, with the instruction of each. -/
def vecRowTable : List ((Nat → Nat → Word → Instr) × Mn) :=
  [(Instr.tvadd, Mn.tvadd), (Instr.tvsub, Mn.tvsub), (Instr.tvmul, Mn.tvmul), (Instr.tvfma, Mn.tvfma), (Instr.tvmin, Mn.tvmin),
    (Instr.tvmax, Mn.tvmax), (Instr.tvscl, Mn.tvscl), (Instr.tvcvt, Mn.tvcvt), (Instr.tvredSum, Mn.redSum),
    (Instr.tvredMax, Mn.redMax), (Instr.tvredMin, Mn.redMin), (Instr.tvredAbsmax, Mn.redAbsmax), (Instr.tvredSumsq, Mn.redSumsq),
    (Instr.tvfnExp2, Mn.fnExp2), (Instr.tvfnExp, Mn.fnExp), (Instr.tvfnLog2, Mn.fnLog2), (Instr.tvfnRcp, Mn.fnRcp),
    (Instr.tvfnRsqrt, Mn.fnRsqrt), (Instr.tvfnSqrt, Mn.fnSqrt), (Instr.tvbcast, Mn.tvbcast)]

/-- One form serves every row. -/
theorem exec_vecRow : ∀ x ∈ vecRowTable, ∀ c t w s, exec (x.1 c t w) s = issue x.2 (vecForm c t w) c t w s := by
  simp only [vecRowTable, List.forall_mem_cons, List.not_mem_nil, false_implies, implies_true, and_true]
  and_intros <;> exact fun _ _ _ _ => rfl

/-! ## The checks -/

theorem mem_maskRows {mr : BitVec 32} {n i : Nat} : i ∈ maskRows mr n ↔ i < n ∧ mr.getLsbD i = true := by
  simp [maskRows, List.mem_filter]

theorem nodup_maskRows (mr : BitVec 32) (n : Nat) : (maskRows mr n).Nodup := List.nodup_range.filter _

/-- A source that an operation on some rows accepts. -/
structure SourceFits (w : Word) (mr : BitVec 32) (r : TileReg) : Prop where
  tagged : r.fmt ≠ fmtNone
  covers : vZpad w = true ∨ (vRows w ≤ r.nrows + 1 ∧ fmtGrans r.fmt (vElems w) ≤ r.gran + 1)
  clean : ∀ i, i < vRows w → mr.getLsbD i = true → r.prow.getLsbD i = false

theorem srcChecks_fits {mr : BitVec 32} (h : SourceFits w mr r) (reg : Nat) : srcChecks r reg w (maskRows mr (vRows w)) = [] := by
  have hext : (!vZpad w && (decide (r.nrows + 1 < vRows w) || decide (r.gran + 1 < fmtGrans r.fmt (vElems w)))) = false := by
    rcases h.covers with hz | ⟨hr, hg⟩
    · simp [hz]
    · simp [Nat.not_lt.2 hr, Nat.not_lt.2 hg]
  have hfind : (maskRows mr (vRows w)).find? (fun i => r.prow.getLsbD i) = none :=
    List.find?_eq_none.2 (fun i hi => by
      obtain ⟨hlt, hm⟩ := mem_maskRows.1 hi
      simp [h.clean i hlt hm])
  rw [srcChecks, if_neg h.tagged, hext, when?_false, srcChecks.rowChecks, hfind]
  rfl

/-- A destination that an operation accepts: a reduction has none, a full mask asks nothing of it. -/
def DestFits (w : Word) (mr : BitVec 32) (d : TileReg) : Prop :=
  vIsRed w = true ∨ (∀ i, i < vRows w → mr.getLsbD i = true) ∨ (d.fmt = vFmt w ∧ vRows w ≤ d.nrows + 1 ∧ vGrans w ≤ d.gran + 1)

theorem maskRows_full {mr : BitVec 32} {n : Nat} (h : ∀ i, i < n → mr.getLsbD i = true) : maskRows mr n = List.range n :=
  List.filter_eq_self.2 (fun i hi => h i (List.mem_range.1 hi))

theorem destChecks_fits {mr : BitVec 32} {d : TileReg} (h : DestFits w mr d) :
    (!vIsRed w && decide ((maskRows mr (vRows w)).length < vRows w) &&
      (d.fmt != vFmt w || decide (d.nrows + 1 < vRows w) || decide (d.gran + 1 < vGrans w))) = false := by
  rcases h with hr | hfull | ⟨hf, hr, hg⟩
  · simp [hr]
  · simp [maskRows_full hfull]
  · simp [hf, Nat.not_lt.2 hr, Nat.not_lt.2 hg]

theorem vecChecks_clear (hs : ∀ i ∈ vSources w, SourceFits w ((getThread s c t).regs.mGet (vMR w)).v (getTile s c (phys (getThread s c t) i)))
    (hd : DestFits w ((getThread s c t).regs.mGet (vMR w)).v (getTile s c (phys (getThread s c t) (vTd w))))
    (hb : vReadsSV w = true → vBC w = true → vElems w ≤ 32) : vecChecks s c t w = [] := by
  have hbc : (vReadsSV w && vBC w && decide (32 < vElems w)) = false := by
    cases hr : vReadsSV w
    · rfl
    · cases hc : vBC w
      · rfl
      · simp [Nat.not_lt.2 (hb hr hc)]
  unfold vecChecks
  dsimp only
  rw [destChecks_fits hd, hbc, List.flatMap_eq_nil_iff.2 (fun i hi => srcChecks_fits (hs i hi) _)]
  rfl

/-! ## The operation that joins the unit -/

/-- The operation that an instruction queues. -/
def vecOpOf (s : State) (c t : Nat) (w : Word) : VecOp :=
  { id := (getCore s c).tile.nextId, thread := t, word := w, td := phys (getThread s c t) (vTd w), ta := phys (getThread s c t) (vTa w)
    tb := phys (getThread s c t) (vTb w), mr := ((getThread s c t).regs.mGet (vMR w)).v, lanes := ((getThread s c t).regs.sGet (vSV w)).v }

/-- The state with one more operation, its pc not yet passed. -/
def vecQueued (s : State) (c t : Nat) (w : Word) : State :=
  let s1 := updTileUnit (nextTileId s c).2 c (fun u => { u with vecs := u.vecs ++ [vecOpOf s c t w] })
  if vIsRed w then updCore s1 c (fun k => { k with ctl := { k.ctl with sBusy := (t, vSV w) :: k.ctl.sBusy } }) else s1

theorem vecBody_queues (hp : (vUses w).poison (getThread s c t) = []) (hw : inWindow (getThread s c t) (vSources w ++ vDests w))
    (ht : tileWait s c ((vSources w).map (phys (getThread s c t))) ((vDests w).map (phys (getThread s c t))) = false)
    (hx : vecChecks s c t w = []) : vecBody c t w s = .done (advance (vecQueued s c t w) c t) := by
  unfold vecBody
  dsimp only
  rw [winChecks_inside hw, ht, hp, hx]
  rfl

theorem vecBody_outside (hp : (vUses w).poison (getThread s c t) = [])
    (h : winChecks (getThread s c t) w (vSources w ++ vDests w) ≠ []) :
    vecBody c t w s = .raise (winChecks (getThread s c t) w (vSources w ++ vDests w) ++ []) := by
  unfold vecBody
  dsimp only
  rw [hp, if_pos (by simpa using h)]

/-- An instruction that changes the tile unit and awaits one more scale vector. -/
theorem tileOnly_awaiting {u : TileUnit} {s1 : State} (t : Nat) (h : TileNow s c u s1) (x : Nat × Nat) : TileOnly c t none [x] u s
    (completed c t (updCore s1 c (fun k => { k with ctl := { k.ctl with sBusy := x :: k.ctl.sBusy } }))) := by
  refine tileOnly_completed ?_ (fun y _ => ?_) ?_ (fun d hd => ?_) ?_
  · rw [show getThread (updCore s1 c _) c t = getThread s1 c t from getThread_updCore_same _ _ _ _, h.thread]; rfl
  · exact (getThread_updCore_same _ _ _ _).trans (h.thread y)
  · rw [Option.map_none, supersedes_none, getCore_updCore_same, h.core]; rfl
  · rw [getCore_updCore_other _ _ hd, h.cores d hd]
  · rw [updCore_rest, h.rest]

theorem tileOnly_vecQueued (s : State) (c t : Nat) (w : Word) : TileOnly c t none (if vIsRed w then [(t, vSV w)] else [])
    { (getCore s c).tile with
      nextId := (getCore s c).tile.nextId + 1, vecs := (getCore s c).tile.vecs ++ [vecOpOf s c t w] } s
    (completed c t (vecQueued s c t w)) := by
  have h := (tileNow_updTileUnit s c (fun u => { u with nextId := u.nextId + 1 })).upd
    (fun u => { u with vecs := u.vecs ++ [vecOpOf s c t w] })
  unfold vecQueued
  cases vIsRed w with
  | false => exact tileOnly_of_tileNow t h
  | true => exact tileOnly_awaiting t h (t, vSV w)

end Sys2Proof.Machine
end

section
/-!
PROOFS. The completion of a vector-on-tile operation (03 R110, R149–R151).
-/

namespace Sys2Proof.Machine

variable {s : State} {c t : Nat} {w : Word} {r d : TileReg} {v : VecOp} {rest : List VecOp}

/-! ## Rows of a register -/

/-- A row that a writer gives, in a row that was v. -/
def rowWritten (grans : Nat) (x : Option (Nat × Bool)) (v : BitVec 512) : BitVec 512 :=
  match x with
  | some (n, _) => setField v (8 * (8 * grans) - 1) 0 n
  | none => v

/-- One step of a write of a register's rows. -/
def rowStep (grans : Nat) (r : TileReg) (x : Option (Nat × Bool) × Nat) : TileReg :=
  match x.1 with
  | some (n, _) => r.setRow x.2 (8 * grans) n
  | none => r

theorem row_setRow (r : TileReg) (i n v j : Nat) :
    (r.setRow i n v).row j = if j = i then setField (r.row j) (8 * n - 1) 0 v else r.row j := by
  by_cases h : j = i
  · subst h; rw [if_pos rfl]; exact spGet_set_same _ _ _ _
  · rw [if_neg h]; exact spGet_set_other _ _ _ _ h

theorem row_rowStep (grans : Nat) (r : TileReg) (x : Option (Nat × Bool)) (i j : Nat) :
    (rowStep grans r (x, i)).row j = if j = i then rowWritten grans x (r.row j) else r.row j := by
  unfold rowStep rowWritten
  rcases x with _ | ⟨n, p⟩
  · exact (ite_self _).symm
  · exact row_setRow r i (8 * grans) n j

/-- Each index of a list without repetitions is written once. -/
theorem row_foldl_rowStep (grans : Nat) (f : Nat → Option (Nat × Bool)) {l : List Nat} (hl : l.Nodup) (r : TileReg) (j : Nat) :
    ((l.map (fun i => (f i, i))).foldl (rowStep grans) r).row j = if j ∈ l then rowWritten grans (f j) (r.row j) else r.row j := by
  induction l generalizing r with
  | nil => rfl
  | cons i l ih =>
    obtain ⟨hi, hl⟩ := List.nodup_cons.1 hl
    rw [List.map_cons, List.foldl_cons, ih hl, row_rowStep]
    by_cases h : j = i
    · subst h
      rw [if_neg hi, if_pos rfl, if_pos List.mem_cons_self]
    · simp only [List.mem_cons, h, false_or, if_false]

theorem zip_map_range (f : Nat → Option (Nat × Bool)) (n : Nat) :
    ((List.range n).map f).zip (List.range n) = (List.range n).map (fun i => (f i, i)) := by
  simpa using List.zip_map' (f := f) (g := id) (l := List.range n)

/-- The rows of a register after a write. -/
theorem row_write (r : TileReg) (fmt n grans : Nat) (f : Nat → Option (Nat × Bool)) (j : Nat) :
    (r.write fmt n grans ((List.range n).map f)).row j = if j < n then rowWritten grans (f j) (r.row j) else r.row j := by
  have h : (r.write fmt n grans ((List.range n).map f)).row j =
      ((((List.range n).map f).zip (List.range n)).foldl (rowStep grans) r).row j := rfl
  rw [h, zip_map_range, row_foldl_rowStep grans f List.nodup_range]
  simp only [List.mem_range]

/-- A write of rows without poison leaves none in its register. -/
theorem prow_write (r : TileReg) (fmt n grans : Nat) {f : Nat → Option (Nat × Bool)} (hf : ∀ i x, f i = some x → x.2 = false) :
    (r.write fmt n grans ((List.range n).map f)).prow = 0 := by
  unfold TileReg.write
  dsimp only
  rw [zip_map_range]
  refine List.foldlRecOn (motive := fun p => p = 0) _ _ rfl (fun p hp x hx => ?_)
  obtain ⟨i, -, rfl⟩ := List.mem_map.1 hx
  dsimp only
  split
  · next hi => cases hf i _ hi
  · exact hp

/-! ## Lanes of a scale vector -/

theorem laneGet_laneSet (v : BitVec 1024) {n j : Nat} (x : Nat) (hj : j < 32) :
    laneGet (laneSet v n x) j = if j = n then x % 2 ^ 32 else laneGet v j := by
  refine Nat.eq_of_testBit_eq (fun i => ?_)
  have hlane (u : BitVec 1024) : (laneGet u j).testBit i = (decide (i < 32) && u.getLsbD (32 * j + i)) := by
    rw [laneGet, field, testBit_fieldN, show 32 * j + 31 + 1 - 32 * j = 32 by omega]; rfl
  rw [hlane]
  by_cases hi : i < 32
  · rw [laneSet, getLsbD_setField _ _ (by omega) (by omega)]
    by_cases h : j = n
    · subst h
      rw [if_pos (by omega), if_pos rfl, Nat.testBit_mod_two_pow, Nat.add_sub_cancel_left]
    · rw [if_neg (by omega), if_neg h, hlane]
  · split
    · rw [Nat.testBit_mod_two_pow]; simp [hi]
    · rw [hlane]; simp [hi]

/-- Each lane of a list without repetitions is written once. -/
theorem laneGet_foldl (f : Nat → Nat) {l : List Nat} (hl : l.Nodup) (v : BitVec 1024) {j : Nat} (hj : j < 32) :
    laneGet ((l.map (fun i => (i, f i))).foldl (fun u x => laneSet u x.1 x.2) v) j =
      if j ∈ l then f j % 2 ^ 32 else laneGet v j := by
  induction l generalizing v with
  | nil => rfl
  | cons i l ih =>
    obtain ⟨hi, hl⟩ := List.nodup_cons.1 hl
    rw [List.map_cons, List.foldl_cons, ih hl, laneGet_laneSet _ _ hj]
    by_cases h : j = i
    · subst h
      rw [if_neg hi, if_pos rfl, if_pos List.mem_cons_self]
    · simp only [List.mem_cons, h, false_or, if_false]

/-! ## A row operation -/

/-- The row that an operation gives its destination. -/
def vecRowOf (s : State) (c : Nat) (v : VecOp) (i : Nat) : Option (Nat × Bool × Bool × Bool) :=
  if v.mr.getLsbD i then
    some (vRow (rngState s c) v (getTile s c v.ta) (getTile s c v.tb) (getTile s c v.td) i (s.draws + vElems v.word * i))
  else none

/-- The destination after an operation; without a row in its mask it is as it was. -/
def vecDest (s : State) (c : Nat) (v : VecOp) : TileReg :=
  if (maskRows v.mr (vRows v.word)).isEmpty then getTile s c v.td
  else (getTile s c v.td).write (vFmt v.word) (vRows v.word) (vGrans v.word)
    (((List.range (vRows v.word)).map (vecRowOf s c v)).map (fun o => o.map (fun x => (x.1, false))))

theorem vecDest_row (s : State) (c : Nat) (v : VecOp) (j : Nat) : (vecDest s c v).row j =
    if j < vRows v.word ∧ v.mr.getLsbD j = true then
      setField ((getTile s c v.td).row j) (64 * vGrans v.word - 1) 0
        (vRow (rngState s c) v (getTile s c v.ta) (getTile s c v.tb) (getTile s c v.td) j (s.draws + vElems v.word * j)).1
    else (getTile s c v.td).row j := by
  unfold vecDest
  split
  · next h =>
    rw [if_neg (fun hj => by simpa [List.isEmpty_iff.1 h] using mem_maskRows.2 hj)]
  · rw [List.map_map, row_write]
    by_cases hj : j < vRows v.word
    · cases hm : v.mr.getLsbD j
      · simp [hj, vecRowOf, hm, rowWritten]
      · simp [hj, vecRowOf, hm, rowWritten, show 8 * (8 * vGrans v.word) = 64 * vGrans v.word by omega]
    · simp [hj]

theorem vecDest_tag (h : ∃ i, i < vRows v.word ∧ v.mr.getLsbD i = true) : (vecDest s c v).fmt = vFmt v.word ∧
    (vecDest s c v).nrows = vRows v.word - 1 ∧ (vecDest s c v).gran = vGrans v.word - 1 ∧ (vecDest s c v).prow = 0 := by
  obtain ⟨i, hi⟩ := h
  have hne : (maskRows v.mr (vRows v.word)).isEmpty = false :=
    List.isEmpty_eq_false_iff_exists_mem.2 ⟨i, mem_maskRows.2 hi⟩
  rw [vecDest, hne, if_neg (by decide), List.map_map]
  refine ⟨rfl, rfl, rfl, prow_write _ _ _ _ (fun i x hx => ?_)⟩
  obtain ⟨y, -, rfl⟩ := Option.map_eq_some_iff.1 hx
  rfl

/-- The draws that stochastic rounding takes are no part of a core. -/
theorem getCore_drawn (p : Prop) [Decidable p] (s : State) (n d : Nat) :
    getCore (if p then { s with draws := n } else s) d = getCore s d := by
  split <;> rfl

/-- The state in which an operation that leaves the unit is made. -/
def vecTaken (s : State) (c : Nat) (rest : List VecOp) : State := updTileUnit s c (fun u => { u with vecs := rest })

theorem tileNow_vecTaken (s : State) (c : Nat) (rest : List VecOp) : TileNow s c { (getCore s c).tile with vecs := rest } (vecTaken s c rest) :=
  tileNow_updTileUnit s c (fun u => { u with vecs := rest })

theorem getTile_vecTaken (s : State) (c : Nat) (rest : List VecOp) (x : Nat) : getTile (vecTaken s c rest) c x = getTile s c x :=
  (tileNow_vecTaken s c rest).reg x

theorem rngState_vecTaken (s : State) (c : Nat) (rest : List VecOp) : rngState (vecTaken s c rest) c = rngState s c := by
  rw [rngState, (tileNow_vecTaken s c rest).core]; rfl

theorem vecDest_vecTaken (s : State) (c : Nat) (v : VecOp) (rest : List VecOp) : vecDest (vecTaken s c rest) c v = vecDest s c v := by
  have hrow : vecRowOf (vecTaken s c rest) c v = vecRowOf s c v := by
    funext i
    simp only [vecRowOf, getTile_vecTaken, rngState_vecTaken]
    rfl
  rw [vecDest, vecDest, hrow, getTile_vecTaken]

theorem vecComplete_idle (hv : (getCore s c).tile.vecs = v :: rest) (hr : vIsRed v.word = false)
    (he : (maskRows v.mr (vRows v.word)).isEmpty = true) : vecComplete s c = vecTaken s c rest := by
  unfold vecComplete
  rw [hv]
  dsimp only
  rw [hr, if_neg (by decide), if_pos he]
  rfl

theorem vecComplete_writes (hv : (getCore s c).tile.vecs = v :: rest) (hr : vIsRed v.word = false)
    (he : ¬ (maskRows v.mr (vRows v.word)).isEmpty = true) : ∃ x y z n, vecComplete s c =
      (let s1 := vFlags (setTile (vecTaken s c rest) c v.td (vecDest (vecTaken s c rest) c v)) c x y z
       if vRnd v.word = 2 then { s1 with draws := n } else s1) := by
  unfold vecComplete vecDest
  rw [hv]
  dsimp only
  rw [hr, if_neg (by decide), if_neg he, if_neg he]
  exact ⟨_, _, _, _, rfl⟩

/-- An operation on rows changes the tile unit of its core alone: it leaves the unit, and its destination is written. -/
theorem vecComplete_rows (hv : (getCore s c).tile.vecs = v :: rest) (hr : vIsRed v.word = false) : ∃ u : TileUnit,
    getCore (vecComplete s c) c = { getCore s c with tile := u } ∧ (∀ e, e ≠ c → getCore (vecComplete s c) e = getCore s e) ∧
    u.vecs = rest ∧ ∀ x, spGet {} u.regs x = if x = v.td then vecDest s c v else getTile s c x := by
  have hu := tileNow_vecTaken s c rest
  by_cases he : (maskRows v.mr (vRows v.word)).isEmpty = true
  · rw [vecComplete_idle hv hr he, vecDest, if_pos he]
    refine ⟨_, hu.core, hu.cores, rfl, fun x => ?_⟩
    split
    · next hx => rw [hx]; rfl
    · rfl
  · obtain ⟨x, y, z, n, heq⟩ := vecComplete_writes hv hr he
    have hw := (hu.setTile v.td (vecDest s c v)).vFlags x y z
    rw [heq, vecDest_vecTaken]
    refine ⟨_, (getCore_drawn _ _ _ _).trans hw.core, fun e he => (getCore_drawn _ _ _ _).trans (hw.cores e he), rfl, fun p => ?_⟩
    split
    · next hp => rw [hp]; exact spGet_set_same _ _ _ _
    · next hp => exact spGet_set_other _ _ _ _ hp

/-! ## A reduction -/

/-- The results of a reduction by row. -/
def redResults (s : State) (c : Nat) (v : VecOp) : List (Nat × Nat) :=
  (maskRows v.mr (vRows v.word)).map
    (fun i => (i, vReduce (vFN v.word) ((List.range (vElems v.word)).map (vSrc (getTile s c v.ta) i))))

/-- The scale vector after a reduction. -/
def redLanes (s : State) (c : Nat) (v : VecOp) : BitVec 1024 :=
  (redResults s c v).foldl (fun l x => laneSet l x.1 x.2) ((getThread s c v.thread).regs.sGet (vSV v.word)).v

theorem laneGet_redLanes (s : State) (c : Nat) (v : VecOp) {j : Nat} (hj : j < 32) : laneGet (redLanes s c v) j =
    if j < vRows v.word ∧ v.mr.getLsbD j = true then
      vReduce (vFN v.word) ((List.range (vElems v.word)).map (vSrc (getTile s c v.ta) j)) % 2 ^ 32
    else laneGet ((getThread s c v.thread).regs.sGet (vSV v.word)).v j := by
  rw [redLanes, redResults, laneGet_foldl _ (nodup_maskRows _ _) _ hj]
  simp only [mem_maskRows]

theorem redLanes_vecTaken (s : State) (c : Nat) (v : VecOp) (rest : List VecOp) :
    redLanes (vecTaken s c rest) c v = redLanes s c v := by
  simp only [redLanes, redResults, getTile_vecTaken, (tileNow_vecTaken s c rest).thread]

/-- The state whose scale vector awaits its reduction no longer, and is written. -/
def redWritten (s : State) (c : Nat) (v : VecOp) (lanes : BitVec 1024) : State :=
  updCore (updCore s c (fun k => { k with ctl := { k.ctl with sBusy := k.ctl.sBusy.erase (v.thread, vSV v.word) } })) c
    (fun k => k.writeS v.thread (vSV v.word) ⟨lanes, false⟩)

theorem vecComplete_reduces (hv : (getCore s c).tile.vecs = v :: rest) (hr : vIsRed v.word = true) : ∃ x y, vecComplete s c =
    vFlags (redWritten (vecTaken s c rest) c v (redLanes (vecTaken s c rest) c v)) c x y false := by
  unfold vecComplete
  rw [hv]
  dsimp only
  rw [hr, if_pos rfl]
  exact ⟨_, _, rfl⟩

/-- What the write of a reduction's scale vector leaves of its core. -/
theorem redWritten_core (s : State) (c : Nat) (v : VecOp) (lanes : BitVec 1024) :
    (getCore (redWritten s c v lanes) c).tile = (getCore s c).tile ∧ (getCore (redWritten s c v lanes) c).mem = (getCore s c).mem ∧
    (getCore (redWritten s c v lanes) c).ctl.sBusy = (getCore s c).ctl.sBusy.erase (v.thread, vSV v.word) ∧
    (getThread (redWritten s c v lanes) c v.thread).regs.sGet (vSV v.word) = ⟨lanes, false⟩ := by
  have hcore : getCore (redWritten s c v lanes) c = Core.writeS { getCore s c with
      ctl := { (getCore s c).ctl with sBusy := (getCore s c).ctl.sBusy.erase (v.thread, vSV v.word) } }
        v.thread (vSV v.word) ⟨lanes, false⟩ := by
    rw [redWritten, getCore_updCore_same, getCore_updCore_same]
  refine ⟨by rw [hcore]; rfl, by rw [hcore]; rfl, by rw [hcore]; rfl, ?_⟩
  rw [getThread, hcore]
  simp [Core.writeS, Core.updThread, Core.setThread, Core.thread]

/-- A reduction leaves the unit; its scale vector is written, and no tile register. -/
theorem vecComplete_red (hv : (getCore s c).tile.vecs = v :: rest) (hr : vIsRed v.word = true) :
    (getCore (vecComplete s c) c).tile.vecs = rest ∧ (∀ x, getTile (vecComplete s c) c x = getTile s c x) ∧
    (∀ e, e ≠ c → getCore (vecComplete s c) e = getCore s e) ∧ (getCore (vecComplete s c) c).mem = (getCore s c).mem ∧
    (getCore (vecComplete s c) c).ctl.sBusy = (getCore s c).ctl.sBusy.erase (v.thread, vSV v.word) ∧
    (getThread (vecComplete s c) c v.thread).regs.sGet (vSV v.word) = ⟨redLanes s c v, false⟩ := by
  obtain ⟨x, y, heq⟩ := vecComplete_reduces hv hr
  have hu := tileNow_vecTaken s c rest
  obtain ⟨htile, hmem, hbusy, hlane⟩ := redWritten_core (vecTaken s c rest) c v (redLanes s c v)
  have hf := (tileNow_refl (redWritten (vecTaken s c rest) c v (redLanes s c v)) c).vFlags x y false
  rw [heq, redLanes_vecTaken]
  refine ⟨?_, fun p => ?_, fun e he => ?_, ?_, ?_, ?_⟩
  · rw [hf.tile, htile, hu.tile]
  · rw [hf.reg, htile, hu.tile]; rfl
  · rw [hf.cores e he, redWritten, getCore_updCore_other _ _ he, getCore_updCore_other _ _ he, hu.cores e he]
  · rw [hf.mem, hmem, hu.mem]
  · rw [hf.core]; exact hbusy.trans (by rw [hu.core])
  · rw [hf.thread, hlane]

/-! ## The statement -/

/-- Settles O41: one form serves the 20 rows at issue; at completion the unit writes rows, or the lanes of a reduction. -/
theorem vectorOperationsQueueAndComplete : Obligations.VectorOperationsQueueAndComplete := by
  unfold Obligations.VectorOperationsQueueAndComplete
  refine ⟨fun row m hrow c t w s hi hr => ?issue, fun c s v rest hv _ => ?complete⟩
  case issue =>
    intro th u tile mr d
    have hf : Free (vecForm c t w) c t s := ⟨hr.free, rfl, rfl⟩
    refine ⟨fun hw ht hs hd hb => ?_, fun ho => ?_⟩
    · have hx : vecChecks s c t w = [] := vecChecks_clear (fun i hi => ⟨(hs i hi).1, (hs i hi).2.1, (hs i hi).2.2⟩) hd hb
      exact runs_of_done (exec_vecRow _ hrow c t w s) hi hf (vecBody_queues hr.clean hw ht hx) (tileOnly_vecQueued s c t w)
    · exact traps_outside (exec_vecRow _ hrow c t w s) hi hf ho (vecBody_outside hr.clean) nofun
  case complete =>
    intro w a d th
    refine ⟨_, rfl, ?_⟩
    cases hr : vIsRed v.word
    case false =>
      obtain ⟨u, hcore, hcores, hvecs, hregs⟩ := vecComplete_rows hv hr
      have htile (x : Nat) : getTile (vecComplete s c) c x = if x = v.td then vecDest s c v else getTile s c x := by
        rw [getTile, hcore]; exact hregs x
      have hdest : getTile (vecComplete s c) c v.td = vecDest s c v := (htile v.td).trans (if_pos rfl)
      refine ⟨?_, fun x hx => (htile x).trans (if_neg hx), hcores, ?_, nofun, fun _ => ⟨?_, fun hm => ?_, fun j => ?_⟩⟩
      · rw [hcore]; exact hvecs
      · rw [hcore]
      · rw [getThread, hcore]; rfl
      · rw [hdest]; exact vecDest_tag hm
      · rw [hdest]; exact vecDest_row s c v j
    case true =>
      obtain ⟨hvecs, hregs, hcores, hmem, hbusy, hlane⟩ := vecComplete_red hv hr
      refine ⟨hvecs, fun x _ => hregs x, hcores, hmem, fun _ => ⟨hregs v.td, hbusy, ?_, fun j hj => ?_⟩, nofun⟩
      · rw [hlane]
      · rw [hlane]; exact laneGet_redLanes s c v hj

end Sys2Proof.Machine
end

section
/-!
PROOFS. Array passes at issue (03 R126–R134, R141–R145).
-/

namespace Sys2Proof.Machine

variable {s s1 : State} {c t : Nat} {w : Word} {r : TileReg} {a : Option Nat} {mr : BitVec 32} {parts : List Part}

/-! ## The checks of one operand -/

/-- A register that a multiply accepts as an operand: of its format, covering the extent (or padded), with a sideband to scale it by. -/
def OperandFits (w : Word) (r : TileReg) (fmt rows grans : Nat) : Prop :=
  r.fmt ≠ fmtNone ∧ r.fmt = fmt ∧ (mmZpad w = true ∨ (rows ≤ r.nrows + 1 ∧ grans ≤ r.gran + 1)) ∧
    (2 ≤ mmScl w → fmtMX fmt = true → r.spois = false)

theorem operandChecks_fits {fmt rows grans : Nat} (h : OperandFits w r fmt rows grans) (extSub fmtSub : Nat) :
    operandChecks r w fmt rows grans (mmZpad w) extSub fmtSub = [] := by
  obtain ⟨hn, hf, he, -⟩ := h
  have hext : (!mmZpad w && (decide (r.nrows + 1 < rows) || decide (r.gran + 1 < grans))) = false := by
    rcases he with hz | ⟨hr, hg⟩
    · simp [hz]
    · simp [Nat.not_lt.2 hr, Nat.not_lt.2 hg]
  rw [operandChecks, if_neg hn, hext, hf, bne_self_eq_false]
  rfl

theorem rowChecks_clean {rows : List Nat} (h : ∀ i ∈ rows, r.prow.getLsbD i = false) (reg sub : Nat) : rowChecks r reg sub rows = [] := by
  have hfind : poisonRow r rows = none := List.find?_eq_none.2 (fun i hi => by simp [h i hi])
  rw [rowChecks, hfind]

theorem sideChecks_clean {fmt rows grans : Nat} (h : OperandFits w r fmt rows grans) (fed : Bool) (info : Word) :
    when? (2 ≤ mmScl w && fmtMX fmt && fed && r.spois) 0x06 0x06 info = [] := by
  have hb : (decide (2 ≤ mmScl w) && fmtMX fmt && fed && r.spois) = false := by
    by_cases hs : 2 ≤ mmScl w
    · cases hm : fmtMX fmt
      · simp
      · simp [h.2.2.2 hs hm]
    · simp [hs]
  rw [hb, when?_false]

/-! ## The checks of a multiply -/

/-- The columns a multiply feeds. -/
def mmFedCols (s : State) (c t : Nat) (w : Word) : List Nat := fedCols (mmCols w) ((getThread s c t).regs.mGet (mmMC w)).v

/-- The granules that A must cover. -/
def kgMax (parts : List Part) : Nat := parts.foldl (fun m p => max m p.kg) 0

/-- The core whose registers B is read from. -/
def mmBCore (c : Nat) (w : Word) : Nat := if mmYK w then partner c else c

/-- The conditions of A, in register ta. -/
def aConds (s : State) (c t : Nat) (w : Word) (ta : Nat) (mr : BitVec 32) (parts : List Part) : List Cand :=
  let r := getTile s c ta
  let fed := if (mmFedCols s c t w).isEmpty then [] else parts.flatMap (partRows (mmRows w) mr)
  operandChecks r w (pairA (mmPair w)) (mmRows w) (kgMax parts) (mmZpad w) 0x01 0x03 ++ rowChecks r ta 0x04 fed ++
    when? (2 ≤ mmScl w && fmtMX (pairA (mmPair w)) && !fed.isEmpty && r.spois) 0x06 0x06 (word ta)

/-- The conditions of one part's B. -/
def bConds (s : State) (c t : Nat) (w : Word) (mr : BitVec 32) (p : Part) : List Cand :=
  let r := getTile s (mmBCore c w) p.tb
  let e := extentB (mmPair w) (mmCols w) p.kg (mmBT w)
  let fed := !(partRows (mmRows w) mr p).isEmpty && !(mmFedCols s c t w).isEmpty
  operandChecks r w (pairB (mmPair w)) e.1 e.2 (mmZpad w) 0x02 0x04 ++
    rowChecks r p.tb 0x05 (if !fed then [] else if mmBT w then mmFedCols s c t w else List.range e.1) ++
    when? (2 ≤ mmScl w && fmtMX (pairB (mmPair w)) && fed && r.spois) 0x06 0x06 (word p.tb)

/-- The conditions of the word and of its bank and yoke. -/
def mmConds (s : State) (c : Nat) (w : Word) (conv : Bool) : List Cand :=
  when? (sclRefused (mmPair w) (mmScl w) conv) 0x07 0x06 w ++
    when? (modeConflict (bankModeAt (getCore s c) (mmAcc w)) (mmPair w) (mmClr w)) 0x07 0x07 w ++ (if mmYK w then yokeChecks s c else [])

theorem mmChecks_eq (s : State) (c t : Nat) (w : Word) (a : Option Nat) (mr : BitVec 32) (parts : List Part) :
    mmChecks s c t w a mr parts = mmConds s c w a.isNone ++
      (match a with
        | none => []
        | some ta => aConds s c t w ta mr parts) ++
      (if mmYK w && yokeBroken s c then [] else parts.flatMap (bConds s c t w mr)) := by
  cases a <;> rfl

theorem mem_partRows {rows m : Nat} {p : Part} (h : m ∈ partRows rows mr p) : m < rows ∧ mr.getLsbD m = true := by
  simp only [partRows, List.mem_filter, List.mem_range, Bool.and_eq_true] at h
  exact ⟨h.1, h.2.2⟩

theorem mem_fedCols {cols n : Nat} {mc : BitVec 32} : n ∈ fedCols cols mc ↔ n < cols ∧ mc.getLsbD n = true := by
  simp [fedCols, List.mem_filter]

/-- What an issue finds of the word, the bank and the yoke. -/
structure MayMultiply (s : State) (c : Nat) (w : Word) (conv : Bool) : Prop where
  scale : sclRefused (mmPair w) (mmScl w) conv = false
  mode : mmClr w = true ∨ bankModeAt (getCore s c) (mmAcc w) = .empty ∨ bankModeAt (getCore s c) (mmAcc w) = pairMode (mmPair w)
  yoke : mmYK w = true → yokeBroken s c = false

theorem mmConds_clear {conv : Bool} (h : MayMultiply s c w conv) : mmConds s c w conv = [] := by
  obtain ⟨hs, hm, hy⟩ := h
  have hmode : modeConflict (bankModeAt (getCore s c) (mmAcc w)) (mmPair w) (mmClr w) = false := by
    rcases hm with h | h | h <;> simp [modeConflict, h]
  have hyoke : (if mmYK w then yokeChecks s c else []) = [] := by
    cases hk : mmYK w
    · rfl
    · exact yokeChecks_whole (hy hk)
  rw [mmConds, hs, hmode, hyoke]
  rfl

/-- A as the parts of a multiply read it. -/
structure AFits (s : State) (c : Nat) (w : Word) (ta : Nat) (mr : BitVec 32) (parts : List Part) : Prop where
  some : parts ≠ []
  covers : ∀ p ∈ parts, OperandFits w (getTile s c ta) (pairA (mmPair w)) (mmRows w) p.kg
  clean : ∀ m, m < mmRows w → mr.getLsbD m = true → (getTile s c ta).prow.getLsbD m = false

theorem operandFits_kgMax {fmt rows : Nat} (hne : parts ≠ []) (h : ∀ p ∈ parts, OperandFits w r fmt rows p.kg) :
    OperandFits w r fmt rows (kgMax parts) := by
  obtain ⟨p, hp⟩ := List.exists_mem_of_ne_nil parts hne
  obtain ⟨hn, hf, he, hs⟩ := h p hp
  refine ⟨hn, hf, ?_, hs⟩
  by_cases hz : mmZpad w = true
  · exact .inl hz
  · have hext (q : Part) (hq : q ∈ parts) := (h q hq).2.2.1.resolve_left hz
    exact .inr ⟨(hext p hp).1, List.foldlRecOn (motive := fun m => m ≤ r.gran + 1) parts _ (Nat.zero_le _)
      (fun m hm q hq => max_le hm (hext q hq).2)⟩

theorem aConds_clear {ta : Nat} (h : AFits s c w ta mr parts) : aConds s c t w ta mr parts = [] := by
  have hfit := operandFits_kgMax h.some h.covers
  have hrows : ∀ m ∈ (if (mmFedCols s c t w).isEmpty then [] else parts.flatMap (partRows (mmRows w) mr)),
      (getTile s c ta).prow.getLsbD m = false := by
    intro m hm
    split at hm
    · cases hm
    · obtain ⟨p, -, hp⟩ := List.mem_flatMap.1 hm
      exact h.clean m (mem_partRows hp).1 (mem_partRows hp).2
  unfold aConds
  dsimp only
  rw [operandChecks_fits hfit, rowChecks_clean hrows, sideChecks_clean hfit]
  rfl

/-- A part's B. -/
structure BFits (s : State) (c : Nat) (w : Word) (tb kg : Nat) : Prop where
  covers : OperandFits w (getTile s (mmBCore c w) tb) (pairB (mmPair w)) (extentB (mmPair w) (mmCols w) kg (mmBT w)).1
    (extentB (mmPair w) (mmCols w) kg (mmBT w)).2
  clean : ∀ i, i < (extentB (mmPair w) (mmCols w) kg (mmBT w)).1 → (getTile s (mmBCore c w) tb).prow.getLsbD i = false

theorem bConds_clear {p : Part} (h : BFits s c w p.tb p.kg) : bConds s c t w mr p = [] := by
  have hrows : ∀ fed : Bool, ∀ i ∈ (if !fed then [] else if mmBT w then mmFedCols s c t w
      else List.range (extentB (mmPair w) (mmCols w) p.kg (mmBT w)).1), (getTile s (mmBCore c w) p.tb).prow.getLsbD i = false := by
    intro fed i hi
    split at hi
    · cases hi
    · split at hi
      · next hbt =>
        refine h.clean i ?_
        rw [extentB, if_pos hbt]
        exact (mem_fedCols.1 hi).1
      · exact h.clean i (List.mem_range.1 hi)
  unfold bConds
  dsimp only
  rw [operandChecks_fits h.covers, rowChecks_clean (hrows _), sideChecks_clean h.covers]
  rfl

theorem mmChecks_clear (hc : MayMultiply s c w a.isNone) (ha : ∀ ta, a = some ta → AFits s c w ta mr parts)
    (hb : ∀ p ∈ parts, BFits s c w p.tb p.kg) : mmChecks s c t w a mr parts = [] := by
  have hB : parts.flatMap (bConds s c t w mr) = [] := List.flatMap_eq_nil_iff.2 (fun p hp => bConds_clear (hb p hp))
  rw [mmChecks_eq, mmConds_clear hc, hB, ite_self]
  cases a with
  | none => rfl
  | some ta => simp only [aConds_clear (ha ta rfl), List.append_nil]

/-! ## An A that does not cover its extent -/

theorem beats_asymm {y b : Cand} (h : beats b y = true) : beats y b = false := by
  simp only [beats, Bool.or_eq_true, decide_eq_true_eq, Bool.and_eq_true, beq_iff_eq, Bool.or_eq_false_iff, decide_eq_false_iff_not,
    Bool.and_eq_false_iff, beq_eq_false_iff_ne] at h ⊢
  omega

/-- The condition of A's extent. -/
def extentCond (w : Word) : Cand := cand 0x07 0x01 w

/-- Every other condition of a multiply ranks after that of A's extent. -/
def RanksLater (w : Word) (l : List Cand) : Prop := ∀ y ∈ l, beats (extentCond w) y = true

theorem ranksLater_append {l l' : List Cand} (h : RanksLater w l) (h' : RanksLater w l') : RanksLater w (l ++ l') :=
  fun y hy => (List.mem_append.1 hy).elim (h y) (h' y)

theorem ranksLater_when? {code sub : Nat} (h : beats (cand 0x07 0x01 0) (cand code sub 0) = true) (b : Bool) (info : Word) :
    RanksLater w (when? b code sub info) := fun y hy => by rw [mem_when? hy]; exact h

theorem ranksLater_rowChecks {sub : Nat} (r : TileReg) (reg : Nat) (rows : List Nat) : RanksLater w (rowChecks r reg sub rows) := by
  intro y hy
  unfold rowChecks at hy
  split at hy
  · rw [List.mem_singleton.1 hy]; rfl
  · cases hy

theorem ranksLater_operandChecks {extSub fmtSub : Nat} (he : 1 < extSub) (hf : 1 < fmtSub) (r : TileReg) (fmt rows grans : Nat) (z : Bool) :
    RanksLater w (operandChecks r w fmt rows grans z extSub fmtSub) := by
  have hlater {sub : Nat} (h : 1 < sub) : beats (cand 0x07 0x01 0) (cand 0x07 sub 0) = true := by
    simpa [beats, cand, excRank] using h
  unfold operandChecks
  split
  · exact ranksLater_when? rfl _ _
  · exact ranksLater_append (ranksLater_when? (hlater hf) _ _) (ranksLater_when? (hlater he) _ _)

theorem ranksLater_mmConds (conv : Bool) : RanksLater w (mmConds s c w conv) := by
  refine ranksLater_append (ranksLater_append (ranksLater_when? rfl _ _) (ranksLater_when? rfl _ _)) ?_
  split
  · exact ranksLater_when? rfl _ _
  · exact nofun

theorem ranksLater_bConds (p : Part) : RanksLater w (bConds s c t w mr p) :=
  ranksLater_append (ranksLater_append (ranksLater_operandChecks (by decide) (by decide) _ _ _ _ _) (ranksLater_rowChecks _ _ _))
    (ranksLater_when? rfl _ _)

/-- The conditions of A where it does not cover its extent: that of its extent, and others that rank after it. -/
theorem aConds_short {ta : Nat} (hn : (getTile s c ta).fmt ≠ fmtNone) (hz : mmZpad w = false)
    (he : (getTile s c ta).nrows + 1 < mmRows w ∨ (getTile s c ta).gran + 1 < kgMax parts) :
    ∃ l l', aConds s c t w ta mr parts = l ++ extentCond w :: l' ∧ RanksLater w l ∧ RanksLater w l' := by
  have hext : (!mmZpad w && (decide ((getTile s c ta).nrows + 1 < mmRows w) || decide ((getTile s c ta).gran + 1 < kgMax parts))) = true := by
    simpa [hz] using he
  unfold aConds
  dsimp only
  rw [operandChecks, if_neg hn, hext, when?_true, List.append_assoc, List.append_assoc, List.singleton_append]
  exact ⟨_, _, rfl, ranksLater_when? rfl _ _, ranksLater_append (ranksLater_rowChecks _ _ _) (ranksLater_when? rfl _ _)⟩

theorem firstCand_short {ta : Nat} (hn : (getTile s c ta).fmt ≠ fmtNone) (hz : mmZpad w = false)
    (he : (getTile s c ta).nrows + 1 < mmRows w ∨ (getTile s c ta).gran + 1 < kgMax parts) :
    firstCand (mmChecks s c t w (some ta) mr parts) = some ⟨0x07, 0x01, w⟩ := by
  obtain ⟨l, l', heq, hl, hl'⟩ := aConds_short (t := t) (mr := mr) hn hz he
  rw [mmChecks_eq]
  dsimp only
  rw [heq, List.append_assoc, List.append_assoc, List.cons_append, ← List.append_assoc]
  refine firstCand_of_best (ranksLater_append (ranksLater_mmConds _) hl) (fun y hy => beats_asymm (ranksLater_append hl' ?_ y hy))
  split
  · exact nofun
  · intro y hy
    obtain ⟨p, -, hp⟩ := List.mem_flatMap.1 hy
    exact ranksLater_bConds p y hp

/-! ## The pass that joins -/

/-- The pass that an issue queues. -/
def passOf (s : State) (c t : Nat) (w : Word) (ta tb kg : Nat) (segs : List Seg) (conv : Option ConvArg) : Pass :=
  { id := (getCore s c).tile.nextId, thread := t, fpair := mmPair w, rows := mmRows w, cols := mmCols w, kg := kg, ta := ta, tb := tb
    acc := mmAcc w, clr := mmClr w, zpad := mmZpad w, bt := mmBT w, yk := mmYK w, scl := mmScl w
    mr := ((getThread s c t).regs.mGet (mmMR w)).v, mc := ((getThread s c t).regs.mGet (mmMC w)).v
    srow := ((getThread s c t).regs.sGet (mmAcc w)).v, segs := segs, conv := conv, started := false }

theorem tileNow_queuePass (s : State) (c t : Nat) (w : Word) (ta tb kg : Nat) (segs : List Seg) (conv : Option ConvArg) : TileNow s c
    { (getCore s c).tile with
      nextId := (getCore s c).tile.nextId + 1, passes := (getCore s c).tile.passes ++ [passOf s c t w ta tb kg segs conv] }
    (queuePass s c t w ta tb kg segs conv) :=
  (tileNow_updTileUnit s c (fun u => { u with nextId := u.nextId + 1 })).upd
    (fun u => { u with passes := u.passes ++ [passOf s c t w ta tb kg segs conv] })

/-! ## TMMA -/

/-- What an issue of TMMA finds before its operands are looked at. -/
structure MmaReady (s : State) (c t : Nat) (w : Word) : Prop where
  clean : (mmUses w []).poison (getThread s c t) = []
  window : inWindow (getThread s c t) [mmA w, mmB w]
  free : arrayWait s c w [phys (getThread s c t) (mmA w)] [phys (getThread s c t) (mmB w)] = false

/-- The one part of a plain pass. -/
def plainPart (s : State) (c t : Nat) (w : Word) : Part := ⟨0, mmRows w - 1, phys (getThread s c t) (mmB w), mmKg w⟩

/-- The conditions of TMMA. -/
def tmmaConds (s : State) (c t : Nat) (w : Word) : List Cand :=
  mmChecks s c t w (some (phys (getThread s c t) (mmA w))) ((getThread s c t).regs.mGet (mmMR w)).v [plainPart s c t w]

theorem tmmaBody_of_ready (h : MmaReady s c t w) : tmmaBody c t w s =
    match tmmaConds s c t w with
    | [] => .done (advance (queuePass s c t w (phys (getThread s c t) (mmA w)) (phys (getThread s c t) (mmB w)) (mmKg w) [] none) c t)
    | xs => .raise xs := by
  obtain ⟨hp, hw, hf⟩ := h
  unfold tmmaBody
  dsimp only
  rw [winChecks_inside hw, hf, hp]
  rfl

theorem tmmaBody_queues (h : MmaReady s c t w) (hx : tmmaConds s c t w = []) : tmmaBody c t w s =
    .done (advance (queuePass s c t w (phys (getThread s c t) (mmA w)) (phys (getThread s c t) (mmB w)) (mmKg w) [] none) c t) := by
  rw [tmmaBody_of_ready h, hx]

theorem tmmaBody_raises (h : MmaReady s c t w) (hx : tmmaConds s c t w ≠ []) : tmmaBody c t w s = .raise (tmmaConds s c t w) := by
  rw [tmmaBody_of_ready h]
  cases hl : tmmaConds s c t w with
  | nil => exact absurd hl hx
  | cons y ys => rfl

/-! ## TMMA.SEG -/

theorem mem_partsFrom {segs : List Seg} {first : Nat} {p : Part} (h : p ∈ partsFrom first segs) : ∃ g ∈ segs, p.tb = g.tb ∧ p.kg = g.kg := by
  induction segs generalizing first with
  | nil => cases h
  | cons e es ih =>
    rcases List.mem_cons.1 h with rfl | h
    · exact ⟨e, List.mem_cons_self, rfl, rfl⟩
    · obtain ⟨g, hg, hp⟩ := ih h
      exact ⟨g, List.mem_cons_of_mem _ hg, hp⟩

/-- The segments that a TMMA.SEG names in its register pair. -/
def segEntriesOf (s : State) (c t : Nat) (w : Word) : List Nat :=
  segEntries (gVal (getThread s c t) (mmB w)) (gVal (getThread s c t) (mmB w + 1))

theorem partsFrom_ne_nil {th : Thread} {es : List Nat} (h : segValid es = true) : partsFrom 0 (segsOf th es) ≠ [] := by
  have hne : es.takeWhile (fun e => e.testBit 15) ≠ [] := by
    intro hnil
    simp [segValid, hnil] at h
  unfold segsOf
  cases hv : es.takeWhile (fun e => e.testBit 15) with
  | nil => exact absurd hv hne
  | cons e es => nofun

/-- What an issue of TMMA.SEG finds before its operands are looked at. -/
structure SegReady (s : State) (c t : Nat) (w : Word) : Prop where
  clean : (mmUses w [mmB w, mmB w + 1]).poison (getThread s c t) = []
  valid : segValid (segEntriesOf s c t w) = true
  window : inWindow (getThread s c t)
    (mmA w :: ((segEntriesOf s c t w).takeWhile (fun e => e.testBit 15)).map (fun e => fieldN e 14 10))
  free : arrayWait s c w [phys (getThread s c t) (mmA w)] ((segsOf (getThread s c t) (segEntriesOf s c t w)).map (·.tb)) = false

theorem tmmaSegBody_queues (h : SegReady s c t w)
    (hx : mmChecks s c t w (some (phys (getThread s c t) (mmA w))) ((getThread s c t).regs.mGet (mmMR w)).v
      (partsFrom 0 (segsOf (getThread s c t) (segEntriesOf s c t w))) = []) : tmmaSegBody c t w s =
    .done (advance (queuePass s c t w (phys (getThread s c t) (mmA w)) 0 0 (segsOf (getThread s c t) (segEntriesOf s c t w)) none) c t) := by
  obtain ⟨hp, hv, hw, hf⟩ := h
  have h0 := gGet_clean_of_poison_nil hp (n := mmB w) (by simp [mmUses])
  have h1 := gGet_clean_of_poison_nil hp (n := mmB w + 1) (by simp [mmUses])
  rw [segEntriesOf] at hv hw hf hx ⊢
  unfold tmmaSegBody
  dsimp only
  rw [h0, h1, hv]
  simp only [Bool.not_false, Bool.and_self, Bool.not_true, if_true, Bool.false_eq_true, if_false]
  rw [winChecks_inside hw, hf, hp, hx]
  rfl

/-! ## TMMA.CONV -/

/-- The convolution that the bytes of a descriptor and a register pair give. -/
def convArgIn (s : State) (c t : Nat) (w : Word) (bytes : List Byte) : ConvArg :=
  let ws := wordsOf 8 bytes
  { d0 := word (ws.getD 0 0), d1 := word (ws.getD 1 0), d2 := word (ws.getD 2 0), d3 := word (ws.getD 3 0)
    p0 := field (gVal (getThread s c t) (mmA w + 1)) 31 0, k0 := field (gVal (getThread s c t) (mmA w + 1)) 63 32 }

/-- The convolution of a TMMA.CONV whose descriptor stands in LOCAL. -/
def convArgOf (s : State) (c t : Nat) (w : Word) : ConvArg :=
  convArgIn s c t w ((getCore s c).mem.localMem.getBytes (field (gVal (getThread s c t) (mmA w)) 55 0) 64)

/-- What an issue of TMMA.CONV finds before its operands are looked at: a descriptor in LOCAL that is read without an error and valid, its
input within reach. -/
structure ConvReady (s : State) (c t : Nat) (w : Word) : Prop where
  clean : (mmUses w [mmA w, mmA w + 1]).poison (getThread s c t) = []
  window : inWindow (getThread s c t) [mmB w]
  free : arrayWait s c w [] [phys (getThread s c t) (mmB w)] = false
  order : mustFollow s c t false false (field (gVal (getThread s c t) (mmA w)) 55 0) 64 = false
  space : field (gVal (getThread s c t) (mmA w)) 63 56 = 0
  aligned : (gVal (getThread s c t) (mmA w)).toNat % 64 = 0
  range : field (gVal (getThread s c t) (mmA w)) 55 0 + 64 ≤ 0xC0000
  area : (getThread s c t).st.pm = true ∨ field (gVal (getThread s c t) (mmA w)) 55 0 + 64 ≤ (getCore s c).ctl.klim.toNat
  unmarked : ∀ i, i < 8 → (getCore s c).mem.localMem.mark (field (gVal (getThread s c t) (mmA w)) 55 0 / 8 + i) = Mark.none
  valid : convValid (convGeom (convArgOf s c t w)) (convArgOf s c t w)
    ((wordsOf 8 ((getCore s c).mem.localMem.getBytes (field (gVal (getThread s c t) (mmA w)) 55 0) 64)).drop 4) false (mmPair w) = true
  input : (convGeom (convArgOf s c t w)).endN ≤ 0xC0000
  inputArea : (getThread s c t).st.pm = true ∨ (convGeom (convArgOf s c t w)).endN ≤ (getCore s c).ctl.klim.toNat

/-- The read of the descriptor. -/
def convRead (s : State) (c t : Nat) (w : Word) : Got := coreRead s false c (field (gVal (getThread s c t) (mmA w)) 55 0) 64

/-- The descriptor's address passes its checks. -/
theorem convAddr_clear (h : ConvReady s c t w) :
    areaChecks s c t false (gVal (getThread s c t) (mmA w)) 64 ((gVal (getThread s c t) (mmA w)).toNat % 64 != 0) = [] := by
  rw [h.aligned]
  exact areaChecks_local false h.space h.range h.area

/-- The read changes no core, and finds no poison. -/
theorem convRead_effect (h : ConvReady s c t w) : TileNow s c (getCore s c).tile (convRead s c t w).st ∧ (convRead s c t w).poison = false ∧
    (convRead s c t w).data = (getCore s c).mem.localMem.getBytes (field (gVal (getThread s c t) (mmA w)) 55 0) 64 := by
  have hspan : wordSpan (field (gVal (getThread s c t) (mmA w)) 55 0) 64 = 8 := by
    have := offset_mod_eight h.aligned
    unfold wordSpan
    rw [if_neg (by decide)]
    omega
  have hmark : ∀ i, i < wordSpan (field (gVal (getThread s c t) (mmA w)) 55 0) 64 →
      (coreMem s false c).mark (field (gVal (getThread s c t) (mmA w)) 55 0 / 8 + i) = Mark.none := fun i hi => h.unmarked i (hspan ▸ hi)
  have hst : (convRead s c t w).st = setCoreMem s false c (coreMem s false c) := coreRead_unmarked hmark
  refine ⟨⟨?_, fun d _ => ?_, ?_⟩, ?_, read_data _ _ _⟩
  · rw [hst, getCore_setCoreMem_self]
  · rw [hst, getCore_setCoreMem_self]
  · rw [hst]; rfl
  · rw [convRead, coreRead_poison]
    exact List.any_eq_false.2 (fun i hi => by rw [hmark i (List.mem_range.1 hi)]; decide)

/-- The conditions of the convolution itself. -/
def convConds (s : State) (c t : Nat) (good : Bool) (w : Word) (geo : ConvGeom) (klim : Nat) : List Cand :=
  when? (!good) 0x07 0x09 w ++
    (if good then when? ((localEnd : Int) < geo.endN) 0x05 0x02 (word geo.base) ++
      when? (inJob s c t && (klim : Int) < geo.endN) 0x05 0x03 (word geo.base) else [])

theorem convConds_clear {geo : ConvGeom} {klim : Nat} (he : geo.endN ≤ 0xC0000)
    (hk : (getThread s c t).st.pm = true ∨ geo.endN ≤ klim) : convConds s c t true w geo klim = [] := by
  have hend : decide ((localEnd : Int) < geo.endN) = false := decide_eq_false (Int.not_lt.2 he)
  have hkeep : (inJob s c t && decide ((klim : Int) < geo.endN)) = false := by
    rw [inJob_eq]
    rcases hk with hp | hp
    · rw [hp]; rfl
    · rw [decide_eq_false (Int.not_lt.2 hp), Bool.and_false]
  rw [convConds, hend, hkeep]
  rfl

/-- The conditions of TMMA.CONV once its descriptor has been read as g. -/
def convAllConds (s : State) (c t : Nat) (w : Word) (g : Got) : List Cand :=
  let arg := convArgIn s c t w g.data
  convConds g.st c t (convValid (convGeom arg) arg ((wordsOf 8 g.data).drop 4) g.poison (mmPair w)) w (convGeom arg)
      (getCore s c).ctl.klim.toNat ++
    (mmUses w [mmA w + 1]).poison (getThread s c t) ++
    mmChecks g.st c t w none (convFed (convGeom arg) arg.p0 ((getThread s c t).regs.mGet (mmMR w)).v) [plainPart s c t w]

theorem tmmaConvBody_of_ready (h : ConvReady s c t w) : tmmaConvBody c t w s =
    match firstCand (convAllConds s c t w (convRead s c t w)) with
    | some x => .done (takeExc (convRead s c t w).st c t x)
    | none => .done (advance (queuePass (convRead s c t w).st c t w 0 (phys (getThread s c t) (mmB w)) (mmKg w) []
        (some (convArgIn s c t w (convRead s c t w).data))) c t) := by
  have hap : addrPoison ((getCore s c).thread t) [mmA w] = [] := addrPoison_eq_nil (fun n hn =>
    gGet_clean_of_poison_nil h.clean (by rw [List.mem_singleton.1 hn]; simp [mmUses]))
  have hax := convAddr_clear h
  have hwin : winChecks ((getCore s c).thread t) w [mmB w] = [] := winChecks_inside h.window
  have hfree := h.free
  have hord : mustFollow s c t false false (addrOff (gVal ((getCore s c).thread t) (mmA w))) 64 = false := h.order
  rw [getThread] at hax hfree
  unfold tmmaConvBody
  dsimp only
  rw [hwin, hap, hax, hfree, hord]
  rfl

theorem poison_tail {n : Nat} {l : List Nat} {th : Thread} (h : (mmUses w (n :: l)).poison th = []) : (mmUses w l).poison th = [] := by
  simp only [Uses.poison, mmUses, List.append_eq_nil_iff, List.map_eq_nil_iff, List.filter_eq_nil_iff] at h ⊢
  obtain ⟨⟨hg, hm⟩, hs⟩ := h
  exact ⟨⟨fun k hk => hg k (List.mem_cons_of_mem _ hk), hm⟩, hs⟩

theorem tmmaConvBody_queues (h : ConvReady s c t w)
    (hx : mmChecks (convRead s c t w).st c t w none
      (convFed (convGeom (convArgOf s c t w)) (convArgOf s c t w).p0 ((getThread s c t).regs.mGet (mmMR w)).v) [plainPart s c t w] = []) :
    tmmaConvBody c t w s = .done (advance (queuePass (convRead s c t w).st c t w 0 (phys (getThread s c t) (mmB w)) (mmKg w) []
      (some (convArgOf s c t w))) c t) := by
  obtain ⟨hnow, hpois, hdata⟩ := convRead_effect h
  have harg : convArgIn s c t w (convRead s c t w).data = convArgOf s c t w := by rw [hdata]; rfl
  have hcc : convConds (convRead s c t w).st c t true w (convGeom (convArgOf s c t w)) (getCore s c).ctl.klim.toNat = [] :=
    convConds_clear h.input (by rw [hnow.thread]; exact h.inputArea)
  have hall : convAllConds s c t w (convRead s c t w) = [] := by
    unfold convAllConds
    dsimp only
    rw [harg, hpois, hdata, h.valid, hcc, poison_tail h.clean, hx]
    rfl
  rw [tmmaConvBody_of_ready h, hall, harg, firstCand_nil]

end Sys2Proof.Machine
end

section
/-!
PROOFS. The start and the landing of an array pass (03 R113, R129, R132, R137), and INT8 accumulation (03 R129).
-/

namespace Sys2Proof.Machine

variable {s s1 : State} {c : Nat} {p : Pass} {u : TileUnit}

/-! ## The start -/

theorem tile_countStall (s : State) (c idx n : Nat) : (getCore (countStall s c idx n) c).tile = (getCore s c).tile := by
  rw [countStall, getCore_updCore_same]; split <;> rfl

theorem getCore_countStall_other (s : State) {c d : Nat} (idx n : Nat) (h : d ≠ c) : getCore (countStall s c idx n) d = getCore s d :=
  getCore_updCore_other s _ h

/-- The operand cache after a register is read. -/
def cacheStep (l : List Nat) (r : Nat) : List Nat := (r :: l.filter (· != r)).take 4

theorem opCacheRead_effect (s : State) (c r : Nat) :
    (getCore (opCacheRead s c r) c).tile = { (getCore s c).tile with opCache := cacheStep (getCore s c).tile.opCache r } ∧
    ∀ d, d ≠ c → getCore (opCacheRead s c r) d = getCore s d := by
  unfold opCacheRead
  dsimp only
  refine ⟨?_, fun d hd => ?_⟩
  · rw [(tileNow_updTileUnit _ c _).tile]
    split <;> simp only [tile_countStall] <;> rfl
  · rw [(tileNow_updTileUnit _ c _).cores d hd]
    split <;> simp only [getCore_countStall_other _ _ _ hd]

theorem opCacheReads_effect (l : List Nat) (s : State) (c : Nat) :
    (getCore (l.foldl (fun s r => opCacheRead s c r) s) c).tile =
      { (getCore s c).tile with opCache := l.foldl cacheStep (getCore s c).tile.opCache } ∧
    ∀ d, d ≠ c → getCore (l.foldl (fun s r => opCacheRead s c r) s) d = getCore s d := by
  induction l generalizing s with
  | nil => exact ⟨rfl, fun _ _ => rfl⟩
  | cons r l ih =>
    obtain ⟨htile, hcores⟩ := opCacheRead_effect s c r
    obtain ⟨iht, ihc⟩ := ih (opCacheRead s c r)
    rw [List.foldl_cons]
    refine ⟨?_, fun d hd => (ihc d hd).trans (hcores d hd)⟩
    rw [iht, htile]
    rfl

/-- The two registers of a plain pass are the newest in the operand cache. -/
theorem cacheStep_two {a b : Nat} (h : a ≠ b) (l : List Nat) : (cacheStep (cacheStep l a) b).take 2 = [b, a] := by
  simp [cacheStep, h]

theorem passReads_plain (hc : p.conv = none) (hy : p.yk = false) (hs : p.segs = []) (h : p.ta ≠ p.tb) :
    (passReads p).dedup = [p.ta, p.tb] := by
  simp [passReads, passB, hc, hy, hs, List.dedup_cons_of_notMem, h]

/-- The state in which a pass has begun its occupancy, its registers still to be read. -/
def passBegun (s : State) (c : Nat) (p : Pass) : State :=
  updTileUnit s c (fun u => { u with passes := u.passes.map (fun q => if q.id == p.id then { q with started := true } else q) })

theorem passStart_of_waiting (hf : (getCore s c).tile.passes.find? (fun q => !q.started) = some p)
    (hn : ((getCore s c).tile.passes.filter (·.started)).length < 2) :
    passStart s c = (passReads p).dedup.foldl (fun s r => opCacheRead s c r) (passBegun s c p) := by
  unfold passStart
  dsimp only
  rw [hf]
  dsimp only
  rw [if_neg (by omega)]
  rfl

theorem passStart_effect (hf : (getCore s c).tile.passes.find? (fun q => !q.started) = some p)
    (hn : ((getCore s c).tile.passes.filter (·.started)).length < 2) :
    (getCore (passStart s c) c).tile = { (getCore s c).tile with
      passes := (getCore s c).tile.passes.map (fun q => if q.id == p.id then { q with started := true } else q)
      opCache := (passReads p).dedup.foldl cacheStep (getCore s c).tile.opCache } ∧
    ∀ d, d ≠ c → getCore (passStart s c) d = getCore s d := by
  have hb := tileNow_updTileUnit s c
    (fun u => { u with passes := u.passes.map (fun q => if q.id == p.id then { q with started := true } else q) })
  obtain ⟨htile, hcores⟩ := opCacheReads_effect (passReads p).dedup (passBegun s c p) c
  rw [passStart_of_waiting hf hn]
  exact ⟨htile.trans (by rw [show (getCore (passBegun s c p) c).tile = _ from hb.tile]),
    fun d hd => (hcores d hd).trans (hb.cores d hd)⟩

/-! ## Banks -/

/-- The bank of a unit. -/
def bankOf (b : Nat) (u : TileUnit) : AccBank := if b = 0 then u.acc0 else u.acc1

theorem bankOf_bankSet (b : Nat) (a : AccBank) (u : TileUnit) : bankOf b (bankSet b a u) = a := by
  unfold bankOf bankSet
  by_cases h : b = 0
  · simp only [if_pos h]
  · simp only [if_neg h]

theorem bankSet_bankSet (b : Nat) (a a' : AccBank) (u : TileUnit) : bankSet b a (bankSet b a' u) = bankSet b a u := by
  unfold bankSet
  by_cases h : b = 0
  · simp only [if_pos h]
  · simp only [if_neg h]

theorem bankSet_bankOf (b : Nat) (u : TileUnit) : bankSet b (bankOf b u) u = u := by
  unfold bankSet bankOf
  by_cases h : b = 0
  · simp only [if_pos h]
  · simp only [if_neg h]

/-- A write of a bank changes the unit's banks alone. -/
theorem bankSet_parts (b : Nat) (a : AccBank) (u : TileUnit) :
    bankSet b a u = { u with acc0 := (bankSet b a u).acc0, acc1 := (bankSet b a u).acc1 } := by
  unfold bankSet; split <;> rfl

/-- A write of a bank leaves the other. -/
theorem bankSet_other (b : Nat) (a : AccBank) (u : TileUnit) :
    if b = 0 then (bankSet b a u).acc1 = u.acc1 else (bankSet b a u).acc0 = u.acc0 := by
  unfold bankSet; split <;> rfl

/-! ## Cells -/

/-- The pass feeds neither the row nor the column of cell (m, n). -/
def Unfed (p : Pass) (m n : Nat) : Prop := p.rows ≤ m ∨ p.cols ≤ n ∨ p.mr.getLsbD m = false ∨ p.mc.getLsbD n = false

/-- Every cell that a pass does not feed is as it was. -/
def SameUnfed (p : Pass) (a a' : AccBank) : Prop :=
  ∀ m n, n < 32 → Unfed p m n → spGet 0 a'.cells (32 * m + n) = spGet 0 a.cells (32 * m + n)

theorem SameUnfed.refl (p : Pass) (a : AccBank) : SameUnfed p a a := fun _ _ _ _ => rfl

theorem SameUnfed.trans {a a' a'' : AccBank} (h : SameUnfed p a a') (h' : SameUnfed p a' a'') : SameUnfed p a a'' :=
  fun m n hn hu => (h' m n hn hu).trans (h m n hn hu)

/-- CLR does not empty the whole bank. -/
def KeepsMode (p : Pass) (a : AccBank) : Prop := a.mode = .empty ∨ a.mode = pairMode p.fpair ∨ p.clr = false

/-- A row that a pass feeds. -/
def FedRow (p : Pass) (i : Nat) : Prop := i < p.rows ∧ p.mr.getLsbD i = true
/-- A column that a pass feeds. -/
def FedCol (p : Pass) (j : Nat) : Prop := j < p.cols ∧ p.mc.getLsbD j = true

theorem not_unfed {i j : Nat} (hi : FedRow p i) (hj : FedCol p j) : ¬ Unfed p i j := by
  obtain ⟨hi, hm⟩ := hi
  obtain ⟨hj, hn⟩ := hj
  unfold Unfed
  rw [hm, hn]
  simp
  omega

theorem FedCol.lt {j : Nat} (h : FedCol p j) : j < 32 := by
  by_contra hlt
  have := BitVec.getLsbD_of_ge p.mc j (by omega)
  rw [h.2] at this
  cases this

/-- The cells of different rows or columns are different. -/
theorem key_ne {i j m n : Nat} (hi : FedRow p i) (hj : FedCol p j) (hn : n < 32) (hu : Unfed p m n) : 32 * m + n ≠ 32 * i + j := by
  intro heq
  have hlt := hj.lt
  obtain rfl : m = i := by omega
  obtain rfl : n = j := by omega
  exact not_unfed hi hj hu

theorem spGet_filter {α : Type} (d : α) {l : Sparse α} {q : Nat × α → Bool} {k : Nat} (h : ∀ v, q (k, v) = true) :
    spGet d (l.filter q) k = spGet d l k := by
  induction l with
  | nil => rfl
  | cons x l ih =>
    obtain ⟨j, v⟩ := x
    by_cases hj : k = j
    · subst hj
      rw [List.filter_cons, if_pos (h v)]
      simp [spGet]
    · rw [List.filter_cons]
      split <;> simp [spGet, hj, ih]

theorem sameUnfed_clearBank {a : AccBank} {rows cols : List Nat} (hr : ∀ i ∈ rows, FedRow p i) (hc : ∀ j ∈ cols, FedCol p j)
    (hk : KeepsMode p a) : SameUnfed p a (clearBank a p rows cols) := by
  unfold clearBank
  split
  · exact SameUnfed.refl p a
  · next hclr =>
    have hclr' : p.clr ≠ false := by simpa using hclr
    rw [if_neg (by rcases hk with h | h | h <;> simp_all)]
    intro m n hn hu
    refine spGet_filter 0 (fun v => ?_)
    have hdiv : (32 * m + n) / 32 = m := by omega
    have hmod : (32 * m + n) % 32 = n := by omega
    rw [hdiv, hmod]
    by_contra hf
    simp only [Bool.not_eq_true', Bool.not_eq_false, Bool.and_eq_true, List.contains_iff_mem] at hf
    exact not_unfed (hr m hf.1) (hc n hf.2) hu

/-! ## One part of a pass -/

/-- A cell of a bank after the steps that feed it. -/
def cellStored (p : Pass) (kg : Nat) (x y : Nat × List FV) (a : AccBank) : AccBank :=
  let key := 32 * x.1 + y.1
  let r := cellRun p kg x.1 x.2 y.2 ⟨(spGet 0 a.cells key).toNat, false, false, false⟩
  { a with
    cells := spSet 0 a.cells key (BitVec.ofNat 32 r.bits)
    nan := a.nan || r.nan
    inf := a.inf || r.inf
    iov := a.iov || r.iov }

theorem sameUnfed_cellStored {x y : Nat × List FV} (hx : FedRow p x.1) (hy : FedCol p y.1) (kg : Nat) (a : AccBank) :
    SameUnfed p a (cellStored p kg x y a) :=
  fun _ _ hn hu => spGet_set_other _ _ _ _ (key_ne hx hy hn hu)

theorem sameUnfed_cells {ra bc : List (Nat × List FV)} (hr : ∀ x ∈ ra, FedRow p x.1) (hc : ∀ y ∈ bc, FedCol p y.1) (kg : Nat) (a : AccBank) :
    SameUnfed p a (ra.foldl (fun a x => bc.foldl (fun a y => cellStored p kg x y a) a) a) :=
  List.foldlRecOn (motive := SameUnfed p a) ra _ (SameUnfed.refl p a) (fun _ h1 x hx =>
    List.foldlRecOn (motive := SameUnfed p a) bc _ h1 (fun a2 h2 y hy => h2.trans (sameUnfed_cellStored (hr x hx) (hc y hy) kg a2)))

theorem passRowsA_plain (hc : p.conv = none) (s : State) (c : Nat) (rows : List Nat) (kk : Nat) :
    passRowsA s c p rows kk = (rows.map (fun m => (m, (List.range kk).map (elemA p (getTile s c p.ta) m))), [], s) := by
  rw [passRowsA, hc]

/-- A part of a plain pass replaces its bank, and of a bank whose mode it keeps only the cells that it feeds. -/
theorem runPart_plain (hc : p.conv = none) (s : State) (c : Nat) (first : Bool) (part : Part) : ∃ a,
    runPart s c p first part = setBank s c p.acc a ∧
      ((first = true → KeepsMode p (getBank (getCore s c) p.acc)) → SameUnfed p (getBank (getCore s c) p.acc) a) := by
  have hcols : ∀ j ∈ fedCols p.cols p.mc, FedCol p j := fun j hj => mem_fedCols.1 hj
  have hrows : ∀ i ∈ (if (fedCols p.cols p.mc).isEmpty then [] else partRows p.rows p.mr part), FedRow p i := by
    intro i hi
    split at hi
    · cases hi
    · exact mem_partRows hi
  unfold runPart
  dsimp only
  rw [passRowsA_plain hc]
  dsimp only
  rw [List.map_map, show (fun x : Nat × List FV => x.1) ∘ (fun m => (m, (List.range (pairK p.fpair part.kg)).map (elemA p (getTile s c p.ta) m))) = id
    from rfl, List.map_id]
  generalize (if (fedCols p.cols p.mc).isEmpty then [] else partRows p.rows p.mr part) = rows at hrows ⊢
  have hfirst : (first = true → KeepsMode p (getBank (getCore s c) p.acc)) → SameUnfed p (getBank (getCore s c) p.acc)
      (if first then clearBank (getBank (getCore s c) p.acc) p rows (fedCols p.cols p.mc) else getBank (getCore s c) p.acc) := by
    intro hk
    cases first
    · exact SameUnfed.refl p _
    · exact sameUnfed_clearBank hrows hcols (hk rfl)
  split
  · exact ⟨_, rfl, hfirst⟩
  · refine ⟨_, rfl, fun hk => (hfirst hk).trans (sameUnfed_cells (fun x hx => ?_) (fun y hy => ?_) part.kg _)⟩
    · obtain ⟨m, hm, rfl⟩ := List.mem_map.1 hx
      exact hrows m hm
    · obtain ⟨n, hn, rfl⟩ := List.mem_map.1 hy
      exact hcols n hn

/-! ## The landing -/

/-- The parts of a plain pass, in order. -/
def runParts (c : Nat) (p : Pass) (parts : List Part) (x : State × Bool) : State × Bool :=
  parts.foldl (fun x part => (runPart x.1 c p x.2 part, false)) x

theorem runParts_plain (hc : p.conv = none) (parts : List Part) (first : Bool) {a : AccBank} (h : TileNow s c (bankSet p.acc a u) s1) :
    ∃ a', TileNow s c (bankSet p.acc a' u) (runParts c p parts (s1, first)).1 ∧
      ((first = true → KeepsMode p a) → SameUnfed p a a') := by
  induction parts generalizing s1 first a with
  | nil => exact ⟨a, h, fun _ => SameUnfed.refl p a⟩
  | cons part parts ih =>
    have hbank : getBank (getCore s1 c) p.acc = a := by
      rw [← bankOf_bankSet p.acc a u, ← h.tile]; rfl
    obtain ⟨a1, heq, hkeep⟩ := runPart_plain hc s1 c first part
    have h1 := h.upd (bankSet p.acc a1)
    rw [bankSet_bankSet, ← setBank_eq, ← heq] at h1
    obtain ⟨a', hnow, hrest⟩ := ih false h1
    rw [hbank] at hkeep
    exact ⟨a', hnow, fun hk => (hkeep hk).trans (hrest nofun)⟩

theorem passLand_plain {rest : List Pass} (hp : (getCore s c).tile.passes = p :: rest) (hs : p.started = true) (hc : p.conv = none) :
    ∃ a, TileNow s c (bankSet p.acc a { (getCore s c).tile with passes := rest }) (passLand s c) ∧
      (KeepsMode p (bankOf p.acc (getCore s c).tile) → SameUnfed p (bankOf p.acc (getCore s c).tile) a) := by
  have hu := tileNow_updTileUnit s c (fun u => { u with passes := rest })
  have h0 := hu
  rw [← bankSet_bankOf p.acc { (getCore s c).tile with passes := rest }] at h0
  obtain ⟨a, hnow, hkeep⟩ := runParts_plain hc (passParts p.rows p.tb p.kg p.segs) true h0
  refine ⟨a, ?_, fun hk => hkeep (fun _ => hk)⟩
  unfold passLand
  rw [hp]
  dsimp only
  rw [if_pos hs]
  exact hnow

end Sys2Proof.Machine
end

section
/-!
PROOFS. INT8 accumulation (03 R129), and the statement of array passes.
-/

namespace Sys2Proof.Machine

variable {s : State} {c t : Nat} {w : Word}

/-! ## Signed values modulo 2^32 -/

theorem signedN_modEq (k n : Nat) : signedN k n ≡ n [ZMOD 2 ^ k] := by
  have hmod : ((n % 2 ^ k : Nat) : Int) ≡ n [ZMOD 2 ^ k] := by
    push_cast
    exact Int.mod_modEq _ _
  unfold signedN
  dsimp only
  split
  · exact hmod
  · refine Int.ModEq.trans ?_ hmod
    push_cast
    exact Int.sub_emod_right _ _

/-- A value wrapped and read again is the value modulo 2^k. -/
theorem signedN_wrapInt (k : Nat) (i : Int) : signedN k (wrapInt k i) ≡ i [ZMOD 2 ^ k] := by
  refine (signedN_modEq k _).trans ?_
  rw [wrapInt_cast]
  exact Int.mod_modEq _ _

theorem wrapInt_congr {k : Nat} {i j : Int} (h : i ≡ j [ZMOD 2 ^ k]) : wrapInt k i = wrapInt k j := by
  have : (wrapInt k i : Int) = wrapInt k j := by rw [wrapInt_cast, wrapInt_cast]; exact h
  exact_mod_cast this

/-! ## The steps of a cell -/

/-- The product that step k of an INT8 cell adds. -/
def intProduct (a b : List FV) (k : Nat) : Int := (FV.mul (a.getD k zeroFV) (b.getD k zeroFV)).1.scaled 0

/-- A cell after its first n steps. -/
def cellSteps (p : Pass) (m : Nat) (a b : List FV) (x : CellAcc) (n : Nat) : CellAcc :=
  (List.range n).foldl (fun x st => cellStep (p.fpair == 10) (p.scl % 2 == 1) (laneGet p.srow m) x
    ((stepKs p.fpair st).map (fun k => (a.getD k zeroFV, b.getD k zeroFV)))) x

/-- A step of an INT8 cell adds one product and wraps. -/
theorem cellSteps_succ {p : Pass} (hp : p.fpair = 10) (m : Nat) (a b : List FV) (x : CellAcc) (n : Nat) :
    (cellSteps p m a b x (n + 1)).bits = wrapInt 32 (signedN 32 (cellSteps p m a b x n).bits + intProduct a b n) := by
  rw [cellSteps, List.range_succ, List.foldl_append, ← cellSteps, hp]
  rfl

theorem cellSteps_modEq {p : Pass} (hp : p.fpair = 10) (m : Nat) (a b : List FV) (x : CellAcc) (n : Nat) :
    signedN 32 (cellSteps p m a b x n).bits ≡ signedN 32 x.bits + ((List.range n).map (intProduct a b)).sum [ZMOD 2 ^ 32] := by
  induction n with
  | zero => simp [cellSteps]
  | succ n ih =>
    rw [cellSteps_succ hp, List.range_succ, List.map_append, List.sum_append, List.map_singleton, List.sum_singleton, ← add_assoc]
    exact (signedN_wrapInt 32 _).trans (ih.add_right _)

/-- An INT8 cell becomes its old value plus the sum of its products, modulo 2^32. -/
theorem cellRun_int8 {p : Pass} (hp : p.fpair = 10) {kg : Nat} (hk : 0 < kg) (m : Nat) (a b : List FV) (x : CellAcc) :
    (cellRun p kg m a b x).bits = wrapInt 32 (signedN 32 x.bits + ((List.range (kg * 8)).map (intProduct a b)).sum) := by
  obtain ⟨n, hn⟩ : ∃ n, kg * 8 = n + 1 := ⟨kg * 8 - 1, by omega⟩
  have hrun : cellRun p kg m a b x = cellSteps p m a b x (kg * 8) := rfl
  rw [hrun, hn, cellSteps_succ hp]
  refine wrapInt_congr ?_
  rw [List.range_succ, List.map_append, List.sum_append, List.map_singleton, List.sum_singleton, ← add_assoc]
  exact (cellSteps_modEq hp m a b x n).add_right _

/-! ## The statement -/

theorem sclRefused_conv {pair scl : Nat} (h : sclRefused pair scl false = false) (h2 : scl < 2) : sclRefused pair scl true = false := by
  simp only [sclRefused, Bool.and_true, Bool.and_false, Bool.or_false, Bool.or_eq_false_iff] at h ⊢
  exact ⟨h, decide_eq_false (Nat.not_le.2 h2)⟩

/-- The read of a convolution's descriptor changes nothing that the checks of its operands look at. -/
theorem mayMultiply_congr {s1 : State} {conv : Bool} (h : TileNow s c (getCore s c).tile s1) (hm : MayMultiply s c w conv) :
    MayMultiply s1 c w conv := by
  have hcore : getCore s1 c = getCore s c := h.core
  have hyoke : yokeBroken s1 c = yokeBroken s c := by rw [h.rest]; rfl
  exact ⟨hm.scale, by rw [hcore]; exact hm.mode, fun hk => hyoke.trans (hm.yoke hk)⟩

theorem bFits_congr {s1 : State} {tb kg : Nat} (h : TileNow s c (getCore s c).tile s1) (hb : BFits s c w tb kg) : BFits s1 c w tb kg := by
  have hcore : getCore s1 (mmBCore c w) = getCore s (mmBCore c w) := by
    by_cases he : mmBCore c w = c
    · rw [he]; exact h.core
    · exact h.cores _ he
  have ht := getTile_eq hcore tb
  exact ⟨by rw [ht]; exact hb.covers, by rw [ht]; exact hb.clean⟩

/-- Settles O40: at issue every check holds off and one pass joins; a start and a landing change what they name. -/
theorem arrayPassesQueueStartAndLand : Obligations.ArrayPassesQueueStartAndLand := by
  unfold Obligations.ArrayPassesQueueStartAndLand
  refine ⟨fun c t w s => ?issue, fun c s p => ⟨fun hf hn => ?start, fun rest hp hs hc => ?land⟩, fun p kg m a b x hp hk => cellRun_int8 hp hk m a b x⟩
  case issue =>
    intro th u pair ta tb mr mode bc common covers goodA goodB queued
    have may (hc : common) : MayMultiply s c w false := ⟨hc.1, hc.2.1, hc.2.2⟩
    have fitsB {tb kg : Nat} (h : goodB tb kg) : BFits s c w tb kg := ⟨h.1, h.2⟩
    refine ⟨fun hi hr hw hwait => ⟨fun hc hA hB => ?tmma, fun hn hz he => ?short⟩, ?seg, ?conv⟩
    case tmma =>
      have hready : MmaReady s c t w := ⟨hr.clean, hw, hwait⟩
      have hx : tmmaConds s c t w = [] := by
        refine mmChecks_clear (may hc) (fun ta' ha => ?_) (fun p hp => ?_)
        · obtain rfl := Option.some.inj ha
          exact ⟨List.cons_ne_nil _ _, fun p hp => by rw [List.mem_singleton.1 hp]; exact hA.1, hA.2⟩
        · rw [List.mem_singleton.1 hp]; exact fitsB hB
      exact runs_of_done rfl hi ⟨hr.free, rfl, rfl⟩ (tmmaBody_queues hready hx)
        (tileOnly_of_tileNow t (tileNow_queuePass s c t w _ _ _ _ _))
    case short =>
      have hready : MmaReady s c t w := ⟨hr.clean, hw, hwait⟩
      have hx : firstCand (tmmaConds s c t w) = some ⟨0x07, 0x01, w⟩ :=
        firstCand_short hn hz (he.imp_right (fun h => h.trans_le (le_max_right _ _)))
      exact issue_raised hi ⟨hr.free, rfl, rfl⟩ (tmmaBody_raises hready (fun h => by rw [h] at hx; cases hx)) hx
    case seg =>
      intro hi hr es segs hv hw hwait hc hg
      have hready : SegReady s c t w := ⟨hr.clean, hv, hw, hwait⟩
      refine runs_of_done rfl hi ⟨hr.free, rfl, rfl⟩ (tmmaSegBody_queues hready (mmChecks_clear (may hc) (fun ta' ha => ?_) (fun p hp => ?_)))
        (tileOnly_of_tileNow t (tileNow_queuePass s c t w _ _ _ _ _))
      · obtain rfl := Option.some.inj ha
        have hne : partsFrom 0 segs ≠ [] := partsFrom_ne_nil hv
        obtain ⟨q, hq⟩ := List.exists_mem_of_ne_nil _ hne
        obtain ⟨e, he, -, -⟩ := mem_partsFrom hq
        refine ⟨hne, fun p hp => ?_, (hg e he).1.2⟩
        obtain ⟨e, he, -, hkg⟩ := mem_partsFrom hp
        rw [hkg]; exact (hg e he).1.1
      · obtain ⟨e, he, htb, hkg⟩ := mem_partsFrom hp
        rw [htb, hkg]; exact fitsB (hg e he).2
    case conv =>
      intro hi hr d off pk ws arg g hw hwait hord hsp hal hrange harea hmark hvalid hin hinArea hc hscl hB
      have hready : ConvReady s c t w := ⟨hr.clean, hw, hwait, hord, hsp, hal, hrange, harea, hmark, hvalid, hin, hinArea⟩
      obtain ⟨hnow, -, -⟩ := convRead_effect hready
      have hpriv : controlJob s c t (mmA w) = none := controlJob_of_other (by rw [show field (gVal th (mmA w)) 63 56 = 0 from hsp]; decide)
      have hmay : MayMultiply s c w true := ⟨sclRefused_conv hc.1 hscl, hc.2.1, hc.2.2⟩
      refine runs_of_done rfl hi ⟨hr.free, rfl, hpriv⟩
        (tmmaConvBody_queues hready (mmChecks_clear (mayMultiply_congr hnow hmay) nofun (fun p hp => ?_))) (tileOnly_of_tileNow t ?_)
      · rw [List.mem_singleton.1 hp]; exact bFits_congr hnow (fitsB hB)
      · have hq := hnow.trans (tileNow_queuePass (convRead s c t w).st c t w 0 tb (mmKg w) [] (some (convArgOf s c t w)))
        rw [passOf, hnow.thread, hnow.tile] at hq
        exact hq
  case start =>
    obtain ⟨htile, hcores⟩ := passStart_effect hf hn
    refine ⟨_, rfl, ?_, ?_, ?_, ?_, fun hc hy hs hne => ?_, hcores⟩ <;> rw [htile]
    · simp only [beq_iff_eq]
    · rw [passReads_plain hc hy hs hne]
      exact cacheStep_two hne _
  case land =>
    obtain ⟨a, hnow, hkeep⟩ := passLand_plain hp hs hc
    refine ⟨_, rfl, ?_⟩
    beta_reduce
    intro u' bank bank'
    have hu : u' = bankSet p.acc a { (getCore s c).tile with passes := rest } := hnow.tile
    refine ⟨?_, ?_, hnow.mem, hnow.cores, fun hk m n hn hm => ?_⟩
    · rw [hu]; exact bankSet_parts p.acc a { (getCore s c).tile with passes := rest }
    · rw [hu]; exact bankSet_other p.acc a { (getCore s c).tile with passes := rest }
    · have hb : bank' = a := (congrArg (bankOf p.acc) hu).trans (bankOf_bankSet p.acc a _)
      rw [hb]
      exact hkeep hk m n hn hm

end Sys2Proof.Machine
end

section
/-!
PROOFS. TDRAIN at issue (02 R61, R65; 04 R160–R163).
-/

namespace Sys2Proof.Machine

variable {s s1 : State} {c t : Nat} {w d0 d1 d2 : Word}

/-! ## The checks of the descriptor -/

/-- Condition 0x07/0x0D of the descriptor: a reserved bit, a mode of Z, or an offset out of alignment. -/
def descBad (w d0 d1 d2 : Word) (bad : Bool) : Bool :=
  (bad || field d0 23 20 != 0 || field d1 63 52 != 0 || field d1 31 20 != 0 || field d2 63 8 != 0) ||
    (ddZmode d0 == 3 && tdBwd w && tdFn w != 1) || ddPbase d0 % 128 != 0 || field d1 19 0 % 64 != 0 || field d1 51 32 % 8 != 0

/-- Condition 0x07/0x0C of the descriptor: the output's format and its place in the register. -/
def outputBad (s : State) (c t : Nat) (w d0 : Word) : Bool :=
  let fmt := drainFmt s w d0
  let td := phys (getThread s c t) (field w 55 51)
  fmt == 9 ||
    (tdDst w == 0 && (8 < ddG0 d0 + drainGrans d0 fmt || g0Bad (getTile s c td) d0 fmt ||
      (tdGated w && tdBwd w && g0Bad (getTile s c (td + 1)) d0 fmt))) ||
    (ddOsc d0 == 3 && (tdDst w != 0 || ddG0 d0 * 64 % (32 * fmtBits fmt) != 0))

/-- Condition 0x07/0x0E of the descriptor: the tags of the Z tiles. -/
def zTilesBad (s : State) (c t : Nat) (w d0 : Word) : Bool :=
  let tz := phys (getThread s c t) (field w 45 41)
  tdBwd w && (zTagBad (getTile s c tz) d0 || (tdGated w && zTagBad (getTile s c (tz + 1)) d0))

/-- The conditions of the areas that a descriptor names. -/
def drainAreas (s : State) (c t : Nat) (w d0 d1 : Word) (dest : Option Word) : List Cand :=
  let memSpan := (ddRows d0 - 1) * field d1 51 32 + fmtBytes (drainFmt s w d0) (ddCols d0)
  (if paramEnd w d0 = 0 then [] else areaChecks s c t false (word (ddPbase d0)) (paramEnd w d0) false) ++
    (if ddStw d0 then areaChecks s c t false (word (field d1 19 0)) 192 false else []) ++
    (match tdDst w, dest with
      | 1, some d => areaChecks s c t true d memSpan false
      | _, _ => [])

theorem drainChecks_eq (s : State) (c t : Nat) (w d0 d1 d2 : Word) (dest : Option Word) (bad : Bool) :
    drainChecks s c t w d0 d1 d2 dest bad =
      wordChecks (getCore s c) w dest ++ when? (descBad w d0 d1 d2 bad) 0x07 0x0D w ++ when? (outputBad s c t w d0) 0x07 0x0C w ++
        when? (zTilesBad s c t w d0) 0x07 0x0E w ++ destPoison (getThread s c t) w ++
        (if descBad w d0 d1 d2 bad then [] else drainAreas s c t w d0 d1 dest) ++
        ((tdVecs w d0).filter (fun v => ((getThread s c t).regs.sGet v).p)).map (fun v => cand 0x06 0x02 (word v)) := by
  rfl

/-- A descriptor's words with their reserved bits zero, a mode of Z that its function has, and its offsets aligned. -/
structure DescFits (w d0 d1 d2 : Word) : Prop where
  low0 : field d0 23 20 = 0
  high1 : field d1 63 52 = 0
  low1 : field d1 31 20 = 0
  high2 : field d2 63 8 = 0
  mode : tdBwd w = true → ddZmode d0 = 3 → tdFn w = 1
  params : ddPbase d0 % 128 = 0
  record : field d1 19 0 % 64 = 0
  pitch : field d1 51 32 % 8 = 0

theorem descBad_fits (h : DescFits w d0 d1 d2) : descBad w d0 d1 d2 false = false := by
  have hmode : (ddZmode d0 == 3 && tdBwd w && tdFn w != 1) = false := by
    cases hb : tdBwd w
    · simp
    · by_cases hz : ddZmode d0 = 3
      · simp [h.mode hb hz]
      · simp [hz]
  rw [descBad, hmode, h.low0, h.high1, h.low1, h.high2, h.params, h.record, h.pitch]
  rfl

/-- An output that the word and the descriptor allow: a format, a place in td's rows, whole MX blocks. -/
structure OutputFits (s : State) (c t : Nat) (w d0 : Word) : Prop where
  format : drainFmt s w d0 ≠ 9
  tile : tdDst w = 0 → ddG0 d0 + drainGrans d0 (drainFmt s w d0) ≤ 8 ∧
    g0Bad (getTile s c (phys (getThread s c t) (field w 55 51))) d0 (drainFmt s w d0) = false ∧
    ((tdGated w && tdBwd w) = true → g0Bad (getTile s c (phys (getThread s c t) (field w 55 51) + 1)) d0 (drainFmt s w d0) = false)
  blocks : ddOsc d0 = 3 → tdDst w = 0 ∧ ddG0 d0 * 64 % (32 * fmtBits (drainFmt s w d0)) = 0
  two : (tdGated w && tdBwd w) = true → tdDst w = 0

theorem outputBad_fits (h : OutputFits s c t w d0) : outputBad s c t w d0 = false := by
  have hfmt : (drainFmt s w d0 == 9) = false := beq_false_of_ne h.format
  unfold outputBad
  dsimp only
  rw [hfmt, Bool.false_or, Bool.or_eq_false_iff]
  constructor
  · by_cases hd : tdDst w = 0
    · obtain ⟨hg, h0, h1⟩ := h.tile hd
      rw [decide_eq_false (Nat.not_lt.2 hg), h0, Bool.false_or, Bool.false_or]
      cases hb : tdGated w && tdBwd w
      · rw [Bool.false_and, Bool.and_false]
      · rw [h1 hb, Bool.and_false, Bool.and_false]
    · rw [beq_false_of_ne hd, Bool.false_and]
  · by_cases ho : ddOsc d0 = 3
    · obtain ⟨hd, hm⟩ := h.blocks ho
      rw [hd, hm]
      exact Bool.and_false _
    · rw [beq_false_of_ne ho, Bool.false_and]

theorem zTilesBad_fits (h : tdBwd w = true → zTagBad (getTile s c (phys (getThread s c t) (field w 45 41))) d0 = false ∧
    (tdGated w = true → zTagBad (getTile s c (phys (getThread s c t) (field w 45 41) + 1)) d0 = false)) :
    zTilesBad s c t w d0 = false := by
  unfold zTilesBad
  dsimp only
  cases hb : tdBwd w
  · rfl
  · obtain ⟨h0, h1⟩ := h hb
    rw [h0, Bool.false_or, Bool.true_and]
    cases hg : tdGated w
    · rfl
    · rw [h1 hg]; rfl

/-- The word that names the output in memory or a Drill ring, where one is read. -/
def tdDest (s : State) (c t : Nat) (w : Word) : Option Word :=
  if tdDst w = 1 ∨ tdDst w = 2 then some (gVal (getThread s c t) (field w 50 46 + 1)) else none

theorem tdDest_getD (s : State) (c t : Nat) (w : Word) : (tdDest s c t w).getD 0 =
    if tdDst w = 1 ∨ tdDst w = 2 then gVal (getThread s c t) (field w 50 46 + 1) else 0 := by
  unfold tdDest; split <;> rfl

theorem getD_of_tdDest {a : Word} (h : tdDest s c t w = some a) : (tdDest s c t w).getD 0 = a := by rw [h]; rfl

/-- Condition 0x07/0x0F of the word: its user function has no valid table. -/
def tableMissing (k : Core) (w : Word) : Bool := (userSlot (tdFn w)).elim false (fun u => !tableValid k u)

theorem tableMissing_valid {k : Core} (h : ∀ u, userSlot (tdFn w) = some u → tableValid k u = true) : tableMissing k w = false := by
  unfold tableMissing
  cases hs : userSlot (tdFn w) with
  | none => rfl
  | some u => exact congrArg (! ·) (h u hs)

theorem wordChecks_eq (k : Core) (w : Word) (dest : Option Word) : wordChecks k w dest =
    when? (tdDst w == 2 && dest.any (fun d => field d 63 4 != 0)) 0x07 0x0D w ++
      when? ((!bitOf w 34 && field w 33 30 == 9) || (tdGated w && tdBwd w && tdDst w != 0)) 0x07 0x0C w ++
      when? (tableMissing k w) 0x07 0x0F w := by
  unfold wordChecks tableMissing
  cases userSlot (tdFn w) <;> rfl

theorem wordChecks_fits (ho : OutputFits s c t w d0) (hu : ∀ u, userSlot (tdFn w) = some u → tableValid (getCore s c) u = true)
    (hd : ∀ a, tdDest s c t w = some a → tdDst w = 2 → field a 63 4 = 0) : wordChecks (getCore s c) w (tdDest s c t w) = [] := by
  have hring : (tdDst w == 2 && (tdDest s c t w).any (fun d => field d 63 4 != 0)) = false := by
    by_cases h2 : tdDst w = 2
    · cases ha : tdDest s c t w with
      | none => exact Bool.and_false _
      | some a => simp [hd a ha h2]
    · rw [beq_false_of_ne h2, Bool.false_and]
  have hfmt : (!bitOf w 34 && field w 33 30 == 9) = false := by
    have hf := ho.format
    unfold drainFmt at hf
    cases hb : bitOf w 34
    · rw [hb, if_neg (by decide)] at hf
      exact beq_false_of_ne hf
    · rfl
  have htwo : (tdGated w && tdBwd w && tdDst w != 0) = false := by
    cases hb : tdGated w && tdBwd w
    · rfl
    · rw [ho.two hb]; rfl
  rw [wordChecks_eq, hring, hfmt, htwo, tableMissing_valid hu]
  rfl

/-- An area of LOCAL that a thread may reach. -/
def LocalArea (s : State) (c t a n : Nat) : Prop :=
  a + n ≤ 0xC0000 ∧ ((getThread s c t).st.pm = true ∨ a + n ≤ (getCore s c).ctl.klim.toNat)

theorem areaChecks_offset {a n : Nat} (ha : a < 2 ^ 20) (h : LocalArea s c t a n) : areaChecks s c t false (word a) n false = [] := by
  have hoff : field (word a) 55 0 = a := by rw [field_word (by omega)]; omega
  obtain ⟨hr, hk⟩ := h
  refine areaChecks_local false (by rw [field_word (by omega)]; omega) ?_ ?_
  · rw [hoff]; exact hr
  · rw [hoff]; exact hk

theorem drainAreas_fits (hp : paramEnd w d0 ≠ 0 → LocalArea s c t (ddPbase d0) (paramEnd w d0))
    (hr : ddStw d0 = true → LocalArea s c t (field d1 19 0) 192)
    (hm : ∀ a, tdDest s c t w = some a → tdDst w = 1 →
      areaFree s c t a ((ddRows d0 - 1) * field d1 51 32 + fmtBytes (drainFmt s w d0) (ddCols d0))) :
    drainAreas s c t w d0 d1 (tdDest s c t w) = [] := by
  have hparams : (if paramEnd w d0 = 0 then [] else areaChecks s c t false (word (ddPbase d0)) (paramEnd w d0) false) = [] := by
    split
    · rfl
    · next hne => exact areaChecks_offset (field_lt d0 19 0) (hp hne)
  have hrecord : (if ddStw d0 then areaChecks s c t false (word (field d1 19 0)) 192 false else []) = [] := by
    split
    · next hs => exact areaChecks_offset (field_lt d1 19 0) (hr hs)
    · rfl
  unfold drainAreas
  dsimp only
  rw [hparams, hrecord, List.nil_append, List.nil_append]
  split
  · next a hd ha => exact areaChecks_free (hm a ha hd)
  · rfl

/-- The registers of the pair that are read are not poisoned. -/
theorem pair_clean (hr : Ready c t { gIn := tdPair w } s) : ((getThread s c t).regs.gGet (field w 50 46)).p = false ∧
    (tdDst w = 1 ∨ tdDst w = 2 → ((getThread s c t).regs.gGet (field w 50 46 + 1)).p = false) := by
  have hin : field w 50 46 ∈ tdPair w ∧ (tdDst w = 1 ∨ tdDst w = 2 → field w 50 46 + 1 ∈ tdPair w) := by
    unfold tdPair
    split
    · simp
    · next h => exact ⟨List.mem_singleton_self _, fun h' => absurd (by simpa using h') h⟩
  exact ⟨gGet_clean_of_poison_nil hr.clean hin.1, fun h => gGet_clean_of_poison_nil hr.clean (hin.2 h)⟩

theorem destPoison_clean (h : tdDst w = 1 ∨ tdDst w = 2 → ((getThread s c t).regs.gGet (field w 50 46 + 1)).p = false) :
    destPoison (getThread s c t) w = [] := by
  unfold destPoison
  dsimp only
  split
  · next h1 => exact addrPoison_eq_nil (fun n hn => by rw [List.mem_singleton.1 hn]; exact h (.inl h1))
  · by_cases h2 : tdDst w = 2
    · rw [h (.inr h2), Bool.and_false, when?_false]
    · rw [beq_false_of_ne h2, Bool.false_and, when?_false]

/-! ## The descriptor -/

/-- The address of the descriptor that a TDRAIN names. -/
def tdAddr (s : State) (c t : Nat) (w : Word) : Word := gVal (getThread s c t) (field w 50 46)

/-- The read of the descriptor. -/
def descRead (s : State) (c t : Nat) (w : Word) : Got := coreRead s false c (field (tdAddr s c t w) 55 0) 64

/-- The words of the descriptor, as the core's local memory holds them. -/
def descWords (s : State) (c t : Nat) (w : Word) : List Nat :=
  wordsOf 8 ((getCore s c).mem.localMem.getBytes (field (tdAddr s c t w) 55 0) 64)

/-- Word i of the descriptor. -/
def descWord (s : State) (c t : Nat) (w : Word) (i : Nat) : Word := word ((descWords s c t w).getD i 0)

/-- What an issue of TDRAIN finds before the descriptor is looked at: its pair read, its tiles in the window, a descriptor in LOCAL that can
be read without an error, and a drain that takes it. -/
structure DescReady (s : State) (c t : Nat) (w : Word) : Prop where
  pair : ((getThread s c t).regs.gGet (field w 50 46)).p = false
  second : tdDst w = 1 ∨ tdDst w = 2 → ((getThread s c t).regs.gGet (field w 50 46 + 1)).p = false
  window : inWindow (getThread s c t) (tdIdx w)
  space : field (tdAddr s c t w) 63 56 = 0
  aligned : (tdAddr s c t w).toNat % 64 = 0
  area : LocalArea s c t (field (tdAddr s c t w) 55 0) 64
  free : drainBusy s c w = false
  order : mustFollow s c t false false (field (tdAddr s c t w) 55 0) 64 = false
  unmarked : ∀ i, i < 8 → (getCore s c).mem.localMem.mark (field (tdAddr s c t w) 55 0 / 8 + i) = Mark.none

/-- The read changes no core, and finds no poison. -/
theorem descRead_effect (h : DescReady s c t w) : (∀ d, getCore (descRead s c t w).st d = getCore s d) ∧
    (descRead s c t w).st = { s with cores := (descRead s c t w).st.cores } ∧ (descRead s c t w).poison = false ∧
    wordsOf 8 (descRead s c t w).data = descWords s c t w := by
  have hspan : wordSpan (field (tdAddr s c t w) 55 0) 64 = 8 := by
    have := offset_mod_eight h.aligned
    unfold wordSpan
    rw [if_neg (by decide)]
    omega
  have hmark : ∀ i, i < wordSpan (field (tdAddr s c t w) 55 0) 64 →
      (coreMem s false c).mark (field (tdAddr s c t w) 55 0 / 8 + i) = Mark.none := fun i hi => h.unmarked i (hspan ▸ hi)
  have hst : (descRead s c t w).st = setCoreMem s false c (coreMem s false c) := coreRead_unmarked hmark
  refine ⟨fun d => ?_, ?_, ?_, congrArg (wordsOf 8) (coreRead_data s c _ _)⟩
  · rw [hst, getCore_setCoreMem_self]
  · rw [hst]; rfl
  · rw [descRead, coreRead_poison, badRun_of_unmarked hmark]

/-- The checks look at the core, and at the governor's format table. -/
theorem drainChecks_congr (hc : getCore s1 c = getCore s c) (hg : s1.gov = s.gov) (dest : Option Word) (bad : Bool) :
    drainChecks s1 c t w d0 d1 d2 dest bad = drainChecks s c t w d0 d1 d2 dest bad := by
  unfold drainChecks areaChecks inJob getThread getTile drainFmt
  simp only [hc, hg]

/-- Every condition of a descriptor that fits holds off. -/
theorem drainChecks_fits (hr : DescReady s c t w) (hd : DescFits w d0 d1 d2) (ho : OutputFits s c t w d0)
    (hz : zTilesBad s c t w d0 = false) (hw : wordChecks (getCore s c) w (tdDest s c t w) = [])
    (ha : drainAreas s c t w d0 d1 (tdDest s c t w) = []) (hv : ∀ v ∈ tdVecs w d0, ((getThread s c t).regs.sGet v).p = false) :
    drainChecks s c t w d0 d1 d2 (tdDest s c t w) false = [] := by
  have hpoison : (tdVecs w d0).filter (fun v => ((getThread s c t).regs.sGet v).p) = [] :=
    List.filter_eq_nil_iff.2 (fun v hm => by simp [hv v hm])
  rw [drainChecks_eq, hw, descBad_fits hd, outputBad_fits ho, hz, destPoison_clean hr.second, ha, hpoison]
  rfl

/-! ## The job that joins -/

/-- The scales of a TDRAIN are written to s[OSV]. -/
def scalesOut (d0 : Word) : Bool := ddOsc d0 == 1 || ddOsc d0 == 2

theorem scalesOut_eq (d0 : Word) : decide (ddOsc d0 = 1 ∨ ddOsc d0 = 2) = scalesOut d0 := by
  rw [Bool.decide_or]; rfl

/-- The job that an issue queues under a number. -/
def drainJobOf (s : State) (c t : Nat) (w d0 d1 d2 : Word) (id : Nat) : DrainJob :=
  let th := getThread s c t
  { id := id, seq := (getCore s c).tile.nextId, thread := t, word := w, d0 := d0, d1 := d1, d2 := d2, dest := (tdDest s c t w).getD 0
    td := phys th (field w 55 51), tz := phys th (field w 45 41), fmt := drainFmt s w d0
    rs := (th.regs.sGet (ddRsv d0)).v, zs := (th.regs.sGet (ddZsv d0)).v, job := !th.st.pm, phase := .issued
    vals := [], vals2 := [], rmax := [], counts := [], prow := 0, ppois := false, qexp := [], rowsOut := 0 }

/-- A core whose drain holds one more job, and which awaits s[OSV] where the job writes it. -/
def Core.withJob (k : Core) (t : Nat) (d0 : Word) (job : Nat → DrainJob) : Core :=
  { k with
    tile := { k.tile with nextId := k.tile.nextId + 1 }
    drain := { k.drain with jobs := k.drain.jobs ++ [job k.drain.nextId], nextId := k.drain.nextId + 1 }
    ctl := if scalesOut d0 then { k.ctl with sBusy := (t, ddOsv d0) :: k.ctl.sBusy } else k.ctl }

/-- The state whose drain has taken the TDRAIN, its pc not yet passed: g is the read of its descriptor, ws the words read. -/
def drainJoined (s : State) (c t : Nat) (w : Word) (g : Got) (ws : List Nat) : State :=
  updCore g.st c (fun k => k.withJob t (word (ws.getD 0 0))
    (drainJobOf s c t w (word (ws.getD 0 0)) (word (ws.getD 1 0)) (word (ws.getD 2 0))))

/-- A register that a TDRAIN uses awaits an earlier operation. -/
def drainRegsWait (s : State) (c t : Nat) (w d0 : Word) : Bool :=
  let tiles := (tdIdx w).map (phys (getThread s c t))
  tileWait s c tiles (if tdDst w = 0 then tiles.take (if tdGated w && tdBwd w then 2 else 1) else []) ||
    (tdVecs w d0 ++ (if scalesOut d0 then [ddOsv d0] else [])).any ((getCore s c).sBusy t)

/-- What the body of TDRAIN answers once it has read its descriptor. -/
def descAnswer (s : State) (c t : Nat) (w : Word) (g : Got) (ws : List Nat) : Res :=
  if drainRegsWait s c t w (word (ws.getD 0 0)) then .wait
  else match firstCand (drainChecks g.st c t w (word (ws.getD 0 0)) (word (ws.getD 1 0)) (word (ws.getD 2 0)) (tdDest s c t w)
      (g.poison || (ws.drop 3).any (· != 0))) with
    | some x => .done (takeExc g.st c t x)
    | none => .done (advance (drainJoined s c t w g ws) c t)

theorem tdrainBody_of_ready (h : DescReady s c t w) :
    tdrainBody c t w s = descAnswer s c t w (descRead s c t w) (wordsOf 8 (descRead s c t w).data) := by
  have hwin : winChecks ((getCore s c).thread t) w (tdIdx w) = [] := winChecks_inside h.window
  have harea : areaChecks s c t false (gVal ((getCore s c).thread t) (field w 50 46)) 64
      ((gVal ((getCore s c).thread t) (field w 50 46)).toNat % 64 != 0) = [] := by
    rw [show (gVal ((getCore s c).thread t) (field w 50 46)).toNat % 64 = 0 from h.aligned]
    exact areaChecks_local false h.space h.area.1 h.area.2
  have hdest : (if (decide (tdDst w = 1) || decide (tdDst w = 2)) && !(((getCore s c).thread t).regs.gGet (field w 50 46 + 1)).p
      then some (gVal ((getCore s c).thread t) (field w 50 46 + 1)) else none) = tdDest s c t w := by
    unfold tdDest
    by_cases hd : tdDst w = 1 ∨ tdDst w = 2
    · rw [if_pos hd, show (((getCore s c).thread t).regs.gGet (field w 50 46 + 1)).p = false from h.second hd, ← Bool.decide_or,
        decide_eq_true hd]
      rfl
    · rw [if_neg hd, ← Bool.decide_or, decide_eq_false hd]
      rfl
  have hpair := h.pair
  have hord : mustFollow s c t false false (addrOff (gVal ((getCore s c).thread t) (field w 50 46))) 64 = false := h.order
  rw [getThread] at hpair
  unfold tdrainBody
  dsimp only
  rw [hdest, hwin, hpair, if_neg (by decide : ¬ (false = true)), harea, h.free, hord]
  rfl

theorem tdrainBody_joins (h : DescReady s c t w) (hwait : drainRegsWait s c t w (descWord s c t w 0) = false)
    (hx : drainChecks s c t w (descWord s c t w 0) (descWord s c t w 1) (descWord s c t w 2) (tdDest s c t w) false = [])
    (hrest : ∀ x ∈ (descWords s c t w).drop 3, x = 0) :
    tdrainBody c t w s = .done (advance (drainJoined s c t w (descRead s c t w) (descWords s c t w)) c t) := by
  obtain ⟨hcores, hst, hpois, hdata⟩ := descRead_effect h
  have hany : ((descWords s c t w).drop 3).any (· != 0) = false := List.any_eq_false.2 (fun x hm => by simp [hrest x hm])
  rw [← drainChecks_congr (hcores c) (by rw [hst])] at hx
  rw [descWord] at hwait
  unfold descWord at hx
  rw [tdrainBody_of_ready h, hdata, descAnswer, hwait, hpois, hany, if_neg (by decide), Bool.or_false, hx, firstCand_nil]

theorem tdrainPriv_none (h : DescReady s c t w) (hd : ∀ a, tdDest s c t w = some a → tdDst w = 1 → field a 63 56 ≠ 0x0F) :
    tdrainPriv c t w s = none := by
  have hpair : controlJob s c t (field w 50 46) = none := controlJob_of_other (by
    rw [show field (gVal (getThread s c t) (field w 50 46)) 63 56 = 0 from h.space]; decide)
  unfold tdrainPriv
  rw [hpair]
  dsimp only
  split
  · next h1 => exact controlJob_of_other (hd _ (if_pos (.inl h1)) h1)
  · rfl

/-! ## What a TDRAIN leaves -/

/-- The core after the job has joined: no other part of it has changed. -/
theorem getCore_drainJoined (h : DescReady s c t w) (ws : List Nat) : getCore (drainJoined s c t w (descRead s c t w) ws) c =
    (getCore s c).withJob t (word (ws.getD 0 0))
      (drainJobOf s c t w (word (ws.getD 0 0)) (word (ws.getD 1 0)) (word (ws.getD 2 0))) := by
  rw [drainJoined, getCore_updCore_same, (descRead_effect h).1]

theorem getCore_drainJoined_other (h : DescReady s c t w) (ws : List Nat) {d : Nat} (hd : d ≠ c) :
    getCore (drainJoined s c t w (descRead s c t w) ws) d = getCore s d := by
  rw [drainJoined, getCore_updCore_other _ _ hd, (descRead_effect h).1]

/-- After a TDRAIN of thread t of core c: its drain holds one more job, s[OSV] is awaited where the job writes it, the pc is past the
instruction, and the tile unit has numbered one more operation. -/
structure JobJoined (s : State) (c t : Nat) (d0 : Word) (job : DrainJob) (s' : State) : Prop where
  thread : getThread s' c t = stepped { getThread s c t with pc := (getThread s c t).pc + 8 }
  threads : ∀ x, x ≠ t → getThread s' c x = getThread s c x
  awaited : (getCore s' c).ctl.sBusy = (if scalesOut d0 then [(t, ddOsv d0)] else []) ++ (getCore s c).ctl.sBusy
  tile : (getCore s' c).tile = { (getCore s c).tile with nextId := (getCore s c).tile.nextId + 1 }
  mem : (getCore s' c).mem = (getCore s c).mem
  cores : ∀ d, d ≠ c → getCore s' d = getCore s d
  drain : (getCore s' c).drain = { (getCore s c).drain with
    jobs := (getCore s c).drain.jobs ++ [job], nextId := (getCore s c).drain.nextId + 1 }

theorem withJob_sBusy (k : Core) (t : Nat) (d0 : Word) (job : Nat → DrainJob) :
    (k.withJob t d0 job).ctl.sBusy = (if scalesOut d0 then [(t, ddOsv d0)] else []) ++ k.ctl.sBusy := by
  unfold Core.withJob
  cases scalesOut d0 <;> rfl

theorem sBusy_completed (s : State) (c t : Nat) : (getCore (completed c t s) c).ctl.sBusy = (getCore s c).ctl.sBusy := by
  rw [getCore_completed_same]; rfl

theorem tile_completed (s : State) (c t : Nat) : (getCore (completed c t s) c).tile = (getCore s c).tile := by
  rw [getCore_completed_same]; rfl

theorem drain_completed (s : State) (c t : Nat) : (getCore (completed c t s) c).drain = (getCore s c).drain := by
  rw [getCore_completed_same]; rfl

theorem jobJoined_completed (h : DescReady s c t w) : JobJoined s c t (descWord s c t w 0)
    (drainJobOf s c t w (descWord s c t w 0) (descWord s c t w 1) (descWord s c t w 2) (getCore s c).drain.nextId)
    (completed c t (drainJoined s c t w (descRead s c t w) (descWords s c t w))) := by
  have hcore := getCore_drainJoined h (descWords s c t w)
  have hthread (x : Nat) : getThread (drainJoined s c t w (descRead s c t w) (descWords s c t w)) c x = getThread s c x := by
    rw [getThread, hcore]; rfl
  refine ⟨?_, fun x hx => ?_, ?_, ?_, ?_, fun d hd => ?_, ?_⟩
  · rw [getThread_completed_same, hthread]
  · rw [getThread_completed_other _ _ hx, hthread]
  · rw [sBusy_completed, hcore, withJob_sBusy]; rfl
  · rw [tile_completed, hcore]; rfl
  · rw [completed_mem, hcore]; rfl
  · rw [getCore_completed_other _ _ hd, getCore_drainJoined_other h _ hd]
  · rw [drain_completed, hcore]; rfl

/-- A TDRAIN that issues with a descriptor and operands that fit joins the drain. -/
theorem tdrain_joins (hi : Issues .tdrain c t w s) (hr : Ready c t { gIn := tdPair w } s) (h : DescReady s c t w)
    (hd : ∀ a, tdDest s c t w = some a → tdDst w = 1 → field a 63 56 ≠ 0x0F) (hwait : drainRegsWait s c t w (descWord s c t w 0) = false)
    (hx : drainChecks s c t w (descWord s c t w 0) (descWord s c t w 1) (descWord s c t w 2) (tdDest s c t w) false = [])
    (hrest : ∀ x ∈ (descWords s c t w).drop 3, x = 0) :
    Runs (.tdrain c t w) s (JobJoined s c t (descWord s c t w 0)
      (drainJobOf s c t w (descWord s c t w 0) (descWord s c t w 1) (descWord s c t w 2) (getCore s c).drain.nextId)) :=
  runs_of_done (f := { uses := { gIn := tdPair w }, priv := tdrainPriv c t w s, body := tdrainBody c t w }) rfl hi
    ⟨hr.free, rfl, tdrainPriv_none h hd⟩ (tdrainBody_joins h hwait hx hrest) (jobJoined_completed h)

end Sys2Proof.Machine
end

section
/-!
PROOFS. The drain's first pass (04 R162, R164–R166).
-/

namespace Sys2Proof.Machine

variable {s s1 : State} {c : Nat} {j : DrainJob}

/-! ## Bytes of a block -/

/-- The first k bytes of a list, those it does not have as zeros. -/
theorem takeBytes_eq_map (k : Nat) (l : List Byte) : takeBytes k l = (List.range k).map (fun i => l.getD i 0) := by
  induction k generalizing l with
  | zero => rfl
  | succ k ih => cases l <;> simp [takeBytes, ih, List.range_succ_eq_map, Function.comp_def]

theorem bytesAt_congr {l l' : List Byte} {off n : Nat} (h : ∀ i, i < n → l.getD (off + i) 0 = l'.getD (off + i) 0) :
    bytesAt l off n = bytesAt l' off n := by
  have hbyte (l : List Byte) (i : Nat) : (l.drop off).getD i 0 = l.getD (off + i) 0 := by simp [List.getD_eq_getElem?_getD]
  simp only [bytesAt, takeBytes_eq_map, hbyte]
  exact congrArg ofBytes (List.map_congr_left (fun i hi => h i (List.mem_range.1 hi)))

/-- A list made of pieces of one length: byte i of piece k. -/
theorem getD_flatMap {α : Type} {f : α → List Byte} {n : Nat} (hf : ∀ x, (f x).length = n) {l : List α} {k i : Nat}
    (hi : i < n) (hk : k < l.length) :
    (l.flatMap f).getD (n * k + i) 0 = (f l[k]).getD i 0 := by
  induction l generalizing k with
  | nil => simp at hk
  | cons x l ih =>
    rw [List.flatMap_cons]
    cases k with
    | zero => rw [List.getD_append _ _ _ _ (by rw [hf]; omega)]; simp
    | succ k =>
      rw [List.getD_append_right _ _ _ _ (by rw [hf]; nlinarith), hf, show n * (k + 1) + i - n = n * k + i by rw [Nat.mul_succ]; omega,
        ih (by simpa using hk)]
      rfl

/-! ## The parameter block -/

/-- One vector of the parameter block: read where it is selected, zeros where not. -/
def paramChunk (m : Mem) (base : Nat) (x : Bool × Nat) : List Byte :=
  if x.1 then m.getBytes (base + 128 * x.2) 128 else List.replicate 128 0

theorem paramChunk_length (m : Mem) (base : Nat) (x : Bool × Nat) : (paramChunk m base x).length = 128 := by
  unfold paramChunk
  split
  · exact getBytes_length m _ _
  · exact List.length_replicate

/-- One step of the read of the parameter block. -/
def paramStep (c base : Nat) (g : Got) (x : Bool × Nat) : Got :=
  if x.1 then
    let r := coreRead g.st false c (base + 128 * x.2) 128
    ⟨g.data ++ r.data, g.pois ++ r.pois, r.st⟩
  else ⟨g.data ++ List.replicate 128 0, g.pois, g.st⟩

theorem paramRead_eq (s : State) (c : Nat) (j : DrainJob) :
    paramRead s c j = (paramVecs j.word j.d0).zipIdx.foldl (paramStep c (ddPbase j.d0)) ⟨[], [], s⟩ := rfl

/-- A read of a block without marks changes no core, finds no poison, and gives what the memory holds. -/
structure ReadClean (s : State) (c base : Nat) (l : List (Bool × Nat)) (g : Got) : Prop where
  cores : ∀ d, getCore g.st d = getCore s d
  poison : g.poison = false
  data : g.data = l.flatMap (paramChunk (getCore s c).mem.localMem base)

theorem readClean_step (hm : ∀ x, (getCore s c).mem.localMem.mark x = Mark.none) {base : Nat} {l : List (Bool × Nat)} {g : Got}
    (h : ReadClean s c base l g) (x : Bool × Nat) : ReadClean s c base (l ++ [x]) (paramStep c base g x) := by
  have hmem : coreMem g.st false c = (getCore s c).mem.localMem := by rw [coreMem_local, h.cores]
  have hun : ∀ x, (coreMem g.st false c).mark x = Mark.none := fun x => by rw [hmem]; exact hm x
  unfold paramStep
  split
  · next hx =>
    refine ⟨fun d => (getCore_coreRead_unmarked hun _ _ d).trans (h.cores d), ?_, ?_⟩
    · have hr := coreRead_poison g.st false c (base + 128 * x.2) 128
      rw [badRun_unmarked hun] at hr
      exact (List.any_append).trans (by rw [show g.pois.any id = false from h.poison]; exact hr)
    · dsimp only
      rw [h.data, coreRead_data, h.cores, List.flatMap_append, List.flatMap_singleton, paramChunk, if_pos hx]
  · next hx =>
    refine ⟨h.cores, h.poison, ?_⟩
    dsimp only
    rw [h.data, List.flatMap_append, List.flatMap_singleton, paramChunk, if_neg hx]

theorem readClean_paramRead (hm : ∀ x, (getCore s c).mem.localMem.mark x = Mark.none) (j : DrainJob) :
    ReadClean s c (ddPbase j.d0) (paramVecs j.word j.d0).zipIdx (paramRead s c j) := by
  have hfold (l done : List (Bool × Nat)) (g : Got) (h : ReadClean s c (ddPbase j.d0) done g) :
      ReadClean s c (ddPbase j.d0) (done ++ l) (l.foldl (paramStep c (ddPbase j.d0)) g) := by
    induction l generalizing done g with
    | nil => rwa [List.append_nil]
    | cons x l ih =>
      have := ih (done ++ [x]) _ (readClean_step hm h x)
      rwa [List.append_assoc] at this
  exact hfold _ [] ⟨[], [], s⟩ ⟨fun _ => rfl, rfl, rfl⟩

/-- A selected vector ends within the block that is read. -/
theorem paramEnd_ge {w d0 : Word} {k : Nat} (h : (paramVecs w d0).getD k false = true) : 128 * k + 128 ≤ paramEnd w d0 := by
  have hall : ∀ a b x y : Bool, ∀ k : Fin 4, [a, b, x, y].getD k.val false = true →
      128 * k.val + 128 ≤ (([a, b, x, y].zipIdx.filter (·.1)).foldl (fun _ x => 128 * x.2 + 128) 0) := by decide
  have hk : k < 4 := by
    by_contra hk
    rw [List.getD_eq_default _ _ (by simp [paramVecs]; omega)] at h
    cases h
  exact hall _ _ _ _ ⟨k, hk⟩ h

/-- A lane of a selected vector is what the memory holds, in the block read and in the bytes from its base. -/
theorem paramLane_selected {w d0 : Word} {k n : Nat} (h : (paramVecs w d0).getD k false = true) (hn : n < 32) (m : Mem) (base : Nat) :
    paramLane ((paramVecs w d0).zipIdx.flatMap (paramChunk m base)) (128 * k) n = paramLane (m.getBytes base (paramEnd w d0)) (128 * k) n := by
  have hk : k < (paramVecs w d0).length := by
    by_contra hk
    rw [List.getD_eq_default _ _ (by omega)] at h
    cases h
  have hbyte (a len i : Nat) (hi : i < len) : (m.getBytes a len).getD i 0 = m.byte (a + i) := by
    have hl : i < (m.getBytes a len).length := by rwa [getBytes_length]
    rw [List.getD_eq_getElem _ _ hl, getBytes_getElem]
  refine bytesAt_congr (fun i hi => ?_)
  have hend := paramEnd_ge h
  have hsel : (paramVecs w d0).zipIdx[k]'(by simpa using hk) = (true, k) := by
    rw [List.getElem_zipIdx, ← h, List.getD_eq_getElem _ _ hk, Nat.zero_add]
  rw [show 128 * k + 4 * n + i = 128 * k + (4 * n + i) by omega, getD_flatMap (paramChunk_length m base) (by omega) (by simpa using hk), hsel,
    paramChunk, if_pos rfl, hbyte _ _ _ (by omega), hbyte _ _ _ (by omega), Nat.add_assoc]

/-! ## The values -/

/-- The linear part of a value looks at the vectors that the descriptor selects. -/
theorem drainLin_congr {bank : AccBank} {p p' : List Byte} {bOff cOff n : Nat}
    (hb : ddBias j.d0 = true → paramLane p bOff n = paramLane p' bOff n) (hc : ddCsc j.d0 = true → paramLane p cOff n = paramLane p' cOff n)
    (r : Nat) : drainLin bank p j bOff cOff r n = drainLin bank p' j bOff cOff r n := by
  unfold drainLin
  dsimp only
  cases h1 : ddBias j.d0 <;> cases h2 : ddCsc j.d0 <;> simp [hb, hc, h1, h2]

/-- The value of an element looks at the core, and at the parameter vectors selected. -/
theorem drainValue_congr {p p' : List Byte} {n : Nat} (hcore : getCore s1 c = getCore s c)
    (hp : ∀ k, (paramVecs j.word j.d0).getD k false = true → paramLane p (128 * k) n = paramLane p' (128 * k) n) (r : Nat) :
    drainValue s1 c j p r n = drainValue s c j p' r n := by
  have hlow (b : AccBank) : drainLin b p j 0x000 0x080 r n = drainLin b p' j 0x000 0x080 r n := drainLin_congr (hp 0) (hp 1) r
  have htile (x : Nat) : getTile s1 c x = getTile s c x := getTile_eq hcore x
  unfold drainValue
  dsimp only
  rw [hcore, htile, htile, hlow]
  cases hb : tdBwd j.word
  · cases hg : tdGated j.word
    · simp only [Bool.not_false, if_true, Bool.false_eq_true, if_false]
    · rw [drainLin_congr (bOff := 0x100) (cOff := 0x180) (fun h => hp 2 (by simp [paramVecs, hb, hg, h]))
        (fun h => hp 3 (by simp [paramVecs, hb, hg, h])) r]
  · simp only [Bool.not_true, Bool.false_eq_true, if_false]

/-- A row's values. -/
def valueRow (s : State) (c : Nat) (j : DrainJob) (p : List Byte) (r : Nat) : List (Nat × Nat) :=
  (List.range (ddCols j.d0)).map (fun n => drainValue s c j p r n)

/-- Both values of each element of a row, where a drain has two. -/
def bothValues (j : DrainJob) (row : List (Nat × Nat)) : List Nat :=
  row.map (·.1) ++ (if tdGated j.word && tdBwd j.word then row.map (·.2) else [])

/-- A row of a bank or of a Z tile that the drain reads is poisoned. -/
def rowPoisoned (s : State) (c : Nat) (j : DrainJob) (r : Nat) : Bool :=
  (tdBanks j.word).any (fun b => (getBank (getCore s c) b).prow.getLsbD r) ||
    (drainReads j).any (fun z => (getTile s c z).prow.getLsbD r)

/-- The largest finite magnitude of a row; 0 for one that is poisoned. -/
def rowLargest (s : State) (c : Nat) (j : DrainJob) (p : List Byte) (r : Nat) : Nat :=
  if rowPoisoned s c j r then 0 else rowMax (bothValues j (valueRow s c j p r))

/-- The rows of a mask set one by one. -/
def setRows (l : List Nat) (f : Nat → Bool) : BitVec 32 := l.foldl (fun p r => setBit32 p r (f r)) 0

theorem getLsbD_setRows {l : List Nat} (hl : ∀ r ∈ l, r < 32) (f : Nat → Bool) {i : Nat} (hi : i ∈ l) : (setRows l f).getLsbD i = f i := by
  have hfold (l : List Nat) (hl : ∀ r ∈ l, r < 32) (v : BitVec 32) (i : Nat) (hi : i < 32) :
      (l.foldl (fun p r => setBit32 p r (f r)) v).getLsbD i = if i ∈ l then f i else v.getLsbD i := by
    induction l generalizing v with
    | nil => rfl
    | cons r l ih =>
      have hbit : (setBit32 v r (f r)).getLsbD i = if i = r then f i else v.getLsbD i := by
        rw [setBit32, getLsbD_setField _ _ (le_refl r) hi]
        by_cases h : i = r
        · subst h; rw [if_pos ⟨le_refl _, le_refl _⟩, if_pos rfl, Nat.sub_self]; cases f i <;> rfl
        · rw [if_neg (by omega), if_neg h]
      rw [List.foldl_cons, ih (fun x hx => hl x (List.mem_cons_of_mem _ hx)), hbit]
      by_cases h : i = r <;> by_cases hm : i ∈ l <;> simp [h, hm]
  rw [setRows, hfold l hl 0 i (hl i hi), if_pos hi]

/-! ## The pass -/

/-- The job after its first pass, which has read the parameter block as p without an error. -/
def passedJob (s : State) (c : Nat) (j : DrainJob) (p : List Byte) (counts : List Nat) : DrainJob :=
  let rows := List.range (ddRows j.d0)
  { j with
    vals := rows.map (fun r => (valueRow s c j p r).map (·.1))
    vals2 := if tdGated j.word && tdBwd j.word then rows.map (fun r => (valueRow s c j p r).map (·.2)) else []
    rmax := rows.map (fun r => rowLargest s c j p r), counts := counts, prow := setRows rows (fun r => rowPoisoned s c j r), ppois := false }

/-- A first pass that has read its parameter block without an error gives the job its values; its scales follow, or its contribution. -/
theorem firstPassOf_of_clean {l : List (Bool × Nat)} {base : Nat} (h : ReadClean s c base l (paramRead s c j)) : ∃ counts,
    firstPassOf s c j =
      (let j' := passedJob s c j (paramRead s c j).data counts
       let s1 := updJob (paramRead s c j).st c j.id (fun _ => j')
       if ddOsc j.d0 = 2 then drainContribute s1 c j' else drainScale s1 c j' (if ddOsc j.d0 = 1 then j'.rmax else [])) := by
  obtain ⟨hcores, hpois, -⟩ := h
  have htile (x : Nat) : getTile (paramRead s c j).st c x = getTile s c x := getTile_eq (hcores c) x
  have hval (r n : Nat) : drainValue (paramRead s c j).st c j (paramRead s c j).data r n = drainValue s c j (paramRead s c j).data r n :=
    drainValue_congr (hcores c) (fun _ _ => rfl) r
  have hzip {β : Type} (f : Nat → β) (l : List Nat) : l.zip (l.map f) = l.map (fun r => (r, f r)) := by
    simpa using List.zip_map' (f := id) (g := f) (l := l)
  unfold firstPassOf
  simp only [hpois, htile, hval, hcores, hzip, Bool.false_or, List.map_map, Function.comp_def]
  generalize (List.foldl _ (List.replicate 19 0) _ : List Nat) = counts
  refine ⟨counts, ?_⟩
  simp only [passedJob, valueRow, rowLargest, bothValues, rowPoisoned, setRows, List.map_map, Function.comp_def]

end Sys2Proof.Machine
end

section
/-!
PROOFS. The scales of a TDRAIN: its first pass where it reduces over no core, and the result of its token reap (04 R165, R166, R171).
-/

namespace Sys2Proof.Machine

variable {s s1 : State} {c : Nat} {j : DrainJob}

/-! ## Scales -/

/-- The exponents that row maxima give, 0 for a row that is poisoned. -/
def scaleExps (j : DrainJob) (ms : List Nat) : List Int :=
  (List.range (ddRows j.d0)).map (fun r => if j.prow.getLsbD r then 0 else qExp j.fmt (ms.getD r 0))

/-- The jobs of the drain with one of them changed. -/
def jobsWith (l : List DrainJob) (id : Nat) (f : DrainJob → DrainJob) : List DrainJob := l.map (fun x => if x.id = id then f x else x)

theorem getCore_updJob (s : State) (c id : Nat) (f : DrainJob → DrainJob) : getCore (updJob s c id f) c =
    { getCore s c with drain := { (getCore s c).drain with jobs := jobsWith (getCore s c).drain.jobs id f } } := by
  simp only [updJob, getCore_updCore_same, jobsWith, beq_iff_eq]

theorem getCore_updJob_other (s : State) {c d : Nat} (id : Nat) (f : DrainJob → DrainJob) (h : d ≠ c) :
    getCore (updJob s c id f) d = getCore s d := getCore_updCore_other _ _ h

/-- After the scales of j are known, their exponents q: f has changed the job, and s[OSV], where j writes it, holds the scales. -/
structure Scaled (s : State) (c : Nat) (j : DrainJob) (f : DrainJob → DrainJob) (q : List Int) (s' : State) : Prop where
  jobs : (getCore s' c).drain.jobs = jobsWith (getCore s c).drain.jobs j.id f
  tile : (getCore s' c).tile = (getCore s c).tile
  outs : ∀ n, findOut s' c n = findOut s c n
  cores : ∀ d, d ≠ c → getCore s' d = getCore s d
  lanes : scalesOut j.d0 = true → (getThread s' c j.thread).regs.sGet (ddOsv j.d0) = ⟨qLanes j q, false⟩
  awaited : scalesOut j.d0 = true → (getCore s' c).ctl.sBusy = (getCore s c).ctl.sBusy.erase (j.thread, ddOsv j.d0)

theorem sGet_writeS (k : Core) (t n : Nat) (v : SReg) : ((k.writeS t n v).thread t).regs.sGet n = v := by
  simp [Core.writeS, Core.updThread, Core.setThread, Core.thread]

/-- A job whose scales are known. -/
def DrainJob.scaledBy (j : DrainJob) (q : List Int) : DrainJob := { j with qexp := q, phase := .scaled }

/-- The state whose drain knows the exponents of j. -/
def exponentsKnown (s : State) (c : Nat) (j : DrainJob) (q : List Int) : State := updJob s c j.id (fun x => x.scaledBy q)

theorem drainScale_eq (s : State) (c : Nat) (j : DrainJob) (ms : List Nat) : drainScale s c j ms =
    if scalesOut j.d0 then updCore (freeOsv (exponentsKnown s c j (scaleExps j ms)) c j) c
      (fun k => k.writeS j.thread (ddOsv j.d0) ⟨qLanes j (scaleExps j ms), false⟩)
    else exponentsKnown s c j (scaleExps j ms) := rfl

theorem scaled_drainScale (s : State) (c : Nat) (j : DrainJob) (ms : List Nat) :
    Scaled s c j (fun x => x.scaledBy (scaleExps j ms)) (scaleExps j ms) (drainScale s c j ms) := by
  have hq := getCore_updJob s c j.id (fun x => x.scaledBy (scaleExps j ms))
  rw [drainScale_eq]
  cases hs : scalesOut j.d0
  · rw [if_neg (by decide)]
    refine ⟨?_, ?_, fun n => ?_, fun d hd => getCore_updJob_other s _ _ hd, by simp [hs], by simp [hs]⟩
    · rw [exponentsKnown, hq]
    · rw [exponentsKnown, hq]
    · rw [findOut, exponentsKnown, hq]; rfl
  · have hfree : freeOsv (exponentsKnown s c j (scaleExps j ms)) c j = updCore (exponentsKnown s c j (scaleExps j ms)) c
        (fun k => { k with ctl := { k.ctl with sBusy := k.ctl.sBusy.erase (j.thread, ddOsv j.d0) } }) := if_pos hs
    rw [if_pos rfl, hfree]
    refine ⟨?_, ?_, fun n => ?_, fun d hd => ?_, fun _ => ?_, fun _ => ?_⟩
    · rw [getCore_updCore_same, getCore_updCore_same, exponentsKnown, hq]; rfl
    · rw [getCore_updCore_same, getCore_updCore_same, exponentsKnown, hq]; rfl
    · rw [findOut, getCore_updCore_same, getCore_updCore_same, exponentsKnown, hq]; rfl
    · rw [getCore_updCore_other _ _ hd, getCore_updCore_other _ _ hd, exponentsKnown, getCore_updJob_other _ _ _ hd]
    · rw [getThread, getCore_updCore_same, sGet_writeS]
    · rw [getCore_updCore_same, getCore_updCore_same, exponentsKnown, hq]; rfl

theorem qLanes_congr {j' : DrainJob} (h : j'.d0 = j.d0) (q : List Int) : qLanes j' q = qLanes j q := by
  rw [qLanes, qLanes, h]

/-! ## The first pass -/

theorem firstPass_of_next (hn : nextPass s c = some j) (hp : j.phase = .issued) : firstPass s c = firstPassOf s c j := by
  unfold firstPass
  rw [hn]
  exact if_pos hp

theorem jobsWith_twice (l : List DrainJob) (id : Nat) (f g : DrainJob → DrainJob) (hf : ∀ x, x.id = id → (f x).id = id) :
    jobsWith (jobsWith l id f) id g = jobsWith l id (fun x => g (f x)) := by
  unfold jobsWith
  rw [List.map_map]
  refine List.map_congr_left (fun x _ => ?_)
  dsimp only [Function.comp_apply]
  by_cases h : x.id = id
  · rw [if_pos h, if_pos (hf x h), if_pos h]
  · rw [if_neg h, if_neg h, if_neg h]

/-- A job replaced by what its first pass made of it, and its scales then known. -/
theorem scaled_replaced {j' : DrainJob} (hs : ∀ d, getCore s1 d = getCore s d) (hid : j'.id = j.id) (hd0 : j'.d0 = j.d0)
    (hth : j'.thread = j.thread) (ms : List Nat) : Scaled s c j (fun _ => j'.scaledBy (scaleExps j' ms)) (scaleExps j' ms)
      (drainScale (updJob s1 c j.id (fun _ => j')) c j' ms) := by
  have hc := getCore_updJob s1 c j.id (fun _ => j')
  obtain ⟨hjobs, htile, houts, hcores, hlanes, hawait⟩ := scaled_drainScale (updJob s1 c j.id (fun _ => j')) c j' ms
  rw [hc, hs] at hjobs htile hawait
  rw [hd0, hth] at hlanes hawait
  refine ⟨?_, htile, fun n => ?_, fun d hd => ?_, fun h => ?_, hawait⟩
  · rw [hjobs, hid, jobsWith_twice _ _ _ _ (fun _ _ => hid)]
  · rw [houts, findOut, hc, hs]; rfl
  · rw [hcores d hd, getCore_updJob_other _ _ _ hd, hs]
  · rw [hlanes h, qLanes_congr hd0]

/-- The first pass of a TDRAIN that reduces over no core. -/
theorem firstPass_scales (hn : nextPass s c = some j) (hp : j.phase = .issued) (hm : ∀ x, (getCore s c).mem.localMem.mark x = Mark.none)
    (ho : ddOsc j.d0 ≠ 2) : ∃ j' counts q, j' = passedJob s c j (paramRead s c j).data counts ∧
      q = scaleExps j' (if ddOsc j.d0 = 1 then j'.rmax else []) ∧ Scaled s c j (fun _ => j'.scaledBy q) q (firstPass s c) := by
  have hread := readClean_paramRead hm j
  obtain ⟨counts, hpass⟩ := firstPassOf_of_clean hread
  refine ⟨_, counts, _, rfl, rfl, ?_⟩
  rw [firstPass_of_next hn hp, hpass]
  dsimp only
  rw [if_neg ho]
  exact scaled_replaced (j := j) (j' := passedJob s c j (paramRead s c j).data counts) hread.cores rfl rfl rfl _

/-- The bytes of the parameter block, from its base to the end of the last vector selected. -/
def paramBytes (s : State) (c : Nat) (j : DrainJob) : List Byte :=
  (getCore s c).mem.localMem.getBytes (ddPbase j.d0) (paramEnd j.word j.d0)

/-- A row's values are those of the block that the memory holds. -/
theorem valueRow_paramRead (hm : ∀ x, (getCore s c).mem.localMem.mark x = Mark.none) (j : DrainJob) (r : Nat) :
    valueRow s c j (paramRead s c j).data r = valueRow s c j (paramBytes s c j) r := by
  refine List.map_congr_left (fun n hn => drainValue_congr rfl (fun k hk => ?_) r)
  have hcols : ddCols j.d0 ≤ 32 := field_lt j.d0 31 27
  have hlt := List.mem_range.1 hn
  rw [(readClean_paramRead hm j).data]
  exact paramLane_selected hk (by omega) _ _

theorem passedJob_paramRead (hm : ∀ x, (getCore s c).mem.localMem.mark x = Mark.none) (j : DrainJob) (counts : List Nat) :
    passedJob s c j (paramRead s c j).data counts = passedJob s c j (paramBytes s c j) counts := by
  simp only [passedJob, rowLargest, valueRow_paramRead hm]

theorem getD_map_range {α : Type} (f : Nat → α) (d : α) {n r : Nat} (h : r < n) : ((List.range n).map f).getD r d = f r := by
  simp [List.getD_eq_getElem?_getD, h]

/-- The exponents that the first pass finds: those of its rows' magnitudes where each row has a scale, else those of zero. -/
theorem scaleExps_passed (s : State) (c : Nat) (j : DrainJob) (p : List Byte) (counts : List Nat) :
    scaleExps (passedJob s c j p counts) (if ddOsc j.d0 = 1 then (passedJob s c j p counts).rmax else []) =
      (List.range (ddRows j.d0)).map (fun r =>
        if rowPoisoned s c j r then 0 else qExp j.fmt (if ddOsc j.d0 = 1 then rowLargest s c j p r else 0)) := by
  refine List.map_congr_left (fun r hr => ?_)
  have hrows : ddRows j.d0 ≤ 32 := field_lt j.d0 36 32
  have hlt : r < ddRows j.d0 := List.mem_range.1 hr
  have hpois : (passedJob s c j p counts).prow.getLsbD r = rowPoisoned s c j r :=
    getLsbD_setRows (fun x hx => by have := List.mem_range.1 hx; omega) _ hr
  have hmax : (if ddOsc j.d0 = 1 then (passedJob s c j p counts).rmax else []).getD r 0 =
      if ddOsc j.d0 = 1 then rowLargest s c j p r else 0 := by
    split
    · exact getD_map_range _ 0 hlt
    · rfl
  rw [hpois, hmax]
  rfl

/-! ## The result of a token reap -/

/-- The one job of a drain, its scales known. -/
theorem drainScale_oneJob (hj : (getCore s c).drain.jobs = [j]) (n : Nat) (ms : List Nat) :
    (getCore (drainScale (dropOut s c n) c j ms) c).drain.jobs = [j.scaledBy (scaleExps j ms)] := by
  rw [(scaled_drainScale _ _ _ _).jobs, dropOut, setOuts, getCore_updCore_same, jobsWith]
  dsimp only
  rw [hj, List.map_singleton, if_pos rfl]

theorem tokenResult_scales {o : ReapOut} {lanes : List Nat} {f : Nat} (hj : (getCore s c).drain.jobs = [j]) (hp : j.phase = .contributed)
    (ho : findOut s c (field j.d2 7 0) = some o) (hw : o.who = .drain j.id) (hr : o.result = some (lanes, f)) :
    tokenResult s c = drainScale (dropOut s c (field j.d2 7 0)) c j lanes := by
  have hnext : nextQueued (drainScale (dropOut s c (field j.d2 7 0)) c j lanes) c (field j.d2 7 0) =
      drainScale (dropOut s c (field j.d2 7 0)) c j lanes := by
    unfold nextQueued
    rw [drainScale_oneJob hj]
    rfl
  unfold tokenResult
  dsimp only
  rw [hj, List.find?_cons_of_pos (by rw [hp, ho]; simp [hw, hr])]
  dsimp only
  rw [ho]
  dsimp only
  rw [hr]
  exact hnext

/-- The result of a token reap gives the scales; the reap is outstanding no longer. -/
theorem tokenResult_effect {o : ReapOut} {lanes : List Nat} {f : Nat} (hj : (getCore s c).drain.jobs = [j]) (hp : j.phase = .contributed)
    (ho : findOut s c (field j.d2 7 0) = some o) (hw : o.who = .drain j.id) (ht : ddOsc j.d0 = 2) (hr : o.result = some (lanes, f)) :
    findOut (tokenResult s c) c (field j.d2 7 0) = none ∧
    (getCore (tokenResult s c) c).drain.jobs = [j.scaledBy (scaleExps j lanes)] ∧
    (getThread (tokenResult s c) c j.thread).regs.sGet (ddOsv j.d0) = ⟨qLanes j (scaleExps j lanes), false⟩ := by
  have h := scaled_drainScale (dropOut s c (field j.d2 7 0)) c j lanes
  rw [tokenResult_scales hj hp ho hw hr]
  exact ⟨(h.outs _).trans (findOut_dropOut s c _), drainScale_oneJob hj _ _, h.lanes (by rw [scalesOut, ht]; rfl)⟩

end Sys2Proof.Machine
end

section
/-!
PROOFS. The drain's second pass to tiles, to memory and to nothing, and the retirement of a TDRAIN (04 R163, R166–R169, R173).
-/

namespace Sys2Proof.Machine

variable {s s1 s2 : State} {c : Nat} {j : DrainJob}

/-! ## Writes to a core's memories -/

/-- s1 is s but for core c's memories, in which still no latch operation waits at an uncorrectable word. -/
structure MemChanged (s : State) (c : Nat) (s1 : State) : Prop where
  core : getCore s1 c = { getCore s c with mem := (getCore s1 c).mem }
  cores : ∀ d, d ≠ c → getCore s1 d = getCore s d
  quiet : quietWords (getCore s1 c)

theorem MemChanged.trans (h : MemChanged s c s1) (h' : MemChanged s1 c s2) : MemChanged s c s2 where
  core := by rw [h'.core, h.core]
  cores d hd := by rw [h'.cores d hd, h.cores d hd]
  quiet := h'.quiet

theorem getCore_setGran_same (s : State) (c : Nat) (m : Mem) :
    getCore (setCoreMem s true c m) c = { getCore s c with mem := { (getCore s c).mem with gran := m } } := by
  rw [setCoreMem, if_pos rfl, setGran, getCore_updCore_same]

theorem getCore_setGran_other (s : State) {c d : Nat} (m : Mem) (h : d ≠ c) : getCore (setCoreMem s true c m) d = getCore s d := by
  rw [setCoreMem, if_pos rfl, setGran, getCore_updCore_other _ _ h]

theorem memChanged_coreWrite (hq : quietWords (getCore s c)) (gran p : Bool) (a : Nat) (bs : List Byte) :
    MemChanged s c (coreWrite s gran c p a bs) := by
  have hw := getCore_coreWrite (quietMem_of_quietWords hq gran) p a bs
  cases gran
  · refine ⟨?_, fun d hd => (hw d).trans (getCore_setLocal_other s _ hd), fun x hx => ?_⟩
    · rw [hw, getCore_setLocal_same]; rfl
    · rw [hw, getCore_setLocal_same] at hx ⊢
      have := hq x hx
      cases hg : x.gran <;> rw [hg] at this
      · exact fun he => this (write_unc he)
      · exact this
  · refine ⟨?_, fun d hd => (hw d).trans (getCore_setGran_other s _ hd), fun x hx => ?_⟩
    · rw [hw, getCore_setGran_same]
    · rw [hw, getCore_setGran_same] at hx ⊢
      have := hq x hx
      cases hg : x.gran <;> rw [hg] at this
      · exact this
      · exact fun he => this (write_unc he)

theorem memChanged_l1KillGran (hq : quietWords (getCore s c)) (a n : Nat) : MemChanged s c (l1KillGran s c a n) := by
  unfold l1KillGran l1Drop setL1
  refine ⟨?_, fun d hd => getCore_updCore_other s _ hd, ?_⟩ <;> rw [getCore_updCore_same]
  exact hq

/-! ## Rows written to memory -/

/-- One step of the rows' writes. -/
def drainMemStep (c : Nat) (j : DrainJob) (n : Nat) (s : State) (r : Nat) : State :=
  let gran := addrTag j.dest == 1
  let a := addrOff j.dest + r * field j.d1 51 32
  let bs := rowBytes (rngState s c) j r (n + ddCols j.d0 * r)
  let s := coreWrite s gran c (j.prow.getLsbD r) a bs
  if gran then l1KillGran s c a bs.length else s

theorem drainMem_eq (s : State) (c : Nat) (j : DrainJob) (n : Nat) :
    drainMem s c j n = (List.range (ddRows j.d0)).foldl (drainMemStep c j n) s := rfl

theorem memChanged_drainMemStep (hq : quietWords (getCore s c)) (j : DrainJob) (n r : Nat) : MemChanged s c (drainMemStep c j n s r) := by
  unfold drainMemStep
  dsimp only
  have hw := memChanged_coreWrite hq (addrTag j.dest == 1) (j.prow.getLsbD r) (addrOff j.dest + r * field j.d1 51 32)
    (rowBytes (rngState s c) j r (n + ddCols j.d0 * r))
  split
  · exact hw.trans (memChanged_l1KillGran hw.quiet _ _)
  · exact hw

theorem memChanged_refl (hq : quietWords (getCore s c)) : MemChanged s c s := ⟨rfl, fun _ _ => rfl, hq⟩

theorem memChanged_drainMem (hq : quietWords (getCore s c)) (j : DrainJob) (n : Nat) : MemChanged s c (drainMem s c j n) :=
  List.foldlRecOn (motive := MemChanged s c) (List.range (ddRows j.d0)) _ (memChanged_refl hq)
    (fun _ h r _ => h.trans (memChanged_drainMemStep h.quiet j n r))

theorem rowBytes_length (rng : BitVec 256) (j : DrainJob) (r n : Nat) : (rowBytes rng j r n).length = fmtBytes j.fmt (ddCols j.d0) :=
  toBytes_length _ _

/-- A write to a core's local memory leaves the bytes outside it. -/
theorem coreWrite_local_outside (hq : quietWords (getCore s c)) (p : Bool) {a x : Nat} {bs : List Byte} (h : x < a ∨ a + bs.length ≤ x) :
    (getCore (coreWrite s false c p a bs) c).mem.localMem.byte x = (getCore s c).mem.localMem.byte x := by
  rw [getCore_coreWrite (quietMem_of_quietWords hq false), getCore_setLocal_same]
  exact write_byte_outside _ _ _ _ h

/-- Rows written to LOCAL leave every byte outside them. -/
theorem drainMem_local_outside (hq : quietWords (getCore s c)) (hd : addrTag j.dest = 0) (n : Nat) {x : Nat}
    (hx : ∀ r, r < ddRows j.d0 → x < addrOff j.dest + r * field j.d1 51 32 ∨
      addrOff j.dest + r * field j.d1 51 32 + fmtBytes j.fmt (ddCols j.d0) ≤ x) :
    (getCore (drainMem s c j n) c).mem.localMem.byte x = (getCore s c).mem.localMem.byte x := by
  refine (List.foldlRecOn (motive := fun s1 => MemChanged s c s1 ∧
    (getCore s1 c).mem.localMem.byte x = (getCore s c).mem.localMem.byte x) (List.range (ddRows j.d0)) _
    ⟨memChanged_refl hq, rfl⟩ (fun s1 h r hr => ⟨h.1.trans (memChanged_drainMemStep h.1.quiet j n r), ?_⟩)).2
  unfold drainMemStep
  dsimp only
  rw [hd, if_neg (by decide)]
  exact (coreWrite_local_outside h.1.quiet _ (by rw [rowBytes_length]; exact hx r (List.mem_range.1 hr))).trans h.2

/-! ## The second pass -/

/-- What a second pass writes: td, and td + 1 of a gated backward drain, or rows in memory; nothing else of its core but memory, and no other
core, has changed. -/
structure OutputWritten (s : State) (c : Nat) (j : DrainJob) (s1 : State) : Prop where
  drain : (getCore s1 c).drain = (getCore s c).drain
  cores : ∀ d, d ≠ c → getCore s1 d = getCore s d
  tiles : ∀ x, x ≠ j.td → x ≠ j.td + 1 ∨ tdDst j.word ≠ 0 → getTile s1 c x = getTile s c x
  mem : tdDst j.word ≠ 1 → (getCore s1 c).mem = (getCore s c).mem
  unit : tdDst j.word = 3 → (getCore s1 c).tile = (getCore s c).tile
  outside : tdDst j.word = 1 → addrTag j.dest = 0 → ∀ x, (∀ r, r < ddRows j.d0 → x < addrOff j.dest + r * field j.d1 51 32 ∨
    addrOff j.dest + r * field j.d1 51 32 + fmtBytes j.fmt (ddCols j.d0) ≤ x) →
    (getCore s1 c).mem.localMem.byte x = (getCore s c).mem.localMem.byte x

theorem getCore_useDraws (s : State) (j : DrainJob) (d : Nat) : getCore (useDraws s j) d = getCore s d := getCore_drawn _ _ _ _

/-- The outputs of a second pass. -/
def passOutputs (s : State) (c : Nat) (j : DrainJob) (n : Nat) : State :=
  match tdDst j.word with
  | 0 =>
    let s := drainTile s c j j.td n j.vals
    if tdGated j.word && tdBwd j.word then drainTile s c j (j.td + 1) (n + ddRows j.d0 * ddCols j.d0) j.vals2 else s
  | 1 => drainMem s c j n
  | _ => s

theorem secondPass_eq (s : State) (c : Nat) (j : DrainJob) : secondPass s c j =
    updJob (passOutputs (useDraws s j) c j s.draws) c j.id (fun x => { x with phase := .written }) := rfl

theorem drainTile_eq (s : State) (c : Nat) (j : DrainJob) (td n : Nat) (vals : List (List Nat)) :
    ∃ r, drainTile s c j td n vals = setTile s c td r := ⟨_, rfl⟩

/-- The tile outputs change the tile unit alone, and of its registers td and td + 1. -/
theorem tileOutputs_effect (s : State) (c : Nat) (j : DrainJob) (n n2 : Nat) : ∃ u, TileNow s c u
    (let s := drainTile s c j j.td n j.vals
     if tdGated j.word && tdBwd j.word then drainTile s c j (j.td + 1) n2 j.vals2 else s) ∧
    ∀ x, x ≠ j.td → x ≠ j.td + 1 → spGet {} u.regs x = getTile s c x := by
  obtain ⟨r, hr⟩ := drainTile_eq s c j j.td n j.vals
  have h1 := (tileNow_refl s c).setTile j.td r
  dsimp only
  rw [hr]
  split
  · obtain ⟨r2, hr2⟩ := drainTile_eq (setTile s c j.td r) c j (j.td + 1) n2 j.vals2
    rw [hr2]
    refine ⟨_, h1.setTile (j.td + 1) r2, fun x hx hx1 => ?_⟩
    exact (spGet_set_other _ _ _ _ hx1).trans (spGet_set_other _ _ _ _ hx)
  · exact ⟨_, h1, fun x hx _ => spGet_set_other _ _ _ _ hx⟩

theorem outputWritten_passOutputs (hq : quietWords (getCore s c)) (j : DrainJob) (n : Nat) :
    OutputWritten s c j (passOutputs s c j n) := by
  unfold passOutputs
  split
  case h_1 hd =>
    obtain ⟨u, hu, hregs⟩ := tileOutputs_effect s c j n (n + ddRows j.d0 * ddCols j.d0)
    refine ⟨by rw [hu.core], hu.cores, fun x hx h1 => ?_, fun _ => hu.mem, fun h => ?_, fun h => ?_⟩
    · rw [hu.reg]; exact hregs x hx (h1.resolve_right (not_not.2 hd))
    · rw [hd] at h; cases h
    · rw [hd] at h; cases h
  case h_2 hd =>
    have hm := memChanged_drainMem hq j n
    refine ⟨by rw [hm.core], hm.cores, fun x _ _ => ?_, fun h => absurd hd h, fun h => ?_, fun _ ht x hx => drainMem_local_outside hq ht n hx⟩
    · rw [getTile, hm.core]; rfl
    · rw [hm.core]
  case h_3 h0 h1 => exact ⟨rfl, fun _ _ => rfl, fun _ _ _ => rfl, fun _ => rfl, fun _ => rfl, fun h => absurd h h1⟩

theorem drainSecond_of_next (hn : nextPass s c = some j) (hp : j.phase ≠ .issued) (hd : tdDst j.word ≠ 2) :
    drainSecond s c = secondPass s c j := by
  unfold drainSecond
  rw [hn]
  dsimp only
  rw [if_neg hp, if_pos (by simpa using hd)]

/-- The mark of a job's outputs as written leaves all but the jobs as it was. -/
theorem outputWritten_updJob (h : OutputWritten s c j s1) (id : Nat) (f : DrainJob → DrainJob) :
    (getCore (updJob s1 c id f) c).drain.jobs = jobsWith (getCore s c).drain.jobs id f ∧
    (∀ d, d ≠ c → getCore (updJob s1 c id f) d = getCore s d) ∧ (∀ x, getTile (updJob s1 c id f) c x = getTile s1 c x) ∧
    (getCore (updJob s1 c id f) c).mem = (getCore s1 c).mem ∧ (getCore (updJob s1 c id f) c).tile = (getCore s1 c).tile := by
  have hc := getCore_updJob s1 c id f
  refine ⟨?_, fun d hd => ?_, fun x => ?_, ?_, ?_⟩
  · rw [hc, h.drain]
  · rw [getCore_updJob_other _ _ _ hd, h.cores d hd]
  · rw [getTile, hc]; rfl
  · rw [hc]
  · rw [hc]

theorem outputWritten_congr {s0 : State} (hs : ∀ d, getCore s0 d = getCore s d) (h : OutputWritten s0 c j s1) : OutputWritten s c j s1 := by
  obtain ⟨hdrain, hcores, htiles, hmem, hunit, hout⟩ := h
  rw [hs] at hdrain hmem hunit hout
  exact ⟨hdrain, fun d hd => (hcores d hd).trans (hs d), fun x hx h1 => (htiles x hx h1).trans (getTile_eq (hs c) x), hmem, hunit, hout⟩

/-- The outputs of the second pass that a state's drain takes next. -/
theorem outputWritten_secondPass (hq : quietWords (getCore s c)) (j : DrainJob) :
    OutputWritten s c j (passOutputs (useDraws s j) c j s.draws) :=
  outputWritten_congr (getCore_useDraws s j) (outputWritten_passOutputs (by rw [getCore_useDraws]; exact hq) j s.draws)

/-! ## Retirement -/

/-- What a write of the user tables leaves of its core: the jobs, the statistics cache, the tile unit and the memories. -/
def besideTables (c : Nat) (s : State) : List DrainJob × List StatEntry × TileUnit × CoreMem :=
  ((getCore s c).drain.jobs, (getCore s c).drain.stats, (getCore s c).tile, (getCore s c).mem)

theorem besideTables_tableWrite (s : State) (c off : Nat) (bs : List Byte) : besideTables c (tableWrite s c off bs) = besideTables c s := by
  rw [besideTables, tableWrite, getCore_updCore_same]; rfl

theorem besideTables_tablesGo (s : State) (c : Nat) : besideTables c (tablesGo s c) = besideTables c s := by
  have hfold := foldl_keeps (besideTables c) (step := fun (s : State) (h : Nat × Word) => tableWrite s c h.1 (toBytes 8 h.2.toNat))
    (fun s _ => besideTables_tableWrite s c _ _)
  unfold tablesGo
  dsimp only
  rw [hfold, besideTables, getCore_updCore_same]
  rfl

/-- A TDRAIN leaves the drain: its job is gone. -/
theorem besideTables_dropJob (s : State) (c id : Nat) : besideTables c (dropJob s c id) =
    ((getCore s c).drain.jobs.filter (fun x => x.id != id), (getCore s c).drain.stats, (getCore s c).tile, (getCore s c).mem) := by
  rw [dropJob, besideTables_tablesGo, besideTables, getCore_updCore_same]

/-- Counts added to the statistics cache leave the jobs, the tile unit and the memories. -/
theorem addStats_core (s : State) (c slot : Nat) (counts : List Nat) : ∃ l, getCore (addStats s c slot counts) c =
    { getCore s c with drain := { (getCore s c).drain with stats := l } } := by
  unfold addStats
  dsimp only
  split
  · exact ⟨_, getCore_updCore_same s c _⟩
  · split
    · exact ⟨_, getCore_updCore_same (flushStat s c _) c _⟩
    · exact ⟨_, getCore_updCore_same s c _⟩

/-- The state in which a TDRAIN has left its record and its counts. -/
def recorded (s : State) (c : Nat) (j : DrainJob) : State :=
  let s := if ddStw j.d0 then coreWrite s false c false (field j.d1 19 0) (drainRecord j) else s
  if ddStaten j.d0 then addStats s c (ddSlot j.d0) j.counts else s

theorem drainRetire_of_written (h : (getCore s c).drain.jobs.find? (fun j => j.phase = .written) = some j) :
    drainRetire s c = dropJob (recorded s c j) c j.id := by
  unfold drainRetire
  rw [h]
  rfl

/-- The local memory after the record of a TDRAIN. -/
def recordedMem (m : Mem) (j : DrainJob) : Mem :=
  if ddStw j.d0 then (m.write true false (field j.d1 19 0) (drainRecord j)).mem else m

theorem recorded_effect (hq : quietWords (getCore s c)) (j : DrainJob) :
    (getCore (recorded s c j) c).drain.jobs = (getCore s c).drain.jobs ∧ (getCore (recorded s c j) c).tile = (getCore s c).tile ∧
    (getCore (recorded s c j) c).mem.localMem = recordedMem (getCore s c).mem.localMem j ∧
    (ddStaten j.d0 = false → (getCore (recorded s c j) c).drain.stats = (getCore s c).drain.stats) := by
  have hwrite : getCore (if ddStw j.d0 then coreWrite s false c false (field j.d1 19 0) (drainRecord j) else s) c =
      (getCore s c).withLocal (recordedMem (getCore s c).mem.localMem j) := by
    unfold recordedMem
    split
    · rw [getCore_coreWrite (quietMem_of_quietWords hq false), getCore_setLocal_same]; rfl
    · rfl
  unfold recorded
  dsimp only
  split
  · next hs =>
    obtain ⟨l, hl⟩ := addStats_core (if ddStw j.d0 then coreWrite s false c false (field j.d1 19 0) (drainRecord j) else s) c
      (ddSlot j.d0) j.counts
    rw [hl, hwrite]
    exact ⟨rfl, rfl, rfl, fun h => by rw [h] at hs; cases hs⟩
  · rw [hwrite]
    exact ⟨rfl, rfl, rfl, fun _ => rfl⟩

theorem drainRecord_length (j : DrainJob) : (drainRecord j).length = 192 := by
  simp [drainRecord]

/-- What a retirement leaves: the job gone, the record at its place in LOCAL. -/
theorem drainRetire_effect (hq : quietWords (getCore s c)) (h : (getCore s c).drain.jobs.find? (fun j => j.phase = .written) = some j) :
    (getCore (drainRetire s c) c).drain.jobs = (getCore s c).drain.jobs.filter (fun x => x.id != j.id) ∧
    (getCore (drainRetire s c) c).tile = (getCore s c).tile ∧
    (getCore (drainRetire s c) c).mem.localMem = recordedMem (getCore s c).mem.localMem j ∧
    (ddStaten j.d0 = false → (getCore (drainRetire s c) c).drain.stats = (getCore s c).drain.stats) := by
  obtain ⟨hjobs, htile, hmem, hstats⟩ := recorded_effect hq j
  have hdrop := besideTables_dropJob (recorded s c j) c j.id
  rw [besideTables, hjobs, htile] at hdrop
  simp only [Prod.mk.injEq] at hdrop
  obtain ⟨hj, hs, ht, hm⟩ := hdrop
  rw [drainRetire_of_written h, hj, ht, hm, hs]
  exact ⟨rfl, rfl, hmem, hstats⟩

theorem recordedMem_outside (m : Mem) (j : DrainJob) {x : Nat}
    (h : ddStw j.d0 = false ∨ x < field j.d1 19 0 ∨ field j.d1 19 0 + 192 ≤ x) : (recordedMem m j).byte x = m.byte x := by
  unfold recordedMem
  split
  · next hs =>
    exact write_byte_outside _ _ _ _ (by rw [drainRecord_length]; exact h.resolve_left (by rw [hs]; decide))
  · rfl

theorem recordedMem_inside (m : Mem) (j : DrainJob) (hs : ddStw j.d0 = true) (ha : field j.d1 19 0 % 8 = 0) {i : Nat} (hi : i < 192) :
    (recordedMem m j).byte (field j.d1 19 0 + i) = (drainRecord j).getD i 0 := by
  have hlen := drainRecord_length j
  have h := (writeFrom_words (k := 24) (f := (drainRecord j).length + 1) ha (by omega) (by omega) m).1 i (by omega)
  rw [List.getD_eq_getElem _ _ (by omega), ← h, recordedMem, if_pos hs]
  rfl

end Sys2Proof.Machine
end

section
/-!
PROOFS. A store to a user table (04 R160), and the governor's commit within the module (04 R174–R178).
-/

namespace Sys2Proof.Machine

variable {s : State} {c id : Nat} {q : Req}

/-! ## Table stores -/

/-- A table write changes its core's tables alone. -/
theorem getCore_tableWrite (s : State) (t off : Nat) (bs : List Byte) (c : Nat) : getCore (tableWrite s t off bs) c =
    { getCore s c with drain := (getCore (tableWrite s t off bs) c).drain } := by
  by_cases h : c = t
  · subst h; rw [tableWrite, getCore_updCore_same]
  · rw [tableWrite, getCore_updCore_other _ _ h]

/-- A write of one word of the tables. -/
theorem tables_tableWrite (s : State) (t off : Nat) {bs : List Byte} (h : bs.length = 4) (i : Nat) :
    spGet 0 (getCore (tableWrite s t off bs) t).drain.tables i =
      if i = off / 4 then tableMask i (BitVec.ofNat 32 (ofBytes bs)) else spGet 0 (getCore s t).drain.tables i := by
  have hbytes : bytesAt bs 0 4 = ofBytes bs := by
    obtain ⟨a, b, x, y, rfl⟩ : ∃ a b x y, bs = [a, b, x, y] := by
      match bs, h with
      | [a, b, x, y], _ => exact ⟨a, b, x, y, rfl⟩
    rfl
  have htables : (getCore (tableWrite s t off bs) t).drain.tables =
      spSet 0 (getCore s t).drain.tables (off / 4) (tableMask (off / 4) (BitVec.ofNat 32 (ofBytes bs))) := by
    rw [tableWrite, getCore_updCore_same, h, ← hbytes]
    rfl
  rw [htables]
  split
  · next hi => subst hi; exact spGet_set_same _ _ _ _
  · next hi => exact spGet_set_other _ _ _ _ hi

theorem slotHeld_of_none {k : Core} {slot : Nat} (h : ∀ j ∈ k.drain.jobs, userSlot (tdFn j.word) ≠ some slot) : slotHeld k slot = false :=
  List.any_eq_false.2 (fun j hj => by simpa using h j hj)

/-- A table store whose slot no held job names, and which follows no other of its core, is made. -/
theorem userTableWrite_made (hq : findReq s c id = some q) (hst : q.stage = .tableHeld)
    (hjobs : ∀ j ∈ (getCore s q.target).drain.jobs, userSlot (tdFn j.word) ≠ some (q.off / 0x1000))
    (hfirst : ∀ x ∈ (getCore s c).reqs.takeWhile (fun x => x.id != id), x.stage = .tableHeld → x.target ≠ q.target) :
    userTableWrite s c id = answerReq (tableWrite s q.target q.off q.data) c id 0 false := by
  have hall : ((getCore s c).reqs.takeWhile (fun x => x.id != id)).all (fun x => x.stage != .tableHeld || x.target != q.target) = true := by
    refine List.all_eq_true.2 (fun x hx => ?_)
    by_cases h : x.stage = .tableHeld
    · simp [hfirst x hx h]
    · simp [h]
  unfold userTableWrite
  rw [hq]
  dsimp only
  rw [hall, slotHeld_of_none hjobs, hst]
  rfl

theorem drain_answerReq (s : State) (c id v : Nat) (p : Bool) (d : Nat) : (getCore (answerReq s c id v p) d).drain = (getCore s d).drain := by
  by_cases h : d = c
  · subst h; rw [answerReq, getCore_updCore_same]
  · rw [getCore_answerReq_other _ _ _ _ h]

theorem userTableWrite_effect (hq : findReq s c id = some q) (hst : q.stage = .tableHeld) (hlen : q.data.length = 4)
    (hjobs : ∀ j ∈ (getCore s q.target).drain.jobs, userSlot (tdFn j.word) ≠ some (q.off / 0x1000))
    (hfirst : ∀ x ∈ (getCore s c).reqs.takeWhile (fun x => x.id != id), x.stage = .tableHeld → x.target ≠ q.target) :
    findReq (userTableWrite s c id) c id = some (answered s c q 0 false) ∧
    ∀ i, spGet 0 (getCore (userTableWrite s c id) q.target).drain.tables i =
      if i = q.off / 4 then tableMask i (BitVec.ofNat 32 (ofBytes q.data)) else spGet 0 (getCore s q.target).drain.tables i := by
  have hcore := getCore_tableWrite s q.target q.off q.data c
  have hfound : findReq (tableWrite s q.target q.off q.data) c id = some q := by rw [findReq, hcore]; exact hq
  rw [userTableWrite_made hq hst hjobs hfirst]
  refine ⟨(findReq_answerReq hfound 0 false).trans ?_, fun i => ?_⟩
  · rw [answered, answered, hcore]
  · rw [drain_answerReq, tables_tableWrite _ _ _ hlen]

/-! ## Folds over a sparse map -/

theorem spHas_of_lt {β : Type} {l : Sparse β} {n : Nat} (h : ∀ p ∈ l, n < p.1) : spHas l n = false := by
  induction l with
  | nil => rfl
  | cons p r ih =>
    obtain ⟨k, v⟩ := p
    have hk : n < k := h (k, v) List.mem_cons_self
    rw [spHas, ih (fun p hp => h p (List.mem_cons_of_mem _ hp)), Bool.or_false, beq_eq_false_iff_ne]
    omega

theorem spGet_of_not_has {β : Type} (d : β) {l : Sparse β} {n : Nat} (h : spHas l n = false) : spGet d l n = d := by
  induction l with
  | nil => rfl
  | cons p r ih =>
    obtain ⟨k, v⟩ := p
    simp only [spHas, Bool.or_eq_false_iff, beq_eq_false_iff_ne] at h
    rw [spGet, if_neg h.1, ih h.2]

/-- A fold over a map with rising keys, whose step changes the entry that it looks at, changes each listed entry once. -/
theorem spGet_foldl {α β : Type} {d : α} {e : β} {step : Sparse α → Nat × β → Sparse α} {f : α → β → α}
    (hstep : ∀ m p n, spGet d (step m p) n = if n = p.1 then f (spGet d m n) p.2 else spGet d m n) {l : Sparse β}
    (hl : l.Pairwise (fun a b => a.1 < b.1)) (m : Sparse α) (n : Nat) :
    spGet d (l.foldl step m) n = if spHas l n = true then f (spGet d m n) (spGet e l n) else spGet d m n := by
  induction l generalizing m with
  | nil => rfl
  | cons p r ih =>
    obtain ⟨k, v⟩ := p
    obtain ⟨hk, hr⟩ := List.pairwise_cons.1 hl
    rw [List.foldl_cons, ih hr, hstep]
    by_cases h : n = k
    · subst h
      simp [spHas_of_lt hk, spHas, spGet]
    · simp [spHas, spGet, h]

/-! ## The commit -/

/-- What the summing of the counters leaves: the slots and what the commit is made under, and each core's tile unit and memories. -/
def besideCounters (c : Nat) (s : State) : Sparse GovSlot × GovCfg × List (Nat × Nat) × Nat × TileUnit × CoreMem :=
  (s.gov.slots, s.gov.cfg, s.gov.later, s.gov.again, (getCore s c).tile, (getCore s c).mem)

theorem besideCounters_flush (s : State) (d c : Nat) : besideCounters c
    (updCore s d (fun k => { k with drain := { k.drain with stats := [] } })) = besideCounters c s := by
  unfold besideCounters
  by_cases h : c = d
  · subst h; rw [getCore_updCore_same]; rfl
  · rw [getCore_updCore_other _ _ h]; rfl

/-- One core's cache flushed to the die's counters. -/
def flushCore (s : State) (c : Nat) : State :=
  let es := (getCore s c).drain.stats
  if es.isEmpty then s
  else es.foldl (fun s e => flushStat s c e) (updCore s c (fun k => { k with drain := { k.drain with stats := [] } }))

theorem besideCounters_flushCore (s : State) (d c : Nat) : besideCounters c (flushCore s d) = besideCounters c s := by
  have hfold := foldl_keeps (besideCounters c) (step := fun s e => flushStat s d e) (fun _ _ => rfl)
  unfold flushCore
  dsimp only
  split
  · rfl
  · rw [hfold, besideCounters_flush]

/-- The dies' counters summed by slot. -/
def dieSums (dies : Sparse (List Nat)) : Sparse (List Nat) :=
  dies.foldl (fun m p => spUpd [] m (p.1 % 4096) (fun a => satCounts a p.2)) []

/-- The state whose caches are all flushed. -/
def flushedAll (s : State) : State := (allCores s).foldl flushCore s

theorem govSum_eq (s : State) : govSum s =
    { flushedAll s with gov := { (flushedAll s).gov with dies := [], sums := dieSums (flushedAll s).gov.dies } } := rfl

theorem besideCounters_govSum (s : State) (c : Nat) : besideCounters c (govSum s) = besideCounters c s :=
  foldl_keeps (besideCounters c) (fun s d => besideCounters_flushCore s d c) (allCores s) s

theorem sums_govSum_wf (s : State) : spWf (fun _ => []) (govSum s).gov.sums :=
  List.foldlRecOn (motive := fun m => spWf (fun _ => []) m) _ _ (spWf_nil _) (fun _ h _ _ => spWf_set h _ _)

/-- The slots after the rules. -/
def ruledSlots (s : State) (rules : Bool) : Sparse GovSlot :=
  if rules then s.gov.sums.foldl (fun m p => spUpd {} m p.1 (fun g => govRule s.gov.cfg g p.2)) s.gov.slots else s.gov.slots

/-- The format table that slots give. -/
def formatTable (slots : Sparse GovSlot) : Sparse Nat := slots.foldl (fun m p => spSet 1 m p.1 p.2.fmt) []

theorem govFinish_last (ha : s.gov.again = 0) (hl : s.gov.later = []) (rules : Bool) : govFinish s rules = { s with gov := { s.gov with
    slots := ruledSlots s rules, table := formatTable (ruledSlots s rules), last := s.gov.sums, sums := [], due := none, later := [] } } := by
  unfold govFinish
  dsimp only
  rw [hl, if_pos ha]
  rfl

theorem ruledSlots_wf (h : spWf (fun _ => ({} : GovSlot)) s.gov.slots) (rules : Bool) : spWf (fun _ => ({} : GovSlot)) (ruledSlots s rules) := by
  unfold ruledSlots
  split
  · exact List.foldlRecOn (motive := fun m => spWf (fun _ => ({} : GovSlot)) m) _ _ h (fun _ h _ _ => spWf_set h _ _)
  · exact h

/-- The rules change each slot that has counts. -/
theorem spGet_ruledSlots (h : spWf (fun _ => []) s.gov.sums) (rules : Bool) (n : Nat) : spGet {} (ruledSlots s rules) n =
    if rules = true ∧ spHas s.gov.sums n = true then govRule s.gov.cfg (spGet {} s.gov.slots n) (spGet [] s.gov.sums n)
    else spGet {} s.gov.slots n := by
  unfold ruledSlots
  cases rules
  · simp
  · rw [if_pos rfl, spGet_foldl (e := []) (f := fun g a => govRule s.gov.cfg g a) (fun m p n => ?_) h.1]
    · simp only [true_and]
    · split
      · next hn => rw [hn, spGet_upd_same]
      · next hn => exact spGet_upd_other _ _ _ _ hn

/-- The table holds every slot's format. -/
theorem spGet_formatTable {slots : Sparse GovSlot} (h : spWf (fun _ => ({} : GovSlot)) slots) (n : Nat) :
    spGet 1 (formatTable slots) n = (spGet {} slots n).fmt := by
  rw [formatTable, spGet_foldl (e := ({} : GovSlot)) (f := fun _ g => g.fmt) (fun m p n => ?_) h.1]
  · split
    · rfl
    · next hn => rw [spGet_of_not_has ({} : GovSlot) (Bool.eq_false_of_not_eq_true hn)]; rfl
  · split
    · next hn => rw [hn, spGet_set_same]
    · next hn => exact spGet_set_other _ _ _ _ hn

/-- A commit within the module that is not repeated. -/
theorem govCommit_module (hd : s.gov.due = some 0) (hf : s.gov.cfg.fabric = false) (ha : s.gov.again = 0) (hl : s.gov.later = []) :
    govCommit s = { govSum s with gov := { (govSum s).gov with
      slots := ruledSlots (govSum s) s.gov.cfg.enable, table := formatTable (ruledSlots (govSum s) s.gov.cfg.enable)
      last := (govSum s).gov.sums, sums := [], due := none, later := [] } } := by
  have hb := besideCounters_govSum s 0
  simp only [besideCounters, Prod.mk.injEq] at hb
  obtain ⟨-, hcfg, hlater, hagain, -⟩ := hb
  rw [← govFinish_last (hagain.trans ha) (hlater.trans hl)]
  unfold govCommit
  rw [hd]
  dsimp only
  rw [if_pos rfl, hcfg, hf]
  rfl

theorem governorCommit_effect (hd : s.gov.due = some 0) (hf : s.gov.cfg.fabric = false) (ha : s.gov.again = 0) (hl : s.gov.later = [])
    (hw : spWf (fun _ => ({} : GovSlot)) s.gov.slots) :
    (∀ n, spGet {} (govCommit s).gov.slots n = if s.gov.cfg.enable = true ∧ spHas (govSum s).gov.sums n = true
      then govRule s.gov.cfg (spGet {} s.gov.slots n) (spGet [] (govSum s).gov.sums n) else spGet {} s.gov.slots n) ∧
    (∀ n, spGet 1 (govCommit s).gov.table n = (spGet {} (govCommit s).gov.slots n).fmt) ∧
    ∀ c, (getCore (govCommit s) c).tile = (getCore s c).tile ∧ (getCore (govCommit s) c).mem = (getCore s c).mem := by
  have hb (c : Nat) := besideCounters_govSum s c
  simp only [besideCounters, Prod.mk.injEq] at hb
  obtain ⟨hslots, hcfg, -⟩ := hb 0
  have hwf : spWf (fun _ => ({} : GovSlot)) (govSum s).gov.slots := by rw [hslots]; exact hw
  rw [govCommit_module hd hf ha hl]
  refine ⟨fun n => ?_, fun n => spGet_formatTable (ruledSlots_wf hwf _) n, fun c => ?_⟩
  · rw [← hslots, ← hcfg]
    exact spGet_ruledSlots (sums_govSum_wf s) _ n
  · obtain ⟨-, -, -, -, htile, hmem⟩ := hb c
    exact ⟨htile, hmem⟩

end Sys2Proof.Machine
end

section
/-!
PROOFS. The statement of the drain: what issues, passes, retires, and what the governor commits (04 R160–R178).
-/

namespace Sys2Proof.Machine

/-- Settles O42: at issue every check of the descriptor holds off; each pass, the retirement, a table store and a commit change what they
name. -/
theorem drainsIssuePassAndRetire : Obligations.DrainsIssuePassAndRetire := by
  unfold Obligations.DrainsIssuePassAndRetire
  refine ⟨fun c t w s hi hr => ?issue, fun c s j hn hp => ?first, fun c s j o lanes f => ?token, fun c s j hu hn hp hd hq => ?second,
    fun c s j hw hq => ?retire, fun c id s q hq hst hoff hal hlen hjobs hfirst => ?store, fun s hd hf ha hl hw => ?commit⟩
  case issue =>
    intro th k gc d off dest ws d0 d1 d2 fmt gb td tz tiles scaled inLocal shape output inputs hwin hsp hal harea hfree
      hord hmark hwait hbusy hshape hout hin
    obtain ⟨hpair, hsecond⟩ := pair_clean hr
    have hready : DescReady s c t w := ⟨hpair, hsecond, hwin, hsp, hal, harea, hfree, hord, hmark⟩
    obtain ⟨h20, h63, h31, h8, hrest, hmode, hparams, hrecord, hpitch, hring⟩ := hshape
    obtain ⟨hfmt, htile, hblocks, htwo, hmem⟩ := hout
    obtain ⟨hz, htable, hpend, hstw, hpois⟩ := hin
    have hdest : (tdDest s c t w).getD 0 = dest := tdDest_getD s c t w
    have hsome {a : Word} (ha : tdDest s c t w = some a) : dest = a := hdest.symm.trans (getD_of_tdDest ha)
    have hscaled : scaled = scalesOut d0 := scalesOut_eq d0
    rw [hscaled] at hbusy
    have hfits : DescFits w d0 d1 d2 := ⟨h20, h63, h31, h8, hmode, hparams, hrecord, hpitch⟩
    have hof : OutputFits s c t w d0 := ⟨hfmt, htile, hblocks, htwo⟩
    have hregs : drainRegsWait s c t w d0 = false :=
      Bool.or_eq_false_iff.2 ⟨hwait, List.any_eq_false.2 (fun v hv => by rw [hbusy v hv]; decide)⟩
    have hx := drainChecks_fits hready hfits hof (zTilesBad_fits hz)
      (wordChecks_fits hof htable (fun a ha h2 => by rw [← hsome ha]; exact hring h2))
      (drainAreas_fits hpend hstw (fun a ha h1 => by rw [← hsome ha]; exact hmem h1)) hpois
    obtain ⟨s', hrun, h⟩ := tdrain_joins hi hr hready (fun a ha h1 => by rw [← hsome ha]; exact areaFree_tag (hmem h1)) hregs hx hrest
    refine ⟨s', hrun, h.thread, h.threads, ?_, h.tile, h.mem, h.cores, _, h.drain, rfl, rfl, rfl, rfl, rfl, rfl, rfl, hdest, ?_⟩
    · rw [hscaled]; exact h.awaited
    · exact ⟨rfl, rfl, rfl, rfl, rfl, rfl, rfl, rfl⟩
  case first =>
    intro k n p two row bad big hm ho
    obtain ⟨j', counts, q, hj', hq, h⟩ := firstPass_scales hn hp hm ho
    rw [passedJob_paramRead hm] at hj'
    subst hj'
    rw [scaleExps_passed] at hq
    subst hq
    refine ⟨_, rfl, ⟨_, h.jobs, rfl, rfl, rfl, rfl, fun ho1 _ => ?_⟩, h.tile, h.cores⟩
    have hs : scalesOut j.d0 = true := by rw [scalesOut, ho1]; rfl
    exact ⟨h.lanes hs, h.awaited hs⟩
  case token =>
    intro n hj hp ho hw hosc hres _
    obtain ⟨hout, hjobs, hlanes⟩ := tokenResult_effect hj hp ho hw hosc hres
    exact ⟨_, rfl, hout, _, hjobs, rfl, hlanes⟩
  case second =>
    have hout := outputWritten_secondPass hq j
    obtain ⟨hjobs, hcores, htiles, hmem, hunit⟩ := outputWritten_updJob hout j.id (fun x => { x with phase := .written })
    have heq : drainSecond s c = _ := (drainSecond_of_next hn hp hd).trans (secondPass_eq s c j)
    refine ⟨_, (congrArg Host.Outcome.next (if_pos hu)).trans (congrArg Host.Outcome.next heq), hjobs, hcores, fun x hx h1 => ?_, fun h1 => ?_,
      fun h3 => ?_, fun h1 ht _ x hx => ?_⟩
    · rw [htiles, hout.tiles x hx h1]
    · rw [hmem, hout.mem h1]
    · rw [hunit, hout.unit h3]
    · rw [hmem]; exact hout.outside h1 ht x hx
  case retire =>
    obtain ⟨hjobs, htile, hmem, hstats⟩ := drainRetire_effect hq hw
    refine ⟨_, rfl, hjobs, htile, fun x hx => ?_, fun hs ha _ i hi => ?_, hstats⟩
    · rw [hmem]; exact recordedMem_outside _ _ hx
    · rw [hmem]; exact recordedMem_inside _ _ hs ha hi
  case store => exact ⟨_, rfl, userTableWrite_effect hq hst hlen hjobs hfirst⟩
  case commit =>
    have heq := govCommit_module hd hf ha hl
    obtain ⟨hslots, htable, hcores⟩ := governorCommit_effect hd hf ha hl hw
    exact ⟨_, rfl, by rw [heq], by rw [heq], by rw [heq]; rfl, by rw [heq], hslots, htable, hcores⟩

end Sys2Proof.Machine
end

section
/-!
PROOFS. Reads and writes of a core's local SRAM and granary where no word is poisoned and none holds an error (07 R261, R274): a read
changes no core, a write changes the bytes it names.
-/

namespace Sys2Proof.Machine

variable {s s1 s2 : State} {c d a n : Nat} {gran : Bool} {m : Mem} {bs : List Byte} {f g : Nat → Byte}

/-! ## Bytes and numbers -/

theorem ofBytes_lt (l : List Byte) : ofBytes l < 256 ^ l.length := by
  induction l with
  | nil => simp [ofBytes]
  | cons b l ih =>
    have hb := b.isLt
    rw [ofBytes, List.length_cons, Nat.pow_succ]
    omega

theorem ofBytes_append (l l' : List Byte) : ofBytes (l ++ l') = ofBytes l + 256 ^ l.length * ofBytes l' := by
  induction l with
  | nil => simp [ofBytes]
  | cons b l ih =>
    rw [List.cons_append, ofBytes, ih, ofBytes, List.length_cons, Nat.pow_succ']
    ring

theorem ofBytes_toBytes_mod (n v : Nat) : ofBytes (toBytes n v) = v % 256 ^ n := by
  induction n generalizing v with
  | zero => rw [pow_zero, Nat.mod_one]; rfl
  | succ n ih => rw [toBytes, ofBytes, ih, Nat.pow_succ', Nat.mod_mul, BitVec.toNat_ofNat]

theorem toBytes_add (k n v : Nat) : toBytes (k + n) v = toBytes k v ++ toBytes n (v / 256 ^ k) := by
  induction k generalizing v with
  | zero => rw [Nat.zero_add, pow_zero, Nat.div_one]; rfl
  | succ k ih => rw [Nat.succ_add, toBytes, ih, toBytes, Nat.div_div_eq_div_mul, ← Nat.pow_succ', List.cons_append]

/-- The first bytes of a list that has so many. -/
theorem takeBytes_eq_take {k : Nat} {l : List Byte} (h : k ≤ l.length) : takeBytes k l = l.take k := by
  induction k generalizing l with
  | zero => rfl
  | succ k ih =>
    cases l with
    | nil => simp at h
    | cons b l => rw [takeBytes, ih (by simpa using h), List.take_succ_cons]

theorem bytesAt_eq_ofBytes {l : List Byte} {off k : Nat} (h : off + k ≤ l.length) : bytesAt l off k = ofBytes ((l.drop off).take k) := by
  rw [bytesAt, takeBytes_eq_take (by rw [List.length_drop]; omega)]

theorem getBytes_add (m : Mem) (a k n : Nat) : m.getBytes a (k + n) = m.getBytes a k ++ m.getBytes (a + k) n := by
  induction k generalizing a with
  | zero => rw [Nat.zero_add]; rfl
  | succ k ih => rw [Nat.succ_add, Mem.getBytes, ih, Mem.getBytes, List.cons_append, Nat.add_right_comm, Nat.add_assoc]

/-- A part of a run of bytes. -/
theorem getBytes_drop_take (m : Mem) (a : Nat) {off k n : Nat} (h : off + k ≤ n) :
    ((m.getBytes a n).drop off).take k = m.getBytes (a + off) k := by
  obtain ⟨r, rfl⟩ := Nat.exists_eq_add_of_le h
  rw [Nat.add_assoc, getBytes_add, List.drop_left' (getBytes_length _ _ _), getBytes_add, List.take_left' (getBytes_length _ _ _)]

/-- A number in a run of bytes. -/
theorem bytesAt_getBytes (m : Mem) (a : Nat) {off k n : Nat} (h : off + k ≤ n) :
    bytesAt (m.getBytes a n) off k = ofBytes (m.getBytes (a + off) k) := by
  rw [bytesAt_eq_ofBytes (by rwa [getBytes_length]), getBytes_drop_take _ _ h]

theorem ofBytes_getBytes_lt (m : Mem) (a n : Nat) : ofBytes (m.getBytes a n) < 256 ^ n := by
  have h := ofBytes_lt (m.getBytes a n)
  rwa [getBytes_length] at h

/-! ## Bytes laid over others -/

/-- The bytes f with bs laid over them from address a on. -/
def overlay (f : Nat → Byte) (a : Nat) (bs : List Byte) (x : Nat) : Byte :=
  if a ≤ x ∧ x < a + bs.length then bs.getD (x - a) 0 else f x

theorem overlay_outside {x : Nat} (h : x < a ∨ a + bs.length ≤ x) : overlay f a bs x = f x := if_neg (by omega)

theorem overlay_inside {i : Nat} (h : i < bs.length) : overlay f a bs (a + i) = bs[i] := by
  rw [overlay, if_pos (by omega), Nat.add_sub_cancel_left, List.getD_eq_getElem _ _ h]

@[simp] theorem overlay_nil (f : Nat → Byte) (a : Nat) : overlay f a [] = f :=
  funext (fun _ => overlay_outside (by simp only [List.length_nil]; omega))

/-- A run of bytes laid in two parts. -/
theorem overlay_append (f : Nat → Byte) (a : Nat) (l l' : List Byte) : overlay (overlay f a l) (a + l.length) l' = overlay f a (l ++ l') := by
  funext x
  by_cases h : a ≤ x ∧ x < a + (l ++ l').length
  · obtain ⟨i, rfl⟩ := Nat.exists_eq_add_of_le h.1
    have hi : i < (l ++ l').length := by omega
    rw [overlay_inside hi]
    by_cases hl : i < l.length
    · rw [overlay_outside (by omega), overlay_inside hl, List.getElem_append_left hl]
    · rw [List.length_append] at hi
      rw [show a + i = a + l.length + (i - l.length) by omega, overlay_inside (by omega), List.getElem_append_right (by omega)]
  · rw [List.length_append] at h
    rw [overlay_outside (by omega), overlay_outside (by omega), overlay_outside (by rw [List.length_append]; omega)]

theorem byte_setBytes (m : Mem) (a : Nat) (bs : List Byte) : (m.setBytes a bs).byte = overlay m.byte a bs := by
  funext x
  by_cases h : a ≤ x ∧ x < a + bs.length
  · obtain ⟨i, rfl⟩ := Nat.exists_eq_add_of_le h.1
    rw [setBytes_byte_inside _ _ _ (by omega), overlay_inside (by omega)]
  · rw [setBytes_byte_outside _ _ _ (by omega), overlay_outside (by omega)]

/-- What a run inside the bytes laid over reads. -/
theorem getBytes_overlay_inside {i k : Nat} (h : m.byte = overlay f a bs) (hk : i + k ≤ bs.length) :
    m.getBytes (a + i) k = (bs.drop i).take k := by
  refine List.ext_getElem ?_ (fun j h1 h2 => ?_)
  · rw [getBytes_length, List.length_take, List.length_drop]; omega
  · have hj : j < k := by rwa [getBytes_length] at h1
    rw [getBytes_getElem, h, Nat.add_assoc, overlay_inside (by omega), List.getElem_take, List.getElem_drop]

/-- A run outside the bytes laid over reads what it read. -/
theorem getBytes_overlay_outside {m' : Mem} {b k : Nat} (h : m'.byte = overlay m.byte a bs) (hk : b + k ≤ a ∨ a + bs.length ≤ b) :
    m'.getBytes b k = m.getBytes b k := by
  refine List.ext_getElem (by simp only [getBytes_length]) (fun j h1 h2 => ?_)
  have hj : j < k := by rwa [getBytes_length] at h1
  rw [getBytes_getElem, getBytes_getElem, h, overlay_outside (by omega)]

/-! ## A memory without marks -/

/-- A write to a memory without marks lays its bytes over what is there, marks no word and finds no error. -/
theorem writeFrom_unmarked {k : Nat} (hm : ∀ x, m.mark x = Mark.none) (hk : bs.length < k) :
    (Mem.writeFrom true false k m a bs).1.byte = overlay m.byte a bs ∧ (∀ x, (Mem.writeFrom true false k m a bs).1.mark x = Mark.none) ∧
      (Mem.writeFrom true false k m a bs).2 = [] := by
  induction k generalizing m a bs with
  | zero => exact absurd hk (Nat.not_lt_zero _)
  | succ k ih =>
    by_cases hb : bs = []
    · rw [hb, writeFrom_nil]; exact ⟨(overlay_nil _ _).symm, hm, rfl⟩
    · have hlen : 0 < bs.length := List.length_pos_of_ne_nil hb
      have hclean : probedMark (m.mark (a / 8)) = Mark.none := by rw [hm]; rfl
      have hword := writeWord_lands (m := m) (a := a) (bs := bs.take (8 - a % 8)) (.inr (by rw [hclean]; rfl))
      rw [probe_readable (by rw [hm]; decide), hclean] at hword
      have hmark : ∀ x, (m.writeWord true false a (bs.take (8 - a % 8))).1.mark x = Mark.none := by
        intro x
        rw [hword]
        by_cases hx : x = a / 8
        · rw [hx, setMark_mark_same]; rfl
        · rw [setMark_mark_other _ _ hx, setBytes_mark, hm]
      have hbyte : (m.writeWord true false a (bs.take (8 - a % 8))).1.byte = overlay m.byte a (bs.take (8 - a % 8)) := by
        rw [hword, ← byte_setBytes]; rfl
      obtain ⟨hb1, hm1, hf1⟩ := ih (a := a + (8 - a % 8)) (bs := bs.drop (8 - a % 8)) hmark (by rw [List.length_drop]; omega)
      rw [writeFrom_step hb]
      refine ⟨?_, hm1, ?_⟩
      · rw [hb1, hbyte]
        by_cases hr : bs.length ≤ 8 - a % 8
        · rw [List.take_of_length_le hr, List.drop_of_length_le hr, overlay_nil]
        · have hl : (bs.take (8 - a % 8)).length = 8 - a % 8 := by rw [List.length_take]; omega
          have := overlay_append m.byte a (bs.take (8 - a % 8)) (bs.drop (8 - a % 8))
          rwa [hl, List.take_append_drop] at this
      · rw [hf1, writeWord_found, if_neg (by rw [hm]; decide), List.append_nil]

theorem corrected_unmarked (hm : ∀ x, m.mark x = Mark.none) (w k : Nat) : m.corrected w k = 0 := corrected_of_unmarked (fun _ _ => hm _)

theorem merged_unmarked (hm : ∀ x, m.mark x = Mark.none) (a n : Nat) : m.merged a n = 0 := by
  unfold Mem.merged
  exact List.foldlRecOn (motive := fun x => x = 0) _ _ rfl (fun x hx w _ => by rw [hx, corrected_unmarked hm])

/-! ## Reads -/

/-- The words of a run can be read: none is poisoned and none holds an error. -/
def CleanRun (m : Mem) (a n : Nat) : Prop := ∀ i, i < wordSpan a n → (m.mark (a / 8 + i)).poison = false ∧ (m.mark (a / 8 + i)).ecc = .clean

theorem cleanRun_unmarked (hm : ∀ x, m.mark x = Mark.none) (a n : Nat) : CleanRun m a n := fun i _ => by rw [hm]; exact ⟨rfl, rfl⟩

/-- s1 is s, with the list of its cores written again. -/
structure SameCores (s s1 : State) : Prop where
  core : ∀ d, getCore s1 d = getCore s d
  rest : s1 = { s with cores := s1.cores }

theorem sameCores_refl (s : State) : SameCores s s := ⟨fun _ => rfl, rfl⟩

theorem SameCores.trans (h : SameCores s s1) (h' : SameCores s1 s2) : SameCores s s2 where
  core d := (h'.core d).trans (h.core d)
  rest := by rw [h'.rest, h.rest]

theorem SameCores.coreMem (h : SameCores s s1) (gran : Bool) (c : Nat) : coreMem s1 gran c = coreMem s gran c := by
  simp only [Machine.coreMem, h.core]

theorem setCoreMem_self (s : State) (gran : Bool) (c : Nat) : setCoreMem s gran c (coreMem s gran c) = setCore s c (getCore s c) := by
  cases gran <;> rfl

theorem sameCores_setCore_self (s : State) (c : Nat) : SameCores s (setCore s c (getCore s c)) where
  core d := by
    by_cases h : d = c
    · subst h; exact getCore_setCore_same _ _ _
    · exact getCore_setCore_other _ _ h
  rest := rfl

/-- A read of clean words writes its core again as it was, and no word it read is poisoned. -/
theorem coreRead_of_cleanRun (h : CleanRun (coreMem s gran c) a n) :
    (coreRead s gran c a n).st = setCore s c (getCore s c) ∧ ∀ p ∈ (coreRead s gran c a n).pois, p = false := by
  obtain ⟨hm, hf⟩ := probes_readable (fun i hi => by rw [(h i hi).2]; decide)
  have hm' : ((coreMem s gran c).read a n).mem = coreMem s gran c := hm
  have hf' : ((coreMem s gran c).read a n).found = [] := hf
  have hcor : (coreMem s gran c).corrected (a / 8) (wordSpan a n) = 0 := by
    rw [Mem.corrected, List.length_eq_zero_iff, List.filter_eq_nil_iff]
    intro i hi
    rw [(h i (List.mem_range.1 hi)).2]
    decide
  refine ⟨?_, fun p hp => ?_⟩
  · unfold coreRead coreAccess
    dsimp only
    rw [hf', hm', hcor, setCoreMem_self]
    rfl
  · have hp' : p ∈ ((coreMem s gran c).probes (a / 8) (wordSpan a n)).2.1 := hp
    rw [probes_poison] at hp'
    obtain ⟨i, hi, rfl⟩ := List.mem_map.1 hp'
    obtain ⟨h1, h2⟩ := h i (List.mem_range.1 hi)
    rw [h1, h2]
    rfl

theorem coreRead_bytes (s : State) (gran : Bool) (c a n : Nat) : (coreRead s gran c a n).data = (coreMem s gran c).getBytes a n :=
  read_data _ a n

theorem sameCores_coreRead (h : CleanRun (coreMem s gran c) a n) : SameCores s (coreRead s gran c a n).st := by
  rw [(coreRead_of_cleanRun h).1]
  exact sameCores_setCore_self s c

theorem coreRead_not_poison (h : CleanRun (coreMem s gran c) a n) : (coreRead s gran c a n).poison = false :=
  List.any_eq_false.2 (fun p hp => by rw [(coreRead_of_cleanRun h).2 p hp]; decide)

theorem coreRead_pois_getD (h : CleanRun (coreMem s gran c) a n) (i : Nat) : (coreRead s gran c a n).pois.getD i false = false := by
  by_cases hi : i < (coreRead s gran c a n).pois.length
  · rw [List.getD_eq_getElem _ _ hi]
    exact (coreRead_of_cleanRun h).2 _ (List.getElem_mem hi)
  · rw [List.getD_eq_default _ _ (by omega)]

/-! ## Writes -/

/-- A core's memories with one of them replaced. -/
def CoreMem.with (k : CoreMem) (gran : Bool) (m : Mem) : CoreMem := if gran then { k with gran := m } else { k with localMem := m }

/-- s1 is s but for one of core c's memories, which has no marked word and whose bytes are f. -/
structure BytesNow (s : State) (gran : Bool) (c : Nat) (f : Nat → Byte) (s1 : State) : Prop where
  core : getCore s1 c = { getCore s c with mem := (getCore s c).mem.with gran (coreMem s1 gran c) }
  cores : ∀ d, d ≠ c → getCore s1 d = getCore s d
  marks : ∀ x, (coreMem s1 gran c).mark x = Mark.none
  byte : (coreMem s1 gran c).byte = f

theorem CoreMem.with_self (s : State) (gran : Bool) (c : Nat) : (getCore s c).mem.with gran (coreMem s gran c) = (getCore s c).mem := by
  cases gran <;> rfl

theorem CoreMem.with_with (k : CoreMem) (gran : Bool) (m m' : Mem) : (k.with gran m).with gran m' = k.with gran m' := by cases gran <;> rfl

theorem bytesNow_refl (hm : ∀ x, (coreMem s gran c).mark x = Mark.none) : BytesNow s gran c (coreMem s gran c).byte s :=
  ⟨by rw [CoreMem.with_self], fun _ _ => rfl, hm, rfl⟩

theorem BytesNow.trans (h : BytesNow s gran c f s1) (h' : BytesNow s1 gran c g s2) : BytesNow s gran c g s2 where
  core := by rw [h'.core, h.core, CoreMem.with_with]
  cores d hd := (h'.cores d hd).trans (h.cores d hd)
  marks := h'.marks
  byte := h'.byte

/-- Cores written again as they were, before or after. -/
theorem SameCores.bytesNow (h : SameCores s s1) (h' : BytesNow s1 gran c f s2) : BytesNow s gran c f s2 where
  core := by rw [h'.core, h.core]
  cores d hd := (h'.cores d hd).trans (h.core d)
  marks := h'.marks
  byte := h'.byte

theorem BytesNow.eng (h : BytesNow s gran c f s1) : (getCore s1 c).eng = (getCore s c).eng := by rw [h.core]
theorem BytesNow.sync (h : BytesNow s gran c f s1) : (getCore s1 c).sync = (getCore s c).sync := by rw [h.core]

/-- The core's other memory is as it was. -/
theorem BytesNow.other (h : BytesNow s gran c f s1) : coreMem s1 (!gran) c = coreMem s (!gran) c := by
  rw [coreMem, h.core]; cases gran <;> rfl

theorem bytesNow_setCoreMem (hm : ∀ x, m.mark x = Mark.none) : BytesNow s gran c m.byte (setCoreMem s gran c m) where
  core := by
    rw [coreMem_setCoreMem_same]
    cases gran
    · exact getCore_setLocal_same s c m
    · exact getCore_setGran_same s c m
  cores d hd := by
    cases gran
    · exact getCore_setLocal_other s m hd
    · exact getCore_setGran_other s m hd
  marks x := by rw [coreMem_setCoreMem_same]; exact hm x
  byte := by rw [coreMem_setCoreMem_same]

/-- A write to a memory without marks lays its bytes over what is there. -/
theorem bytesNow_coreWrite (hm : ∀ x, (coreMem s gran c).mark x = Mark.none) (a : Nat) (bs : List Byte) :
    BytesNow s gran c (overlay (coreMem s gran c).byte a bs) (coreWrite s gran c false a bs) := by
  obtain ⟨hbyte, hmark, hfound⟩ := writeFrom_unmarked (a := a) (k := bs.length + 1) hm (Nat.lt_succ_self bs.length)
  have hst : coreWrite s gran c false a bs = setCoreMem s gran c (Mem.writeFrom true false (bs.length + 1) (coreMem s gran c) a bs).1 := by
    have hf : ((coreMem s gran c).write true false a bs).found = [] := hfound
    unfold coreWrite coreAccess
    dsimp only
    rw [hf, merged_unmarked hm]
    rfl
  rw [hst, ← hbyte]
  exact bytesNow_setCoreMem hmark

/-- The words of a run written one by one. -/
theorem bytesNow_writeCuts {k n a i : Nat} {ps : List Bool} (hm : ∀ x, (coreMem s gran c).mark x = Mark.none) (hn : n < k)
    (hi : i + n = bs.length) (hp : ∀ p ∈ ps, p = false) (hl : (wordCuts k a n).length ≤ ps.length) :
    BytesNow s gran c (overlay (coreMem s gran c).byte a (bs.drop i)) (((wordCuts k a n).zip ps).foldl (fun (x : State × Nat) y =>
      (coreWrite x.1 gran c y.2 y.1.1 ((bs.drop x.2).take y.1.2), x.2 + y.1.2)) (s, i)).1 := by
  induction k generalizing s a n i ps with
  | zero => exact absurd hn (Nat.not_lt_zero _)
  | succ k ih =>
    by_cases h0 : n = 0
    · subst h0
      rw [wordCuts_zero, List.zip_nil_left, List.foldl_nil, List.drop_of_length_le (by omega), overlay_nil]
      exact bytesNow_refl hm
    · have hcut : wordCuts (k + 1) a n = (a, min n (8 - a % 8)) :: wordCuts k (a + min n (8 - a % 8)) (n - min n (8 - a % 8)) := by
        rw [wordCuts, if_neg h0]
      rw [hcut, List.length_cons] at hl
      obtain ⟨p, ps, rfl⟩ := List.exists_cons_of_length_pos (l := ps) (by omega)
      have hp0 : p = false := hp p List.mem_cons_self
      have hone := bytesNow_coreWrite hm a ((bs.drop i).take (min n (8 - a % 8)))
      have hlen : ((bs.drop i).take (min n (8 - a % 8))).length = min n (8 - a % 8) := by
        rw [List.length_take, List.length_drop]; omega
      have hrest := ih (s := coreWrite s gran c false a ((bs.drop i).take (min n (8 - a % 8)))) (a := a + min n (8 - a % 8))
        (i := i + min n (8 - a % 8)) (n := n - min n (8 - a % 8)) (ps := ps) hone.marks (by omega) (by omega)
        (fun q hq => hp q (List.mem_cons_of_mem _ hq)) (by simpa using hl)
      have hjoin := overlay_append (coreMem s gran c).byte a ((bs.drop i).take (min n (8 - a % 8))) (bs.drop (i + min n (8 - a % 8)))
      rw [hlen, ← List.drop_drop, List.take_append_drop] at hjoin
      rw [hone.byte, ← List.drop_drop, hjoin] at hrest
      rw [hcut, List.zip_cons_cons, List.foldl_cons, hp0]
      exact hone.trans hrest

/-- A run written with no poison to a memory without marks lays its bytes over what is there. -/
theorem bytesNow_writeRun {pois : List Bool} (hm : ∀ x, (coreMem s gran c).mark x = Mark.none) (a : Nat) (bs : List Byte)
    (hp : ∀ p ∈ pois, p = false) : BytesNow s gran c (overlay (coreMem s gran c).byte a bs)
      (writeRun (fun s p a b => coreWrite s gran c p a b) a bs pois s) := by
  refine bytesNow_writeCuts (i := 0) hm (Nat.lt_succ_self _) (Nat.zero_add _) (fun p h => ?_) ?_
  · rcases List.mem_append.1 h with h | h
    · exact hp p h
    · exact List.eq_of_mem_replicate h
  · rw [List.length_append, List.length_replicate]; omega

end Sys2Proof.Machine
end

section
/-!
PROOFS. An engine's ring and its command: reading after writing, the command that runs, its end (06 R208–R214).
-/

namespace Sys2Proof.Machine

variable {s s1 : State} {c : Nat} {b gran : Bool} {m : EngCmd} {f : Nat → Byte}

/-! ## Rings -/

theorem getEng_of_core (h : getCore s1 c = getCore s c) (b : Bool) : getEng s1 c b = getEng s c b := by rw [getEng, h]; rfl

theorem getEng_of_eng (h : (getCore s1 c).eng = (getCore s c).eng) (b : Bool) : getEng s1 c b = getEng s c b := by rw [getEng, h]; rfl

@[simp] theorem getEng_setEng_same (s : State) (c : Nat) (b : Bool) (r : EngRing) : getEng (setEng s c b r) c b = r := by
  rw [getEng, setEng, getCore_updCore_same]; cases b <;> rfl

@[simp] theorem getEng_setEng_other (s : State) (c : Nat) (b : Bool) (r : EngRing) : getEng (setEng s c b r) c (!b) = getEng s c (!b) := by
  rw [getEng, setEng, getCore_updCore_same]; cases b <;> rfl

theorem getCore_setEng_other (s : State) {c d : Nat} (b : Bool) (r : EngRing) (h : d ≠ c) : getCore (setEng s c b r) d = getCore s d :=
  getCore_updCore_other _ _ h

@[simp] theorem mem_setEng (s : State) (c : Nat) (b : Bool) (r : EngRing) : (getCore (setEng s c b r) c).mem = (getCore s c).mem := by
  rw [setEng, getCore_updCore_same]

@[simp] theorem sync_setEng (s : State) (c : Nat) (b : Bool) (r : EngRing) : (getCore (setEng s c b r) c).sync = (getCore s c).sync := by
  rw [setEng, getCore_updCore_same]

@[simp] theorem ctl_setEng (s : State) (c : Nat) (b : Bool) (r : EngRing) : (getCore (setEng s c b r) c).ctl = (getCore s c).ctl := by
  rw [setEng, getCore_updCore_same]

@[simp] theorem coreMem_setEng (s : State) (c : Nat) (b : Bool) (r : EngRing) (gran : Bool) :
    coreMem (setEng s c b r) gran c = coreMem s gran c := by rw [coreMem, mem_setEng]; rfl

/-- The other engine of the core and every other core are as they were. -/
def OtherKept (s : State) (c : Nat) (b : Bool) (s1 : State) : Prop :=
  getEng s1 c (!b) = getEng s c (!b) ∧ ∀ d, d ≠ c → getCore s1 d = getCore s d

theorem otherKept_setEng (s : State) (c : Nat) (b : Bool) (r : EngRing) : OtherKept s c b (setEng s c b r) :=
  ⟨getEng_setEng_other s c b r, fun _ h => getCore_setEng_other s b r h⟩

/-! ## The command that runs -/

/-- The ring whose command is m. -/
theorem getEng_updCmd (h : (getEng s c b).cmd = some m) (f : EngCmd → EngCmd) :
    getEng (updCmd s c b f) c b = { getEng s c b with cmd := some (f m) } := by
  rw [updCmd, getEng_setEng_same, h]
  rfl

theorem cmd_updCmd (h : (getEng s c b).cmd = some m) (f : EngCmd → EngCmd) : (getEng (updCmd s c b f) c b).cmd = some (f m) := by
  rw [getEng_updCmd h]

theorem mem_updCmd (s : State) (c : Nat) (b : Bool) (f : EngCmd → EngCmd) : (getCore (updCmd s c b f) c).mem = (getCore s c).mem :=
  mem_setEng _ _ _ _

theorem getCore_updCmd_other (s : State) {c d : Nat} (b : Bool) (f : EngCmd → EngCmd) (h : d ≠ c) :
    getCore (updCmd s c b f) d = getCore s d := getCore_setEng_other _ _ _ h

/-- The command m of an engine as it ends. -/
def EngCmd.endedWith (m : EngCmd) (status result : Nat) : EngCmd := { m with phase := .ended, status := status, result := result }

theorem getEng_endCmd (h : (getEng s c b).cmd = some m) (st res : Nat) :
    getEng (endCmd s c b st res) c b = { getEng s c b with cmd := some (m.endedWith st res) } := getEng_updCmd h _

theorem cmd_endCmd (h : (getEng s c b).cmd = some m) (st res : Nat) : (getEng (endCmd s c b st res) c b).cmd = some (m.endedWith st res) :=
  cmd_updCmd h _

@[simp] theorem mem_endCmd (s : State) (c : Nat) (b : Bool) (st res : Nat) : (getCore (endCmd s c b st res) c).mem = (getCore s c).mem :=
  mem_updCmd _ _ _ _

@[simp] theorem coreMem_endCmd (s : State) (c : Nat) (b : Bool) (st res : Nat) (gran : Bool) :
    coreMem (endCmd s c b st res) gran c = coreMem s gran c := coreMem_setEng _ _ _ _ _

/-- The core's memories and every other core are as they were. -/
def MemKept (s : State) (c : Nat) (s1 : State) : Prop := (getCore s1 c).mem = (getCore s c).mem ∧ ∀ d, d ≠ c → getCore s1 d = getCore s d

theorem memKept_updCmd (s : State) (c : Nat) (b : Bool) (f : EngCmd → EngCmd) : MemKept s c (updCmd s c b f) :=
  ⟨mem_updCmd _ _ _ _, fun _ h => getCore_updCmd_other _ _ _ h⟩

theorem memKept_endCmd (s : State) (c : Nat) (b : Bool) (st res : Nat) : MemKept s c (endCmd s c b st res) := memKept_updCmd s c b _

theorem SameCores.memKept (h : SameCores s s1) {s2 : State} (h' : MemKept s1 c s2) : MemKept s c s2 :=
  ⟨by rw [h'.1, h.core], fun d hd => (h'.2 d hd).trans (h.core d)⟩

theorem SameCores.cmd (h : SameCores s s1) (hc : (getEng s c b).cmd = some m) : (getEng s1 c b).cmd = some m := by
  rw [getEng_of_core (h.core c)]; exact hc

theorem BytesNow.cmd (h : BytesNow s gran c f s1) (hc : (getEng s c b).cmd = some m) : (getEng s1 c b).cmd = some m := by
  rw [getEng_of_eng h.eng]; exact hc

/-- The running command is the one of a given phase and OP. -/
theorem engCmd_of_op {ph : EngPhase} {op : Nat} (hc : (getEng s c b).cmd = some m) (hp : m.phase = ph) (ho : eOp m.words = op) :
    engCmd s c b op none ph = some m := by
  unfold engCmd
  rw [hc]
  simp [hp, ho]

theorem engCmd_of_mode {ph : EngPhase} {op mode : Nat} (hc : (getEng s c b).cmd = some m) (hp : m.phase = ph) (ho : eOp m.words = op)
    (hm : eMode m.words = mode) : engCmd s c b op (some mode) ph = some m := by
  unfold engCmd
  rw [hc]
  simp [hp, ho, hm]

/-- A command that answers as the end of the running one has ended, and has changed no memory. -/
theorem runs_endCmd {i : Instr} {st : Nat} (hc : (getEng s c b).cmd = some m) (hex : exec i s = .next (endCmd s c b st 0)) :
    Runs i s (fun s' => (getEng s' c b).cmd = some { m with phase := .ended, status := st, result := 0 } ∧
      (getCore s' c).mem = (getCore s c).mem ∧ ∀ d, d ≠ c → getCore s' d = getCore s d) :=
  ⟨_, hex, cmd_endCmd hc st 0, memKept_endCmd s c b st 0⟩

/-! ## The checks -/

/-- No check fails. -/
theorem eFirst_eq_none {l : List (Bool × Nat)} : eFirst l = none ↔ ∀ x ∈ l, x.1 = false := by
  induction l with
  | nil => simp [eFirst]
  | cons x l ih =>
    obtain ⟨p, n⟩ := x
    cases p <;> simp [eFirst, ih]

/-! ## The latch unit at a word where nobody waits -/

/-- A latch operation on a word that holds no error probes it, and finds what it holds. -/
theorem latchProbe_clean {wd : Nat} (h : ((coreMem s gran c).mark wd).ecc = .clean) : latchProbe s gran c wd =
    (setCore s c (getCore s c), (coreMem s gran c).mark wd, ofBytes ((coreMem s gran c).getBytes (8 * wd) 8)) := by
  have hcor : (coreMem s gran c).corrected wd 1 = 0 := by
    rw [Mem.corrected, List.length_eq_zero_iff, List.filter_eq_nil_iff]
    intro i hi
    rw [show i = 0 by simpa using hi, Nat.add_zero, h]
    decide
  unfold latchProbe
  dsimp only
  rw [if_neg (by rw [h]; decide), hcor, countCorrCore, if_pos rfl, wordProbe_of_readable (by rw [h]; decide), setCoreMem_self]

/-- Serving a readable word of a core whose latch unit holds no waiter changes no core. -/
theorem getCore_serve_alone {wd : Nat} (hl : (getCore s c).mem.latch = []) (h : ((coreMem s gran c).mark wd).ecc ≠ .unc) (d : Nat) :
    getCore (serve s gran c wd) d = getCore s d := by
  cases hf : ((coreMem s gran c).mark wd).full with
  | true => exact getCore_serve_idle ⟨hf, h, fun x hx => by rw [hl] at hx; exact absurd hx List.not_mem_nil⟩ d
  | false =>
    unfold serve
    rw [hl]
    unfold serveWord
    rw [wordProbe_of_readable h]
    simp only [hf, getCore_setCoreMem_self, hl, List.find?_nil, Bool.false_eq_true, if_false]

end Sys2Proof.Machine
end

section
/-!
PROOFS. The rings of the Harrow and the Winnow (06 R207–R214, R227): enabling, disabling, taking a slot, ending a command.
-/

namespace Sys2Proof.Machine

variable {s s1 : State} {c : Nat} {b : Bool} {m : EngCmd}

/-! ## HRING and WRING -/

theorem hringEnable_of_stopped {v : Word} (hv : bitOf v 0 = true) (hr : (getEng s c b).en = false) :
    exec (.hringEnable c b v) s =
      .next (setEng s c b { getEng s c b with logn := field v 43 40, base := field v 19 6, en := true, head := 0 }) := by
  have h : exec (.hringEnable c b v) s = execHringEnable c b v s := rfl
  rw [h, execHringEnable, ringWrite]
  simp only [hv, hr, if_true, Bool.false_eq_true, if_false]

theorem hringDisable_of_running {v : Word} (hv : bitOf v 0 = false) (hr : (getEng s c b).en = true) :
    exec (.hringDisable c b v) s = .next (setEng s c b { getEng s c b with en := false }) := by
  have h : exec (.hringDisable c b v) s = execHringDisable c b v s := rfl
  rw [h, execHringDisable, ringWrite]
  simp only [hv, hr, if_true, Bool.false_eq_true, if_false]

/-! ## Taking a slot -/

/-- The address of the slot at HEAD. -/
def headAddr (r : EngRing) : Nat := r.base * 64 + 64 * r.head

theorem headAddr_mod_eight (r : EngRing) : headAddr r % 8 = 0 := by unfold headAddr; omega

/-- The command that a slot of clean words holds. -/
def slotCmd (b : Bool) (ws : List Nat) : EngCmd :=
  { words := ws, bad := false, phase := if eOpOk b ws then .run else .ended, epoch := 0, status := if eOpOk b ws then 0 else 0x10, result := 0 }

/-- An idle engine that takes commands, with a clean, full slot at HEAD and no waiter in the core's latch unit. -/
structure SlotReady (s : State) (c : Nat) (b : Bool) : Prop where
  here : coreExists s c = true
  working : isHole s c = false
  on : engOn (getEng s c b) = true
  idle : (getEng s c b).cmd = none
  alone : (getCore s c).mem.latch = []
  full : (getCore s c).mem.localMem.mark (headAddr (getEng s c b) / 8) = { full := true }
  clean : ∀ i, 0 < i → i < 8 → (getCore s c).mem.localMem.mark (headAddr (getEng s c b) / 8 + i) = Mark.none

theorem SlotReady.cleanRun (h : SlotReady s c b) : CleanRun (coreMem s false c) (headAddr (getEng s c b)) 64 := by
  intro i hi
  have hspan : wordSpan (headAddr (getEng s c b)) 64 = 8 := by
    have := headAddr_mod_eight (getEng s c b)
    unfold wordSpan
    rw [if_neg (by decide)]
    omega
  rw [hspan] at hi
  rw [coreMem_local]
  by_cases h0 : i = 0
  · rw [h0, Nat.add_zero, h.full]; exact ⟨rfl, rfl⟩
  · rw [h.clean i (by omega) hi]; exact ⟨rfl, rfl⟩

/-- The state once the command is in the engine, its slot still full. -/
def slotRead (s : State) (c : Nat) (b : Bool) (s1 : State) : State :=
  setEng s1 c b { getEng s c b with
    head := ((getEng s c b).head + 1) % (getEng s c b).slots
    cmd := some (slotCmd b (wordsOf 8 ((getCore s c).mem.localMem.getBytes (headAddr (getEng s c b)) 64))) }

theorem takeSlot_of_ready (h : SlotReady s c b) : ∃ s1, SameCores s s1 ∧ takeSlot s c b =
    serve (latchSet (slotRead s c b s1) false c (headAddr (getEng s c b) / 8) false) false c (headAddr (getEng s c b) / 8) := by
  have hmark : (coreMem s false c).mark (headAddr (getEng s c b) / 8) = { full := true } := h.full
  have hself := sameCores_setCore_self s c
  have hrun := h.cleanRun
  rw [← hself.coreMem] at hrun
  refine ⟨_, hself.trans (sameCores_coreRead hrun), ?_⟩
  have hgo : (!coreExists s c || isHole s c || !engOn (getEng s c b) || (getEng s c b).cmd.isSome) = false := by
    rw [h.here, h.working, h.on, h.idle]; rfl
  have hbad := coreRead_not_poison hrun
  have hdata : (coreRead (setCore s c (getCore s c)) false c (headAddr (getEng s c b)) 64).data =
      (getCore s c).mem.localMem.getBytes (headAddr (getEng s c b)) 64 := by rw [coreRead_bytes, hself.coreMem]; rfl
  have hclean : ((coreMem s false c).mark (headAddr (getEng s c b) / 8)).ecc = .clean := by rw [hmark]
  unfold takeSlot slotRead slotCmd
  unfold headAddr at *
  simp only [hgo, latchProbe_clean hclean, hmark, hbad, hdata, Bool.false_eq_true, if_false, Bool.not_true, Bool.not_false, Bool.and_true]

/-- The core once the slot's latch bit is empty. -/
theorem slotTaken_effect (h : SlotReady s c b) (h1 : SameCores s s1) : let a := headAddr (getEng s c b) / 8
    let s2 := serve (latchSet (slotRead s c b s1) false c a false) false c a
    getCore s2 c = (getCore (slotRead s c b s1) c).withLocal ((getCore s c).mem.localMem.setFull a false) ∧
      ∀ d, d ≠ c → getCore s2 d = getCore s d := by
  intro a s2
  have hlocal : coreMem (slotRead s c b s1) false c = (getCore s c).mem.localMem := by
    rw [slotRead, coreMem_setEng, h1.coreMem]; rfl
  have hlatch : (getCore (latchSet (slotRead s c b s1) false c a false) c).mem.latch = [] := by
    rw [latchSet, latch_setCoreMem, slotRead, mem_setEng, h1.core, h.alone]
  have hread : ((coreMem (latchSet (slotRead s c b s1) false c a false) false c).mark a).ecc ≠ .unc := by
    rw [latchSet, coreMem_setCoreMem_same, hlocal, Mem.setFull, setMark_mark_same, h.full]; decide
  have hcore (d : Nat) : getCore s2 d = getCore (latchSet (slotRead s c b s1) false c a false) d := getCore_serve_alone hlatch hread d
  refine ⟨?_, fun d hd => ?_⟩
  · rw [hcore, latchSet, hlocal, getCore_setLocal_same]
  · rw [hcore, latchSet, getCore_setLocal_other _ _ hd, slotRead, getCore_setEng_other _ _ _ hd, h1.core]

/-! ## The end of a command -/

theorem eCplOk_of_klim {k k' : Core} (h : k'.ctl = k.ctl) (r : EngRing) (ws : List Nat) : eCplOk k' r ws = eCplOk k r ws := by
  simp only [eCplOk, eLocalOk, h]

/-- An ST.PUT of a word where nobody waits. -/
theorem latchPut_effect {a : Nat} (ha : a % 8 = 0) {data : List Byte} (hd : data.length = 8) (hh : latchHeld s c = false)
    (hl : (getCore s c).mem.latch = []) : ∃ m : Mem, (m.mark (a / 8)).full = true ∧ m.getBytes a 8 = data ∧
      getCore (latchPut s false c a data false) c = (getCore s c).withLocal m ∧
      ∀ d, d ≠ c → getCore (latchPut s false c a data false) d = getCore s d := by
  have hput : latchPut s false c a data false = serve (latchWrite s false c (a / 8) data false true) false c (a / 8) := by
    rw [latchPut, hh, if_neg (by decide)]
  have hwrite : latchWrite s false c (a / 8) data false true =
      setCoreMem s false c (((coreMem s false c).setBytes a data).setMark (a / 8) { poison := false, full := true, ecc := .clean }) := by
    rw [latchWrite, if_neg (by decide), takeBytes_eq_take (le_of_eq hd.symm), List.take_of_length_le (le_of_eq hd),
      show 8 * (a / 8) = a by omega]
  have hcore (d : Nat) : getCore (latchPut s false c a data false) d = getCore (latchWrite s false c (a / 8) data false true) d := by
    rw [hput]
    refine getCore_serve_alone ?_ ?_ d
    · rw [hwrite, latch_setCoreMem, hl]
    · rw [hwrite, coreMem_setCoreMem_same, setMark_mark_same]; decide
  refine ⟨_, ?_, ?_, (hcore c).trans (by rw [hwrite, getCore_setLocal_same]), fun d hne => (hcore d).trans (by
    rw [hwrite, getCore_setLocal_other _ _ hne])⟩
  · rw [setMark_mark_same]
  · have hbyte := byte_setBytes (coreMem s false c) a data
    have hin := getBytes_overlay_inside (i := 0) (k := 8) hbyte (by omega)
    rw [Nat.add_zero, List.drop_zero, List.take_of_length_le (le_of_eq hd)] at hin
    exact (getBytes_congr (fun _ => rfl) a 8).trans hin

/-- The ring once its command has ended, and the entry its status calls for. -/
def cmdOut (s : State) (c : Nat) (b : Bool) (m : EngCmd) : State :=
  let s := setEng s c b { getEng s c b with cmd := none, done := ((getEng s c b).done + 1) % 2 ^ 32 }
  if eStatusEvent m.status then
    sendEvent s { sev := 1, code := 0x0020, source := srcCore c, arg0 := boolN b * 2 ^ 16 + m.status, arg1 := eCpl m.words }
  else s

theorem getCore_cmdOut (s : State) (c : Nat) (b : Bool) (m : EngCmd) (d : Nat) : getCore (cmdOut s c b m) d =
    getCore (setEng s c b { getEng s c b with cmd := none, done := ((getEng s c b).done + 1) % 2 ^ 32 }) d := by
  unfold cmdOut
  dsimp only
  split
  · exact getCore_sendEvent _ _ _
  · rfl

theorem commandEnd_of_ended (hc : (getEng s c b).cmd = some m) (hp : m.phase = .ended) : commandEnd s c b =
    if eCplOk (getCore s c) (getEng s c b) m.words then latchPut (cmdOut s c b m) false c (eCpl m.words) (toBytes 8 (eCplWord m)) false
    else cmdOut s c b m := by
  have hok : eCplOk (getCore (cmdOut s c b m) c) (getEng s c b) m.words = eCplOk (getCore s c) (getEng s c b) m.words :=
    eCplOk_of_klim (by rw [getCore_cmdOut, ctl_setEng]) _ _
  rw [← hok]
  simp only [commandEnd, hc, hp, bne_self_eq_false, Bool.false_eq_true, if_false]
  rfl

theorem cmdOut_effect (s : State) (c : Nat) (b : Bool) (m : EngCmd) : OtherKept s c b (cmdOut s c b m) ∧
    getEng (cmdOut s c b m) c b = { getEng s c b with cmd := none, done := ((getEng s c b).done + 1) % 2 ^ 32 } ∧
    (getCore (cmdOut s c b m) c).mem = (getCore s c).mem ∧ (getCore (cmdOut s c b m) c).sync = (getCore s c).sync := by
  have hcore := getCore_cmdOut s c b m
  obtain ⟨ho, hd⟩ := otherKept_setEng s c b { getEng s c b with cmd := none, done := ((getEng s c b).done + 1) % 2 ^ 32 }
  refine ⟨⟨(getEng_of_core (hcore c) _).trans ho, fun d hne => (hcore d).trans (hd d hne)⟩, ?_, ?_, ?_⟩
  · rw [getEng_of_core (hcore c), getEng_setEng_same]
  · rw [hcore, mem_setEng]
  · rw [hcore, sync_setEng]

/-- What the end of a command leaves. -/
structure CommandOut (s : State) (c : Nat) (b : Bool) (m : EngCmd) (s1 : State) : Prop where
  other : OtherKept s c b s1
  ring : getEng s1 c b = { getEng s c b with cmd := none, done := ((getEng s c b).done + 1) % 2 ^ 32 }
  put : eCplOk (getCore s c) (getEng s c b) m.words = true →
    ((getCore s1 c).mem.localMem.mark (eCpl m.words / 8)).full = true ∧
      (getCore s1 c).mem.localMem.getBytes (eCpl m.words) 8 = toBytes 8 (eCplWord m)
  kept : eCplOk (getCore s c) (getEng s c b) m.words = false → (getCore s1 c).mem = (getCore s c).mem

theorem commandOut_commandEnd (hc : (getEng s c b).cmd = some m) (hp : m.phase = .ended) (hl : (getCore s c).mem.latch = [])
    (hh : latchHeld s c = false) : CommandOut s c b m (commandEnd s c b) := by
  obtain ⟨⟨hother, hcores⟩, hring, hmem, hsync⟩ := cmdOut_effect s c b m
  rw [commandEnd_of_ended hc hp]
  cases hok : eCplOk (getCore s c) (getEng s c b) m.words with
  | false =>
    rw [if_neg (by decide)]
    exact ⟨⟨hother, hcores⟩, hring, fun h => absurd h (by rw [hok]; decide), fun _ => hmem⟩
  | true =>
    have hal : eCpl m.words % 8 = 0 := by
      rw [eCplOk, Bool.and_eq_true, beq_iff_eq] at hok
      exact hok.1
    have hheld : latchHeld (cmdOut s c b m) c = false := by rw [latchHeld, hsync]; exact hh
    obtain ⟨mem, hfull, hbytes, hcore, hd⟩ := latchPut_effect hal (toBytes_length 8 (eCplWord m)) hheld (by rw [hmem]; exact hl)
    have heng : (getCore (latchPut (cmdOut s c b m) false c (eCpl m.words) (toBytes 8 (eCplWord m)) false) c).eng =
        (getCore (cmdOut s c b m) c).eng := by rw [hcore]; rfl
    rw [if_pos rfl]
    refine ⟨⟨(getEng_of_eng heng _).trans hother, fun d hne => (hd d hne).trans (hcores d hne)⟩, (getEng_of_eng heng _).trans hring,
      fun _ => ?_, fun h => absurd h (by rw [hok]; decide)⟩
    rw [hcore]
    exact ⟨hfull, hbytes⟩

/-! ## The statement -/

theorem harrowEpochTimeout_ends (hc : (getEng s c false).cmd = some m) (hp : m.phase = .epochWait) (ho : eOp m.words = 1)
    (hw : (getCore s c).eng.hwdog ≠ 0) : exec (.harrowEpochTimeout c) s = .next (endCmd s c false 0x20 0) := by
  have h : exec (.harrowEpochTimeout c) s = execHarrowEpochTimeout c s := rfl
  rw [h, execHarrowEpochTimeout, engCmd_of_op hc hp ho]
  dsimp only
  rw [if_neg hw]

/-- Settles O43: each write, take and end of a command touches one field of one engine, and the completion word is read back whole. -/
theorem engineRingsTakeAndEndCommands : Obligations.EngineRingsTakeAndEndCommands := by
  unfold Obligations.EngineRingsTakeAndEndCommands
  intro c b s r k other
  refine ⟨fun v hv hr => ?enable, fun v hv hr => ?disable, ?take, fun m hc hp hl hh => ?finish, fun m hb hc hp ho hw => ?timeout⟩
  case enable =>
    exact ⟨_, hringEnable_of_stopped hv hr, otherKept_setEng s c b _, getEng_setEng_same _ _ _ _⟩
  case disable =>
    exact ⟨_, hringDisable_of_running hv hr, otherKept_setEng s c b _, getEng_setEng_same _ _ _ _⟩
  case take =>
    intro a ws hx hh hen h2 h8 hend hidle hl hfull hclean
    have hon : engOn (getEng s c b) = true := by
      rw [engOn, EngRing.slots, hen, decide_eq_true h2, decide_eq_true h8, decide_eq_true hend]; rfl
    have hready : SlotReady s c b := ⟨hx, hh, hon, hidle, hl, hfull, hclean⟩
    obtain ⟨s1, h1, htake⟩ := takeSlot_of_ready hready
    obtain ⟨hcore, hcores⟩ := slotTaken_effect hready h1
    have hring (x : Bool) : getEng (takeSlot s c b) c x = getEng (slotRead s c b s1) c x := by
      rw [htake]; exact getEng_of_eng (by rw [hcore]; rfl) x
    have hsame : getEng (takeSlot s c b) c b = _ := (hring b).trans (getEng_setEng_same _ _ _ _)
    refine ⟨_, rfl, ⟨?_, fun d hd => by rw [htake]; exact hcores d hd⟩, by rw [hsame]; rfl, by rw [hsame], by rw [hsame]; exact hen,
      ⟨_, by rw [hsame], rfl, rfl, fun hok => if_pos hok, fun hok => ?_⟩, ?_, fun x => ?_⟩
    · rw [hring, slotRead, getEng_setEng_other, getEng_of_core (h1.core c)]
    · have hno : ¬ eOpOk b ws = true := by rw [hok]; decide
      exact ⟨if_neg hno, if_neg hno⟩
    · rw [htake, hcore]
      change ((getCore s c).mem.localMem.setFull (headAddr (getEng s c b) / 8) false).mark (headAddr (getEng s c b) / 8) = _
      rw [Mem.setFull, setMark_mark_same, hready.full]
      rfl
    · rw [htake, hcore]; rfl
  case finish =>
    have h := commandOut_commandEnd hc hp hl hh
    refine ⟨_, rfl, h.other, h.ring, fun hok => ?_, h.kept⟩
    obtain ⟨hfull, hbytes⟩ := h.put hok
    refine ⟨hfull, ?_⟩
    rw [hbytes, ofBytes_toBytes_mod]
    rfl
  case timeout =>
    subst hb
    exact ⟨_, harrowEpochTimeout_ends hc hp ho hw, otherKept_setEng s c false _, getEng_endCmd hc _ _⟩

end Sys2Proof.Machine
end

section
/-!
PROOFS. The lane table (06 R228): what a field reads after a write, a verdict and a clearing.
-/

namespace Sys2Proof.Machine

variable {s s0 s1 s2 : State} {c l : Nat} {m : EngCmd}

/-! ## Granaries written -/

/-- No word of core c's granary is marked. -/
def GranClean (s : State) (c : Nat) : Prop := ∀ x, (coreMem s true c).mark x = Mark.none

/-- s1 is s but for the bytes of core c's granary, of which no word is marked. -/
def GranWritten (s : State) (c : Nat) (s1 : State) : Prop := ∃ f, BytesNow s true c f s1

theorem granWritten_refl (h : GranClean s c) : GranWritten s c s := ⟨_, bytesNow_refl h⟩

theorem GranWritten.trans (h : GranWritten s c s1) (h' : GranWritten s1 c s2) : GranWritten s c s2 := by
  obtain ⟨_, h⟩ := h
  obtain ⟨f, h'⟩ := h'
  exact ⟨f, h.trans h'⟩

theorem GranWritten.clean (h : GranWritten s c s1) : GranClean s1 c := by
  obtain ⟨_, h⟩ := h
  exact h.marks

theorem GranWritten.cmd (h : GranWritten s c s1) {b : Bool} (hc : (getEng s c b).cmd = some m) : (getEng s1 c b).cmd = some m := by
  obtain ⟨_, h⟩ := h
  exact h.cmd hc

theorem GranWritten.sync (h : GranWritten s c s1) : (getCore s1 c).sync = (getCore s c).sync := by
  obtain ⟨_, h⟩ := h
  exact h.sync

theorem SameCores.granClean (h : SameCores s s1) (hm : GranClean s c) : GranClean s1 c := fun x => by rw [h.coreMem]; exact hm x

/-! ## Lane entries -/

/-- The eight words of a lane entry. -/
def laneEntry (s : State) (c l : Nat) : Fin 8 → Nat := fun j => laneField s c l (4 * j)

theorem laneField_congr (he : (getCore s1 c).eng.laneBase = (getCore s c).eng.laneBase) (hm : coreMem s1 true c = coreMem s true c) (l off : Nat) :
    laneField s1 c l off = laneField s c l off := by
  have hm' : (getCore s1 c).mem.gran = (getCore s c).mem.gran := hm
  simp only [laneField, laneAddr, he, hm']

theorem laneEntry_congr (he : (getCore s1 c).eng.laneBase = (getCore s c).eng.laneBase) (hm : coreMem s1 true c = coreMem s true c) (l : Nat) :
    laneEntry s1 c l = laneEntry s c l := funext (fun _ => laneField_congr he hm l _)

theorem laneEntry_updCmd (s : State) (c : Nat) (b : Bool) (f : EngCmd → EngCmd) (l : Nat) :
    laneEntry (updCmd s c b f) c l = laneEntry s c l := by
  refine laneEntry_congr ?_ (coreMem_setEng _ _ _ _ _) l
  rw [setEng, getCore_updCore_same]
  cases b <;> rfl

theorem laneEntry_of_sameCores (h : SameCores s s1) (l : Nat) : laneEntry s1 c l = laneEntry s c l :=
  laneEntry_congr (by rw [h.core]) (h.coreMem true c) l

theorem laneField_lt (s : State) (c l off : Nat) : laneField s c l off < 2 ^ 32 := ofBytes_getBytes_lt _ _ 4

theorem bytesNow_setLaneField (h : GranClean s c) (l off v : Nat) : BytesNow s true c
    (overlay (coreMem s true c).byte (laneAddr (getCore s c) l + off) (toBytes 4 v)) (setLaneField s c l off v) :=
  bytesNow_coreWrite h _ _

theorem granWritten_setLaneField (h : GranClean s c) (l off v : Nat) : GranWritten s c (setLaneField s c l off v) :=
  ⟨_, bytesNow_setLaneField h l off v⟩

/-- A write of word j of one lane's entry. -/
theorem laneEntry_setLaneField (h : GranClean s c) (l v : Nat) (j : Fin 8) (l' : Nat) : laneEntry (setLaneField s c l (4 * j) v) c l' =
    if l' = l then Function.update (laneEntry s c l') j (v % 2 ^ 32) else laneEntry s c l' := by
  have hw := bytesNow_setLaneField h l (4 * j) v
  have hlen : (toBytes 4 v).length = 4 := toBytes_length 4 v
  have hj := j.isLt
  have hread (i : Fin 8) : laneEntry (setLaneField s c l (4 * j) v) c l' i =
      ofBytes ((coreMem (setLaneField s c l (4 * j) v) true c).getBytes (laneAddr (getCore s c) l' + 4 * i) 4) := by
    simp only [laneEntry, laneField, laneAddr, hw.eng]; rfl
  have hother (i : Fin 8) (hne : ¬ (l' = l ∧ i = j)) : laneEntry (setLaneField s c l (4 * j) v) c l' i = laneEntry s c l' i := by
    have hi := i.isLt
    rw [hread, getBytes_overlay_outside hw.byte]
    · rfl
    · have hval : l' = l → (i : Nat) ≠ j := fun hl hij => hne ⟨hl, Fin.ext hij⟩
      rw [hlen, laneAddr, laneAddr]
      omega
  funext i
  by_cases hl : l' = l
  · rw [if_pos hl]
    by_cases hi : i = j
    · subst hl hi
      have hin := getBytes_overlay_inside (i := 0) (k := 4) hw.byte (by omega)
      rw [Nat.add_zero, List.drop_zero, List.take_of_length_le (le_of_eq hlen)] at hin
      rw [Function.update_self, hread, hin, ofBytes_toBytes_mod]
      norm_num
    · rw [Function.update_of_ne hi, hother i (fun h => hi h.2)]
  · rw [if_neg hl, hother i (fun h => hl h.1)]

/-- A write of a word of a lane's entry by its offset. -/
theorem laneEntry_set (h : GranClean s c) (l v : Nat) {off : Nat} (j : Fin 8) (ho : off = 4 * j) (l' : Nat) :
    laneEntry (setLaneField s c l off v) c l' = if l' = l then Function.update (laneEntry s c l') j (v % 2 ^ 32) else laneEntry s c l' := by
  subst ho
  exact laneEntry_setLaneField h l v j l'

/-! ## Clearing a lane -/

theorem setFieldN_lt {n hi lo v k : Nat} (hlo : lo ≤ hi) (hk : hi < k) (hn : n < 2 ^ k) : setFieldN n hi lo v < 2 ^ k := by
  refine Nat.lt_pow_two_of_testBit _ (fun i hi' => ?_)
  rw [testBit_setFieldN hlo, if_neg (by omega)]
  exact Nat.testBit_lt_two_pow (lt_of_lt_of_le hn (Nat.pow_le_pow_right (by decide) hi'))

/-- An entry whose NFP is set to b. -/
def entryNfp (b : Bool) (e : Fin 8 → Nat) : Fin 8 → Nat := Function.update e 6 (setFieldN (e 6) 30 30 (boolN b))

theorem granWritten_setNfp (h : GranClean s c) (l : Nat) (b : Bool) : GranWritten s c (setNfp s c l b) := granWritten_setLaneField h _ _ _

theorem laneEntry_setNfp (h : GranClean s c) (l : Nat) (b : Bool) (l' : Nat) :
    laneEntry (setNfp s c l b) c l' = if l' = l then entryNfp b (laneEntry s c l') else laneEntry s c l' := by
  rw [setNfp, laneEntry_set h l _ (off := 0x18) 6 rfl]
  split
  · next hl =>
    subst hl
    rw [Nat.mod_eq_of_lt (setFieldN_lt (by decide) (by decide) (laneField_lt _ _ _ _))]
    rfl
  · rfl

/-- An entry as CLRONLY leaves it. -/
def entryCleared (e : Fin 8 → Nat) : Fin 8 → Nat := entryNfp false (Function.update e 4 0)

theorem granWritten_clearLane (h : GranClean s c) (l : Nat) : GranWritten s c (clearLane s c l) := by
  have h1 := granWritten_setLaneField h l 0x10 0
  exact h1.trans (granWritten_setNfp h1.clean l false)

theorem laneEntry_clearLane (h : GranClean s c) (l l' : Nat) :
    laneEntry (clearLane s c l) c l' = if l' = l then entryCleared (laneEntry s c l') else laneEntry s c l' := by
  rw [clearLane, laneEntry_setNfp (granWritten_setLaneField h l 0x10 0).clean, laneEntry_set h l 0 (off := 0x10) 4 rfl]
  split <;> rfl

/-! ## The verdict of a lane -/

/-- The loss scale in force (06 R231): that of the entry, or 1.0 where it is not a positive finite number. -/
def entryScale (e : Fin 8 → Nat) : Nat := if !f32finite (e 0) || !f32pos (e 0) then f32one else e 0

/-- The GOOD count that makes the loss scale grow is reached. -/
def entryGrows (e : Fin 8 → Nat) : Bool := fieldN (e 6) 23 16 != 0 && fieldN (e 6) 23 16 ≤ (e 6 % 2 ^ 16 + 1) % 2 ^ 16

/-- The gradient factor's numerator: the clip ratio, or 1.0. -/
def entryClip (e : Fin 8 → Nat) (norm : Nat) : Nat := if f32pos (e 1) && f32lt (e 1) norm then f32div (e 1) norm else f32one

/-- An entry with the words that a verdict writes. -/
def entryWith (e : Fin 8 → Nat) (scale factor norm step counts : Nat) : Fin 8 → Nat := ![scale, e 1, factor, norm, 0, step, counts, e 7]

theorem entryWith_words (e : Fin 8 → Nat) (scale factor norm step counts : Nat) : let e' := entryWith e scale factor norm step counts
    e' 0 = scale ∧ e' 2 = factor ∧ e' 3 = norm ∧ e' 4 = 0 ∧ e' 5 = step ∧ e' 6 = counts := ⟨rfl, rfl, rfl, rfl, rfl, rfl⟩

/-- The entry of a lane whose sum is not finite or is flagged. -/
def entryBad (l ss : Nat) (e : Fin 8 → Nat) : Fin 8 → Nat :=
  entryWith e (f32max (f32mul (entryScale e) 0x3F000000) (f32pow2 (-16)) % 2 ^ 32) 0 (quietNan l ss % 2 ^ 32) (e 5)
    (setFieldN (setFieldN (e 6) 31 30 2) 15 0 0)

/-- The entry of a lane whose sum is good. -/
def entryGood (ss : Nat) (e : Fin 8 → Nat) : Fin 8 → Nat :=
  let norm := f32div (f32sqrt ss) (entryScale e)
  entryWith e ((if entryGrows e then f32min (f32mul (entryScale e) 0x40000000) (f32pow2 24) else entryScale e) % 2 ^ 32)
    (f32div (entryClip e norm) (entryScale e) % 2 ^ 32) (norm % 2 ^ 32) ((e 5 + 1) % 2 ^ 32)
    (setFieldN (setFieldN (e 6) 31 30 0) 15 0 (if entryGrows e then 0 else e 6 % 2 ^ 16 + 1))

/-- The entry of a lane after its verdict. -/
def entryVerdict (l ss : Nat) (nf : Bool) (e : Fin 8 → Nat) : Fin 8 → Nat := if nf || !f32finite ss then entryBad l ss e else entryGood ss e

/-- What a chain of writes of a lane's entry leaves. -/
structure LaneNow (s : State) (c l : Nat) (e : Fin 8 → Nat) (s1 : State) : Prop where
  written : GranWritten s c s1
  entry : laneEntry s1 c l = e
  others : ∀ l', l' ≠ l → laneEntry s1 c l' = laneEntry s c l'

theorem laneNow_refl (h : GranClean s c) (l : Nat) : LaneNow s c l (laneEntry s c l) s := ⟨granWritten_refl h, rfl, fun _ _ => rfl⟩

theorem LaneNow.set {e : Fin 8 → Nat} (h : LaneNow s c l e s1) (v : Nat) {off : Nat} (j : Fin 8) (ho : off = 4 * j) :
    LaneNow s c l (Function.update e j (v % 2 ^ 32)) (setLaneField s1 c l off v) where
  written := h.written.trans (granWritten_setLaneField h.written.clean l off v)
  entry := by rw [laneEntry_set h.written.clean l v j ho, if_pos rfl, h.entry]
  others l' hl := by rw [laneEntry_set h.written.clean l v j ho, if_neg hl, h.others l' hl]

/-- The writes of a verdict up to SUMSQ: loss scale, factor, norm. -/
theorem laneNow_fourWrites (h : GranClean s c) (l v0 v2 v3 : Nat) : LaneNow s c l
    ![v0 % 2 ^ 32, laneEntry s c l 1, v2 % 2 ^ 32, v3 % 2 ^ 32, 0, laneEntry s c l 5, laneEntry s c l 6, laneEntry s c l 7]
    (setLaneField (setLaneField (setLaneField (setLaneField s c l 0x00 v0) c l 0x08 v2) c l 0x0C v3) c l 0x10 0) := by
  have hall := ((((laneNow_refl h l).set v0 (off := 0x00) 0 rfl).set v2 (off := 0x08) 2 rfl).set v3 (off := 0x0C) 3 rfl).set 0 (off := 0x10) 4 rfl
  refine ⟨hall.written, hall.entry.trans ?_, hall.others⟩
  funext i
  fin_cases i <;> simp [Function.update]

theorem laneField_eq_entry (s : State) (c l : Nat) : laneField s c l 0x00 = laneEntry s c l 0 ∧ laneField s c l 0x04 = laneEntry s c l 1 ∧
    laneField s c l 0x08 = laneEntry s c l 2 ∧ laneField s c l 0x0C = laneEntry s c l 3 ∧ laneField s c l 0x10 = laneEntry s c l 4 ∧
    laneField s c l 0x14 = laneEntry s c l 5 ∧ laneField s c l 0x18 = laneEntry s c l 6 := ⟨rfl, rfl, rfl, rfl, rfl, rfl, rfl⟩

theorem laneEntry_lt (s : State) (c l : Nat) (j : Fin 8) : laneEntry s c l j < 2 ^ 32 := laneField_lt _ _ _ _

theorem update_six (x0 x1 x2 x3 x4 x5 x6 x7 v : Nat) :
    Function.update ![x0, x1, x2, x3, x4, x5, x6, x7] 6 v = ![x0, x1, x2, x3, x4, x5, v, x7] := by
  funext i; fin_cases i <;> rfl

theorem update_five (x0 x1 x2 x3 x4 x5 x6 x7 v : Nat) :
    Function.update ![x0, x1, x2, x3, x4, x5, x6, x7] 5 v = ![x0, x1, x2, x3, x4, v, x6, x7] := by
  funext i; fin_cases i <;> rfl

/-- The writes of a verdict that skips the step: the counts last. -/
theorem laneNow_badWrites (h : GranClean s c) (l v0 v3 v6 : Nat) (h6 : v6 < 2 ^ 32) : LaneNow s c l
    (entryWith (laneEntry s c l) (v0 % 2 ^ 32) 0 (v3 % 2 ^ 32) (laneEntry s c l 5) v6)
    (setLaneField (setLaneField (setLaneField (setLaneField (setLaneField s c l 0x00 v0) c l 0x08 0) c l 0x0C v3) c l 0x10 0) c l 0x18 v6) := by
  have hall := (laneNow_fourWrites h l v0 0 v3).set v6 (off := 0x18) 6 rfl
  rw [update_six, Nat.mod_eq_of_lt h6, Nat.zero_mod] at hall
  exact hall

/-- The writes of a good verdict: the step number, taken from the entry as it stands, and the counts last. -/
theorem laneNow_goodWrites (h : GranClean s c) (l v0 v2 v3 v6 : Nat) (h6 : v6 < 2 ^ 32) :
    let s4 := setLaneField (setLaneField (setLaneField (setLaneField s c l 0x00 v0) c l 0x08 v2) c l 0x0C v3) c l 0x10 0
    LaneNow s c l (entryWith (laneEntry s c l) (v0 % 2 ^ 32) (v2 % 2 ^ 32) (v3 % 2 ^ 32) ((laneEntry s c l 5 + 1) % 2 ^ 32) v6)
      (setLaneField (setLaneField s4 c l 0x14 ((laneField s4 c l 0x14 + 1) % 2 ^ 32)) c l 0x18 v6) := by
  intro s4
  have hfour := laneNow_fourWrites h l v0 v2 v3
  have hcount : laneField s4 c l 0x14 = laneEntry s c l 5 := congrFun hfour.entry 5
  have hall := (hfour.set ((laneField s4 c l 0x14 + 1) % 2 ^ 32) (off := 0x14) 5 rfl).set v6 (off := 0x18) 6 rfl
  rw [hcount, update_five, update_six, Nat.mod_eq_of_lt h6, Nat.mod_mod] at hall
  rw [hcount]
  exact hall

theorem laneNow_verdictLane (h : GranClean s c) (l ss : Nat) (nf : Bool) :
    LaneNow s c l (entryVerdict l ss nf (laneEntry s c l)) (verdictLane s c l ss nf) := by
  obtain ⟨h0, h4, -, -, -, -, h18⟩ := laneField_eq_entry s c l
  have hcount (u v : Nat) : setFieldN (setFieldN (laneEntry s c l 6) 31 30 u) 15 0 v < 2 ^ 32 :=
    setFieldN_lt (by decide) (by decide) (setFieldN_lt (by decide) (by decide) (laneEntry_lt s c l 6))
  unfold verdictLane entryVerdict
  simp only [h0, h4, h18]
  split
  · exact laneNow_badWrites h l _ _ _ (hcount _ _)
  · exact laneNow_goodWrites h l _ _ _ _ (hcount _ _)

end Sys2Proof.Machine
end

section
/-!
PROOFS. VERDICT and NORM (06 R229–R231, R234; 12 R427).
-/

namespace Sys2Proof.Machine

variable {s s0 s1 s2 : State} {c l : Nat} {m : EngCmd} {ws : List Nat}

/-! ## Folds over the lanes of a command -/

/-- A fold of steps, step i of which changes place k + i alone, over n of them: each place once. -/
theorem get_foldl_range {σ β : Type} {P : σ → Prop} {get : σ → Nat → β} {step : σ → Nat → σ} {f : Nat → β → β} (k : Nat)
    (hP : ∀ x i, P x → P (step x i)) (h : ∀ x i j, P x → get (step x i) j = if j = k + i then f i (get x j) else get x j) (n : Nat) {x : σ}
    (hx : P x) : P ((List.range n).foldl step x) ∧
      (∀ i, i < n → get ((List.range n).foldl step x) (k + i) = f i (get x (k + i))) ∧
      ∀ j, k + n ≤ j → get ((List.range n).foldl step x) j = get x j := by
  induction n with
  | zero => exact ⟨hx, fun i hi => absurd hi (Nat.not_lt_zero i), fun j _ => rfl⟩
  | succ n ih =>
    obtain ⟨hp, hin, hout⟩ := ih
    rw [List.range_succ, List.foldl_append, List.foldl_cons, List.foldl_nil]
    refine ⟨hP _ n hp, fun i hi => ?_, fun j hj => ?_⟩
    · rw [h _ _ _ hp]
      by_cases he : i = n
      · subst he; rw [if_pos rfl, hout _ (le_refl _)]
      · rw [if_neg (by omega), hin i (by omega)]
    · rw [h _ _ _ hp, if_neg (by omega), hout j (by omega)]

/-- How many lanes a VERDICT names. -/
def vCount (ws : List Nat) : Nat := eField ws 0 8 0 + 1

theorem vLanes_eq (ws : List Nat) : vLanes ws = (List.range (vCount ws)).map (fun i => eLane ws + i) := rfl

theorem vLanes_length (ws : List Nat) : (vLanes ws).length = vCount ws := by rw [vLanes_eq, List.length_map, List.length_range]

theorem vLanes_zip (ws : List Nat) :
    (vLanes ws).zip (List.range (vLanes ws).length) = (List.range (vCount ws)).map (fun i => (eLane ws + i, i)) := by
  have h := List.zip_map' (f := fun i => eLane ws + i) (g := id) (l := List.range (vCount ws))
  rw [List.map_id] at h
  rw [vLanes_length, vLanes_eq, h]
  rfl

/-! ## The result of a norm reap -/

/-- The verdicts of the lanes of a command, one after another. -/
def verdicts (c : Nat) (ws : List Nat) (sums : List Nat) (f : Nat) (s : State) : State :=
  (List.range (vCount ws)).foldl (fun s i => verdictLane s c (eLane ws + i) (sums.getD i 0) (f.testBit i)) s

theorem verdicts_lanes (h : GranClean s c) (ws sums : List Nat) (f : Nat) : GranWritten s c (verdicts c ws sums f s) ∧ ∀ i, i < vCount ws →
    laneEntry (verdicts c ws sums f s) c (eLane ws + i) =
      entryVerdict (eLane ws + i) (sums.getD i 0) (f.testBit i) (laneEntry s c (eLane ws + i)) := by
  obtain ⟨hw, hin, -⟩ := get_foldl_range (P := GranWritten s c) (get := fun x => laneEntry x c)
    (step := fun s i => verdictLane s c (eLane ws + i) (sums.getD i 0) (f.testBit i))
    (f := fun i => entryVerdict (eLane ws + i) (sums.getD i 0) (f.testBit i)) (eLane ws)
    (fun x i hx => hx.trans (laneNow_verdictLane hx.clean _ _ _).written)
    (fun x i j hx => by
      have hl := laneNow_verdictLane hx.clean (eLane ws + i) (sums.getD i 0) (f.testBit i)
      split
      · next he => rw [he, hl.entry]
      · next he => exact hl.others j he) (vCount ws) (granWritten_refl h)
  exact ⟨hw, hin⟩

theorem sync_dropOut_eng (s : State) (c n : Nat) : (getCore (dropOut s c n) c).eng = (getCore s c).eng ∧
    coreMem (dropOut s c n) true c = coreMem s true c := by
  simp only [coreMem, dropOut, setOuts, getCore_updCore_same, and_self]

theorem verdictResult_of_result {o : ReapOut} {sums : List Nat} {f : Nat} (ho : findOut s c (vCtx ws) = some o) (hw : o.who = .harrow)
    (hr : o.result = some (sums, f)) : verdictResult s c ws =
      endCmd (verdicts c ws sums f (dropOut s c (vCtx ws))) c false 0
        ((vLanes ws).filter (laneSkip (verdicts c ws sums f (dropOut s c (vCtx ws))) c)).length := by
  unfold verdictResult
  rw [ho]
  simp only [hw, hr, bne_self_eq_false, Bool.false_eq_true, if_false, vLanes_zip, List.foldl_map]
  rfl

/-! ## What an entry holds after its verdict -/

theorem laneSkip_eq (s : State) (c l : Nat) : laneSkip s c l = (laneEntry s c l 6).testBit 31 := rfl
theorem laneNfp_eq (s : State) (c l : Nat) : laneNfp s c l = (laneEntry s c l 6).testBit 30 := rfl

/-- The flags and the GOOD count of a word of which both are written. -/
theorem counts_fields (w u v : Nat) : (setFieldN (setFieldN w 31 30 u) 15 0 v).testBit 31 = u.testBit 1 ∧
    (setFieldN (setFieldN w 31 30 u) 15 0 v).testBit 30 = u.testBit 0 ∧ setFieldN (setFieldN w 31 30 u) 15 0 v % 2 ^ 16 = v % 2 ^ 16 := by
  refine ⟨?_, ?_, Nat.eq_of_testBit_eq (fun i => ?_)⟩
  · rw [testBit_setFieldN (by decide), if_neg (by decide), testBit_setFieldN (by decide), if_pos (by decide)]
  · rw [testBit_setFieldN (by decide), if_neg (by decide), testBit_setFieldN (by decide), if_pos (by decide)]
  · rw [Nat.testBit_mod_two_pow, Nat.testBit_mod_two_pow]
    by_cases hi : i < 16
    · rw [testBit_setFieldN (by decide), if_pos ⟨Nat.zero_le i, by omega⟩, Nat.sub_zero]
    · simp only [hi, decide_false, Bool.false_and]

/-- SKIP after a verdict: the lane was flagged or its sum is not finite. -/
theorem entryVerdict_flags (l ss : Nat) (nf : Bool) (e : Fin 8 → Nat) : (entryVerdict l ss nf e 6).testBit 31 = (nf || !f32finite ss) ∧
    (entryVerdict l ss nf e 6).testBit 30 = false ∧ entryVerdict l ss nf e 4 = 0 := by
  unfold entryVerdict
  cases (nf || !f32finite ss)
  · obtain ⟨-, -, -, h4, -, h6⟩ := entryWith_words e _ _ _ _ _
    obtain ⟨h31, h30, -⟩ := counts_fields (e 6) 0 (if entryGrows e then 0 else e 6 % 2 ^ 16 + 1)
    rw [if_neg (by decide), entryGood, h6, h4]
    exact ⟨h31, h30, rfl⟩
  · obtain ⟨-, -, -, h4, -, h6⟩ := entryWith_words e _ _ _ _ _
    obtain ⟨h31, h30, -⟩ := counts_fields (e 6) 2 0
    rw [if_pos rfl, entryBad, h6, h4]
    exact ⟨h31, h30, rfl⟩

theorem verdictResult_effect {o : ReapOut} {sums : List Nat} {f : Nat} (hc : (getEng s c false).cmd = some m)
    (ho : findOut s c (vCtx ws) = some o) (hw : o.who = .harrow) (hr : o.result = some (sums, f)) (hm : GranClean s c) :
    let s' := verdictResult s c ws
    findOut s' c (vCtx ws) = none ∧
    (getEng s' c false).cmd = some (m.endedWith 0
      ((List.range (vCount ws)).filter (fun i => f.testBit i || !f32finite (sums.getD i 0))).length) ∧
    ∀ i, i < vCount ws → laneEntry s' c (eLane ws + i) =
      entryVerdict (eLane ws + i) (sums.getD i 0) (f.testBit i) (laneEntry s c (eLane ws + i)) := by
  intro s'
  obtain ⟨heng, hmem⟩ := sync_dropOut_eng s c (vCtx ws)
  have hm0 : GranClean (dropOut s c (vCtx ws)) c := fun x => by rw [hmem]; exact hm x
  obtain ⟨hwr, hlanes⟩ := verdicts_lanes hm0 ws sums f
  have hc0 : (getEng (dropOut s c (vCtx ws)) c false).cmd = some m := by rw [getEng_of_eng heng]; exact hc
  have hs' : s' = _ := verdictResult_of_result ho hw hr
  have hskip : ((vLanes ws).filter (laneSkip (verdicts c ws sums f (dropOut s c (vCtx ws))) c)).length =
      ((List.range (vCount ws)).filter (fun i => f.testBit i || !f32finite (sums.getD i 0))).length := by
    rw [vLanes_eq, List.filter_map, List.length_map]
    refine congrArg List.length (List.filter_congr (fun i hi => ?_))
    rw [Function.comp_apply, laneSkip_eq, hlanes i (List.mem_range.1 hi)]
    exact (entryVerdict_flags _ _ _ _).1
  rw [hs', hskip]
  refine ⟨?_, cmd_endCmd (hwr.cmd hc0) _ _, fun i hi => ?_⟩
  · have hsync : (getCore (endCmd (verdicts c ws sums f (dropOut s c (vCtx ws))) c false 0
        ((List.range (vCount ws)).filter (fun i => f.testBit i || !f32finite (sums.getD i 0))).length) c).sync =
        (getCore (dropOut s c (vCtx ws)) c).sync := (sync_setEng _ _ _ _).trans hwr.sync
    rw [findOut, hsync]
    exact findOut_dropOut s c (vCtx ws)
  · rw [endCmd, laneEntry_updCmd, hlanes i hi, laneEntry_congr (by rw [heng]) hmem]

/-! ## The contribution of a VERDICT -/

/-- The lane table needs no copy: there is no area for it, or it is copied. -/
def LanesKept (s : State) (c : Nat) : Prop := s.resil.stubArea = none ∨ (stubbleNow s).lanes.contains c = true

theorem stubLanes_kept (h : LanesKept s c) : stubLanes s c = s := by
  unfold stubLanes
  rcases h with h | h
  · rw [h]
  · cases s.resil.stubArea with
    | none => rfl
    | some area => exact if_pos h

theorem sameCores_laneReads (h : GranClean s c) (l : List Nat) : SameCores s (l.foldl (fun s l => (laneRead s c l).st) s) :=
  List.foldlRecOn (motive := SameCores s) l _ (sameCores_refl s)
    (fun _ hx _ _ => hx.trans (sameCores_coreRead (cleanRun_unmarked (hx.granClean h) _ _)))

/-- Lanes of which no word is marked are contributed as they stand. -/
theorem laneSums_clean (h : GranClean s c) (h1 : SameCores s s1) (l : List Nat) :
    l.map (fun l => if lanePoison s1 c l 0x10 then 0 else laneField s1 c l 0x10) = l.map (fun l => laneField s c l 0x10) := by
  refine List.map_congr_left (fun x _ => ?_)
  have hp : lanePoison s1 c x 0x10 = false := by
    have hx := h1.granClean h ((laneAddr (getCore s1 c) x + 0x10) / 8)
    rw [lanePoison]
    exact congrArg Mark.poison hx
  rw [hp, if_neg (by decide), laneField_congr (by rw [h1.core]) (h1.coreMem true c)]

theorem reaps_updCmd (s : State) (c : Nat) (b : Bool) (f : EngCmd → EngCmd) : (updCmd s c b f).reaps = s.reaps ∧ (updCmd s c b f).grid = s.grid :=
  ⟨rfl, rfl⟩

/-- A VERDICT that is not the last contribution of its round adds its lanes and waits. -/
theorem verdictRun_waits {d : Nat} (hc : (getEng s c false).cmd = some m) (hk : verdictCheck s c ws = none)
    (hx : verdictCtxOk s c ws = true) (hm : GranClean s c) (hl : LanesKept s c)
    (hh : reapHole s (getReap s (reapKey (dieOf s.grid c) (vCtx ws))) = none)
    (hd : d ∈ members s (getReap s (reapKey (dieOf s.grid c) (vCtx ws))).rows (getReap s (reapKey (dieOf s.grid c) (vCtx ws))).cols)
    (hdc : d ≠ c) (hn : ∀ i ∈ (getReap s (reapKey (dieOf s.grid c) (vCtx ws))).ins, i.core ≠ d) :
    (getEng (verdictRun s c ws) c false).cmd = some { m with phase := .reapWait } ∧
    (getReap (verdictRun s c ws) (reapKey (dieOf s.grid c) (vCtx ws))).ins.map (fun i => (i.core, i.lanes)) =
      (getReap s (reapKey (dieOf s.grid c) (vCtx ws))).ins.map (fun i => (i.core, i.lanes)) ++
        [(c, (vLanes ws).map (fun l => laneField s c l 0x10))] := by
  have h1 := sameCores_laneReads hm (vLanes ws)
  obtain ⟨hgrid, hreaps⟩ : (updCmd ((vLanes ws).foldl (fun s l => (laneRead s c l).st) s) c false (fun k => { k with phase := .reapWait })).grid =
      s.grid ∧ (updCmd ((vLanes ws).foldl (fun s l => (laneRead s c l).st) s) c false (fun k => { k with phase := .reapWait })).reaps = s.reaps := by
    rw [(reaps_updCmd _ _ _ _).1, (reaps_updCmd _ _ _ _).2, h1.rest]
    exact ⟨rfl, rfl⟩
  have hcmd := cmd_updCmd (h1.cmd hc) (fun k => { k with phase := .reapWait })
  have hsums := laneSums_clean hm h1 (vLanes ws)
  unfold verdictRun
  rw [hk]
  dsimp only
  rw [hx, if_neg (by decide), stubLanes_kept hl, hsums]
  generalize hs1 : (vLanes ws).foldl (fun s l => (laneRead s c l).st) s = s1 at *
  generalize hs2 : updCmd s1 c false (fun k => { k with phase := .reapWait }) = s2 at *
  have hget (k : Nat) : getReap s2 k = getReap s k := by rw [getReap, hreaps]; rfl
  rw [← hgrid, ← hget, reapHole_of_grid hgrid.symm] at hh
  rw [← hgrid, ← hget, ← members_of_grid hgrid] at hd
  rw [← hgrid, ← hget] at hn
  rw [← hgrid, reapContribute_waits _ _ _ hh hd hdc hn]
  refine ⟨?_, ?_⟩
  · rw [getEng_of_eng (s := s2) (by rw [getCore_contributed_same])]; exact hcmd
  · rw [contributed, getReap, setReap, spGet_set_same, hget, List.map_append]
    rfl

/-! ## VERDICT with CLRONLY -/

/-- What an access to a core's memory leaves alone: all but the cores, the counters of errors and the recorder. -/
def besideAccess (s : State) : State := { s with cores := [], mstats := {}, recorder := {} }

theorem besideAccess_resil (s : State) : (besideAccess s).resil = s.resil := rfl

theorem besideAccess_setCoreMem (s : State) (gran : Bool) (c : Nat) (m : Mem) : besideAccess (setCoreMem s gran c m) = besideAccess s := by
  cases gran <;> rfl

theorem besideAccess_sendEvent (s : State) (e : Event) : besideAccess (sendEvent s e) = besideAccess s := by
  unfold sendEvent; split <;> rfl

theorem besideAccess_retireFrame (s : State) (pa : Nat) : besideAccess (retireFrame s pa) = besideAccess s := by
  unfold retireFrame
  dsimp only
  split
  · rfl
  · exact besideAccess_sendEvent _ _

theorem besideAccess_reportUncorr (s : State) (kind source : Nat) (l : List Nat) :
    besideAccess (reportUncorr s kind source l) = besideAccess s := by
  induction l generalizing s with
  | nil => rfl
  | cons a l ih =>
    rw [reportUncorr, ih]
    split
    · exact (besideAccess_retireFrame _ _).trans (besideAccess_sendEvent _ _)
    · exact besideAccess_sendEvent _ _

theorem besideAccess_wordProbe (s : State) (gran : Bool) (c x : Nat) : besideAccess (wordProbe s gran c x).1 = besideAccess s := by
  simp only [wordProbe]
  split <;> simp only [besideAccess_reportUncorr, besideAccess_setCoreMem]

theorem besideAccess_setWaiters (s : State) (c : Nat) (l : List Waiter) : besideAccess (setWaiters s c l) = besideAccess s := rfl

theorem besideAccess_answerReq (s : State) (c id v : Nat) (p : Bool) : besideAccess (answerReq s c id v p) = besideAccess s := rfl

theorem besideAccess_serveWord (gran : Bool) (c x n : Nat) (s : State) : besideAccess (serveWord gran c x n s) = besideAccess s := by
  induction n generalizing s with
  | zero => rfl
  | succ n ih =>
    have hp := besideAccess_wordProbe s gran c x
    have hpeeks (l : List Waiter) (v : Nat) (p : Bool) :
        besideAccess (l.foldl (fun s x => answerReq s x.core x.req v p) (wordProbe s gran c x).1) = besideAccess s :=
      (foldl_keeps besideAccess (fun _ _ => besideAccess_answerReq _ _ _ _ _) l _).trans hp
    unfold serveWord
    dsimp only
    split
    · split
      · rw [besideAccess_setWaiters, hpeeks]
      · rw [ih, latchSet, besideAccess_setCoreMem, besideAccess_answerReq, besideAccess_setWaiters, hpeeks]
    · split
      · exact hp
      · rw [ih, latchWrite, besideAccess_setCoreMem, besideAccess_answerReq, besideAccess_setWaiters, hp]

theorem besideAccess_serve (s : State) (gran : Bool) (c x : Nat) : besideAccess (serve s gran c x) = besideAccess s :=
  besideAccess_serveWord gran c x _ s

theorem besideAccess_coreWrite (s : State) (gran : Bool) (c : Nat) (p : Bool) (a : Nat) (bs : List Byte) :
    besideAccess (coreWrite s gran c p a bs) = besideAccess s := by
  have hcount (s : State) (n : Nat) : besideAccess (countCorrCore s c n) = besideAccess s := by unfold countCorrCore; split <;> rfl
  unfold coreWrite coreAccess serveFound
  dsimp only
  rw [foldl_keeps besideAccess (fun _ _ => besideAccess_serve _ _ _ _), hcount, besideAccess_reportUncorr, besideAccess_setCoreMem]

/-- Clearing a lane leaves the resilience unit's state, whatever the granary holds. -/
theorem resil_clearLane (s : State) (c l : Nat) : (clearLane s c l).resil = s.resil := by
  have h : besideAccess (clearLane s c l) = besideAccess s := by
    rw [clearLane, setNfp, setLaneField, besideAccess_coreWrite, setLaneField, besideAccess_coreWrite]
  rw [← besideAccess_resil, h, besideAccess_resil]

theorem stubLanes_marks (h : ¬ LanesKept s c) : (stubLanes s c).resil.stubble.lanes.contains c = true := by
  rw [LanesKept, not_or] at h
  obtain ⟨harea, hlanes⟩ := h
  obtain ⟨area, harea⟩ := Option.ne_none_iff_exists'.1 harea
  unfold stubLanes
  rw [harea]
  dsimp only
  rw [if_neg hlanes, setStubble, List.contains_iff_mem]
  exact List.mem_append_right _ (List.mem_singleton_self c)

/-- The lanes of a command cleared, one after another. -/
def laneClears (c : Nat) (ws : List Nat) (s : State) : State := (vLanes ws).foldl (fun s l => clearLane s c l) s

theorem laneClears_lanes (h : GranClean s c) (ws : List Nat) : GranWritten s c (laneClears c ws s) ∧
    ∀ x ∈ vLanes ws, laneEntry (laneClears c ws s) c x = entryCleared (laneEntry s c x) := by
  obtain ⟨hw, hin, -⟩ := get_foldl_range (P := GranWritten s c) (get := fun x => laneEntry x c)
    (step := fun s i => clearLane s c (eLane ws + i)) (f := fun _ => entryCleared) (eLane ws)
    (fun x i hx => hx.trans (granWritten_clearLane hx.clean _))
    (fun x i j hx => laneEntry_clearLane hx.clean _ j) (vCount ws) (granWritten_refl h)
  have heq : laneClears c ws s = (List.range (vCount ws)).foldl (fun s i => clearLane s c (eLane ws + i)) s := by
    rw [laneClears, vLanes_eq, List.foldl_map]
  rw [heq]
  refine ⟨hw, fun x hx => ?_⟩
  rw [vLanes_eq] at hx
  obtain ⟨i, hi, rfl⟩ := List.mem_map.1 hx
  exact hin i (List.mem_range.1 hi)

theorem entryCleared_words (e : Fin 8 → Nat) :
    entryCleared e 4 = 0 ∧ (entryCleared e 6).testBit 30 = false ∧ entryCleared e 0 = e 0 := by
  refine ⟨rfl, ?_, rfl⟩
  have h6 : entryCleared e 6 = setFieldN (e 6) 30 30 (boolN false) := rfl
  rw [h6, testBit_setFieldN (by decide), if_pos (by decide)]
  decide

theorem verdictClronly_clears (hc : (getEng s c false).cmd = some m) (hp : m.phase = .run) (ho : eOp m.words = 3) (hv : vClr m.words = true)
    (hk : verdictCheck s c m.words = none) :
    exec (.verdictClronly c) s = .next (endCmd (laneClears c m.words (stubLanes s c)) c false 0 0) := by
  have h : exec (.verdictClronly c) s = execVerdictClronly c s := rfl
  rw [h, execVerdictClronly, engCmd_of_op hc hp ho]
  dsimp only
  rw [hv, if_pos rfl, hk]
  rfl

/-! ## NORM -/

/-- Element i of the array that a NORM reads. -/
def normElem (s : State) (c : Nat) (ws : List Nat) (i : Nat) : Nat := ofBytes ((coreMem s true c).getBytes (eField ws 1 22 0 + 4 * i) 4)

/-- The finite ones among them. -/
def normFinite (s : State) (c : Nat) (ws : List Nat) : List Nat := (List.range (eCount ws)).filter (fun i => f32finite (normElem s c ws i))

/-- The sum of the squares of the finite elements. -/
def normSum (s : State) (c : Nat) (ws : List Nat) : Nat :=
  f32sum ((normFinite s c ws).map (fun i => f32mul (normElem s c ws i) (normElem s c ws i)))

/-- The lane once the sum is added to it. -/
def normAdded (c : Nat) (ws : List Nat) (sum : Nat) (s : State) : State :=
  setLaneField s c (eLane ws) 0x10 (f32add (laneField s c (eLane ws) 0x10) sum)

/-- The elements that a NORM reads of a clean granary, each with whether it is left out. -/
theorem normElems_clean (h : GranClean s c) (ws : List Nat) : let g := coreRead s true c (eField ws 1 22 0) (4 * eCount ws)
    (List.range (eCount ws)).map (fun i => (g.elem 4 i, g.bad 4 i || !f32finite (g.elem 4 i))) =
      (List.range (eCount ws)).map (fun i => (normElem s c ws i, !f32finite (normElem s c ws i))) := by
  intro g
  refine List.map_congr_left (fun i hi => ?_)
  have hi' := List.mem_range.1 hi
  have hbad : g.bad 4 i = false := coreRead_pois_getD (cleanRun_unmarked h _ _) _
  have helem : g.elem 4 i = normElem s c ws i := by
    rw [Got.elem, coreRead_bytes, bytesAt_getBytes _ _ (by omega)]
    rfl
  rw [hbad, helem, Bool.false_or]

theorem normRun_eq (h : GranClean s c) (hk : normCheck s c ws = none) : ∃ s1, SameCores s s1 ∧ normRun s c ws =
    endCmd (if eCount ws - (normFinite s c ws).length = 0 then normAdded c ws (normSum s c ws) s1
      else setNfp (normAdded c ws (normSum s c ws) s1) c (eLane ws) true) c false 0 (eCount ws - (normFinite s c ws).length) := by
  have hx := normElems_clean h ws
  have hsum : (((List.range (eCount ws)).map (fun i => (normElem s c ws i, !f32finite (normElem s c ws i)))).filter (fun x => !x.2)).map
      (fun x => f32mul x.1 x.1) = (normFinite s c ws).map (fun i => f32mul (normElem s c ws i) (normElem s c ws i)) := by
    simp only [List.filter_map, List.map_map, normFinite, Function.comp_def, Bool.not_not]
  have hbad : (((List.range (eCount ws)).map (fun i => (normElem s c ws i, !f32finite (normElem s c ws i)))).filter (·.2)).length =
      eCount ws - (normFinite s c ws).length := by
    have hlen := List.length_eq_length_filter_add (l := List.range (eCount ws)) (fun i => f32finite (normElem s c ws i))
    rw [List.length_range] at hlen
    simp only [List.filter_map, List.length_map, normFinite, Function.comp_def]
    omega
  refine ⟨_, sameCores_coreRead (cleanRun_unmarked h (eField ws 1 22 0) (4 * eCount ws)), ?_⟩
  unfold normRun
  rw [hk]
  dsimp only
  rw [hx, hsum, hbad]
  rfl

/-- What a NORM leaves in the entry of its lane: the sum, and NFP if an element is not finite. -/
def entryNorm (sum : Nat) (all : Bool) (e : Fin 8 → Nat) : Fin 8 → Nat :=
  let e' := Function.update e 4 (f32add (e 4) sum % 2 ^ 32)
  if all then e' else entryNfp true e'

theorem laneEntry_normRun (h : GranClean s c) (hc : (getEng s c false).cmd = some m) (hk : normCheck s c ws = none) :
    (getEng (normRun s c ws) c false).cmd = some (m.endedWith 0 (eCount ws - (normFinite s c ws).length)) ∧
    laneEntry (normRun s c ws) c (eLane ws) =
      entryNorm (normSum s c ws) (eCount ws - (normFinite s c ws).length = 0) (laneEntry s c (eLane ws)) := by
  obtain ⟨s1, h1, heq⟩ := normRun_eq h hk
  have hm1 := h1.granClean h
  have hadd := granWritten_setLaneField hm1 (eLane ws) 0x10 (f32add (laneField s1 c (eLane ws) 0x10) (normSum s c ws))
  have hsumsq : laneField s1 c (eLane ws) 0x10 = laneEntry s c (eLane ws) 4 := congrFun (laneEntry_of_sameCores h1 (eLane ws)) 4
  have hentry : laneEntry (normAdded c ws (normSum s c ws) s1) c (eLane ws) =
      Function.update (laneEntry s c (eLane ws)) 4 (f32add (laneEntry s c (eLane ws) 4) (normSum s c ws) % 2 ^ 32) := by
    rw [normAdded, laneEntry_set hm1 _ _ (off := 0x10) 4 rfl, if_pos rfl, laneEntry_of_sameCores h1, hsumsq]
  rw [heq, endCmd, laneEntry_updCmd, entryNorm]
  by_cases hn : eCount ws - (normFinite s c ws).length = 0
  · rw [if_pos hn, decide_eq_true hn, if_pos rfl]
    exact ⟨cmd_updCmd (hadd.cmd (h1.cmd hc)) _, hentry⟩
  · rw [if_neg hn, decide_eq_false hn, if_neg (by decide), ← hentry]
    exact ⟨cmd_updCmd ((granWritten_setNfp hadd.clean _ _).cmd (hadd.cmd (h1.cmd hc))) _,
      (laneEntry_setNfp hadd.clean _ _ _).trans (if_pos rfl)⟩

end Sys2Proof.Machine
end

section
/-!
PROOFS. UPDATE and its resumption (06 R214–R220, R226), and the statement of the Harrow's commands.
-/

namespace Sys2Proof.Machine

variable {s s1 s2 : State} {c l : Nat} {b : Bool} {m : EngCmd} {ws : List Nat}

/-! ## A core written twice -/

theorem spInsert_twice {α : Type} (l : Sparse α) (k : Nat) (v v' : α) : spInsert (spInsert l k v) k v' = spInsert l k v' := by
  induction l with
  | nil => simp [spInsert]
  | cons p r ih =>
    obtain ⟨j, x⟩ := p
    rcases lt_trichotomy k j with h | h | h
    · simp [spInsert, h]
    · simp [spInsert, h]
    · simp [spInsert, ih, show ¬ k < j by omega, show ¬ k = j by omega]

theorem setCore_twice {k k' : Core} (h : k ≠ coreReset) (h' : k' ≠ coreReset) : setCore (setCore s c k) c k' = setCore s c k' := by
  simp only [setCore, spSet, if_neg h, if_neg h', spInsert_twice]

/-- A core whose engine holds a command is not as reset leaves it. -/
theorem core_ne_reset (h : (getEng s c b).cmd = some m) : getCore s c ≠ coreReset := by
  intro hk
  rw [getEng, hk] at h
  cases b <;> cases h

/-- A command changed in a core that was written as it was. -/
theorem updCmd_setCore_self (h : (getEng s c b).cmd = some m) (f : EngCmd → EngCmd) :
    updCmd (setCore s c (getCore s c)) c b f = updCmd s c b f := by
  have hself := sameCores_setCore_self s c
  have heng := getEng_of_core (hself.core c) b
  have hne : getCore (updCmd s c b f) c ≠ coreReset := core_ne_reset (cmd_updCmd h f)
  rw [updCmd, setEng, getCore_updCore_same] at hne
  unfold updCmd
  dsimp only
  rw [heng, setEng, setEng, updCore, updCore, hself.core]
  exact setCore_twice (core_ne_reset h) hne

theorem updCmd_congr (h : (getEng s c b).cmd = some m) {f g : EngCmd → EngCmd} (hfg : f m = g m) : updCmd s c b f = updCmd s c b g := by
  unfold updCmd
  dsimp only
  rw [h, Option.map_some, Option.map_some, hfg]

/-! ## The start of an UPDATE -/

theorem exec_update (hc : (getEng s c false).cmd = some m) (hp : m.phase = .run) (ho : eOp m.words = 1) :
    exec (.update c) s = .next (updateStart s c m) := by
  have h : exec (.update c) s = execUpdate c s := rfl
  rw [h, execUpdate, engCmd_of_op hc hp ho]

/-- The command with what it reads at its start: hyperparameters, and K, T and SKIP of its lane. -/
def updateBegun (s : State) (c : Nat) (m : EngCmd) : EngCmd :=
  { m with
    hyper := (List.range 8).map (fun i => ofBytes ((getCore s c).mem.localMem.getBytes (uHp m.words + 4 * i) 4))
    laneK := laneField s c (eLane m.words) 0x08
    laneT := laneField s c (eLane m.words) 0x14
    laneSkip := laneSkip s c (eLane m.words)
    inBad := false }

/-- A word of a lane entry that is read whole. -/
theorem laneRead_elem (s : State) (c l : Nat) {j : Nat} (hj : j < 8) : (laneRead s c l).elem 4 j = laneField s c l (4 * j) := by
  rw [Got.elem, laneRead, coreRead_bytes, bytesAt_getBytes _ _ (by omega)]
  rfl

theorem updateInputs_clean (hc : (getEng s c false).cmd = some m) (hg : GranClean s c) (hl : ∀ x, (coreMem s false c).mark x = Mark.none) :
    updateInputs s c m = (updateBegun s c m, updCmd s c false (fun _ => updateBegun s c m)) := by
  have hself := sameCores_setCore_self s c
  have hhp := cleanRun_unmarked hl (uHp m.words) 32
  have hst := (coreRead_of_cleanRun hhp).1
  have hg1 : GranClean (setCore s c (getCore s c)) c := hself.granClean hg
  have hlane := cleanRun_unmarked hg1 (laneAddr (getCore (setCore s c (getCore s c)) c) (eLane m.words)) 32
  have hfield (off : Nat) : laneField (setCore s c (getCore s c)) c (eLane m.words) off = laneField s c (eLane m.words) off :=
    laneField_congr (by rw [hself.core]) (hself.coreMem true c) _ _
  have hpois (i : Nat) : (laneRead (setCore s c (getCore s c)) c (eLane m.words)).pois.getD i false = false := coreRead_pois_getD hlane i
  have hst2 : (laneRead (setCore s c (getCore s c)) c (eLane m.words)).st = setCore s c (getCore s c) := by
    rw [laneRead, (coreRead_of_cleanRun hlane).1, hself.core]
    exact setCore_twice (core_ne_reset hc) (core_ne_reset hc)
  have hyper : (List.range 8).map (fun i => (coreRead s false c (uHp m.words) 32).elem 4 i) =
      (List.range 8).map (fun i => ofBytes ((getCore s c).mem.localMem.getBytes (uHp m.words + 4 * i) 4)) := by
    refine List.map_congr_left (fun i hi => ?_)
    have := List.mem_range.1 hi
    rw [Got.elem, coreRead_bytes, bytesAt_getBytes _ _ (by omega)]
    rfl
  unfold updateInputs
  simp only [hst, hst2, hyper, coreRead_not_poison hhp, hpois, laneRead_elem _ _ _ (show 2 < 8 by decide),
    laneRead_elem _ _ _ (show 5 < 8 by decide), laneRead_elem _ _ _ (show 6 < 8 by decide), hfield, Bool.or_false, Bool.not_false, Bool.true_and,
    updCmd_setCore_self hc]
  rfl

/-- An UPDATE that passes its checks goes on as one that has read its inputs. -/
theorem update_begins (hc : (getEng s c false).cmd = some m) (hp : m.phase = .run) (ho : eOp m.words = 1) (hy : m.hyper = [])
    (hk : updateCheck s c m.words = none) (ha : s.resil.stubArea = none) (hg : GranClean s c)
    (hl : ∀ x, (coreMem s false c).mark x = Mark.none) :
    exec (.update c) s = exec (.update c) (updCmd s c false (fun _ => updateBegun s c m)) := by
  have hgo : updateStart s c m = updateGo (updCmd s c false (fun _ => updateBegun s c m)) c (updateBegun s c m) := by
    unfold updateStart
    rw [hy, hk]
    dsimp only [List.isEmpty_nil, Bool.not_true]
    rw [if_neg (by decide), updateInputs_clean hc hg hl]
    dsimp only
    have harea : (updCmd s c false (fun _ => updateBegun s c m)).resil.stubArea = none := ha
    rw [stubUpdate, harea]
  rw [exec_update hc hp ho, exec_update (cmd_updCmd hc (fun _ => updateBegun s c m)) hp ho, hgo]
  rfl

/-! ## An UPDATE that has read its inputs -/

theorem updateStart_begun (h : m.hyper ≠ []) : updateStart s c m = updateGo s c m := by
  unfold updateStart
  rw [if_pos (by simpa using h)]

theorem updateGo_skips (hs : m.laneSkip = true) (hz : uZg m.words = false) : updateGo s c m = endCmd s c false 1 0 := by
  unfold updateGo
  dsimp only
  rw [hs, if_pos rfl, hz, if_neg (by decide)]

/-- An epoch word that no UPDATE can use. -/
def epochOdd (ws : List Nat) (k : Mark) (v : Nat) : Prop := k.poison = true ∨ v.testBit 31 ≠ uNb3 ws ∨ v / 2 ^ 32 = 0xFFFFFFFF

theorem epochOdd_iff (ws : List Nat) (k : Mark) (v : Nat) :
    epochOdd ws k v ↔ (k.poison || v.testBit 31 != uNb3 ws || v / 2 ^ 32 == 0xFFFFFFFF) = true := by
  simp [epochOdd, or_assoc]

/-- What an UPDATE finds at its epoch word decides how it goes on. -/
theorem updateGo_looks (hs : m.laneSkip = false) (he : ((coreMem s true c).mark (uEpw m.words / 8)).ecc = .clean) :
    let s1 := (latchProbe s true c (uEpw m.words / 8)).1
    let k := (coreMem s true c).mark (uEpw m.words / 8)
    let v := ofBytes ((coreMem s true c).getBytes (8 * (uEpw m.words / 8)) 8)
    SameCores s s1 ∧
    (k.full = false → updateGo s c m = s1) ∧
    (k.full = true → epochOdd m.words k v → updateGo s c m = endCmd s1 c false 0x11 0) ∧
    (k.full = true → ¬ epochOdd m.words k v → cntOf m.words (v / 2 ^ 32) v ≠ 0 →
      updateGo s c m = updCmd s1 c false (fun k => { k with phase := .epochWait, epoch := v / 2 ^ 32 })) ∧
    (k.full = true → ¬ epochOdd m.words k v → cntOf m.words (v / 2 ^ 32) v = 0 → updateGo s c m = updateRun s1 c m (v / 2 ^ 32)) := by
  intro s1 k v
  have hpr : latchProbe s true c (uEpw m.words / 8) = (s1, k, v) := by simp only [s1, k, v, latchProbe_clean he]
  have hsame : SameCores s s1 := by simp only [s1, latchProbe_clean he]; exact sameCores_setCore_self s c
  have hgo : updateGo s c m = if !k.full then s1
      else if k.poison || v.testBit 31 != uNb3 m.words || v / 2 ^ 32 == 0xFFFFFFFF then endCmd s1 c false 0x11 0
      else if cntOf m.words (v / 2 ^ 32) v = 0 then updateRun s1 c m (v / 2 ^ 32)
      else updCmd s1 c false (fun k => { k with phase := .epochWait, epoch := v / 2 ^ 32 }) := by
    unfold updateGo
    dsimp only
    rw [hs, if_neg (by decide), hpr]
  rw [hgo]
  simp only [epochOdd_iff]
  refine ⟨hsame, fun hf => ?_, fun hf ho => ?_, fun hf ho hn => ?_, fun hf ho hn => ?_⟩ <;> rw [hf]
  · rfl
  · rw [if_neg (by decide), if_pos ho]
  · rw [if_neg (by decide), if_neg ho, if_neg hn]
  · rw [if_neg (by decide), if_neg ho, if_pos hn]

theorem updateEpochResume_runs (hc : (getEng s c false).cmd = some m) (hp : m.phase = .epochWait) (ho : eOp m.words = 1)
    (hf : ((coreMem s true c).mark (uEpw m.words / 8)).full = true) (he : ((coreMem s true c).mark (uEpw m.words / 8)).ecc = .clean)
    (hn : cntOf m.words m.epoch (ofBytes ((coreMem s true c).getBytes (8 * (uEpw m.words / 8)) 8)) = 0) :
    exec (.updateEpochResume c) s = .next (updateRun (latchProbe s true c (uEpw m.words / 8)).1 c m m.epoch) := by
  have h : exec (.updateEpochResume c) s = execUpdateEpochResume c s := rfl
  rw [h, execUpdateEpochResume, engCmd_of_op hc hp ho]
  dsimp only
  rw [latchProbe_clean he]
  dsimp only
  rw [hf, hn, if_pos (by decide)]

/-! ## The other commands -/

theorem exec_norm (hc : (getEng s c false).cmd = some m) (hp : m.phase = .run) (ho : eOp m.words = 2) :
    exec (.norm c) s = .next (normRun s c m.words) := by
  have h : exec (.norm c) s = execNorm c s := rfl
  rw [h, execNorm, engCmd_of_op hc hp ho]

theorem exec_verdict (hc : (getEng s c false).cmd = some m) (hp : m.phase = .run) (ho : eOp m.words = 3) (hv : vClr m.words = false) :
    exec (.verdict c) s = .next (verdictRun s c m.words) := by
  have h : exec (.verdict c) s = execVerdict c s := rfl
  rw [h, execVerdict, engCmd_of_op hc hp ho]
  dsimp only
  rw [hv, if_neg (by decide)]

theorem exec_verdictReapResult (hc : (getEng s c false).cmd = some m) (hp : m.phase = .reapWait) (ho : eOp m.words = 3) :
    exec (.verdictReapResult c) s = .next (verdictResult s c m.words) := by
  have h : exec (.verdictReapResult c) s = execVerdictReapResult c s := rfl
  rw [h, execVerdictReapResult, engCmd_of_op hc hp ho]

theorem updateStart_refused {st : Nat} (hy : m.hyper = []) (hk : updateCheck s c m.words = some st) :
    updateStart s c m = endCmd s c false st 0 := by
  unfold updateStart
  rw [hy, hk, if_neg (by decide)]

theorem normRun_refused {st : Nat} (hk : normCheck s c ws = some st) : normRun s c ws = endCmd s c false st 0 := by
  unfold normRun
  rw [hk]

theorem verdictRun_refused {st : Nat} (hk : verdictCheck s c ws = some st) : verdictRun s c ws = endCmd s c false st 0 := by
  unfold verdictRun
  rw [hk]

theorem verdictRun_noContext (hk : verdictCheck s c ws = none) (hx : verdictCtxOk s c ws = false) :
    verdictRun s c ws = endCmd s c false 0x22 0 := by
  unfold verdictRun
  rw [hk]
  dsimp only
  rw [hx, if_pos (by decide)]

theorem verdictClronly_refused {st : Nat} (hc : (getEng s c false).cmd = some m) (hp : m.phase = .run) (ho : eOp m.words = 3)
    (hv : vClr m.words = true) (hk : verdictCheck s c m.words = some st) : exec (.verdictClronly c) s = .next (endCmd s c false st 0) := by
  have h : exec (.verdictClronly c) s = execVerdictClronly c s := rfl
  rw [h, execVerdictClronly, engCmd_of_op hc hp ho]
  dsimp only
  rw [hv, if_pos rfl, hk]

/-! ## The words of a lane after a NORM and after its verdict -/

theorem entryNorm_words (sum : Nat) (all : Bool) (e : Fin 8 → Nat) : entryNorm sum all e 4 = f32add (e 4) sum % 2 ^ 32 ∧
    ((entryNorm sum all e 6).testBit 30 = true ↔ (e 6).testBit 30 = true ∨ all = false) := by
  have h4 : (6 : Fin 8) ≠ 4 := by decide
  unfold entryNorm
  cases all with
  | true => rw [if_pos rfl, Function.update_self, Function.update_of_ne h4]; simp
  | false =>
    rw [if_neg (by decide), entryNfp, Function.update_of_ne h4.symm, Function.update_self, Function.update_self,
      testBit_setFieldN (by decide), if_pos (by decide)]
    exact ⟨rfl, fun _ => .inr rfl, fun _ => by decide⟩

theorem entryScale_eq (e : Fin 8 → Nat) : (if f32finite (e 0) && f32pos (e 0) then e 0 else f32one) = entryScale e := by
  unfold entryScale
  cases f32finite (e 0) <;> cases f32pos (e 0) <;> rfl

theorem entryGrows_eq (e : Fin 8 → Nat) :
    decide (fieldN (e 6) 23 16 ≠ 0 ∧ fieldN (e 6) 23 16 ≤ (e 6 % 2 ^ 16 + 1) % 2 ^ 16) = entryGrows e := by
  unfold entryGrows
  by_cases h : fieldN (e 6) 23 16 = 0 <;> simp [h]

/-- What entry e' holds where e is the entry before, l its lane, ss its sum: both outcomes of a verdict (06 R231). -/
def LaneJudged (ss : Nat) (bad : Bool) (e e' : Fin 8 → Nat) : Prop :=
  e' 4 = 0 ∧ (e' 6).testBit 30 = false ∧ (e' 6).testBit 31 = bad ∧
  (bad = true → e' 2 = 0 ∧ e' 6 % 2 ^ 16 = 0 ∧ e' 5 = e 5 ∧ e' 0 = f32max (f32mul (entryScale e) 0x3F000000) (f32pow2 (-16)) % 2 ^ 32) ∧
  (bad = false → e' 3 = f32div (f32sqrt ss) (entryScale e) % 2 ^ 32 ∧ e' 5 = (e 5 + 1) % 2 ^ 32 ∧
    e' 2 = f32div (entryClip e (f32div (f32sqrt ss) (entryScale e))) (entryScale e) % 2 ^ 32 ∧
    e' 0 = (if entryGrows e then f32min (f32mul (entryScale e) 0x40000000) (f32pow2 24) else entryScale e) % 2 ^ 32 ∧
    e' 6 % 2 ^ 16 = (if entryGrows e then 0 else e 6 % 2 ^ 16 + 1) % 2 ^ 16)

theorem laneJudged_entryVerdict (l ss : Nat) (nf : Bool) (e : Fin 8 → Nat) :
    LaneJudged ss (nf || !f32finite ss) e (entryVerdict l ss nf e) := by
  obtain ⟨h31, h30, h4⟩ := entryVerdict_flags l ss nf e
  refine ⟨h4, h30, h31, fun hb => ?_, fun hb => ?_⟩
  · rw [entryVerdict, if_pos hb, entryBad]
    obtain ⟨h0, h2, -, -, h5, h6⟩ := entryWith_words e (f32max (f32mul (entryScale e) 0x3F000000) (f32pow2 (-16)) % 2 ^ 32) 0
      (quietNan l ss % 2 ^ 32) (e 5) (setFieldN (setFieldN (e 6) 31 30 2) 15 0 0)
    exact ⟨h2, by rw [h6, (counts_fields _ _ _).2.2, Nat.zero_mod], h5, h0⟩
  · rw [entryVerdict, if_neg (by rw [hb]; decide), entryGood]
    obtain ⟨h0, h2, h3, -, h5, h6⟩ := entryWith_words e
      ((if entryGrows e then f32min (f32mul (entryScale e) 0x40000000) (f32pow2 24) else entryScale e) % 2 ^ 32)
      (f32div (entryClip e (f32div (f32sqrt ss) (entryScale e))) (entryScale e) % 2 ^ 32) (f32div (f32sqrt ss) (entryScale e) % 2 ^ 32)
      ((e 5 + 1) % 2 ^ 32) (setFieldN (setFieldN (e 6) 31 30 0) 15 0 (if entryGrows e then 0 else e 6 % 2 ^ 16 + 1))
    exact ⟨h3, h5, h2, h0, by rw [h6, (counts_fields _ _ _).2.2]⟩

/-! ## The statement -/

/-- Settles O44: UPDATE from its held lane, NORM as a fold over its elements, and VERDICT as a fold over its lanes. -/
theorem harrowCommandsRun : Obligations.HarrowCommandsRun := by
  unfold Obligations.HarrowCommandsRun
  intro c s m hc k ws l ends quiet clean kept
  refine ⟨fun hp ho => ⟨fun st hy hk => ?refused, fun hy hk ha hg hl => ?begins, fun hy hs hz => ?skips, fun hy hs he => ?looks⟩,
    fun hp ho hf he hn => ?resumes, fun hp ho => ⟨fun st hk => ?normRefused, fun hk hg => ?norms⟩,
    fun hp ho hv => ⟨fun st hk => ?verdictRefused, fun hk hx => ?noContext, ?contributes⟩,
    fun hp ho hv => ⟨fun st hk => ?clearRefused, fun hk hn => ?copies, fun hk hg hkept => ?clears⟩, fun o sums f hp ho hout hw hr hg => ?judges⟩
  case refused =>
    exact runs_endCmd hc (by rw [exec_update hc hp ho, updateStart_refused hy hk])
  case begins =>
    rw [update_begins hc hp ho hy hk ha hg hl]
    exact congrArg (exec (.update c)) (updCmd_congr hc rfl)
  case skips =>
    refine ⟨_, by rw [exec_update hc hp ho, updateStart_begun hy, updateGo_skips hs hz], cmd_endCmd hc 1 0, memKept_endCmd s c false 1 0⟩
  case looks =>
    intro v mk odd
    obtain ⟨hsame, hempty, hodd, hwait, hrun⟩ := updateGo_looks hs he
    have hex : exec (.update c) s = .next (updateGo s c m) := by rw [exec_update hc hp ho, updateStart_begun hy]
    have hc1 := hsame.cmd hc
    refine ⟨fun hf => ⟨_, hex, ?_⟩, fun hf hod => ⟨_, hex, ?_⟩, fun hf hod hn => ⟨_, hex, ?_⟩, fun hf hod hn => ?_⟩
    · rw [hempty hf]
      exact ⟨hc1, by rw [hsame.core], fun d _ => hsame.core d⟩
    · rw [hodd hf hod]
      exact ⟨cmd_endCmd hc1 _ _, hsame.memKept (memKept_endCmd _ c false _ _)⟩
    · rw [hwait hf hod hn]
      exact ⟨hsame.memKept (memKept_updCmd _ c false _), cmd_updCmd hc1 _⟩
    · exact hex.trans (congrArg Host.Outcome.next (hrun hf hod hn))
  case resumes => exact updateEpochResume_runs hc hp ho hf he hn
  case normRefused => exact runs_endCmd hc (by rw [exec_norm hc hp ho, normRun_refused hk])
  case norms =>
    intro at? fin
    obtain ⟨hcmd, hentry⟩ := laneEntry_normRun hg hc hk
    obtain ⟨hsum, hnfp⟩ := entryNorm_words (normSum s c m.words) (eCount m.words - (normFinite s c m.words).length = 0)
      (laneEntry s c (eLane m.words))
    refine ⟨_, exec_norm hc hp ho, hcmd, (congrFun hentry 4).trans hsum, ?_⟩
    rw [laneNfp_eq, hentry, hnfp, decide_eq_false_iff_not, Nat.sub_eq_zero_iff_le, Nat.not_le]
    rfl
  case verdictRefused => exact runs_endCmd hc (by rw [exec_verdict hc hp ho hv, verdictRun_refused hk])
  case noContext =>
    exact runs_endCmd hc (by rw [exec_verdict hc hp ho hv, verdictRun_noContext hk hx])
  case contributes =>
    intro key r hk hx hh hg hkept hd
    obtain ⟨d, hd, hdc, hn⟩ := hd
    exact ⟨_, exec_verdict hc hp ho hv, verdictRun_waits hc hk hx hg hkept hh hd hdc hn⟩
  case clearRefused => exact runs_endCmd hc (verdictClronly_refused hc hp ho hv hk)
  case copies =>
    refine ⟨_, verdictClronly_clears hc hp ho hv hk, ?_⟩
    have hresil : (endCmd (laneClears c m.words (stubLanes s c)) c false 0 0).resil = (stubLanes s c).resil :=
      foldl_keeps State.resil (fun x y => resil_clearLane x c y) (vLanes m.words) (stubLanes s c)
    have hmarks := stubLanes_marks hn
    rwa [← hresil] at hmarks
  case clears =>
    obtain ⟨hwr, hlanes⟩ := laneClears_lanes hg m.words
    refine ⟨_, verdictClronly_clears hc hp ho hv hk, ?_⟩
    rw [stubLanes_kept hkept]
    refine ⟨cmd_endCmd (hwr.cmd hc) 0 0, fun x hx => ?_⟩
    have he : laneEntry (endCmd (laneClears c m.words s) c false 0 0) c x = entryCleared (laneEntry s c x) :=
      (laneEntry_updCmd _ _ _ _ _).trans (hlanes x hx)
    obtain ⟨h4, h6, h0⟩ := entryCleared_words (laneEntry s c x)
    exact ⟨(congrFun he 4).trans h4, by rw [laneNfp_eq, he]; exact h6, (congrFun he 0).trans h0⟩
  case judges =>
    intro n bad
    have hn : n = vCount m.words := vLanes_length m.words
    obtain ⟨hnone, hcmd, hlanes⟩ := verdictResult_effect hc hout hw hr hg
    refine ⟨_, exec_verdictReapResult hc hp ho, hnone, by rw [hn]; exact hcmd, ?_⟩
    intro i hi l ls norm good grown clip up
    have hj := laneJudged_entryVerdict (eLane m.words + i) (sums.getD i 0) (f.testBit i) (laneEntry s c (eLane m.words + i))
    rw [← hlanes i (by rw [← hn]; exact hi)] at hj
    obtain ⟨h4, h30, h31, hbad, hgood⟩ := hj
    have hls : ls = entryScale (laneEntry s c l) := entryScale_eq (laneEntry s c l)
    have hup : up = entryGrows (laneEntry s c l) := entryGrows_eq (laneEntry s c l)
    have hnorm : norm = f32div (f32sqrt (sums.getD i 0)) (entryScale (laneEntry s c l)) := congrArg (f32div _) hls
    rw [hnorm, hls, hup]
    exact ⟨h4, h30, h31, hbad, hgood⟩

end Sys2Proof.Machine
end

section
/-!
PROOFS. COMPRESS and CLEAR (06 R215, R237, R241, R242).
-/

namespace Sys2Proof.Machine

variable {s s1 s2 : State} {c : Nat} {gran : Bool} {m : EngCmd} {ws : List Nat} {f : Nat → Byte}

/-! ## Runs of elements -/

theorem length_flatMap_const {α : Type} {g : α → List Byte} {n : Nat} (hg : ∀ x, (g x).length = n) (l : List α) :
    (l.flatMap g).length = n * l.length := by
  induction l with
  | nil => rfl
  | cons x l ih => rw [List.flatMap_cons, List.length_append, hg, ih, List.length_cons, Nat.mul_succ, Nat.add_comm]

/-- A run of elements none of which is poisoned, laid over a clean granary. -/
theorem bytesNow_putElems (h : GranClean s c) (off n : Nat) {l : List (Nat × Bool)} (hl : ∀ x ∈ l, x.2 = false) :
    BytesNow s true c (overlay (coreMem s true c).byte off (l.flatMap (fun x => toBytes n x.1))) (putElems s c off n l) := by
  refine bytesNow_writeRun h off _ (fun p hp => ?_)
  obtain ⟨w, -, rfl⟩ := List.mem_map.1 hp
  refine List.any_eq_false.2 (fun x hx => ?_)
  rw [hl x (List.mem_of_mem_drop (List.mem_of_mem_take hx))]
  decide

/-! ## CLEAR -/

theorem exec_clear_refused {st : Nat} (hc : (getEng s c true).cmd = some m) (hp : m.phase = .run) (ho : eOp m.words = 3)
    (hk : clearCheck s c m.words = some st) : exec (.clear c) s = .next (endCmd s c true st 0) := by
  have h : exec (.clear c) s = execClear c s := rfl
  rw [h, execClear, engCmd_of_op hc hp ho]
  simp only [hk]

theorem exec_clear_runs (hc : (getEng s c true).cmd = some m) (hp : m.phase = .run) (ho : eOp m.words = 3)
    (hk : clearCheck s c m.words = none) : exec (.clear c) s =
      .next (endCmd (putElems s c (nChaff m.words) 2 (List.replicate (eCount m.words) (0, false))) c true 0 0) := by
  have h : exec (.clear c) s = execClear c s := rfl
  rw [h, execClear, engCmd_of_op hc hp ho]
  simp only [hk]

/-- The bytes that CLEAR writes. -/
def zeroChaff (n : Nat) : List Byte := (List.replicate n ((0, false) : Nat × Bool)).flatMap (fun x => toBytes 2 x.1)

theorem zeroChaff_eq (n : Nat) : zeroChaff n = List.replicate (2 * n) 0 := by
  unfold zeroChaff
  induction n with
  | zero => rfl
  | succ n ih => rw [List.replicate_succ, List.flatMap_cons, ih, Nat.mul_succ, Nat.add_comm, List.replicate_add]; rfl

/-! ## COMPRESS -/

/-- Element i of the accumulator. -/
def accElem (s : State) (c : Nat) (ws : List Nat) (i : Nat) : Nat := ofBytes ((coreMem s true c).getBytes (nAcc ws + 4 * i) 4)

theorem accElem_lt (s : State) (c : Nat) (ws : List Nat) (i : Nat) : accElem s c ws i < 2 ^ 32 := ofBytes_getBytes_lt _ _ 4

theorem accElem_of_sameCores (h : SameCores s s1) (ws : List Nat) (i : Nat) : accElem s1 c ws i = accElem s c ws i := by
  rw [accElem, h.coreMem]; rfl

/-- An element read from a clean word without chaff. -/
def cleanElem (x : Nat) : WElem := { x := x, nf := false || !f32finite x || !f32finite x, bad := false }

/-- The elements of a COMPRESS without chaff. -/
def accElems (s : State) (c : Nat) (ws : List Nat) : List WElem := (List.range (eCount ws)).map (fun i => cleanElem (accElem s c ws i))

theorem readElems_clean (he : nEf ws = false) (hg : GranClean s c) :
    ∃ s1, SameCores s s1 ∧ readElems s c ws = (accElems s c ws, s1) := by
  refine ⟨_, sameCores_coreRead (cleanRun_unmarked hg (nAcc ws) (4 * eCount ws)), ?_⟩
  have hbad (i : Nat) : (coreRead s true c (nAcc ws) (4 * eCount ws)).bad 4 i = false := coreRead_pois_getD (cleanRun_unmarked hg _ _) _
  unfold readElems
  simp only [he, Bool.false_eq_true, if_false, Bool.false_and, Bool.or_false, hbad]
  refine congrArg (·, _) (List.map_congr_left (fun i hi => ?_))
  have hi' := List.mem_range.1 hi
  have helem : (coreRead s true c (nAcc ws) (4 * eCount ws)).elem 4 i = accElem s c ws i := by
    rw [Got.elem, coreRead_bytes, bytesAt_getBytes _ _ (by omega)]
    rfl
  rw [helem]
  rfl

theorem accElems_bad {e : WElem} (h : e ∈ accElems s c ws) : e.bad = false := by
  obtain ⟨i, -, rfl⟩ := List.mem_map.1 h
  rfl

theorem mem_of_mem_chunks {α : Type} {n k : Nat} {l g : List α} (h : g ∈ chunks n k l) {x : α} (hx : x ∈ g) : x ∈ l := by
  induction k generalizing l with
  | zero => exact absurd h List.not_mem_nil
  | succ k ih =>
    rw [chunks] at h
    split at h
    · exact absurd h List.not_mem_nil
    · rcases List.mem_cons.1 h with rfl | h
      · exact List.mem_of_mem_take hx
      · exact List.mem_of_mem_drop (ih h)

/-- Both memories of core c are without marks. -/
def CoreClean (s : State) (c : Nat) : Prop := ∀ gran x, (coreMem s gran c).mark x = Mark.none

theorem SameCores.coreClean (h : SameCores s s1) (hm : CoreClean s c) : CoreClean s1 c := fun gran x => by rw [h.coreMem]; exact hm gran x

/-- The end of a COMPRESS without chaff, whose packet has no poisoned word. -/
def packetPut (s1 : State) (c : Nat) (ws : List Nat) (bs : List Byte) (pois : List Bool) (n : Nat) : State :=
  endCmd (putPacket s1 c ws bs pois) c true 0 n

theorem packetPut_effect (hc : (getEng s c true).cmd = some m) (h1 : SameCores s s1) (hm : CoreClean s c) (bs : List Byte) {pois : List Bool}
    (hp : ∀ p ∈ pois, p = false) (n : Nat) : (getEng (packetPut s1 c ws bs pois n) c true).cmd = some (m.endedWith 0 n) ∧
      (coreMem (packetPut s1 c ws bs pois n) (nPktGran ws) c).byte = overlay (coreMem s (nPktGran ws) c).byte (nPktOff ws) bs := by
  have hput := bytesNow_writeRun (h1.coreClean hm (nPktGran ws)) (nPktOff ws) bs hp
  refine ⟨cmd_endCmd (hput.cmd (h1.cmd hc)) 0 n, ?_⟩
  rw [packetPut, coreMem_endCmd, ← h1.coreMem]
  exact hput.byte

/-- The bytes of a packet as NONE writes them. -/
def nonePacket (s : State) (c : Nat) (ws : List Nat) (nf : Bool) : List Byte :=
  packetHeader ws nf (32 + 4 * eCount ws) 0 (eCount ws) 0 ++ (List.range (eCount ws)).flatMap (fun i => toBytes 4 (accElem s c ws i))

theorem compressNone_eq (he : nEf ws = false) (hk : winnowCheck s c ws false true = none) (hm : CoreClean s c) :
    ∃ s1 nf pois, SameCores s s1 ∧ (∀ p ∈ pois, p = false) ∧
      compressNone s c ws = packetPut s1 c ws (nonePacket s c ws nf) pois (32 + 4 * eCount ws) := by
  obtain ⟨s1, h1, hread⟩ := readElems_clean he (hm true)
  refine ⟨s1, (accElems s c ws).any (·.nf), List.replicate 4 false ++ (chunks 2 (eCount ws + 1) (accElems s c ws)).map (fun g => g.any (·.bad)),
    h1, fun p hp => ?_, ?_⟩
  · rcases List.mem_append.1 hp with hp | hp
    · exact List.eq_of_mem_replicate hp
    · obtain ⟨g, hg, rfl⟩ := List.mem_map.1 hp
      exact List.any_eq_false.2 (fun x hx => by rw [accElems_bad (mem_of_mem_chunks hg hx)]; decide)
  · have hbad : (accElems s c ws).any (·.bad) = false := List.any_eq_false.2 (fun x hx => by rw [accElems_bad hx]; decide)
    have hbody : (accElems s c ws).flatMap (fun e => toBytes 4 e.x) = (List.range (eCount ws)).flatMap (fun i => toBytes 4 (accElem s c ws i)) := by
      rw [accElems, List.flatMap_map]
      rfl
    unfold compressNone
    rw [he, hk]
    dsimp only
    rw [hread]
    dsimp only
    rw [hbad, hbody, putChaff, he, if_neg (by decide), if_neg (by decide)]
    rfl

theorem compressSign_eq (he : nEf ws = false) (hk : winnowCheck s c ws false true = none) (hm : CoreClean s c) :
    ∃ s1 bs, SameCores s s1 ∧ compressSign s c ws = packetPut s1 c ws bs [] (packetBytes 2 (eCount ws) 0) := by
  obtain ⟨s1, h1, hread⟩ := readElems_clean he (hm true)
  unfold compressSign
  rw [he, hk]
  dsimp only
  rw [hread]
  dsimp only
  rw [putChaff, he, if_neg (by decide)]
  exact ⟨s1, _, h1, rfl⟩

theorem compressTopk_eq (he : nEf ws = false) (hk : winnowCheck s c ws false true = none) (hm : CoreClean s c) :
    ∃ s1 bs slots, SameCores s s1 ∧ compressTopk s c ws = packetPut s1 c ws bs [] (packetBytes 1 (eCount ws) slots) := by
  obtain ⟨s1, h1, hread⟩ := readElems_clean he (hm true)
  unfold compressTopk
  rw [he, hk]
  dsimp only
  rw [hread]
  dsimp only
  rw [putChaff, he, if_neg (by decide)]
  exact ⟨s1, _, _, h1, rfl⟩

/-! ## The packet of NONE -/

theorem drop_take_append {l l' r : List Byte} {i k : Nat} (hi : l.length = i) (hk : l'.length = k) : ((l ++ (l' ++ r)).drop i).take k = l' := by
  rw [List.drop_left' hi, List.take_left' hk]

/-- Piece k of a list made of pieces of one length. -/
theorem drop_take_flatMap {α : Type} {g : α → List Byte} {n : Nat} (hg : ∀ x, (g x).length = n) {l : List α} {k : Nat} (hk : k < l.length) :
    ((l.flatMap g).drop (n * k)).take n = g l[k] := by
  induction l generalizing k with
  | nil => exact absurd hk (Nat.not_lt_zero k)
  | cons x l ih =>
    rw [List.flatMap_cons]
    cases k with
    | zero => rw [Nat.mul_zero, List.drop_zero, List.take_left' (hg x)]; rfl
    | succ k => rw [Nat.mul_succ, Nat.add_comm, ← List.drop_drop, List.drop_left' (hg x), ih (by simpa using hk)]; rfl

/-- The first word of a packet's header. -/
def headWord (ws : List Nat) (nf : Bool) : Nat :=
  kindOf (eMode ws) * 2 ^ 56 + (if kindOf (eMode ws) = 1 then nKsel ws else 0) * 2 ^ 52 + boolN nf * 2 ^ 51 + eLane ws * 2 ^ 32 + eCount ws

/-- A header in parts. -/
theorem packetHeader_parts (ws : List Nat) (nf : Bool) (n slots kept tau : Nat) (r : List Byte) : packetHeader ws nf n slots kept tau ++ r =
    toBytes 8 (headWord ws nf) ++ (toBytes 4 (n * 2 ^ 32 + nBase ws) ++ (toBytes 4 ((n * 2 ^ 32 + nBase ws) / 256 ^ 4) ++
      ((toBytes 8 (slots * 2 ^ 32 + kept) ++ toBytes 8 (tau * 2 ^ 32)) ++ r))) := by
  unfold packetHeader
  dsimp only
  rw [toBytes_add 4 4 (n * 2 ^ 32 + nBase ws)]
  simp only [List.append_assoc]
  rfl

theorem eField_lt (ws : List Nat) (i hi lo : Nat) : eField ws i hi lo < 2 ^ (hi + 1 - lo) := Nat.mod_lt _ (by positivity)

theorem headWord_none (hmode : eMode ws = 0) (nf : Bool) : headWord ws nf < 2 ^ 64 ∧ fieldN (headWord ws nf) 63 56 = 3 ∧
    fieldN (headWord ws nf) 31 0 = eCount ws := by
  have hlane : eLane ws < 2 ^ 12 := eField_lt ws 0 43 32
  have hcount : eCount ws < 2 ^ 32 := eField_lt ws 0 31 0
  have hnf := boolN_lt nf
  have hword : headWord ws nf = 3 * 2 ^ 56 + boolN nf * 2 ^ 51 + eLane ws * 2 ^ 32 + eCount ws := by
    rw [headWord, hmode]; simp [kindOf]
  rw [hword]
  simp only [fieldN, Nat.shiftRight_eq_div_pow]
  omega

theorem packetHeader_length (ws : List Nat) (nf : Bool) (n slots kept tau : Nat) : (packetHeader ws nf n slots kept tau).length = 32 := by
  simp [packetHeader]

/-- The numbers of the packet that NONE writes: its header's fields and its elements. -/
theorem nonePacket_parts (hmode : eMode ws = 0) (nf : Bool) {mem : Mem} {g : Nat → Byte}
    (h : mem.byte = overlay g (nPktOff ws) (nonePacket s c ws nf)) :
    let pkt (off len : Nat) : Nat := ofBytes (mem.getBytes (nPktOff ws + off) len)
    pkt 12 4 = (32 + 4 * eCount ws) % 2 ^ 32 ∧ fieldN (pkt 0 8) 63 56 = 3 ∧ fieldN (pkt 0 8) 31 0 = eCount ws ∧ pkt 8 4 = nBase ws ∧
      ∀ j, j < eCount ws → pkt (32 + 4 * j) 4 = accElem s c ws j := by
  intro pkt
  have hhead := packetHeader_length ws nf (32 + 4 * eCount ws) 0 (eCount ws) 0
  have hbody := length_flatMap_const (g := fun i => toBytes 4 (accElem s c ws i)) (fun _ => toBytes_length 4 _) (List.range (eCount ws))
  have hlen : (nonePacket s c ws nf).length = 32 + 4 * eCount ws := by
    rw [nonePacket, List.length_append, hhead, hbody, List.length_range]
  have hbase : nBase ws < 2 ^ 32 := eField_lt ws 4 31 0
  have hread {off len : Nat} (ho : off + len ≤ 32 + 4 * eCount ws) : pkt off len = ofBytes (((nonePacket s c ws nf).drop off).take len) :=
    congrArg ofBytes (getBytes_overlay_inside h (by rw [hlen]; exact ho))
  have hparts := packetHeader_parts ws nf (32 + 4 * eCount ws) 0 (eCount ws) 0 ((List.range (eCount ws)).flatMap (fun i => toBytes 4 (accElem s c ws i)))
  obtain ⟨hlt, hkind, hcount⟩ := headWord_none hmode nf
  have hpkt0 : pkt 0 8 = headWord ws nf := by
    rw [hread (by omega), nonePacket, hparts, List.drop_zero, List.take_left' (toBytes_length 8 _), ofBytes_toBytes_mod]
    exact Nat.mod_eq_of_lt hlt
  refine ⟨?_, by rw [hpkt0]; exact hkind, by rw [hpkt0]; exact hcount, ?_, fun j hj => ?_⟩
  · rw [hread (by omega), nonePacket, hparts, ← List.append_assoc,
      drop_take_append (by rw [List.length_append, toBytes_length, toBytes_length]) (toBytes_length 4 _), ofBytes_toBytes_mod]
    omega
  · rw [hread (by omega), nonePacket, hparts, drop_take_append (toBytes_length 8 _) (toBytes_length 4 _), ofBytes_toBytes_mod]
    omega
  · rw [hread (by omega), nonePacket, ← List.drop_drop, List.drop_left' hhead,
      drop_take_flatMap (fun _ => toBytes_length 4 _) (by rw [List.length_range]; exact hj), List.getElem_range, ofBytes_toBytes_mod]
    exact Nat.mod_eq_of_lt (accElem_lt s c ws j)

end Sys2Proof.Machine
end

section
/-!
PROOFS. EXPAND (06 R244), and the statement of the Winnow's commands.
-/

namespace Sys2Proof.Machine

variable {s s1 s2 : State} {c : Nat} {m : EngCmd} {ws : List Nat}

/-! ## The checks -/

theorem winnowRefused {st : Nat} (body : Got → Nat → Expand → Expand × Bool) (h : winnowCheck s c ws false false = some st) :
    expandWith s c ws body = endCmd s c true st 0 := by
  unfold expandWith
  rw [h]

theorem count_of_winnowCheck {capacity : Bool} (h : winnowCheck s c ws false capacity = none) (hm : eMode ws = 2) : eCount ws % 256 = 0 := by
  rw [winnowCheck, eFirst_eq_none] at h
  have h1 := h _ List.mem_cons_self
  dsimp only at h1
  simp only [Bool.or_eq_false_iff, countBad, if_pos hm] at h1
  obtain ⟨⟨-, -, h256⟩, -⟩ := h1
  simpa using h256

/-! ## The header -/

/-- A number in the packet of a command. -/
def pktNum (s : State) (c : Nat) (ws : List Nat) (off len : Nat) : Nat := ofBytes ((coreMem s (nPktGran ws) c).getBytes (nPktOff ws + off) len)

/-- The packet's header matches the command. -/
def PacketFits (s : State) (c : Nat) (ws : List Nat) : Prop :=
  32 ≤ nPcap ws ∧ fieldN (pktNum s c ws 0 8) 63 56 = kindOf (eMode ws) ∧ fieldN (pktNum s c ws 0 8) 31 0 = eCount ws ∧
    fieldN (pktNum s c ws 0 8) 43 32 = eLane ws ∧ pktNum s c ws 8 4 = nBase ws ∧
    pktNum s c ws 12 4 = packetBytes (kindOf (eMode ws)) (eCount ws) (pktNum s c ws 20 4) ∧
    packetBytes (kindOf (eMode ws)) (eCount ws) (pktNum s c ws 20 4) ≤ nPcap ws

/-- The read of a packet's header. -/
def headRead (s : State) (c : Nat) (ws : List Nat) : Got := coreRead s (nPktGran ws) c (nPktOff ws) 32

theorem headRead_num (s : State) (c : Nat) (ws : List Nat) {off len : Nat} (h : off + len ≤ 32) :
    bytesAt (headRead s c ws).data off len = pktNum s c ws off len := by
  rw [headRead, coreRead_bytes, bytesAt_getBytes _ _ h]
  rfl

/-- The second word of a header in its two halves. -/
theorem pktNum_halves (s : State) (c : Nat) (ws : List Nat) :
    pktNum s c ws 8 8 % 2 ^ 32 = pktNum s c ws 8 4 ∧ pktNum s c ws 8 8 / 2 ^ 32 = pktNum s c ws 12 4 := by
  have hlt : pktNum s c ws 8 4 < 2 ^ 32 := ofBytes_getBytes_lt _ _ 4
  have hsplit : pktNum s c ws 8 8 = pktNum s c ws 8 4 + 2 ^ 32 * pktNum s c ws 12 4 := by
    unfold pktNum
    rw [getBytes_add _ _ 4 4, ofBytes_append, getBytes_length]
    rfl
  rw [hsplit]
  omega

theorem headerOk_iff (hm : CoreClean s c) (hcap : 32 ≤ nPcap ws) : headerOk ws (headRead s c ws) = true ↔ PacketFits s c ws := by
  have hpois : ((headRead s c ws).pois.take 3).any id = false := List.any_eq_false.2 (fun p hp => by
    rw [(coreRead_of_cleanRun (cleanRun_unmarked (hm _) _ _)).2 p (List.mem_of_mem_take hp)]; decide)
  obtain ⟨hlow, hhigh⟩ := pktNum_halves s c ws
  unfold headerOk PacketFits
  dsimp only
  rw [hpois, headRead_num s c ws (by decide), headRead_num s c ws (by decide), headRead_num s c ws (by decide), hlow, hhigh]
  simp only [Bool.not_false, Bool.true_and, Bool.and_eq_true, beq_iff_eq, decide_eq_true_eq]
  constructor
  · rintro ⟨⟨⟨⟨⟨h1, h2⟩, h3⟩, h4⟩, h5⟩, h6⟩
    exact ⟨hcap, h1, h2, h3, h4, h5, by rw [← h5]; exact h6⟩
  · rintro ⟨-, h1, h2, h3, h4, h5, h6⟩
    exact ⟨⟨⟨⟨⟨h1, h2⟩, h3⟩, h4⟩, h5⟩, by rw [h5]; exact h6⟩

/-- A packet whose header does not match. -/
theorem expandWith_mismatch (body : Got → Nat → Expand → Expand × Bool) (hm : CoreClean s c) (hk : winnowCheck s c ws false false = none)
    (hf : ¬ PacketFits s c ws) : ∃ s1, SameCores s s1 ∧ expandWith s c ws body = endCmd s1 c true 0x15 0 := by
  unfold expandWith
  rw [hk]
  dsimp only
  by_cases hcap : nPcap ws < 32
  · rw [if_pos hcap]
    exact ⟨s, sameCores_refl s, rfl⟩
  · have hno : headerOk ws (headRead s c ws) = false := by
      rw [← Bool.not_eq_true, headerOk_iff hm (by omega)]; exact hf
    rw [headRead] at hno
    rw [if_neg hcap, hno, if_pos (by decide)]
    exact ⟨_, sameCores_coreRead (cleanRun_unmarked (hm _) _ _), rfl⟩

/-! ## The body -/

/-- An EXPAND before its first element. -/
def expandStart (s : State) : Expand := { st := s, added := 0, nfp := false, pois := false }

/-- The whole packet as an EXPAND reads it, of no poisoned word. -/
structure PacketRead (s : State) (c : Nat) (ws : List Nat) (g : Got) : Prop where
  state : SameCores s g.st
  pois : ∀ i, g.pois.getD i false = false
  data : g.data = (coreMem s (nPktGran ws) c).getBytes (nPktOff ws) (packetBytes (kindOf (eMode ws)) (eCount ws) (pktNum s c ws 20 4))

theorem PacketRead.num {g : Got} (h : PacketRead s c ws g) {off len : Nat}
    (hl : off + len ≤ packetBytes (kindOf (eMode ws)) (eCount ws) (pktNum s c ws 20 4)) : bytesAt g.data off len = pktNum s c ws off len := by
  rw [h.data, bytesAt_getBytes _ _ hl]
  rfl

/-- A clean packet that matches, with NF clear: the body decides what is added. -/
theorem expandWith_fits (body : Got → Nat → Expand → Expand × Bool) (hm : CoreClean s c) (hk : winnowCheck s c ws false false = none)
    (hf : PacketFits s c ws) (hn : (pktNum s c ws 0 8).testBit 51 = false) : ∃ g, PacketRead s c ws g ∧
      ∀ e, body g (pktNum s c ws 20 4) (expandStart g.st) = (e, true) → e.nfp = false → e.pois = false →
        expandWith s c ws body = endCmd e.st c true 0 e.added := by
  obtain ⟨hcap, -, -, -, -, hlen, -⟩ := id hf
  have hok : headerOk ws (headRead s c ws) = true := (headerOk_iff hm hcap).2 hf
  have h1 : SameCores s (headRead s c ws).st := sameCores_coreRead (cleanRun_unmarked (hm _) _ _)
  have hrun := cleanRun_unmarked (h1.coreClean hm (nPktGran ws)) (nPktOff ws) (pktNum s c ws 12 4)
  refine ⟨coreRead (headRead s c ws).st (nPktGran ws) c (nPktOff ws) (pktNum s c ws 12 4), ⟨h1.trans (sameCores_coreRead hrun),
    coreRead_pois_getD hrun, by rw [coreRead_bytes, h1.coreMem, hlen]⟩, fun e he hnf hp => ?_⟩
  unfold expandWith
  rw [hk]
  dsimp only
  rw [if_neg (by omega)]
  change (if (!headerOk ws (headRead s c ws)) = true then _ else _) = _
  rw [hok, if_neg (by decide)]
  have h12 := headRead_num s c ws (off := 12) (len := 4) (by decide)
  have h20 := headRead_num s c ws (off := 20) (len := 4) (by decide)
  have h0 := headRead_num s c ws (off := 0) (len := 8) (by decide)
  rw [headRead] at h12 h20 h0 he hrun
  have hpo := coreRead_not_poison hrun
  rw [expandStart] at he
  simp only [h12, h20, h0, hn, hpo, Bool.or_false, he, hnf, hp, Bool.false_eq_true, if_false, Bool.not_true]

/-! ## Adding to the accumulator -/

theorem addTo_clean {e : Expand} (h : GranClean e.st c) (i v : Nat) : ∃ s1, BytesNow e.st true c
      (overlay (coreMem e.st true c).byte (nAcc ws + 4 * i) (toBytes 4 (f32add (accElem e.st c ws i) v))) s1 ∧
    addTo c ws i v e = { st := s1, added := e.added + 1, nfp := e.nfp, pois := e.pois } := by
  have hrun := cleanRun_unmarked h (nAcc ws + 4 * i) 4
  have hsame := sameCores_coreRead hrun
  have hw := bytesNow_coreWrite (hsame.granClean h) (nAcc ws + 4 * i) (toBytes 4 (f32add (accElem e.st c ws i) v))
  rw [hsame.coreMem] at hw
  refine ⟨_, hsame.bytesNow hw, ?_⟩
  have hval : (coreRead e.st true c (nAcc ws + 4 * i) 4).value = accElem e.st c ws i := coreRead_value _ _ _ _ _
  simp only [addTo, coreRead_not_poison hrun, hval, Bool.or_false]

/-- An EXPAND that has added v to the first k elements. -/
structure Added (s : State) (c : Nat) (ws : List Nat) (v : Nat → Nat) (k : Nat) (e : Expand) : Prop where
  written : GranWritten s c e.st
  count : e.added = k
  nfp : e.nfp = false
  pois : e.pois = false
  done : ∀ j, j < k → accElem e.st c ws j = f32add (accElem s c ws j) (v j) % 2 ^ 32
  rest : ∀ j, k ≤ j → accElem e.st c ws j = accElem s c ws j

theorem Added.next {v : Nat → Nat} {k : Nat} {e : Expand} (h : Added s c ws v k e) : Added s c ws v (k + 1) (addTo c ws k (v k) e) := by
  obtain ⟨s1, hw, hadd⟩ := addTo_clean (ws := ws) h.written.clean k (v k)
  have hlen := toBytes_length 4 (f32add (accElem e.st c ws k) (v k))
  have hother (j : Nat) (hj : j ≠ k) : accElem s1 c ws j = accElem e.st c ws j :=
    congrArg ofBytes (getBytes_overlay_outside hw.byte (by rw [hlen]; omega))
  have hself : accElem s1 c ws k = f32add (accElem s c ws k) (v k) % 2 ^ 32 := by
    have hin := getBytes_overlay_inside (i := 0) (k := 4) hw.byte (by omega)
    rw [Nat.add_zero, List.drop_zero, List.take_of_length_le (le_of_eq hlen)] at hin
    rw [accElem, hin, ofBytes_toBytes_mod, h.rest k (le_refl k)]
    norm_num
  rw [hadd]
  refine ⟨h.written.trans ⟨_, hw⟩, congrArg (· + 1) h.count, h.nfp, h.pois, fun j hj => ?_, fun j hj => ?_⟩
  · by_cases hk : j = k
    · rw [hk]; exact hself
    · exact (hother j hk).trans (h.done j (by omega))
  · exact (hother j (by omega)).trans (h.rest j (by omega))

/-- The fold of a body that adds v to every element. -/
theorem added_fold (hm : GranClean s c) (v : Nat → Nat) (k : Nat) :
    Added s c ws v k ((List.range k).foldl (fun e i => addTo c ws i (v i) e) (expandStart s)) := by
  induction k with
  | zero => exact ⟨granWritten_refl hm, rfl, rfl, rfl, fun j hj => absurd hj (Nat.not_lt_zero j), fun _ _ => rfl⟩
  | succ k ih =>
    rw [List.range_succ, List.foldl_append, List.foldl_cons, List.foldl_nil]
    exact ih.next

/-- A clean packet that matches, whose body adds v to every element. -/
theorem expandWith_adds (body : Got → Nat → Expand → Expand × Bool) (v : Nat → Nat) (hc : (getEng s c true).cmd = some m)
    (hm : CoreClean s c) (hk : winnowCheck s c ws false false = none) (hf : PacketFits s c ws)
    (hn : (pktNum s c ws 0 8).testBit 51 = false)
    (hbody : ∀ g, PacketRead s c ws g → body g (pktNum s c ws 20 4) (expandStart g.st) =
      ((List.range (eCount ws)).foldl (fun e i => addTo c ws i (v i) e) (expandStart g.st), true)) :
    (getEng (expandWith s c ws body) c true).cmd = some (m.endedWith 0 (eCount ws)) ∧
      ∀ j, j < eCount ws → accElem (expandWith s c ws body) c ws j = f32add (accElem s c ws j) (v j) % 2 ^ 32 := by
  obtain ⟨g, hg, hend⟩ := expandWith_fits body hm hk hf hn
  have hadd := added_fold (ws := ws) (hg.state.granClean (hm true)) v (eCount ws)
  rw [hend _ (hbody g hg) hadd.nfp hadd.pois, hadd.count]
  refine ⟨cmd_endCmd (hadd.written.cmd (hg.state.cmd hc)) 0 _, fun j hj => ?_⟩
  rw [accElem, coreMem_endCmd]
  exact (hadd.done j hj).trans (by rw [accElem_of_sameCores hg.state])

/-! ## NONE, SIGN and TOPK -/

/-- How NONE decodes a packet. -/
def noneBody (c : Nat) (ws : List Nat) (g : Got) (_ : Nat) (e : Expand) : Expand × Bool :=
  ((List.range (eCount ws)).foldl (fun e i =>
    if g.pois.getD ((32 + 4 * i) / 8) false then e else addTo c ws i (bytesAt g.data (32 + 4 * i) 4) e) e, true)

/-- How SIGN decodes a packet. -/
def signBody (c : Nat) (ws : List Nat) (g : Got) (_ : Nat) (e : Expand) : Expand × Bool :=
  let n := eCount ws
  let sb := 32 + pad8 (n / 128)
  ((List.range n).foldl (fun e i =>
    let sc := 32 + 2 * (i / 256)
    let bb := sb + i / 8
    if g.pois.getD (sc / 8) false || g.pois.getD (bb / 8) false then e
    else
      let v := fp16Val (bytesAt g.data sc 2)
      addTo c ws i (if (bytesAt g.data bb 1).testBit (i % 8) then f32neg v else v) e) e, true)

/-- How TOPK decodes a packet. -/
def topkBody (c : Nat) (ws : List Nat) (g : Got) (slots : Nat) (e : Expand) : Expand × Bool :=
  expandSlots c ws g 32 (32 + pad8 ((slots + 31) / 32)) slots 0 0 e

theorem exec_expandNone (hc : (getEng s c true).cmd = some m) (hp : m.phase = .run) (ho : eOp m.words = 2) (hm : eMode m.words = 0) :
    exec (.expandNone c) s = .next (expandWith s c m.words (noneBody c m.words)) := by
  have h : exec (.expandNone c) s = execExpandNone c s := rfl
  rw [h, execExpandNone, engCmd_of_mode hc hp ho hm]
  rfl

theorem exec_expandSign (hc : (getEng s c true).cmd = some m) (hp : m.phase = .run) (ho : eOp m.words = 2) (hm : eMode m.words = 2) :
    exec (.expandSign c) s = .next (expandWith s c m.words (signBody c m.words)) := by
  have h : exec (.expandSign c) s = execExpandSign c s := rfl
  rw [h, execExpandSign, engCmd_of_mode hc hp ho hm]
  rfl

theorem exec_expandTopk (hc : (getEng s c true).cmd = some m) (hp : m.phase = .run) (ho : eOp m.words = 2) (hm : eMode m.words = 1) :
    exec (.expandTopk c) s = .next (expandWith s c m.words (topkBody c m.words)) := by
  have h : exec (.expandTopk c) s = execExpandTopk c s := rfl
  rw [h, execExpandTopk, engCmd_of_mode hc hp ho hm]
  rfl

theorem noneBody_adds (hm : eMode ws = 0) {g : Got} (hg : PacketRead s c ws g) (slots : Nat) (e : Expand) :
    noneBody c ws g slots e = ((List.range (eCount ws)).foldl (fun e i => addTo c ws i (pktNum s c ws (32 + 4 * i) 4) e) e, true) := by
  have hlen : packetBytes (kindOf (eMode ws)) (eCount ws) (pktNum s c ws 20 4) = 32 + 4 * eCount ws := by rw [hm]; rfl
  refine congrArg (·, true) (List.foldl_ext _ _ _ (fun e i hi => ?_))
  have hi' := List.mem_range.1 hi
  rw [hg.pois, if_neg (by decide), hg.num (by omega)]

/-- The value that SIGN's packet gives element j. -/
def signValue (s : State) (c : Nat) (ws : List Nat) (j : Nat) : Nat :=
  let v := fp16Val (pktNum s c ws (32 + 2 * (j / 256)) 2)
  if (pktNum s c ws (32 + pad8 (eCount ws / 128) + j / 8) 1).testBit (j % 8) then f32neg v else v

theorem signBody_adds (hm : eMode ws = 2) (hn : eCount ws % 256 = 0) {g : Got} (hg : PacketRead s c ws g) (slots : Nat) (e : Expand) :
    signBody c ws g slots e = ((List.range (eCount ws)).foldl (fun e i => addTo c ws i (signValue s c ws i) e) e, true) := by
  have hlen : packetBytes (kindOf (eMode ws)) (eCount ws) (pktNum s c ws 20 4) = 32 + pad8 (eCount ws / 128) + eCount ws / 8 := by rw [hm]; rfl
  have hpad : eCount ws / 128 ≤ pad8 (eCount ws / 128) := by unfold pad8 roundUp; omega
  refine congrArg (·, true) (List.foldl_ext _ _ _ (fun e i hi => ?_))
  have hi' := List.mem_range.1 hi
  dsimp only
  rw [hg.pois, hg.pois, if_neg (by decide), hg.num (by omega), hg.num (by omega)]
  rfl

/-- A TOPK packet without slots has no body. -/
theorem topkBody_empty (hm : eMode ws = 1) (h0 : pktNum s c ws 20 4 = 0) {g : Got} (hg : PacketRead s c ws g) (e : Expand) :
    topkBody c ws g 0 e = (e, true) := by
  have hlen : g.data.length = 32 := by rw [hg.data, getBytes_length, hm, h0]; rfl
  have hdrop : g.data.drop 32 = [] := List.drop_of_length_le (le_of_eq hlen)
  have hbody : topkBody c ws g 0 e = (e, g.pois.getD (32 / 8) false || ofBytes (g.data.drop 32) == 0) := rfl
  rw [hbody, hdrop, hg.pois]
  rfl

/-! ## COMPRESS and CLEAR as commands -/

theorem exec_compressNone (hc : (getEng s c true).cmd = some m) (hp : m.phase = .run) (ho : eOp m.words = 1) (hm : eMode m.words = 0) :
    exec (.compressNone c) s = .next (compressNone s c m.words) := by
  have h : exec (.compressNone c) s = execCompressNone c s := rfl
  rw [h, execCompressNone, engCmd_of_mode hc hp ho hm]

theorem exec_compressSign (hc : (getEng s c true).cmd = some m) (hp : m.phase = .run) (ho : eOp m.words = 1) (hm : eMode m.words = 2) :
    exec (.compressSign c) s = .next (compressSign s c m.words) := by
  have h : exec (.compressSign c) s = execCompressSign c s := rfl
  rw [h, execCompressSign, engCmd_of_mode hc hp ho hm]

theorem exec_compressTopk (hc : (getEng s c true).cmd = some m) (hp : m.phase = .run) (ho : eOp m.words = 1) (hm : eMode m.words = 1) :
    exec (.compressTopk c) s = .next (compressTopk s c m.words) := by
  have h : exec (.compressTopk c) s = execCompressTopk c s := rfl
  rw [h, execCompressTopk, engCmd_of_mode hc hp ho hm]

theorem compress_refused {st : Nat} (he : nEf ws = false) (hk : winnowCheck s c ws false true = some st) :
    compressNone s c ws = endCmd s c true st 0 ∧ compressSign s c ws = endCmd s c true st 0 ∧ compressTopk s c ws = endCmd s c true st 0 := by
  unfold compressNone compressSign compressTopk
  rw [he, hk]
  exact ⟨rfl, rfl, rfl⟩

theorem clear_effect (hc : (getEng s c true).cmd = some m) (hm : GranClean s c) (a n : Nat) :
    let s' := endCmd (putElems s c a 2 (List.replicate n (0, false))) c true 0 0
    (getEng s' c true).cmd = some (m.endedWith 0 0) ∧ (∀ i, i < 2 * n → (coreMem s' true c).byte (a + i) = 0) ∧
      ∀ x, x < a ∨ a + 2 * n ≤ x → (coreMem s' true c).byte x = (coreMem s true c).byte x := by
  intro s'
  have hput := bytesNow_putElems (l := List.replicate n (0, false)) hm a 2 (fun x hx => by rw [List.eq_of_mem_replicate hx])
  have hbyte : (coreMem s' true c).byte = overlay (coreMem s true c).byte a (List.replicate (2 * n) 0) := by
    rw [← zeroChaff_eq]
    exact (congrArg Mem.byte (coreMem_endCmd _ _ _ _ _ _)).trans hput.byte
  refine ⟨cmd_endCmd (hput.cmd hc) 0 0, fun i hi => ?_, fun x hx => ?_⟩
  · rw [hbyte, overlay_inside (by rwa [List.length_replicate]), List.getElem_replicate]
  · rw [hbyte, overlay_outside (by rwa [List.length_replicate])]

/-! ## The statement -/

/-- A command whose body runs after the header's check: its first failing check, and a header that does not match. -/
theorem expand_stops {i : Instr} {body : Got → Nat → Expand → Expand × Bool} (hc : (getEng s c true).cmd = some m)
    (hex : exec i s = .next (expandWith s c ws body)) :
    (∀ st, winnowCheck s c ws false false = some st → exec i s = .next (endCmd s c true st 0)) ∧
    (winnowCheck s c ws false false = none → CoreClean s c → ¬ PacketFits s c ws → Runs i s (fun s' =>
      (getEng s' c true).cmd = some (m.endedWith 0x15 0) ∧ ∀ x, (getCore s' c).mem.gran.byte x = (getCore s c).mem.gran.byte x)) := by
  refine ⟨fun st hk => by rw [hex, winnowRefused body hk], fun hk hm hf => ?_⟩
  obtain ⟨s1, h1, hend⟩ := expandWith_mismatch body hm hk hf
  refine ⟨_, hex.trans (congrArg Host.Outcome.next hend), cmd_endCmd (h1.cmd hc) _ _, fun x => ?_⟩
  rw [mem_endCmd, h1.core]

/-- Settles O45: COMPRESS puts one run of bytes, EXPAND is a fold over the elements once the header fits, CLEAR puts zeroes. -/
theorem winnowCommandsRun : Obligations.WinnowCommandsRun := by
  unfold Obligations.WinnowCommandsRun
  intro c s m hc hp k ws n ends quiet clean acc pkt stops fits expands
  have hclean (h : clean) : CoreClean s c := fun gran x => by cases gran; exacts [(h x).2, (h x).1]
  have hfits {kind : Nat} (hkind : kindOf (eMode m.words) = kind) : fits kind ↔ PacketFits s c m.words := by subst hkind; exact Iff.rfl
  have hexpands {i : Instr} {kind : Nat} {v : Nat → Nat} {body : Got → Nat → Expand → Expand × Bool}
      (hkind : kindOf (eMode m.words) = kind) (hex : exec i s = .next (expandWith s c m.words body))
      (hadds : winnowCheck s c m.words false false = none → kind ≠ 1 → ∀ g, PacketRead s c m.words g →
        body g (pktNum s c m.words 20 4) (expandStart g.st) =
          ((List.range (eCount m.words)).foldl (fun e i => addTo c m.words i (v i) e) (expandStart g.st), true)) : expands i kind v := by
    obtain ⟨hstop, hmiss⟩ := expand_stops hc hex
    refine ⟨fun st hk => runs_endCmd hc (hstop st hk), fun hk hm hf => hmiss hk (hclean hm) (fun h => hf ((hfits hkind).2 h)),
      fun hk hm hf hn h1 => ⟨_, hex, expandWith_adds body v hc (hclean hm) hk ((hfits hkind).1 hf) hn (hadds hk h1)⟩⟩
  refine ⟨fun ho he => ⟨fun hmode => ⟨fun st hk => ?noneRefused, fun hk hm => ?none⟩, fun hmode => ⟨fun st hk => ?signRefused, fun hk hm => ?sign⟩,
      fun hmode => ⟨fun st hk => ?topkRefused, fun hk hm => ?topk⟩⟩,
    fun ho => ⟨fun hmode => ?expandNone, fun hmode => ?expandSign, fun hmode => ⟨?expandTopk, fun hk hm hf h0 hn => ?noSlot⟩⟩,
    fun ho => ⟨fun st hk => ?clearRefused, fun hk hm => ?clear⟩⟩
  case noneRefused =>
    obtain ⟨heq, -, -⟩ := compress_refused he hk
    exact runs_endCmd hc (by rw [exec_compressNone hc hp ho hmode, heq])
  case signRefused =>
    obtain ⟨-, heq, -⟩ := compress_refused he hk
    exact runs_endCmd hc (by rw [exec_compressSign hc hp ho hmode, heq])
  case topkRefused =>
    obtain ⟨-, -, heq⟩ := compress_refused he hk
    exact runs_endCmd hc (by rw [exec_compressTopk hc hp ho hmode, heq])
  case none =>
    obtain ⟨s1, nf, pois, h1, hpois, heq⟩ := compressNone_eq he hk (hclean hm)
    obtain ⟨hcmd, hbyte⟩ := packetPut_effect (ws := m.words) hc h1 (hclean hm) (nonePacket s c m.words nf) hpois (32 + 4 * eCount m.words)
    exact ⟨_, by rw [exec_compressNone hc hp ho hmode, heq], hcmd, nonePacket_parts hmode nf hbyte⟩
  case sign =>
    obtain ⟨s1, bs, h1, heq⟩ := compressSign_eq he hk (hclean hm)
    have hend := (packetPut_effect (ws := m.words) (pois := []) hc h1 (hclean hm) bs (fun _ h => absurd h List.not_mem_nil)
      (packetBytes 2 (eCount m.words) 0)).1
    exact ⟨_, (exec_compressSign hc hp ho hmode).trans (congrArg Host.Outcome.next heq), hend⟩
  case topk =>
    obtain ⟨s1, bs, slots, h1, heq⟩ := compressTopk_eq he hk (hclean hm)
    have hend := (packetPut_effect (ws := m.words) (pois := []) hc h1 (hclean hm) bs (fun _ h => absurd h List.not_mem_nil)
      (packetBytes 1 (eCount m.words) slots)).1
    exact ⟨_, (exec_compressTopk hc hp ho hmode).trans (congrArg Host.Outcome.next heq), slots, hend⟩
  case expandNone =>
    exact hexpands (by rw [hmode]; rfl) (exec_expandNone hc hp ho hmode) (fun _ _ g hg => noneBody_adds hmode hg _ _)
  case expandSign =>
    exact hexpands (by rw [hmode]; rfl) (exec_expandSign hc hp ho hmode)
      (fun hk _ g hg => signBody_adds hmode (count_of_winnowCheck hk hmode) hg _ _)
  case expandTopk => exact hexpands (by rw [hmode]; rfl) (exec_expandTopk hc hp ho hmode) (fun _ h1 => absurd rfl h1)
  case noSlot =>
    obtain ⟨g, hg, hend⟩ := expandWith_fits (topkBody c m.words) (hclean hm) hk ((hfits (by rw [hmode]; rfl)).1 hf) hn
    have h0' : pktNum s c m.words 20 4 = 0 := h0
    have heq := hend (expandStart g.st) (by rw [h0']; exact topkBody_empty hmode h0' hg _) rfl rfl
    refine ⟨_, (exec_expandTopk hc hp ho hmode).trans (congrArg Host.Outcome.next heq), cmd_endCmd (hg.state.cmd hc) 0 0, fun x => ?_⟩
    rw [mem_endCmd]
    exact congrArg (fun k => k.mem.gran.byte x) (hg.state.core c)
  case clearRefused =>
    exact runs_endCmd hc (exec_clear_refused hc hp ho hk)
  case clear =>
    exact ⟨_, exec_clear_runs hc hp ho hk, clear_effect hc (hclean hm true) (nChaff m.words) (eCount m.words)⟩

end Sys2Proof.Machine
end

section
/-!
PROOFS. Granary-cache maintenance: a write of GCMD without GO names another operation than the one that runs (07 R256).
-/

namespace Sys2Proof.Machine

variable {s : State} {c : Nat}

/-! ## The operation that runs -/

/-- The write-backs made are those of the operation that GO started, whatever OP reads by then (07 R256). -/
theorem gcRun_of_other {op : Nat} (h : (getCore s c).mem.mc.gcrun ≠ op) (f : State → State) : gcRun s c op f = s := by
  simp [gcRun, h]

theorem exec_wball_of_other (h : (getCore s c).mem.mc.gcrun ≠ 0) : exec (.wball c) s = .next s :=
  congrArg Host.Outcome.next (gcRun_of_other h _)

/-! ## OP written while another operation runs -/

/-- Core 1 of a module at reset with WBINVALL running. -/
def wbinvallRuns : State := gcmdWrite State.reset 1 5

/-- WBINVALL still runs, and GCMD has been written again: OP names WBALL, and GO is clear. -/
def wballNamed : State := gcmdWrite wbinvallRuns 1 0

/-- The two writes, as the control cluster makes them at 0x4_0018 of the core's CONTROL space. -/
theorem wballNamed_reached : exec (.registerWrite (.control 1 0x40018) 5) State.reset = .next wbinvallRuns ∧
    exec (.registerWrite (.control 1 0x40018) 0) wbinvallRuns = .next wballNamed := ⟨rfl, rfl⟩

theorem wballNamed_core : coreUp wballNamed 1 = true ∧
    (getCore wballNamed 1).mem.mc = { gcop := 0, gcrun := 1, gcbusy := true, gcdone := false } := by decide

/-- Refutes O47: it takes the operation that runs from OP, but a write of GCMD without GO changes OP under a running operation. With
WBINVALL started and WBALL named after it, WBALL makes nothing, where the statement says that it is made. -/
theorem not_splitsCachesCountersAndRegisters : ¬ Obligations.SplitsCachesCountersAndRegisters := by
  unfold Obligations.SplitsCachesCountersAndRegisters
  intro h
  obtain ⟨hup, hmc⟩ := wballNamed_core
  obtain ⟨-, ⟨hwball, -, -⟩, -⟩ := h wballNamed 1
  obtain ⟨s', hrun, hmade, -⟩ := hwball hup (by rw [hmc]) (by rw [hmc]) (by rw [hmc])
  rw [exec_wball_of_other (by rw [hmc]; decide)] at hrun
  obtain rfl : wballNamed = s' := Host.Outcome.next.inj hrun
  have hdone : (getCore wballNamed 1).mem.mc.gcdone = true := by rw [hmade]
  rw [hmc] at hdone
  exact absurd hdone (by decide)

end Sys2Proof.Machine
end

section
/-!
PROOFS. The rings of the Drill: reading after writing, and what an ST.PUT leaves of them (08 R285–R293; 09 R325–R327).
-/

namespace Sys2Proof.Machine

variable {s : State} {c n : Nat}

/-! ## Reading after writing -/

@[simp] theorem getRing_setRing_same (s : State) (c n : Nat) (r : Ring) : getRing (setRing s c n r) c n = r := by
  rw [getRing, setRing, getCore_updCore_same]; exact spGet_set_same _ _ _ _

@[simp] theorem getRing_updRing_same (s : State) (c n : Nat) (f : Ring → Ring) : getRing (updRing s c n f) c n = f (getRing s c n) :=
  getRing_setRing_same s c n _

/-- A write of a ring changes nothing else of its core. -/
theorem getCore_setRing_same (s : State) (c n : Nat) (r : Ring) :
    getCore (setRing s c n r) c = { getCore s c with rings := spSet {} (getCore s c).rings n r } := getCore_updCore_same _ _ _

theorem getThread_updRing (s : State) (c n t : Nat) (f : Ring → Ring) : getThread (updRing s c n f) c t = getThread s c t := by
  rw [getThread, updRing, getCore_setRing_same]; rfl

theorem localMem_updRing (s : State) (c n : Nat) (f : Ring → Ring) :
    (getCore (updRing s c n f) c).mem.localMem = (getCore s c).mem.localMem := by rw [updRing, getCore_setRing_same]

/-- The ring of a descriptor that has ended. -/
def Ring.descOut (r : Ring) : Ring := { r with cur := none, done := (r.done + 1) % 2 ^ 32 }

@[simp] theorem getRing_descDone (s : State) (c n : Nat) : getRing (descDone s c n) c n = (getRing s c n).descOut :=
  getRing_updRing_same s c n _

/-! ## The latch unit -/

/-- The rings and threads of every core, which no latch operation changes. -/
def ringView (s : State) (d : Nat) : Sparse Ring × Sparse Thread := ((getCore s d).rings, (getCore s d).threads)

theorem ringView_of_cores {s' : State} (h : s'.cores = s.cores) : ringView s' = ringView s := by
  funext d; simp only [ringView, getCore, h]

theorem ringView_updCore (s : State) (c : Nat) {f : Core → Core} (hr : ∀ k, (f k).rings = k.rings) (ht : ∀ k, (f k).threads = k.threads) :
    ringView (updCore s c f) = ringView s := by
  funext d
  by_cases h : d = c
  · subst h; rw [ringView, getCore_updCore_same, hr, ht]; rfl
  · rw [ringView, getCore_updCore_other _ _ h]; rfl

theorem ringView_setCoreMem (s : State) (gran : Bool) (c : Nat) (m : Mem) : ringView (setCoreMem s gran c m) = ringView s := by
  cases gran
  · exact ringView_updCore s c (f := fun k => { k with mem := { k.mem with localMem := m } }) (fun _ => rfl) (fun _ => rfl)
  · exact ringView_updCore s c (f := fun k => { k with mem := { k.mem with gran := m } }) (fun _ => rfl) (fun _ => rfl)

theorem ringView_setWaiters (s : State) (c : Nat) (l : List Waiter) : ringView (setWaiters s c l) = ringView s :=
  ringView_updCore s c (fun _ => rfl) (fun _ => rfl)

theorem ringView_answerReq (s : State) (c id v : Nat) (p : Bool) : ringView (answerReq s c id v p) = ringView s :=
  ringView_updCore s c (fun _ => rfl) (fun _ => rfl)

theorem ringView_wordProbe (s : State) (gran : Bool) (c x : Nat) : ringView (wordProbe s gran c x).1 = ringView s := by
  simp only [wordProbe]
  split
  · rw [ringView_of_cores (reportUncorr_cores _ _ _ _), ringView_setCoreMem]
  · exact ringView_setCoreMem _ _ _ _

theorem ringView_serveWord (gran : Bool) (c x k : Nat) (s : State) : ringView (serveWord gran c x k s) = ringView s := by
  induction k generalizing s with
  | zero => rfl
  | succ k ih =>
    have hp := ringView_wordProbe s gran c x
    have hpeeks (l : List Waiter) (v : Nat) (p : Bool) :
        ringView (l.foldl (fun s x => answerReq s x.core x.req v p) (wordProbe s gran c x).1) = ringView s :=
      (foldl_keeps ringView (fun _ _ => ringView_answerReq _ _ _ _ _) l _).trans hp
    unfold serveWord
    dsimp only
    split
    · split
      · rw [ringView_setWaiters, hpeeks]
      · rw [ih, latchSet, ringView_setCoreMem, ringView_answerReq, ringView_setWaiters, hpeeks]
    · split
      · exact hp
      · rw [ih, latchWrite, ringView_setCoreMem, ringView_answerReq, ringView_setWaiters, hp]

/-- An ST.PUT, made or held, leaves every ring and thread. -/
theorem ringView_latchPut (s : State) (gran : Bool) (c a : Nat) (data : List Byte) (p : Bool) :
    ringView (latchPut s gran c a data p) = ringView s := by
  unfold latchPut
  split
  · exact ringView_updCore s c (fun _ => rfl) (fun _ => rfl)
  · rw [serve, ringView_serveWord, latchWrite, ringView_setCoreMem]

/-! ## The completion word -/

theorem ringView_writeCpl (s : State) (c n : Nat) (d : DescRun) (st : Nat) : ringView (writeCpl s c n d st) = ringView s := by
  unfold writeCpl
  split
  · exact ringView_latchPut _ _ _ _ _ _
  · rfl

theorem getRing_of_ringView {s' : State} (h : ringView s' = ringView s) : getRing s' c n = getRing s c n :=
  congrArg (fun l : Sparse Ring => spGet ({} : Ring) l n) (congrArg Prod.fst (congrFun h c))

theorem getThread_of_ringView {s' : State} {t : Nat} (h : ringView s' = ringView s) : getThread s' c t = getThread s c t :=
  congrArg (fun l : Sparse Thread => spGet (threadReset t) l t) (congrArg Prod.snd (congrFun h c))

@[simp] theorem getRing_writeCpl (s : State) (c n : Nat) (d : DescRun) (st : Nat) : getRing (writeCpl s c n d st) c n = getRing s c n :=
  getRing_of_ringView (ringView_writeCpl s c n d st)

theorem cplWord_lt (d : DescRun) (hn : n < 16) : cplWord n d 0 < 256 ^ 8 := by
  have hop : dOp d.words < 2 ^ 8 := Nat.mod_lt _ (by decide)
  have hres : d.result % 2 ^ 32 < 2 ^ 32 := Nat.mod_lt _ (by decide)
  rw [cplWord]
  omega

/-- A completion word that is put in LOCAL stands there, full. -/
theorem writeCpl_put {d : DescRun} (hn : n < 16) (hcw : dCW d.words = true) (hok : cplOk (getCore s c) (getRing s c n) d = true)
    (hl : (getCore s c).mem.latch = []) (hh : latchHeld s c = false) : let m := (getCore (writeCpl s c n d 0) c).mem.localMem
    (m.mark (dCPL d.words / 8)).full = true ∧ ofBytes (m.getBytes (dCPL d.words) 8) = cplWord n d 0 := by
  have hal : dCPL d.words % 8 = 0 := by
    simp only [cplOk, Bool.and_eq_true, beq_iff_eq] at hok
    exact hok.1.1
  obtain ⟨m, hfull, hbytes, hcore, -⟩ := latchPut_effect hal (toBytes_length 8 (cplWord n d 0)) hh hl
  have hm : (getCore (writeCpl s c n d 0) c).mem.localMem = m := by
    rw [writeCpl, hcw, hok, Bool.and_self, if_pos rfl, hcore]; rfl
  dsimp only
  rw [hm]
  exact ⟨hfull, by rw [hbytes, ofBytes_toBytes_mod, Nat.mod_eq_of_lt (cplWord_lt d hn)]⟩

end Sys2Proof.Machine
end

section
/-!
PROOFS. Drill rings: enabling, disabling, starting a descriptor and ending it (08 R285–R293).
-/

namespace Sys2Proof.Machine

variable {s : State} {c n : Nat} {v : Word} {d : DescRun}

/-! ## DRCFG -/

theorem drillRingEnable_runs (hu : coreUp s c = true) (hn : n < 16) (hv : bitOf v 0 = true) :
    exec (.drillRingEnable c n v) s = .next (drcfgWrite s c n v) := by
  have h : (coreUp s c && decide (n < 16) && bitOf v 0) = true := by rw [hu, hv, decide_eq_true hn]; rfl
  exact congrArg Host.Outcome.next (if_pos h)

theorem drillRingDisable_runs (hu : coreUp s c = true) (hn : n < 16) (hv : bitOf v 0 = false) :
    exec (.drillRingDisable c n v) s = .next (drcfgWrite s c n v) := by
  have h : (coreUp s c && decide (n < 16) && !bitOf v 0) = true := by rw [hu, hv, decide_eq_true hn]; rfl
  exact congrArg Host.Outcome.next (if_pos h)

/-- Setting EN takes the fields and starts the ring afresh. -/
theorem getRing_drcfgWrite_on (hv : bitOf v 0 = true) (he : (getRing s c n).en = false) : getRing (drcfgWrite s c n v) c n =
    { getRing s c n with
      owner := field v 51 48, logn := field v 47 44, base := field v 19 6, job := bitOf v 1, en := true
      tail := 0, done := 0, error := false, posted := [], cur := none } := by
  simp only [drcfgWrite, he, hv, Bool.false_eq_true, if_false, if_true, getRing_setRing_same]

/-- Clearing EN ends what runs and discards what is posted. -/
theorem getRing_drcfgWrite_off (hv : bitOf v 0 = false) (he : (getRing s c n).en = true) : getRing (drcfgWrite s c n v) c n =
    { getRing (abortRunning s c n) c n with posted := [], en := false } := by
  simp only [drcfgWrite, he, hv, Bool.false_eq_true, if_false, if_true, getRing_updRing_same, abortRing]

theorem lastBursts_of_moved (h : d.phase ≠ .run) : lastBursts s c n d = (s, d.result) := by
  simp [lastBursts, h]

/-- A descriptor that has moved its data, with nothing unacknowledged on the fabric, ends at once. -/
theorem getRing_abortCur (h : d.phase ≠ .run) (hf : (fabricWait s c n).isSome = true) :
    getRing (abortCur s c n d) c n = (getRing s c n).descOut := by
  simp only [abortCur, lastBursts_of_moved h, hf, if_true]
  split <;> simp only [getRing_descDone, getRing_writeCpl]

theorem abortRunning_of_cur (hc : (getRing s c n).cur = some d) (h : d.phase ≠ .fabric) : abortRunning s c n = abortCur s c n d := by
  simp [abortRunning, hc, h]

/-- A ring without a descriptor, running or posted, waits for no gate. -/
theorem ringState_of_empty (hc : (getRing s c n).cur = none) (hp : (getRing s c n).posted = []) : ringState s c n ≠ 2 := by
  simp only [ringState, hc, hp]
  split
  · decide
  · split <;> decide

/-- The ring once what runs has ended: its movement was over, or it waited for its gate, or nothing ran. -/
theorem getRing_abortRunning (h : ∀ d, (getRing s c n).cur = some d →
    (d.phase = .moved ∨ d.phase = .arrival ∨ d.phase = .drainWait) ∧ (fabricWait s c n).isSome = true) :
    let r := getRing s c n
    let r' := getRing (abortRunning s c n) c n
    r'.cur = none ∧ r'.tail = r.tail ∧ r'.base = r.base ∧
      r'.done = if r.cur.isSome = true ∨ ringState s c n = 2 then (r.done + 1) % 2 ^ 32 else r.done := by
  dsimp only
  cases hc : (getRing s c n).cur with
  | some d =>
    obtain ⟨hp, hf⟩ := h d hc
    have hfab : d.phase ≠ .fabric := by rcases hp with hp | hp | hp <;> rw [hp] <;> decide
    have hrun : d.phase ≠ .run := by rcases hp with hp | hp | hp <;> rw [hp] <;> decide
    rw [abortRunning_of_cur hc hfab, getRing_abortCur hrun hf]
    exact ⟨rfl, rfl, rfl, (if_pos (.inl rfl)).symm⟩
  | none =>
    cases hp : (getRing s c n).posted with
    | nil =>
      have ha : abortRunning s c n = s := by simp only [abortRunning, hc, hp]
      rw [ha]
      exact ⟨hc, rfl, rfl, (if_neg (by simp [ringState_of_empty hc hp])).symm⟩
    | cons p rest =>
      by_cases hg : ringState s c n = 2
      · simp [abortRunning, hc, hp, hg, Ring.descOut]
      · simp [abortRunning, hc, hp, hg]

/-! ## The start -/

theorem coresHold_idle (h : s.grid.proc = none) : coresHold s = false := by simp only [coresHold, h]

theorem slotAddr_mod (r : Ring) (seq : Nat) : slotAddr r seq % 8 = 0 := by rw [slotAddr]; omega

/-- The words of a slot are known where none of them is poison. -/
theorem cplKnown_clean {pois : List Bool} (h : ∀ i, pois.getD i false = false) (ws : List Nat) : cplKnown pois ws = ws := by
  rw [cplKnown, h, h, Bool.or_self, if_neg (by decide)]

/-- The oldest posted descriptor as it starts. -/
def descStarted (p : Posted) (ws : List Nat) : DescRun :=
  { seq := p.seq, words := ws, bad := false, phase := if (startStatus false ws).1 = 0 then .run else .moved
    status := (startStatus false ws).1, addr := (startStatus false ws).2, result := 0, taken := 0 }

/-- The words of a posted descriptor, as its slot holds them. -/
def slotWords (s : State) (c n : Nat) (p : Posted) : List Nat :=
  wordsOf 8 ((getCore s c).mem.localMem.getBytes (slotAddr (getRing s c n) p.seq) 64)

theorem getRing_descStart {p : Posted} {rest : List Posted} (hu : coreUp s c = true) (hg : s.grid.proc = none)
    (hon : ringOn (getCore s c) (getRing s c n) = true) (he : (getRing s c n).error = false) (hc : (getRing s c n).cur = none)
    (hp : (getRing s c n).posted = p :: rest)
    (hm : ∀ i, i < 8 → (getCore s c).mem.localMem.mark (slotAddr (getRing s c n) p.seq / 8 + i) = Mark.none)
    (ha : storesAcked (getCore s c) p = true) (hw : wgReady s c (slotWords s c n p) = true) :
    getRing (descStart s c n) c n = { getRing s c n with posted := rest, cur := some (descStarted p (slotWords s c n p)) } := by
  have hspan : wordSpan (slotAddr (getRing s c n) p.seq) 64 = 8 := by
    have := slotAddr_mod (getRing s c n) p.seq
    rw [wordSpan, if_neg (by decide)]; omega
  have hclean : CleanRun (coreMem s false c) (slotAddr (getRing s c n) p.seq) 64 := fun i hi => by
    rw [coreMem_local, hm i (by omega)]; exact ⟨rfl, rfl⟩
  have hpois := coreRead_not_poison hclean
  have hwords : cplKnown (coreRead s false c (slotAddr (getRing s c n) p.seq) 64).pois
      (wordsOf 8 (coreRead s false c (slotAddr (getRing s c n) p.seq) 64).data) = slotWords s c n p := by
    rw [cplKnown_clean (coreRead_pois_getD hclean), coreRead_data]; rfl
  have hgo : (!coreUp s c || coresHold s || !ringOn (getCore s c) (getRing s c n) || (getRing s c n).error ||
      (getRing s c n).cur.isSome) = false := by rw [hu, coresHold_idle hg, hon, he, hc]; rfl
  unfold descStart
  simp only [hgo, hp, hwords, hpois, ha, hw, Bool.false_eq_true, if_false, Bool.not_true, Bool.and_false, Bool.or_self,
    getRing_setRing_same]
  rfl

/-- A descriptor whose OP is not assigned ends before it starts. -/
theorem startStatus_badOp {ws : List Nat} (h : dOp ws = 0 ∨ 0x0C < dOp ws) : startStatus false ws = (0x01, noAddr) := by
  unfold startStatus
  dsimp only
  rw [if_neg (by decide), if_pos (by simpa using h)]

/-! ## The end -/

theorem drillDescriptorEnd_runs (hu : coreUp s c = true) (hc : (getRing s c n).cur = some d) (hp : d.phase = .moved) :
    exec (.drillDescriptorEnd c n) s = .next (descFinish s c n d) := by
  have hend : descEnd s c n = descFinish s c n d := by simp only [descEnd, hc, hp]
  exact congrArg Host.Outcome.next ((if_pos hu).trans hend)

theorem descFinish_ok (hs : d.status = 0) (hga : dGA d.words = false) : descFinish s c n d = descDone (writeCpl s c n d 0) c n := by
  simp [descFinish, hs, descArrive, hga]

theorem descFinish_aborted (hs : d.status = 0x10) : descFinish s c n d = descDone (writeCpl s c n d 0x10) c n := by
  simp [descFinish, hs]

theorem descFinish_failed (h0 : d.status ≠ 0) (h1 : d.status ≠ 0x10) : descFinish s c n d = descError s c n d := by
  simp [descFinish, h0, h1]

theorem cplOk_of_place (ha : dCPL d.words % 8 = 0) (hl : dCPL d.words < 0xC0000)
    (hk : (getRing s c n).job = false ∨ dCPL d.words < (getCore s c).ctl.klim.toNat) : cplOk (getCore s c) (getRing s c n) d = true := by
  have hlt : dCPL d.words < localEnd := hl
  rcases hk with hk | hk
  · simp [cplOk, ha, hlt, hk]
  · simp [cplOk, ha, hlt, hk]

/-- The ring of a descriptor that failed: one that was placed at an address keeps it. -/
theorem descError_effect (hd : (getThread s c (getRing s c n).owner).deferred = none) : ∃ a, (d.addr ≠ noAddr → a = d.addr) ∧
    getRing (descError s c n d) c n =
      { (getRing s c n).descOut with error := true, errStatus := d.status, errAddr := a % 2 ^ 48 } ∧
    (getThread (descError s c n d) c (getRing s c n).owner).deferred =
      some ⟨0x0D, d.status, word (n * 2 ^ 32 + d.seq % 2 ^ 32)⟩ := by
  obtain ⟨a, s1, hs1, ha, hcores⟩ : ∃ a s1, (if d.addr = noAddr then drawFree (descDone (writeCpl s c n d d.status) c n)
      else (d.addr, descDone (writeCpl s c n d d.status) c n)) = (a, s1) ∧ (d.addr ≠ noAddr → a = d.addr) ∧
      s1.cores = (descDone (writeCpl s c n d d.status) c n).cores := by
    by_cases h : d.addr = noAddr
    · exact ⟨_, _, if_pos h, fun hne => absurd h hne, rfl⟩
    · exact ⟨_, _, if_neg h, fun _ => rfl, rfl⟩
  have hring : getRing s1 c n = (getRing s c n).descOut := by
    rw [getRing_of_ringView (ringView_of_cores hcores), getRing_descDone, getRing_writeCpl]
  have hthread (t : Nat) : getThread s1 c t = getThread s c t := by
    rw [getThread_of_ringView (ringView_of_cores hcores), descDone, getThread_updRing, getThread_of_ringView (ringView_writeCpl s c n d _)]
  have hout : descError s c n d = updThread (updRing s1 c n (fun r => { r with error := true, errStatus := d.status, errAddr := a % 2 ^ 48 }))
      c (getRing s c n).owner (fun th => { th with deferred := some ⟨0x0D, d.status, word (n * 2 ^ 32 + d.seq % 2 ^ 32)⟩ }) := by
    simp only [descError, hs1, deliverDeferred, getRing_updRing_same, hring, getThread_updRing, hthread, Ring.descOut, hd]
  refine ⟨a, ha, ?_, ?_⟩
  · rw [hout, getRing, updThread, getCore_updCore_same]
    exact (getRing_updRing_same s1 c n _).trans (by rw [hring])
  · rw [hout, getThread_updThread_same]

/-! ## The statement -/

/-- Settles O35: each command by what it leaves of its ring. -/
theorem drillRingsStartAndEndDescriptors : Obligations.DrillRingsStartAndEndDescriptors := by
  unfold Obligations.DrillRingsStartAndEndDescriptors
  intro c n s hu hn r
  refine ⟨fun v hv he => ⟨_, drillRingEnable_runs hu hn hv, ?enable⟩, fun v hv he => ⟨_, drillRingDisable_runs hu hn hv, ?disable⟩, ?start,
    fun d hc hp => ⟨fun hs hga => ⟨_, drillDescriptorEnd_runs hu hc hp, ?ok⟩, fun hs => ⟨_, drillDescriptorEnd_runs hu hc hp, ?aborted⟩,
      fun h0 h1 hdef _ => ⟨_, drillDescriptorEnd_runs hu hc hp, ?failed⟩⟩⟩
  case enable => simp only [getRing_drcfgWrite_on hv he, and_self]
  case disable =>
    dsimp only
    rw [getRing_drcfgWrite_off hv he]
    exact ⟨rfl, rfl, fun h => getRing_abortRunning h⟩
  case start =>
    intro p rest hg hon herr hc hp at_ ws hm ha hw
    have hring := getRing_descStart hu hg hon herr hc hp hm ha hw
    refine ⟨_, rfl, ?_⟩
    dsimp only
    rw [hring]
    refine ⟨rfl, descStarted p ws, rfl, rfl, rfl, rfl, fun h => if_pos h, fun h => if_neg h, fun h => ?_⟩
    exact congrArg Prod.fst (startStatus_badOp h)
  case ok =>
    rw [descFinish_ok hs hga]
    simp only [getRing_descDone, getRing_writeCpl]
    refine ⟨rfl, rfl, rfl, fun hcw hal hlt hk hl hh => ?_⟩
    rw [descDone, localMem_updRing]
    obtain ⟨hfull, hword⟩ := writeCpl_put hn hcw (cplOk_of_place hal hlt hk) hl hh
    exact ⟨hfull, hword.trans (by simp [cplWord])⟩
  case aborted =>
    rw [descFinish_aborted hs]
    simp only [getRing_descDone, getRing_writeCpl]
    exact ⟨rfl, rfl, rfl⟩
  case failed =>
    rw [descFinish_failed h0 h1]
    dsimp only
    obtain ⟨a, ha, hring, hthread⟩ := descError_effect (d := d) hdef
    rw [hring]
    exact ⟨rfl, rfl, rfl, rfl, fun h => by rw [ha h], hthread⟩

end Sys2Proof.Machine
end

section
/-!
PROOFS. The checks of a Drill operation: the failed check of the lowest place (08 R292, R298).
-/

namespace Sys2Proof.Machine

variable {s : State} {c : Nat} {job : Bool} {ws : List Nat} {e : DErr}

/-! ## The lowest of several failed checks -/

theorem checkRank_lt (status : Nat) : checkRank status < 4 := by
  unfold checkRank; split <;> decide

/-- No check of the list fails at a place below k. -/
def RankFrom (k : Nat) (l : List (Option DErr)) : Prop := ∀ y, some y ∈ l → k ≤ checkRank y.1

theorem rankFrom_nil (k : Nat) : RankFrom k [] := fun _ h => absurd h List.not_mem_nil

theorem rankFrom_cons {k : Nat} {x : Option DErr} {l : List (Option DErr)} (hx : ∀ y, x = some y → k ≤ checkRank y.1) (hl : RankFrom k l) :
    RankFrom k (x :: l) := by
  intro y hy
  rcases List.mem_cons.1 hy with h | h
  · exact hx y h.symm
  · exact hl y h

theorem rankFrom_append {k : Nat} {l l' : List (Option DErr)} (hl : RankFrom k l) (hl' : RankFrom k l') : RankFrom k (l ++ l') := by
  intro y hy
  rcases List.mem_append.1 hy with h | h
  · exact hl y h
  · exact hl' y h

theorem findSome?_rank_none {j k : Nat} {l : List (Option DErr)} (h : RankFrom k l) (hj : j < k) :
    l.findSome? (fun x => x.filter (fun e => checkRank e.1 == j)) = none := by
  refine List.findSome?_eq_none_iff.2 (fun x hx => ?_)
  cases x with
  | none => rfl
  | some y =>
    have := h y hx
    rw [Option.filter_some, if_neg (by rw [beq_iff_eq]; omega)]

/-- A check that fails before all others that fail at its place, where none fails at a lower place, is the one taken. -/
theorem dLowest_of_least {l l' : List (Option DErr)} (hl : RankFrom (checkRank e.1 + 1) l) (hl' : RankFrom (checkRank e.1) l') :
    dLowest (l ++ some e :: l') = some e := by
  have hall : RankFrom (checkRank e.1) (l ++ some e :: l') := by
    refine rankFrom_append (fun y hy => Nat.le_of_succ_le (hl y hy)) (rankFrom_cons (fun y hy => ?_) hl')
    cases hy
    exact le_refl _
  have hhere : (l ++ some e :: l').findSome? (fun x => x.filter (fun y => checkRank y.1 == checkRank e.1)) = some e := by
    rw [List.findSome?_append, findSome?_rank_none hl (Nat.lt_succ_self _), Option.none_or, List.findSome?_cons, Option.filter_some,
      beq_self_eq_true, if_pos rfl]
  unfold dLowest
  rw [List.findSome?_eq_some_iff]
  have hk := checkRank_lt e.1
  refine ⟨List.range (checkRank e.1), checkRank e.1, (List.range' (checkRank e.1 + 1) (3 - checkRank e.1)), ?_, hhere, fun j hj =>
    findSome?_rank_none hall (List.mem_range.1 hj)⟩
  revert hk
  generalize checkRank e.1 = k
  intro hk
  interval_cases k <;> rfl

theorem dLowest_none {l : List (Option DErr)} (h : ∀ x ∈ l, x = none) : dLowest l = none := by
  refine List.findSome?_eq_none_iff.2 (fun k _ => List.findSome?_eq_none_iff.2 (fun x hx => ?_))
  rw [h x hx]; rfl

theorem dGuard_fails {checks : List (Option DErr)} (h : dLowest (cplChecks s c job ws ++ checks) = some e) (f : Unit → DEnd) :
    dGuard s c job ws checks f = dFail s e := by rw [dGuard, h]

theorem dGuard_passes {checks : List (Option DErr)} (h : dLowest (cplChecks s c job ws ++ checks) = none) (f : Unit → DEnd) :
    dGuard s c job ws checks f = f () := by rw [dGuard, h]

/-! ## The places of the checks -/

theorem dIf_some {b : Bool} {status addr : Nat} {y : DErr} (h : dIf b status addr = some y) : y.1 = status := by
  unfold dIf at h
  split at h
  · cases h; rfl
  · cases h

theorem rank_dIf {b : Bool} {k status addr : Nat} (hk : k ≤ checkRank status) (y : DErr) (h : dIf b status addr = some y) :
    k ≤ checkRank y.1 := by rw [dIf_some h]; exact hk

theorem rank_dAlign {a n : Nat} {strides : List Int} (y : DErr) (h : dAlign a n strides = some y) : 1 ≤ checkRank y.1 := by
  unfold dAlign at h
  split at h <;> cases h
  exact le_refl _

theorem rank_hostRefusal {write : Bool} {a n : Nat} (y : DErr) (h : hostRefusal s c job write a n = some y) : 1 ≤ checkRank y.1 := by
  unfold hostRefusal at h
  split at h
  · cases h
  · obtain ⟨x, -, rfl⟩ := Option.map_eq_some_iff.1 h
    exact Nat.le_succ 1

theorem rank_dExtent {allowed : List Nat} {a : Nat} {r : Int × Nat} (y : DErr) (h : dExtent s c job allowed a r = some y) :
    1 ≤ checkRank y.1 := by
  unfold dExtent dCheck at h
  dsimp only at h
  split at h
  · cases h; exact Nat.le_succ 1
  · split at h <;> cases h
    decide

theorem rankFrom_hostRefusals {α : Type} {write : Bool} (l : List α) (a n : α → Nat) :
    RankFrom 1 (l.map (fun r => hostRefusal s c job write (a r) (n r))) := by
  intro y hy
  obtain ⟨r, -, hr⟩ := List.mem_map.1 hy
  exact rank_hostRefusal y hr

theorem rankFrom_cplChecks : RankFrom 1 (cplChecks s c job ws) :=
  rankFrom_cons (rank_dIf (le_refl _)) (rankFrom_cons (rank_dIf (by decide)) (rankFrom_nil 1))

/-- An address in LOCAL. -/
theorem aTag_local {a : Nat} (h : a < 0xC0000) : aTag a = 0 := by rw [aTag]; omega

theorem aOff_local {a : Nat} (h : a < 0xC0000) : aOff a = a := by
  rw [aOff, aTag_local h]
  exact Nat.mod_eq_of_lt (by omega)

/-- An extent of LOCAL that a Drill operation may touch. -/
structure InLocal (s : State) (c : Nat) (job : Bool) (a n : Nat) : Prop where
  pos : 0 < n
  range : a + n ≤ 0xC0000
  area : job = true → a + n ≤ (getCore s c).ctl.klim.toNat

theorem InLocal.lt {a n : Nat} (h : InLocal s c job a n) : a < 0xC0000 := by have := h.pos; have := h.range; omega

theorem dExtent_local {a n : Nat} {allowed : List Nat} (h : InLocal s c job a n) (ha : allowed.contains 0 = true) :
    dExtent s c job allowed a (0, n) = none := by
  have harea : job = true → (a : Int) + n ≤ (getCore s c).ctl.klim.toNat := fun hj => by have := h.area hj; omega
  have hlo : decide ((a : Int) + 0 < 0) = false := decide_eq_false (by omega)
  have hhi : decide ((localEnd : Int) < (a : Int) + 0 + n) = false := decide_eq_false (by have := h.range; simp only [localEnd]; omega)
  simp only [dExtent, dCheck, aTag_local h.lt, aOff_local h.lt, ha, aEnd, aReservedBad, hlo, hhi]
  simpa using harea

theorem hostRefusal_local {write : Bool} {a n : Nat} (h : a < 0xC0000) : hostRefusal s c job write a n = none := by
  rw [hostRefusal, aTag_local h]; rfl

end Sys2Proof.Machine
end

section
/-!
PROOFS. COPY: its checks, and a run of it within a core's LOCAL (08 R292, R298–R300).
-/

namespace Sys2Proof.Machine

variable {s s1 : State} {c n : Nat} {job : Bool} {ws : List Nat} {p : Pat} {src dst : Nat}

/-! ## The checks -/

/-- The checks of a COPY behind its fields and the alignment of its source. -/
def copyRest (s : State) (c : Nat) (job : Bool) (ws : List Nat) : List (Option DErr) :=
  let p := patOf ws 3
  let src := dWord ws 1
  let dst := dWord ws 2
  dAlign dst p.l0 p.ds :: dIf (!spAll.contains (aTag src)) 0x04 src ::
    (p.runs.map (fun r => hostRefusal s c job false (aMove src r.1) p.l0) ++ dIf (!(7 :: spAll).contains (aTag dst)) 0x04 dst ::
      (p.runs.map (fun r => hostRefusal s c job true (aMove dst r.2) p.l0) ++
        [dExtent s c job spAll src (p.reach p.ss), dExtent s c job (7 :: spAll) dst (p.reach p.ds)]))

/-- The fields of a COPY that must be zero are, and its length is not. -/
def copyFields (ws : List Nat) : Prop := dField ws 0 31 0 = 0 ∧ dField ws 3 27 20 = 0 ∧ (patOf ws 3).l0 ≠ 0

theorem copyChecks_eq (h : dDRN ws = false) : copyChecks s c job ws =
    badField (dField ws 0 31 0 != 0 || dField ws 3 27 20 != 0 || (patOf ws 3).l0 == 0) ::
      dAlign (dWord ws 1) (patOf ws 3).l0 (patOf ws 3).ss :: copyRest s c job ws := by
  simp [copyChecks, copyRest, h]

theorem rankFrom_copyRest : RankFrom 1 (copyRest s c job ws) := by
  refine rankFrom_cons rank_dAlign (rankFrom_cons (rank_dIf (by decide)) (rankFrom_append (rankFrom_hostRefusals _ _ _)
    (rankFrom_cons (rank_dIf (by decide)) (rankFrom_append (rankFrom_hostRefusals _ _ _) (rankFrom_cons rank_dExtent
      (rankFrom_cons rank_dExtent (rankFrom_nil 1)))))))

theorem copyField_bad (h : ¬ copyFields ws) :
    badField (dField ws 0 31 0 != 0 || dField ws 3 27 20 != 0 || (patOf ws 3).l0 == 0) = some (0x02, noAddr) := by
  have hb : (dField ws 0 31 0 != 0 || dField ws 3 27 20 != 0 || (patOf ws 3).l0 == 0) = true := by
    by_contra hf
    exact h (by simpa [copyFields, and_assoc] using hf)
  rw [badField, hb]; rfl

theorem copyField_good (h : copyFields ws) :
    badField (dField ws 0 31 0 != 0 || dField ws 3 27 20 != 0 || (patOf ws 3).l0 == 0) = none := by
  obtain ⟨h1, h2, h3⟩ := h
  simp [badField, dIf, h1, h2, h3]

/-- A COPY whose fields are bad ends before anything moves. -/
theorem copyOp_badField (hd : dDRN ws = false) (h : ¬ copyFields ws) :
    copyOp s c n job ws = { st := s, status := 0x02, addr := noAddr } := by
  unfold copyOp
  refine dGuard_fails (e := (0x02, noAddr)) ?_ _
  rw [copyChecks_eq hd, copyField_bad h]
  exact dLowest_of_least rankFrom_cplChecks (fun y _ => Nat.zero_le _)

/-- So does one whose source is misaligned. -/
theorem copyOp_misaligned (hd : dDRN ws = false) (h : copyFields ws) (hcw : dCW ws = false)
    (ha : dAligned (dWord ws 1) (patOf ws 3).l0 (patOf ws 3).ss = false) : copyOp s c n job ws =
      { st := s, status := 0x03, addr := if dAligned (dWord ws 1) 0 [] then noAddr else dWord ws 1 } := by
  have hal : dAlign (dWord ws 1) (patOf ws 3).l0 (patOf ws 3).ss =
      some (0x03, if dAligned (dWord ws 1) 0 [] then noAddr else dWord ws 1) := if_neg (by rw [ha]; decide)
  unfold copyOp
  refine dGuard_fails (e := (0x03, if dAligned (dWord ws 1) 0 [] then noAddr else dWord ws 1)) ?_ _
  rw [copyChecks_eq hd, copyField_good h, hal, cplChecks, hcw, Bool.false_and, Bool.false_and]
  exact dLowest_of_least (l := [none, none, none]) (fun y hy => by simp at hy) rankFrom_copyRest

/-! ## One run -/

theorem runs_single (h1 : p.n1 = 0) (h2 : p.n2 = 0) (h3 : p.n3 = 0) : p.runs = [(0, 0)] := by
  simp [Pat.runs, h1, h2, h3, patDist]

theorem reach_single (st : List Int) (h1 : p.n1 = 0) (h2 : p.n2 = 0) (h3 : p.n3 = 0) : p.reach st = (0, p.l0) := by
  simp [Pat.reach, h1, h2, h3]

@[simp] theorem aMove_zero (a : Nat) : aMove a 0 = a := by simp [aMove]

/-- The completion word's address is right, if there is one. -/
def CplRight (s : State) (c : Nat) (job : Bool) (ws : List Nat) : Prop :=
  dCW ws = true → dCPL ws % 8 = 0 ∧ dCPL ws < 0xC0000 ∧ (job = true → dCPL ws < (getCore s c).ctl.klim.toNat)

theorem cplChecks_right (h : CplRight s c job ws) : cplChecks s c job ws = [none, none] := by
  cases hcw : dCW ws with
  | false => simp [cplChecks, hcw, dIf]
  | true =>
    obtain ⟨hal, hlt, hk⟩ := h hcw
    have hend : ¬ localEnd ≤ dCPL ws := Nat.not_le.2 hlt
    simpa [cplChecks, dIf, hcw, hal, hend] using hk

/-- A COPY of one run within LOCAL passes its checks. -/
theorem copyChecks_pass (hd : dDRN ws = false) (h : copyFields ws) (hc : CplRight s c job ws) (hr : (patOf ws 3).runs = [(0, 0)])
    (hreach : ∀ st, (patOf ws 3).reach st = (0, (patOf ws 3).l0))
    (hs : InLocal s c job (dWord ws 1) (patOf ws 3).l0) (ht : InLocal s c job (dWord ws 2) (patOf ws 3).l0)
    (has : dAligned (dWord ws 1) (patOf ws 3).l0 (patOf ws 3).ss = true)
    (hat : dAligned (dWord ws 2) (patOf ws 3).l0 (patOf ws 3).ds = true) :
    dLowest (cplChecks s c job ws ++ copyChecks s c job ws) = none := by
  have hsrc : dAlign (dWord ws 1) (patOf ws 3).l0 (patOf ws 3).ss = none := if_pos has
  have hdst : dAlign (dWord ws 2) (patOf ws 3).l0 (patOf ws 3).ds = none := if_pos hat
  have hrest : copyRest s c job ws = [none, none, none, none, none, none, none] := by
    simp only [copyRest, hr, hreach, List.map_cons, List.map_nil, aMove_zero, hdst, aTag_local hs.lt, aTag_local ht.lt,
      hostRefusal_local hs.lt, hostRefusal_local ht.lt, dExtent_local hs (allowed := spAll) rfl, dExtent_local ht (allowed := 7 :: spAll) rfl]
    rfl
  rw [cplChecks_right hc, copyChecks_eq hd, copyField_good h, hsrc, hrest]
  exact dLowest_none (by simp)

theorem dOverlaps_apart {a : Nat} (hr : p.runs = [(0, 0)]) (hs : src < 0xC0000) (ha : a < 0xC0000) (h : a < src ∨ src + p.l0 ≤ a) :
    dOverlaps c src p a = false := by
  have hc (x : Nat) (hx : x < 0xC0000) : aCanon c x = (2 * c, x) := by simp only [aCanon, aTag_local hx, aOff_local hx]
  have hout : ¬ ((src : Int) ≤ a ∧ (a : Int) < src + p.l0) := by omega
  simp only [dOverlaps, hc a ha, hc src hs, hr, List.any_cons, List.any_nil, Bool.or_false]
  simpa using hout

/-- A run whose source and destination lie apart is moved piece by piece. -/
theorem dRun_apart {m : DMove} (hr : p.runs = [(0, 0)]) (he : m.err = none) (hs : src + p.l0 ≤ 0xC0000) (ht : dst + p.l0 ≤ 0xC0000)
    (hpos : 0 < p.l0) (h : src + p.l0 ≤ dst ∨ dst + p.l0 ≤ src) : dRun c job p src src dst m = dCopy c job src dst p.l0 m := by
  have hno : (List.range (p.l0 / 8)).any (fun i => dOverlaps c src p (dst + 8 * i)) = false := by
    refine List.any_eq_false.2 (fun i hi => ?_)
    have := List.mem_range.1 hi
    rw [dOverlaps_apart hr (by omega) (by omega) (by omega)]
    decide
  simp only [dRun, he, hno, Bool.false_eq_true, if_false]

/-! ## A piece -/

theorem besideAccess_setCore (s : State) (c : Nat) (k : Core) : besideAccess (setCore s c k) = besideAccess s := rfl

theorem besideAccess_writeRun (gran : Bool) (c a : Nat) (bs : List Byte) (pois : List Bool) (s : State) :
    besideAccess (writeRun (fun s p a b => coreWrite s gran c p a b) a bs pois s) = besideAccess s :=
  foldl_keeps (fun x : State × Nat => besideAccess x.1) (fun _ _ => besideAccess_coreWrite _ _ _ _ _ _) _ _

theorem besideAccess_bulk (s : State) : (besideAccess s).bulk = s.bulk := rfl

theorem takeBurst_free (h : (getCore s c).burst = none) : takeBurst s c = some s := by rw [takeBurst, h]

theorem cutsOf_oneLine {a k : Nat} (hk : 0 < k) (hl : k ≤ 256 - a % 256) : cutsOf a k = [(0, k)] := by
  have hmin : min k (256 - a % 256) = k := by omega
  rw [cutsOf, lineCuts, if_neg (by omega)]
  dsimp only
  rw [hmin, Nat.sub_self, lineCuts.eq_def]
  cases k / 256 + 1 <;> rfl

/-- A movement with one more piece written, at address a of core c's LOCAL. -/
def pieceAt (c a : Nat) (bs : List Byte) (pois : List Bool) (m : DMove) : DMove :=
  { st := writeRun (fun s p a b => coreWrite s false c p a b) a bs (pois.take ((bs.length + 7) / 8)) m.st
    err := none, done := m.done + bs.length }

theorem bytesNow_pieceAt {m : DMove} {pois : List Bool} (hm : ∀ x, (coreMem m.st false c).mark x = Mark.none) (a : Nat) (bs : List Byte)
    (hp : ∀ p ∈ pois, p = false) : BytesNow m.st false c (overlay (coreMem m.st false c).byte a bs) (pieceAt c a bs pois m).st :=
  bytesNow_writeRun hm a bs (fun p h => hp p (List.mem_of_mem_take h))

/-- A piece that lies in one line of LOCAL is one burst. -/
theorem dPutBytes_oneLine {m : DMove} {a : Nat} {bs : List Byte} {pois : List Bool} (he : m.err = none)
    (hb : (getCore m.st c).burst = none) (ha : a < 0xC0000) (hpos : 0 < bs.length) (hl : bs.length ≤ 256 - a % 256) :
    dPutBytes c job a bs pois m = pieceAt c a bs pois m := by
  have hline : dWritePiece m.st c job a bs (pois.take ((bs.length + 7) / 8)) =
      (none, writeRun (fun s p a b => coreWrite s false c p a b) a bs (pois.take ((bs.length + 7) / 8)) m.st) := by
    simp only [dWritePiece, takeBurst_free hb, dWriteLine, aTag_local ha, aOff_local ha]
  rw [dPutBytes, cutsOf_oneLine hpos hl, List.foldl_cons, List.foldl_nil, he]
  simp only [Nat.add_zero, List.drop_zero, Nat.zero_div, List.take_length, hline]
  rfl

/-- One step of a move. -/
def copyStep (c : Nat) (job : Bool) (src dst : Nat) (m : DMove) (x : Nat × Nat) : DMove :=
  match m.err with
  | some _ => m
  | none =>
    let g := dReadPiece m.st c job (src + x.1) x.2
    match g.err with
    | some e => { m with st := g.st, err := some e }
    | none => dPutBytes c job (dst + x.1) g.data g.pois { m with st := g.st }

theorem dCopy_eq (c : Nat) (job : Bool) (src dst k : Nat) (m : DMove) :
    dCopy c job src dst k m = (moveCuts (2 * (k / 256) + 4) src dst k 0).foldl (copyStep c job src dst) m := rfl

/-- m1 is m with k more bytes moved within core c's LOCAL, whose bytes are f now. -/
structure Moved (c : Nat) (f : Nat → Byte) (k : Nat) (m m1 : DMove) : Prop where
  bytes : BytesNow m.st false c f m1.st
  beside : besideAccess m1.st = besideAccess m.st
  err : m1.err = none
  done : m1.done = m.done + k

theorem Moved.burst {f : Nat → Byte} {k : Nat} {m m1 : DMove} (h : Moved c f k m m1) :
    (getCore m1.st c).burst = (getCore m.st c).burst := by rw [h.bytes.core]

/-- A piece of a move lays the bytes of its source over those of its destination. -/
theorem moved_copyStep {m : DMove} {d k : Nat} (he : m.err = none) (hb : (getCore m.st c).burst = none)
    (hm : ∀ x, (coreMem m.st false c).mark x = Mark.none) (hs : src + d < 0xC0000) (ht : dst + d < 0xC0000) (hk : 0 < k)
    (hl : k ≤ 256 - (dst + d) % 256) :
    Moved c (overlay (coreMem m.st false c).byte (dst + d) ((coreMem m.st false c).getBytes (src + d) k)) k m
      (copyStep c job src dst m (d, k)) := by
  have hclean := cleanRun_unmarked hm (src + d) k
  have hsame := sameCores_coreRead hclean
  obtain ⟨hst, hpois⟩ := coreRead_of_cleanRun hclean
  have hread : dReadPiece m.st c job (src + d) k = ⟨(coreRead m.st false c (src + d) k).data, (coreRead m.st false c (src + d) k).pois,
      none, (coreRead m.st false c (src + d) k).st⟩ := by
    simp only [dReadPiece, aTag_local hs, aOff_local hs]
  have hlen : (coreRead m.st false c (src + d) k).data.length = k := by rw [coreRead_bytes, getBytes_length]
  have hstep : copyStep c job src dst m (d, k) = pieceAt c (dst + d) (coreRead m.st false c (src + d) k).data
      (coreRead m.st false c (src + d) k).pois { m with st := (coreRead m.st false c (src + d) k).st } := by
    simp only [copyStep, he, hread]
    exact dPutBytes_oneLine rfl (by rw [hsame.core]; exact hb) ht (by omega) (by omega)
  have hwrite := bytesNow_pieceAt (m := { m with st := (coreRead m.st false c (src + d) k).st }) (by rw [hsame.coreMem]; exact hm) (dst + d)
    (coreRead m.st false c (src + d) k).data hpois
  rw [hsame.coreMem, coreRead_bytes] at hwrite
  rw [hstep]
  refine ⟨hsame.bytesNow ?_, ?_, rfl, congrArg (m.done + ·) hlen⟩
  · rw [coreRead_bytes]; exact hwrite
  · rw [pieceAt, besideAccess_writeRun, hst, besideAccess_setCore]

/-! ## The pieces of a run -/

/-- How many pieces a run of k bytes has at most: it is cut at the lines of its source and of its destination. -/
def piecesBound (a b k : Nat) : Nat := (a + k - 1) / 256 - a / 256 + ((b + k - 1) / 256 - b / 256) + 1

theorem piecesBound_step {a b k f : Nat} (hk : k ≠ 0) (hf : k = 0 ∨ piecesBound a b k ≤ f + 1) :
    k - min k (min (256 - a % 256) (256 - b % 256)) = 0 ∨
      piecesBound (a + min k (min (256 - a % 256) (256 - b % 256))) (b + min k (min (256 - a % 256) (256 - b % 256)))
        (k - min k (min (256 - a % 256) (256 - b % 256))) ≤ f := by
  have hf' := hf.resolve_left hk
  unfold piecesBound at hf' ⊢
  generalize hl : min k (min (256 - a % 256) (256 - b % 256)) = l
  omega

@[simp] theorem moveCuts_zero (f a b d : Nat) : moveCuts f a b 0 d = [] := by cases f <;> rfl

/-- Nothing moved. -/
theorem moved_refl {m : DMove} (he : m.err = none) (hm : ∀ x, (coreMem m.st false c).mark x = Mark.none) :
    Moved c (coreMem m.st false c).byte 0 m m := ⟨bytesNow_refl hm, rfl, he, rfl⟩

theorem moved_moveCuts {f k d N : Nat} {m : DMove} (hf : k = 0 ∨ piecesBound (src + d) (dst + d) k ≤ f) (hN : d + k = N)
    (he : m.err = none) (hb : (getCore m.st c).burst = none) (hm : ∀ x, (coreMem m.st false c).mark x = Mark.none)
    (hs : src + N ≤ 0xC0000) (ht : dst + N ≤ 0xC0000) (h : src + N ≤ dst ∨ dst + N ≤ src) :
    Moved c (overlay (coreMem m.st false c).byte (dst + d) ((coreMem m.st false c).getBytes (src + d) k)) k m
      ((moveCuts f (src + d) (dst + d) k d).foldl (copyStep c job src dst) m) := by
  induction f generalizing k d m with
  | zero =>
    have hk : k = 0 := hf.resolve_right (by unfold piecesBound; omega)
    subst hk
    simpa [Mem.getBytes] using moved_refl he hm
  | succ f ih =>
    by_cases hk : k = 0
    · subst hk
      simpa [Mem.getBytes] using moved_refl he hm
    · have hbound := piecesBound_step hk hf
      rw [moveCuts, if_neg hk]
      dsimp only
      generalize hl : min k (min (256 - (src + d) % 256) (256 - (dst + d) % 256)) = l at hbound ⊢
      have hl0 : 0 < l := by omega
      have hlk : l ≤ k := by omega
      have hone := moved_copyStep (job := job) he hb hm (src := src) (dst := dst) (d := d) (k := l) (by omega) (by omega) hl0 (by omega)
      rw [Nat.add_assoc, Nat.add_assoc] at hbound
      have hrest := ih (k := k - l) (d := d + l) (m := copyStep c job src dst m (d, l)) hbound (by omega) hone.err (hone.burst.trans hb)
        hone.bytes.marks
      have hread : (coreMem (copyStep c job src dst m (d, l)).st false c).getBytes (src + (d + l)) (k - l) =
          (coreMem m.st false c).getBytes (src + (d + l)) (k - l) :=
        getBytes_overlay_outside hone.bytes.byte (by rw [getBytes_length]; omega)
      have hjoin := overlay_append (coreMem m.st false c).byte (dst + d) ((coreMem m.st false c).getBytes (src + d) l)
        ((coreMem m.st false c).getBytes (src + d + l) (k - l))
      rw [getBytes_length, ← getBytes_add, Nat.add_sub_cancel' hlk] at hjoin
      rw [hread, hone.bytes.byte, ← Nat.add_assoc, ← Nat.add_assoc, hjoin] at hrest
      rw [List.foldl_cons]
      refine ⟨hone.bytes.trans hrest.bytes, hrest.beside.trans hone.beside, hrest.err, ?_⟩
      rw [hrest.done, hone.done]
      omega

/-- A move within LOCAL between places that lie apart. -/
theorem moved_dCopy {k : Nat} {m : DMove} (he : m.err = none) (hb : (getCore m.st c).burst = none)
    (hm : ∀ x, (coreMem m.st false c).mark x = Mark.none) (hs : src + k ≤ 0xC0000) (ht : dst + k ≤ 0xC0000)
    (h : src + k ≤ dst ∨ dst + k ≤ src) :
    Moved c (overlay (coreMem m.st false c).byte dst ((coreMem m.st false c).getBytes src k)) k m (dCopy c job src dst k m) := by
  have hf : k = 0 ∨ piecesBound (src + 0) (dst + 0) k ≤ 2 * (k / 256) + 4 := by
    unfold piecesBound; omega
  rw [dCopy_eq]
  exact moved_moveCuts hf (Nat.zero_add k) he hb hm hs ht h

/-! ## The operation -/

/-- A COPY of one run within LOCAL is one move. -/
theorem copyOp_oneRun (hd : dDRN ws = false) (h : copyFields ws) (hc : CplRight s c job ws) (hr : (patOf ws 3).runs = [(0, 0)])
    (hreach : ∀ st, (patOf ws 3).reach st = (0, (patOf ws 3).l0))
    (hs : InLocal s c job (dWord ws 1) (patOf ws 3).l0) (ht : InLocal s c job (dWord ws 2) (patOf ws 3).l0)
    (has : dAligned (dWord ws 1) (patOf ws 3).l0 (patOf ws 3).ss = true)
    (hat : dAligned (dWord ws 2) (patOf ws 3).l0 (patOf ws 3).ds = true)
    (hapart : dWord ws 1 + (patOf ws 3).l0 ≤ dWord ws 2 ∨ dWord ws 2 + (patOf ws 3).l0 ≤ dWord ws 1) :
    copyOp s c n job ws = dEnd (dCopy c job (dWord ws 1) (dWord ws 2) (patOf ws 3).l0 ⟨s, none, 0⟩) := by
  unfold copyOp
  refine (dGuard_passes (copyChecks_pass hd h hc hr hreach hs ht has hat) _).trans ?_
  rw [hd, if_neg (by decide), aTag_local ht.lt, if_neg (by decide), hr, List.foldl_cons, List.foldl_nil]
  dsimp only
  rw [aMove_zero, aMove_zero, dRun_apart hr rfl hs.range ht.range hs.pos hapart]

/-- What such a move leaves: the bytes of the source at the destination, and everything else as it was. -/
theorem dEnd_dCopy_effect {k : Nat} (hb : (getCore s c).burst = none) (hm : ∀ x, (getCore s c).mem.localMem.mark x = Mark.none)
    (hs : src + k ≤ 0xC0000) (ht : dst + k ≤ 0xC0000) (h : src + k ≤ dst ∨ dst + k ≤ src) :
    let e := dEnd (dCopy c job src dst k ⟨s, none, 0⟩)
    let m := (getCore s c).mem.localMem
    let m' := (getCore e.st c).mem.localMem
    e.status = 0 ∧ e.result = k ∧ e.phase = .moved ∧ (∀ i, i < k → m'.byte (dst + i) = m.byte (src + i)) ∧
      (∀ x, x < dst ∨ dst + k ≤ x → m'.byte x = m.byte x) ∧ (∀ x, c ≠ x → getCore e.st x = getCore s x) ∧ e.st.bulk = s.bulk := by
  have hmoved := moved_dCopy (m := ⟨s, none, 0⟩) (job := job) rfl hb hm hs ht h
  have hend : dEnd (dCopy c job src dst k ⟨s, none, 0⟩) =
      { st := (dCopy c job src dst k ⟨s, none, 0⟩).st, result := (dCopy c job src dst k ⟨s, none, 0⟩).done } := by
    rw [dEnd, hmoved.err]
  have hbyte : (getCore (dCopy c job src dst k ⟨s, none, 0⟩).st c).mem.localMem.byte = overlay (getCore s c).mem.localMem.byte dst
      ((getCore s c).mem.localMem.getBytes src k) := hmoved.bytes.byte
  have hlen := getBytes_length (getCore s c).mem.localMem src k
  dsimp only
  rw [hend]
  dsimp only
  rw [hbyte]
  refine ⟨rfl, hmoved.done.trans (Nat.zero_add k), rfl, fun i hi => ?_, fun x hx => overlay_outside (by omega),
    fun x hx => hmoved.bytes.cores x (Ne.symm hx), by rw [← besideAccess_bulk, hmoved.beside]; rfl⟩
  rw [overlay_inside (by omega), getBytes_getElem]

/-! ## The rows of the Drill -/

/-- The running descriptor of a ring that is on moves under the row of its operation. -/
theorem drillOp_runs {d : DescRun} {op : Nat} {pf : Bool} (f : State → Bool → List Nat → DEnd) (he : coreExists s c = true)
    (hh : isHole s c = false) (hg : s.grid.proc = none) (hon : ringOn (getCore s c) (getRing s c n) = true)
    (hc : (getRing s c n).cur = some d) (hp : d.phase = .run) (ho : opCut s c d.words = false) (hop : dOp d.words = op)
    (hpf : op = 0x01 → dPF d.words = pf) : drillOp s c n op pf f =
      let e := f s (getRing s c n).job d.words
      updRing e.st c n (fun r => { r with cur := some { d with phase := e.phase, status := e.status, addr := e.addr, result := e.result } }) := by
  have hrow : (op != 0x01 || dPF d.words == pf) = true := by
    by_cases h : op = 0x01
    · rw [hpf h, beq_self_eq_true, Bool.or_true]
    · rw [bne_iff_ne.2 h, Bool.true_or]
  have hgo : (coreExists s c && !isHole s c && !coresHold s && ringOn (getCore s c) (getRing s c n) && d.phase == .run &&
      !opCut s c d.words && dOp d.words == op && (op != 0x01 || dPF d.words == pf)) = true := by
    rw [he, hh, coresHold_idle hg, hon, hp, ho, hop, hrow]; simp
  unfold drillOp
  dsimp only
  rw [hc]
  dsimp only
  rw [if_pos hgo]

/-- Settles O36: the checks in their order, then the run piece by piece; every row of the Drill runs its own operation. -/
theorem drillOperationsRunAndCopyMoves : Obligations.DrillOperationsRunAndCopyMoves := by
  unfold Obligations.DrillOperationsRunAndCopyMoves
  refine ⟨fun s c n job ws hd => ?copy, fun c n s d he hh hg => ?rows⟩
  case copy =>
    refine ⟨fun h => copyOp_badField hd h, fun h hcw ha => copyOp_misaligned hd h hcw ha, ?_⟩
    intro h hc h1 h2 h3 has hat hsr htr hsa hta hapart hm hb
    have hpos : 0 < (patOf ws 3).l0 := Nat.pos_of_ne_zero h.2.2
    rw [copyOp_oneRun hd h hc (runs_single h1 h2 h3) (fun st => reach_single st h1 h2 h3) ⟨hpos, hsr, hsa⟩ ⟨hpos, htr, hta⟩ has hat hapart]
    exact dEnd_dCopy_effect hb hm hsr htr hapart
  case rows =>
    intro r hon hc hp ho ends op unskew
    have row {op : Nat} {pf : Bool} (f : State → Bool → List Nat → DEnd) (hop : dOp d.words = op) (hpf : op = 0x01 → dPF d.words = pf) :=
      congrArg (Host.Outcome.next (φ := Fault) (ρ := Refusal)) (drillOp_runs f he hh hg hon hc hp ho hop hpf)
    have other {op : Nat} (f : State → Bool → List Nat → DEnd) (hop : dOp d.words = op) (hne : op ≠ 0x01) :=
      row (pf := false) f hop (fun h => absurd h hne)
    have hdir : skewDir s c n = unskew := by rw [skewDir, show (getRing s c n).cur = some d from hc]
    refine ⟨fun h hpf => row _ h (fun _ => hpf), fun h hpf => row _ h (fun _ => hpf), fun h => other _ h (by decide), fun h => other _ h (by decide),
      fun h => other _ h (by decide), fun h => other _ h (by decide), fun h => other _ h (by decide), fun h hu => ?skew, fun h hu => ?unskew,
      fun h => other _ h (by decide), fun h => other _ h (by decide), fun h => other _ h (by decide), fun h => other _ h (by decide),
      fun h => other _ h (by decide)⟩
    case skew =>
      have hex : exec (.skew c n) s = .next (drillOp s c n 0x07 false (fun s job ws => skewOp s c job ws)) :=
        congrArg Host.Outcome.next (if_neg (by rw [hdir, hu]; decide))
      exact hex.trans (other _ h (by decide))
    case unskew =>
      have hex : exec (.unskew c n) s = .next (drillOp s c n 0x07 false (fun s job ws => unskewOp s c job ws)) :=
        congrArg Host.Outcome.next (if_pos (by rw [hdir, hu]))
      exact hex.trans (other _ h (by decide))

end Sys2Proof.Machine
end

section
/-!
PROOFS. The sowing engines: reading after writing, their registers and their schedule entries (08 R316–R319, R321).
-/

namespace Sys2Proof.Machine

variable {s : State} {die n : Nat} {v : Word} {e : SowEngine}

/-! ## Reading after writing -/

@[simp] theorem getSow_setSow_same (s : State) (die : Nat) (e : SowEngine) : getSow (setSow s die e) die = e := spGet_set_same _ _ _ _

/-! ## SOWCTL -/

theorem sowctlWrite_runs (hd : die < 4) (v : Word) : exec (.sowctlWrite die v) s = .next (sowctlWrite s die v) :=
  congrArg Host.Outcome.next (if_pos hd)

/-- A stopped engine takes the fields, and starts at FIRST where EN is set. -/
theorem getSow_sowctlWrite_stopped (he : (getSow s die).en = false) : getSow (sowctlWrite s die v) die = { getSow s die with
    gate := field v 63 55, ahead := if 1 ≤ field v 54 51 ∧ field v 54 51 ≤ 8 then field v 54 51 else (getSow s die).ahead
    first := field v 47 36, last := field v 35 24, period := field v 23 8, en := bitOf v 0
    next := if bitOf v 0 then field v 47 36 else (getSow s die).next } := by
  simp only [sowctlWrite, he, getSow_setSow_same, Bool.and_eq_true, decide_eq_true_eq, Bool.false_eq_true, if_false]
  cases bitOf v 0 <;> rfl

theorem sowctlWrite_clears (he : (getSow s die).en = true) (hv : bitOf v 0 = false) :
    sowctlWrite s die v = setSow s die { getSow s die with en := false } := by simp [sowctlWrite, he, hv]

theorem sowctlWrite_ignored (he : (getSow s die).en = true) (hv : bitOf v 0 = true) : sowctlWrite s die v = s := by
  simp [sowctlWrite, he, hv]

/-! ## Schedule entries -/

/-- An engine with an entry in a place of its schedule. -/
def entryPut (s : State) (die n : Nat) (x : SowEntry) : State :=
  setSow s die { getSow s die with entries := spSet {} (getSow s die).entries n x }

@[simp] theorem getEntry_entryPut (s : State) (die n : Nat) (x : SowEntry) : getEntry (getSow (entryPut s die n x) die) n = x := by
  rw [entryPut, getSow_setSow_same, getEntry]; exact spGet_set_same _ _ _ _

/-- Entry n is not running. -/
def NotRunning (e : SowEngine) (n : Nat) : Prop := ∀ r ∈ e.running, r.entry ≠ n

theorem running_any (h : NotRunning e n) : e.running.any (fun r => r.entry == n) = false :=
  List.any_eq_false.2 (fun r hr => by simpa using h r hr)

theorem sowEntryWrite_runs {ws : List Word} (hd : die < 4) (hn : n < 4096) (hl : ws.length = 8) :
    exec (.sowEntryWrite die n ws) s = .next (entryWrite s die n (ws.map (·.toNat))) := by
  have h : (decide (die < 4) && decide (n < 4096) && ws.length == 8) = true := by simp [hd, hn, hl]
  exact congrArg Host.Outcome.next (if_pos h)

theorem entryWrite_invalid {w : List Nat} (hr : NotRunning (getSow s die) n) (hv : enV w = false) :
    entryWrite s die n w = entryPut s die n { words := w, valid := false, pages := [] } := by
  simp only [entryWrite, running_any hr, hv, Bool.not_false, Bool.false_eq_true, if_false, if_true]
  rfl

theorem entryWrite_valid {w : List Nat} {ps : List SowPage} {s1 : State} (hr : NotRunning (getSow s die) n) (hv : enV w = true)
    (hw : sowWalks s die w = (.inr ps, s1)) (hp : heldPages (getSow s die) n + ps.length ≤ 32768) :
    entryWrite s die n w = entryPut s1 die n { words := w, valid := true, pages := ps } := by
  simp only [entryWrite, running_any hr, hv, hw, Bool.not_true, Bool.false_eq_true, if_false]
  exact if_pos hp

/-- An entry with a page that no walk finds is stored invalid, and SOWSTAT names it. -/
theorem entryWrite_failed {w : List Nat} {st : Nat} {s1 : State} (hr : NotRunning (getSow s die) n) (hv : enV w = true)
    (hw : sowWalks s die w = (.inl st, s1)) : entryWrite s die n w =
      setSow (entryPut s1 die n { words := w, valid := false, pages := [] }) die
        { getSow (entryPut s1 die n { words := w, valid := false, pages := [] }) die with errEnt := n, errSt := st } := by
  simp only [entryWrite, running_any hr, hv, hw, Bool.not_true, Bool.false_eq_true, if_false]
  rfl

/-! ## The start of an entry -/

theorem sowEntryStart_runs (hd : die < 4) : exec (.sowEntryStart die) s = .next (sowStart s die) :=
  congrArg Host.Outcome.next (if_pos hd)

theorem sowSeek_valid (k : Nat) (h : (getEntry e e.next).valid = true) : sowSeek k e = e := by
  cases k with
  | zero => rfl
  | succ k => rw [sowSeek, if_pos h]

/-- No running entry is the one at NEXT, and none shares a target with it. -/
def NoConflict (s : State) (e : SowEngine) : Prop :=
  ∀ r ∈ e.running, r.entry ≠ e.next ∧ sowShares s (getEntry e r.entry).words (getEntry e e.next).words = false

theorem conflict_any (h : NoConflict s e) : e.running.any (fun r => r.entry == e.next ||
    sowShares s (getEntry e r.entry).words (getEntry e e.next).words) = false := by
  refine List.any_eq_false.2 (fun r hr => ?_)
  obtain ⟨hne, hs⟩ := h r hr
  simp [hne, hs]

theorem sowReached_of_gate {t : Nat} (hg : e.gate < 320) (hen : (getGate s (gateKey die e.gate)).en = true)
    (hr : genReached (sowCopy s die (gateKey die e.gate)) (BitVec.ofNat 32 t) = true) : sowReached s die e t = true := by
  simp [sowReached, hg, hen, hr]

/-- The entry at NEXT starts. -/
theorem sowStart_starts (he : (getSow s die).en = true) (hredo : (getSow s die).redos = []) (hh : coresHold s = false)
    (hv : (getEntry (getSow s die) (getSow s die).next).valid = true)
    (hr : sowReached s die (getSow s die) (enTrigger (getSow s die) (getEntry (getSow s die) (getSow s die).next).words + 2 ^ 32 -
      (getSow s die).ahead) = true) (hl : (getSow s die).running.length < 8) (hc : NoConflict s (getSow s die)) :
    sowStart s die = setSow s die (sowAdvance { getSow s die with running := (getSow s die).running ++
      [startRun s (getEntry (getSow s die) (getSow s die).next).words (getSow s die).next
        (enTrigger (getSow s die) (getEntry (getSow s die) (getSow s die).next).words) false] }) := by
  simp only [sowStart, hh, hredo, he, sowSeek_valid 4096 hv, hv, hr, hl, conflict_any hc, Bool.false_eq_true, if_false, List.isEmpty_nil,
    Bool.not_true, Bool.not_false, decide_true, Bool.and_self, if_true]

/-- NEXT moves on, and BASE with it at the end of the schedule. -/
theorem sowAdvance_eq (e : SowEngine) : sowAdvance e = { e with
    next := if e.next = e.last then e.first else (e.next + 1) % 4096
    base := if e.next = e.last then (e.base + e.period) % 2 ^ 32 else e.base } := by
  unfold sowAdvance; split <;> rfl

/-! ## SOWREDO -/

theorem sowredo_runs (hd : die < 4) (hn : n < 4096) : exec (.sowredo die n) s = .next (sowRedo s die n) := by
  have h : (decide (die < 4) && decide (n < 4096)) = true := by simp [hd, hn]
  exact congrArg Host.Outcome.next (if_pos h)

/-- The engine with entry n waiting to be started again. -/
def redoAsked (s : State) (die n : Nat) : State := setSow s die { getSow s die with redos := [n] }

theorem sowRedo_eq (hv : (getEntry (getSow s die) n).valid = true) (hr : NotRunning (getSow s die) n) (hredo : (getSow s die).redos = [])
    (hh : coresHold s = false) : sowRedo s die n = redoNext (redoAsked s die n) die := by
  have hstay : (!(getEntry (getSow s die) n).valid || (getSow s die).running.any (fun r => r.entry == n) ||
      (getSow s die).redos.contains n) = false := by rw [hv, running_any hr, hredo]; rfl
  have hhold (x : SowEngine) : coresHold (setSow s die x) = false := hh
  unfold sowRedo
  dsimp only
  rw [hstay, if_neg (by decide), hhold, if_neg (by decide), hredo]
  rfl

theorem redoNext_asked (hv : (getEntry (getSow s die) n).valid = true) (hr : NotRunning (getSow s die) n) :
    redoNext (redoAsked s die n) die =
      if 8 ≤ (getSow s die).running.length then redoAsked s die n
      else setSow (redoAsked s die n) die { getSow s die with
        redos := [], running := (getSow s die).running ++
          [startRun s (getEntry (getSow s die) n).words n (enTrigger (getSow s die) (getEntry (getSow s die) n).words) true] } := by
  have he : getEntry { getSow s die with redos := [n] } n = getEntry (getSow s die) n := rfl
  simp only [redoNext, redoAsked, getSow_setSow_same, he, hv, running_any hr, Bool.not_true, Bool.or_self, Bool.false_eq_true, if_false]
  rfl

end Sys2Proof.Machine
end

section
/-!
PROOFS. What the fetches of a sowing engine leave unchanged: all but bulk memory, the counters of errors and the recorder (07 R280–R283;
08 R318–R321).
-/

namespace Sys2Proof.Machine

variable {s : State}

/-! ## Bulk memory and flash -/

/-- What an access to bulk memory or flash leaves alone: all but bulk memory, the counters of errors and the recorder. -/
def besideBulk (s : State) : State × Sparse Core := ({ besideAccess s with bulk := {} }, s.cores)

theorem besideBulk_of_access {s1 : State} (h : besideAccess s1 = besideAccess s) (hc : s1.cores = s.cores) :
    besideBulk s1 = besideBulk s := by rw [besideBulk, h, hc]; rfl

theorem besideBulk_reportUncorr (s : State) (kind source : Nat) (l : List Nat) : besideBulk (reportUncorr s kind source l) = besideBulk s :=
  besideBulk_of_access (besideAccess_reportUncorr _ _ _ _) (reportUncorr_cores _ _ _ _)

theorem besideBulk_countCorrBulk (s : State) (i n : Nat) : besideBulk (countCorrBulk s i n) = besideBulk s := by
  unfold countCorrBulk; split <;> rfl

theorem besideBulk_withBulk (s : State) (m : Mem) : besideBulk { s with bulk := m } = besideBulk s := rfl

theorem besideBulk_bulkRead (s : State) (pa n : Nat) : besideBulk (bulkRead s pa n).st = besideBulk s := by
  rw [bulkRead, besideBulk_countCorrBulk, besideBulk_reportUncorr, besideBulk_withBulk]

theorem besideBulk_bulkWrite (s : State) (p : Bool) (pa : Nat) (bs : List Byte) : besideBulk (bulkWrite s p pa bs) = besideBulk s := by
  rw [bulkWrite, besideBulk_countCorrBulk, besideBulk_reportUncorr, besideBulk_withBulk]

theorem besideBulk_flashRead (s : State) (a n : Nat) : besideBulk (flashRead s a n).st = besideBulk s := by
  simp only [flashRead]
  split
  · exact besideBulk_reportUncorr _ _ _ _
  · rfl

/-- A Drill read that uses no cache. -/
theorem besideBulk_drillLoad (s : State) (c pa slot n : Nat) : besideBulk (drillLoad s c pa slot n false).st = besideBulk s :=
  besideBulk_bulkRead s pa n

/-! ## Walks -/

theorem besideBulk_plainFrom (space va k table : Nat) (s : State) : besideBulk (plainFrom space va k table s).2 = besideBulk s := by
  induction k generalizing table s with
  | zero => rfl
  | succ k ih =>
    have hr (pa : Nat) := besideBulk_bulkRead s pa 8
    simp only [plainFrom]
    split
    · exact hr _
    · split
      · exact hr _
      · split
        · split <;> exact hr _
        · split
          · exact hr _
          · exact (ih _ _).trans (hr _)

theorem besideBulk_plainWalk (s : State) (root : Word) (space va : Nat) : besideBulk (plainWalk s root space va).2 = besideBulk s := by
  unfold plainWalk
  split
  · exact besideBulk_plainFrom _ _ _ _ _
  · rfl

theorem besideBulk_markLeaf (s : State) (pa : Nat) (dirty : Bool) (w : Word) : besideBulk (markLeaf s pa dirty w).2 = besideBulk s := by
  unfold markLeaf
  dsimp only
  generalize w ||| word (2 ^ 49) ||| (if dirty then word (2 ^ 48) else 0) = w'
  by_cases h : w' = w
  · rw [if_pos h]
  · rw [if_neg h]
    dsimp only
    split
    · exact besideBulk_bulkRead _ _ _
    · exact (besideBulk_bulkWrite _ _ _ _).trans (besideBulk_bulkRead _ _ _)

theorem besideBulk_sowWalk (s : State) (die va : Nat) : besideBulk (sowWalk s die va).2 = besideBulk s := by
  have hw := besideBulk_plainWalk s (sowRootWord s die (aTag va)) (aTag va) (va % 2 ^ 48)
  simp only [sowWalk]
  split
  · next h => rw [h] at hw; exact hw
  · next h => rw [h] at hw; exact hw
  · next h => rw [h] at hw; exact (besideBulk_markLeaf _ _ _ _).trans hw

/-! ## Pages -/

theorem besideBulk_imageRead {c off n : Nat} {p : Place} {g : DGot} (hp : p.cached = false) (h : imageRead s c p off n = some g) :
    besideBulk g.st = besideBulk s := by
  unfold imageRead at h
  obtain ⟨-, h⟩ := Option.ite_none_left_eq_some.1 h
  rw [← Option.some.inj h]
  refine foldl_keeps (fun g : DGot => besideBulk g.st) (fun g x => ?_) _ _
  dsimp only
  split
  · exact besideBulk_flashRead _ _ _
  · rw [hp]; exact besideBulk_drillLoad _ _ _ _ _

theorem besideBulk_imageDecode (s : State) (c : Nat) {p : Place} (hp : p.cached = false) :
    besideBulk (imageDecode s c p).2 = besideBulk s := by
  unfold imageDecode
  split
  · rfl
  · next ix hix =>
    refine (foldl_keeps (fun x : (List Byte × List Bool × Nat) × State => besideBulk x.2) (fun x i => ?_) _ _).trans
      (besideBulk_imageRead hp hix)
    dsimp only
    generalize hgot : @ite (Option DGot) (_ = true) (instDecidableEqBool _ true) none (imageRead x.2 c p _ _) = got
    cases got with
    | none => rfl
    | some g =>
      have hg := besideBulk_imageRead hp (Option.ite_none_left_eq_some.1 hgot).2
      dsimp only
      split <;> exact hg

theorem besideBulk_pageRead (s : State) (unpack : Bool) (p : SowPage) (off n : Nat) :
    besideBulk (pageRead s unpack p off n).2.2 = besideBulk s := by
  unfold pageRead
  dsimp only
  split
  · exact besideBulk_imageDecode s 0 rfl
  · split
    · next g hg => exact besideBulk_imageRead rfl hg
    · rfl

end Sys2Proof.Machine
end

section
/-!
PROOFS. Schedule entries that run: delivery, the end in error, SOWREDO (08 R319–R321).
-/

namespace Sys2Proof.Machine

variable {s : State} {c die n : Nat} {ws : List Nat} {bs : List Byte} {ps : List Bool} {r : SowRun}

/-! ## The fetch -/

theorem besideBulk_sowPage (die : Nat) (ws : List Nat) (again : Bool) (r : SowData) (p : SowPage × Nat) :
    besideBulk (sowPage die ws again r p).st = besideBulk r.st := by
  have hw : besideBulk (if again then sowWalk r.st die (enSrc ws / 65536 * 65536 + 65536 * p.2) else (.inr p.1, r.st)).2 =
      besideBulk r.st := by
    split
    · exact besideBulk_sowWalk _ _ _
    · rfl
  unfold sowPage
  dsimp only
  generalize (if again then sowWalk r.st die (enSrc ws / 65536 * 65536 + 65536 * p.2) else (.inr p.1, r.st)) = w at hw
  obtain ⟨found | found, s1⟩ := w
  · split
    · rfl
    · exact hw
  · split
    · rfl
    · dsimp only
      split
      · exact hw
      · exact (besideBulk_pageRead _ _ _ _ _).trans hw

theorem besideBulk_sowFetch (s : State) (die : Nat) (x : SowEntry) (again : Bool) : besideBulk (sowFetch s die x again).st = besideBulk s :=
  foldl_keeps (fun r : SowData => besideBulk r.st) (fun _ _ => besideBulk_sowPage _ _ _ _ _) _ _

theorem besideBulk_sowDemand (s : State) (die : Nat) (x : SowEntry) (redo : Bool) : besideBulk (sowDemand s die x redo).st = besideBulk s := by
  simp only [sowDemand]
  split <;> exact besideBulk_sowFetch _ _ _ _

theorem grid_of_besideBulk {s1 : State} (h : besideBulk s1 = besideBulk s) : s1.grid = s.grid := congrArg (fun x => x.1.grid) h

theorem getSow_of_besideBulk {s1 : State} (h : besideBulk s1 = besideBulk s) (die : Nat) : getSow s1 die = getSow s die :=
  congrArg (fun x => getSow x.1 die) h

theorem sowCores_of_grid {s1 : State} (h : s1.grid = s.grid) (t : SowTarget) : sowCores s1 t = sowCores s t := by
  simp only [sowCores, allCores, isHole, fenceOf, h]

/-! ## The delivery -/

theorem besideAccess_latchPut (s : State) (c a : Nat) (data : List Byte) (p : Bool) :
    besideAccess (latchPut s false c a data p) = besideAccess s := by
  unfold latchPut
  split
  · rfl
  · rw [besideAccess_serve, latchWrite, besideAccess_setCoreMem]

theorem getSow_besideAccess (s : State) (die : Nat) : getSow (besideAccess s) die = getSow s die := rfl

theorem getSow_of_besideAccess {s1 : State} (h : besideAccess s1 = besideAccess s) (die : Nat) : getSow s1 die = getSow s die := by
  rw [← getSow_besideAccess, h, getSow_besideAccess]

/-- An ST.PUT where nobody waits leaves every byte outside its word. -/
theorem latchPut_byte_outside {a x : Nat} {data : List Byte} (ha : a % 8 = 0) (hh : latchHeld s c = false)
    (hl : (getCore s c).mem.latch = []) (hx : x < a ∨ a + 8 ≤ x) (hd : data.length = 8) :
    (getCore (latchPut s false c a data false) c).mem.localMem.byte x = (getCore s c).mem.localMem.byte x := by
  have hwrite : latchWrite s false c (a / 8) data false true =
      setCoreMem s false c (((coreMem s false c).setBytes a data).setMark (a / 8) { poison := false, full := true, ecc := .clean }) := by
    rw [latchWrite, if_neg (by decide), takeBytes_eq_take (le_of_eq hd.symm), List.take_of_length_le (le_of_eq hd),
      show 8 * (a / 8) = a by omega]
  rw [latchPut, hh, if_neg (by decide), getCore_serve_alone (by rw [hwrite, latch_setCoreMem, hl])
    (by rw [hwrite, coreMem_setCoreMem_same, setMark_mark_same]; decide), hwrite, getCore_setLocal_same]
  exact setBytes_byte_outside _ _ _ (by rwa [hd])

/-- The data of an entry written at DST of one core, and its trigger put in the latch word there. -/
def landed (s : State) (c : Nat) (ws : List Nat) (trigger : Nat) (bs : List Byte) (ps : List Bool) : State :=
  latchPut (writeRun (fun s p a b => coreWrite s false c p a b) (enDst ws) bs ps s) false c (enLword ws) (toBytes 8 trigger) false

/-- A delivery to LOCAL of one core, neither by tiles nor skewed. -/
theorem sowDeliver_one {trigger : Nat} (hc : sowCores s (enTarget ws) = [c]) (ht : enTile ws = false) (hk : enSkew ws = false)
    (hg : enGran ws = false) : sowDeliver s ws trigger bs ps true = landed s c ws trigger bs ps := by
  have hfree (tc : Nat) : sowRefused s false false (enDst ws + enLen ws) tc = false := rfl
  simp only [sowDeliver, hc, ht, hk, hg, hfree, List.filter_cons, List.filter_nil, Bool.not_false, if_true, Bool.false_eq_true, if_false,
    List.foldl_cons, List.foldl_nil, Nat.add_zero]
  rfl

theorem quietMem_alone (h : (getCore s c).mem.latch = []) (gran : Bool) : quietMem s gran c :=
  fun x hx => by rw [h] at hx; exact absurd hx List.not_mem_nil

theorem besideAccess_landed (s : State) (c : Nat) (ws : List Nat) (trigger : Nat) (bs : List Byte) (ps : List Bool) :
    besideAccess (landed s c ws trigger bs ps) = besideAccess s := by
  rw [landed, besideAccess_latchPut, besideAccess_writeRun]

/-- What a delivery of whole words leaves: the data at DST, and the trigger in the latch word, full. -/
theorem landed_effect {trigger : Nat} (hl : (getCore s c).mem.latch = []) (hh : latchHeld s c = false) (hw : enLword ws % 8 = 0)
    (hb : bs.length % 8 = 0) (hd : enDst ws % 8 = 0) (hp : ∀ b ∈ ps, b = false)
    (hapart : enLword ws + 8 ≤ enDst ws ∨ enDst ws + bs.length ≤ enLword ws) :
    let m := (getCore (landed s c ws trigger bs ps) c).mem.localMem
    (∀ i, i < bs.length → m.byte (enDst ws + i) = bs.getD i 0) ∧ (m.mark (enLword ws / 8)).full = true ∧
      ofBytes (m.getBytes (enLword ws) 8) = trigger % 2 ^ 64 := by
  have hlen : bs.length = 8 * (bs.length / 8) := by omega
  obtain ⟨m, hnow, hin, -⟩ := putWords_local (i := 0) (k := bs.length / 8) hd (by omega) (quietMem_alone hl false) (bs := bs)
  have hrun := writeRun_words (put := fun s p a b => coreWrite s false c p a b) hd hlen hp s
  rw [← hrun] at hnow
  generalize hs1 : writeRun (fun s p a b => coreWrite s false c p a b) (enDst ws) bs ps s = s1 at hnow
  have hl1 : (getCore s1 c).mem.latch = [] := by rw [hnow.core]; exact hl
  have hh1 : latchHeld s1 c = false := by rw [latchHeld, hnow.core]; exact hh
  obtain ⟨m2, hfull, hbytes, hcore, -⟩ := latchPut_effect hw (toBytes_length 8 trigger) hh1 hl1
  rw [landed, hs1]
  refine ⟨fun i hi => ?_, ?_, ?_⟩
  · rw [latchPut_byte_outside hw hh1 hl1 (by omega) (toBytes_length 8 trigger), hnow.core]
    refine (hin i (by omega) (by omega)).trans ?_
    rw [List.getD_eq_getElem _ _ hi]
    exact getElem_congr_idx (Nat.zero_add i)
  · rw [hcore]; exact hfull
  · rw [hcore]
    exact (congrArg ofBytes hbytes).trans (ofBytes_toBytes_mod 8 trigger)

/-! ## The end of an entry -/

theorem sowEntryComplete_runs (hd : die < 4) : exec (.sowEntryComplete die n) s = .next (sowComplete s die n) :=
  congrArg Host.Outcome.next (if_pos hd)

theorem running_endRun (s : State) (die n : Nat) :
    (getSow (endRun s die n) die).running = (getSow s die).running.filter (fun r => r.entry != n) := by
  rw [endRun, getSow_setSow_same]

/-- A run that changes or ends leaves every core. -/
theorem getCore_endRun (s : State) (die n : Nat) (d : Nat) : getCore (endRun s die n) d = getCore s d := rfl

theorem getCore_updRun (s : State) (die n : Nat) (f : SowRun → SowRun) (d : Nat) : getCore (updRun s die n f) d = getCore s d := rfl

/-- A change of one run that keeps its entry's number goes with the run. -/
theorem running_updRun_endRun (s : State) (die n : Nat) {f : SowRun → SowRun} (hf : ∀ r, (f r).entry = r.entry) :
    (getSow (endRun (updRun s die n f) die n) die).running = (getSow s die).running.filter (fun r => r.entry != n) := by
  rw [running_endRun, updRun, getSow_setSow_same, List.filter_map]
  have hkeep : (fun r : SowRun => r.entry != n) ∘ (fun r => if r.entry == n then f r else r) = fun r => r.entry != n := by
    funext r
    simp only [Function.comp_apply]
    split
    · rw [hf]
    · rfl
  rw [hkeep]
  refine (List.map_congr_left (fun r hr => ?_)).trans (List.map_id _)
  have hne := (List.mem_filter.1 hr).2
  rw [if_neg (by simpa using hne), id_eq]

theorem sowFinish_noArrival (h : enGA ws = false) : sowFinish s die r ws = endRun s die r.entry := by
  simp [sowFinish, h]

theorem sowComplete_delivered (hr : (getSow s die).running.find? (fun r => r.entry == n) = some r) (hh : coresHold s = false)
    (h0 : r.status = 0) (hd : r.delivered = true) (hga : enGA (getEntry (getSow s die) n).words = false) :
    sowComplete s die n = endRun s die r.entry := by
  simp only [sowComplete, hr, h0, hh, hd, if_true, bne_self_eq_false, Bool.or_self, Bool.false_eq_true, if_false]
  exact sowFinish_noArrival hga

/-- An entry reached, whose fetch is good, delivers its data and ends. -/
theorem sowComplete_delivers {f : SowData} (hr : (getSow s die).running.find? (fun r => r.entry == n) = some r) (hh : coresHold s = false)
    (h0 : r.status = 0) (hd : r.delivered = false) (hga : enGA (getEntry (getSow s die) n).words = false)
    (hdue : r.redo = true ∨ sowReached s die (getSow s die) r.trigger = true)
    (hf : sowDemand s die (getEntry (getSow s die) n) r.redo = f) (hst : f.status = 0)
    (hcut : treeCut s (getEntry (getSow s die) n) = false) (hg : enGran (getEntry (getSow s die) n).words = false) :
    sowComplete s die n = endRun (updRun (sowDeliver f.st (getEntry (getSow s die) n).words r.trigger f.data f.pois true) die n
      (fun r => { r with delivered := true })) die r.entry := by
  have hdemand : (r.redo || sowReached s die (getSow s die) r.trigger) = true := by simpa using hdue
  have hfree (s1 : State) (l : List Nat) (hi : Nat) : l.any (sowRefused s1 false false hi) = false :=
    List.any_eq_false.2 (fun _ _ => by simp [sowRefused])
  simp only [sowComplete, hr, h0, hh, hd, hdemand, hf, hst, hcut, hg, hfree, if_true, bne_self_eq_false, Bool.or_self, Bool.not_true,
    Bool.false_and, Bool.false_eq_true, if_false]
  exact sowFinish_noArrival hga

theorem sowEntryError_runs (hd : die < 4) : exec (.sowEntryError die n) s = .next (sowError s die n) :=
  congrArg Host.Outcome.next (if_pos hd)

theorem sowError_fields (hr : (getSow s die).running.find? (fun r => r.entry == n) = some r) (hh : coresHold s = false)
    (h0 : r.status ≠ 0) : sowError s die n = sowReport s die n r.status := by
  have hne : (r.status != 0) = true := bne_iff_ne.2 h0
  simp only [sowError, hr, hh, hne, Bool.false_eq_true, if_false, if_true]

/-- An end in error: SOWSTAT names the entry and its status, and the control cluster is interrupted. -/
theorem sowReport_effect (s : State) (die n st : Nat) : getSow (sowReport s die n st) die =
      { getSow (endRun s die n) die with errEnt := n, errSt := st } ∧
    (sowReport s die n st).ints = s.ints ++ [.sowError die n] ∧ (sowReport s die n st).cores = s.cores := by
  refine ⟨?_, ?_, ?_⟩
  · exact (getSow_of_besideAccess (besideAccess_sendEvent _ _) die).trans (getSow_setSow_same _ _ _)
  · exact congrArg (· ++ [ClusterInt.sowError die n]) (sendEvent_ints _ _)
  · exact sendEvent_cores _ _

/-! ## The statement -/

/-- Settles O48: each command by what it leaves of its engine; a delivery by what it leaves of its target. -/
theorem sowingEntriesRun : Obligations.SowingEntriesRun := by
  unfold Obligations.SowingEntriesRun
  intro s die hdie e
  refine ⟨fun v => ⟨fun he => ?stopped, fun he hv => ?clears, fun he hv => ?ignored⟩, fun n ws hn hl hr => ?entry, ?start,
    fun n hn hv hr hredo hh => ?redo, fun n r hr hh => ?run⟩
  case stopped => exact ⟨_, sowctlWrite_runs hdie v, getSow_sowctlWrite_stopped he⟩
  case clears => exact ⟨_, sowctlWrite_runs hdie v, by rw [sowctlWrite_clears he hv]; exact getSow_setSow_same _ _ _⟩
  case ignored => rw [sowctlWrite_runs hdie v, sowctlWrite_ignored he hv]
  case entry =>
    have hex := sowEntryWrite_runs (s := s) hdie hn hl
    refine ⟨fun hv => ⟨_, hex, ?_⟩, fun pages s1 hv hw hp => ⟨_, hex, ?_⟩, fun st s1 hv hw => ⟨_, hex, ?_⟩⟩
    · rw [entryWrite_invalid hr hv]; exact getEntry_entryPut _ _ _ _
    · rw [entryWrite_valid hr hv hw hp]; exact getEntry_entryPut _ _ _ _
    · rw [entryWrite_failed hr hv hw]
      dsimp only
      rw [getSow_setSow_same]
      exact ⟨getEntry_entryPut s1 die n _, rfl, rfl⟩
  case start =>
    intro x t he hredo hh hv hg hen hreach hlen hc
    refine ⟨_, sowEntryStart_runs hdie, ?_⟩
    rw [sowStart_starts he hredo hh hv (sowReached_of_gate hg hen hreach) hlen hc, sowAdvance_eq]
    exact getSow_setSow_same _ _ _
  case redo =>
    refine ⟨fun h8 => ⟨_, sowredo_runs hdie hn, ?_⟩, fun h8 => ⟨_, sowredo_runs hdie hn, ?_⟩⟩ <;>
      rw [sowRedo_eq hv hr hredo hh, redoNext_asked hv hr]
    · rw [if_pos h8]; exact getSow_setSow_same _ _ _
    · rw [if_neg (Nat.not_le.2 h8), ← hredo]; exact getSow_setSow_same _ _ _
  case run =>
    have hn : r.entry = n := by simpa using List.find?_some hr
    refine ⟨fun h0 hd hga => ⟨_, sowEntryComplete_runs hdie, ?delivered⟩,
      fun h0 hd hga hdue f c hf hst hcut hc ht hk hg hl hheld hw hb hdst hp hapart => ⟨_, sowEntryComplete_runs hdie, ?delivers⟩, fun h0 => ⟨_, sowEntryError_runs hdie, ?fails⟩⟩
    case delivered =>
      rw [sowComplete_delivered hr hh h0 hd hga, hn]
      exact running_endRun s die n
    case delivers =>
      have hfetch : besideBulk f.st = besideBulk s := hf ▸ besideBulk_sowDemand s die _ _
      have hcores := (sowCores_of_grid (grid_of_besideBulk hfetch) _).trans hc
      rw [sowComplete_delivers hr hh h0 hd hga hdue hf hst hcut hg, hn, sowDeliver_one hcores ht hk hg]
      dsimp only
      rw [getCore_endRun, getCore_updRun]
      refine ⟨?_, landed_effect hl hheld hw hb hdst hp hapart⟩
      refine (running_updRun_endRun _ die n (f := fun r => { r with delivered := true }) (fun _ => rfl)).trans ?_
      rw [getSow_of_besideAccess (besideAccess_landed _ _ _ _ _ _),
        getSow_of_besideBulk hfetch]
    case fails =>
      rw [sowError_fields hr hh h0]
      obtain ⟨hsow, hints, hcores⟩ := sowReport_effect s die n r.status
      dsimp only
      rw [hsow]
      exact ⟨running_endRun s die n, rfl, rfl, hints, hcores⟩

end Sys2Proof.Machine
end
